-- ==== Sys2Proof/Word.lean ====
section
/-! DEFINITION. The words of the SX20 and the operand types its commands carry: register widths, host ports
and functions, the header of a request, what a read of host memory returned, and the operand fields of core
instructions. -/

namespace Sys2Proof

/-- One byte. -/
abbrev Byte := BitVec 8
/-- A 16-bit element: an INT16 or BF16 element, or a hatch register. -/
abbrev Half := BitVec 16
/-- A 32-bit register or FP32 element (R7, R39). -/
abbrev Word := BitVec 32
/-- A 64-bit register. -/
abbrev DWord := BitVec 64
/-- A vector register, or one column of an accumulator tile: 1,024 bits (R29). -/
abbrev Vec := BitVec 1024
/-- A K4 code table: 16 entries of 8 bits (R29, R34). -/
abbrev KTable := BitVec 128

/-- The two host ports (R334). -/
inductive Port where
  | a
  | b
  deriving DecidableEq, Repr

/-- Port number: 0 for A, 1 for B (R439). -/
def Port.idx : Port → Nat
  | .a => 0
  | .b => 1

/-- The other host port. -/
def Port.other : Port → Port
  | .a => .b
  | .b => .a

/-- A function of a port: 0 the physical function, 1 to 63 the virtual functions (R334). -/
structure Fn where
  port : Port
  num : Fin 64
  deriving DecidableEq, Repr

/-- One number for each function: port A's 0 to 63, port B's 64 to 127. -/
def Fn.key (f : Fn) : Nat := f.port.idx * 64 + f.num.val

/-- The physical function of a port. -/
def Port.pf (p : Port) : Fn := ⟨p, 0⟩

/-- Whether a function is the physical function of its port. -/
def Fn.isPf (f : Fn) : Bool := f.num = 0

/-- The header of a request entry (R341). `stray` is the entry byte of the first reserved header byte, SESSION of a
request that names none among them, or byte of the entry's unused part, that is not zero; `none` when there is none. `noWrite` says that a write to the host buffers it
names for results completes with an error or finds no translation (R334, R351). -/
structure Req where
  fn : Fn
  tag : Word
  session : DWord
  admin : Bool
  onBehalf : Fin 64
  stray : Option Nat
  noWrite : Bool := false
  deriving DecidableEq, Repr

/-- The function whose identity a request acts under (R341): the function named in ON_BEHALF under ADMIN, and
otherwise the function itself. -/
def Req.identity (r : Req) : Fn := if r.admin then ⟨r.fn.port, r.onBehalf⟩ else r.fn

/-- What a read of host memory answered: the access failed (DMA_FAULT of R351), or its bytes. -/
inductive Dma where
  | fault
  | data (bytes : List Byte)
  deriving DecidableEq, Repr

/-- Element formats of the Format field (R72). -/
inductive Fmt where
  | fp32
  | bf16
  | e4m3
  | e5m2
  | k4
  | int16
  deriving DecidableEq, Repr

/-- The two F8 encodings (R38). -/
inductive F8 where
  | e4m3
  | e5m2
  deriving DecidableEq, Repr

/-- The format of the b operand of MMA.K4 and MMA.K4S (R44, R71). -/
inductive BFmt where
  | k4
  | e4m3
  | e5m2
  deriving DecidableEq, Repr

/-- An address field of a bundle (R72, R73): a base, and the number of an address expression, 0 for none. The
base counts bytes, 64-byte lines, or lines of the sliver, as the field says. -/
structure PAddr where
  base : Nat
  expr : Fin 256
  deriving DecidableEq, Repr

/-- The lane mask of a vector instruction: no mask, or the scalar register that holds it (R32, R72). -/
abbrev Mask := Option (Fin 16)

/-- Where a reduction writes its one result (R59): a scalar register, or a lane of a vector register. -/
inductive RedDest where
  | scalar (d : Fin 16)
  | lane (d : Fin 32) (i : Fin 32)
  deriving DecidableEq, Repr

/-- The second operand of a scalar instruction: a register or a 32-bit immediate (R59, R72). -/
inductive SOperand where
  | reg (r : Fin 16)
  | imm (v : Word)
  deriving DecidableEq, Repr

/-- One end of a colonnade transfer (R78): a core's pane store at a 64-byte line. -/
structure PanePlace where
  core : Fin 10240
  line : Nat
  deriving DecidableEq, Repr

/-- What a colonnade transfer sends: a core's pane-store data, or data the hub sends (R78, R86). -/
inductive ColSource where
  | pane (p : PanePlace)
  | hub (bytes : List Byte)
  deriving DecidableEq, Repr

/-- The path of a colonnade transfer (R21, R78): over the ring, to higher logical bays or to lower ones, or through the transom
switch from port 0 or 1 of one bay to port 0 or 1 of another. -/
inductive ColPath where
  | ring (up : Bool)
  | transom (outPort inPort : Fin 2)
  deriving DecidableEq, Repr

end Sys2Proof
end

