-- ==== Sys2Proof/Syntax.lean ====
section
/-! DEFINITION. The commands the SX20 takes: one constructor of Instr for each row of the table of operations
and events. The table gives a row no bits and no fields, so a command's operands are those its rule names: what
comes from outside the block, or what the part is left free to choose. -/

namespace Sys2Proof

/-- The two register BARs (R337). -/
inductive Bar where
  | bar0
  | bar4
  deriving DecidableEq, Repr

/-- What a column of a slot delivers for a layer and group (R121, R122): its K row and V row in the bytes of the page
format. In K4, `v` holds the 2,048 bytes of the four V blocks of its 32 positions, `scales` the 4 K scale bytes and then
the 128 V scale bytes, and `recent` its V row in F8 for the recent tile. -/
structure KvRow where
  layer : Nat
  group : Nat
  col : Nat
  k : List Byte
  v : List Byte
  scales : List Byte
  recent : List Byte
  deriving DecidableEq, Repr

/-- What the cores deliver for a batch slot at the end of a frame: the 512-byte candidate record of its sampled column
(R214) and the rows its columns commit (R121). `lost` says that the hub's memory of its candidate records, sampler or
louver state failed (R449). -/
structure SlotResult where
  pav : Fin 80
  slot : Nat
  lost : Bool
  cands : List Byte
  rows : List KvRow
  deriving DecidableEq, Repr

/-- What the cores deliver for a recall scan slot at the end of a frame: the smallest P of each group of
the index, in ascending group order (R241). -/
structure ScanResult where
  pav : Fin 80
  slot : Nat
  minima : List Nat
  deriving DecidableEq, Repr

/-- What a deskew pass measured on one bond line of a core, spare lines included (R427): the steps by which the centre of
its eye lies above its delay element's setting. -/
structure LinePass where
  core : Fin 10240
  line : Fin 1648
  error : Int
  deriving DecidableEq, Repr

/-- The rate of a revive that a part reckons with for a step (R151, R152): the slot, and bytes in each µs. -/
structure LeadRate where
  pav : Fin 80
  slot : Nat
  rate : Nat
  deriving DecidableEq, Repr

/-- The causes of a hold (R98). -/
inductive HoldCause where
  | refresh
  | calibration
  | governor (delay : Nat)
  | clock
  deriving DecidableEq, Repr

/-- An object: its owning function and its number (R132). -/
structure ObjRef where
  owner : Fn
  num : DWord
  deriving DecidableEq, Repr

/-- What resets a port alone (R335). -/
inductive PortResetCause where
  | perst
  | hotReset
  | linkDown
  | pfFlr
  deriving DecidableEq, Repr

/-- A hatch command's fields (R359). `reserved` says that some reserved byte is not zero. -/
structure HcCmd where
  flags : Byte
  quarters : BitVec 4
  d : Word
  a : Word
  b : Word
  c : Word
  lines : Word
  rx : Fin 16
  ry : Fin 16
  rz : Fin 16
  imm : Half
  repeats : Word
  stride : Word
  first : Byte
  reserved : Bool
  deriving DecidableEq, Repr

/-- A line that a hatch command finds uncorrectable (R362). -/
structure HcBad where
  core : Fin 10240
  line : Nat
  deriving DecidableEq, Repr

/-- Where a profile command comes from (R398). -/
inductive ProfileSource where
  | port (p : Port)
  | mgmt
  deriving DecidableEq, Repr

/-- A line whose data was corrected (R452). -/
inductive LinePlace where
  | near (core : Fin 10240) (line : Nat)
  | far (slot line : Nat)
  deriving DecidableEq, Repr

/-- A DRAM element a scrubber found weak (R452, R458). -/
structure RepairElem where
  kind : Nat
  element : Nat
  deriving DecidableEq, Repr

/-- What a scrub read found in a line (R452 to R454). -/
inductive LineRead where
  | corrected
  | uncorrectable
  deriving DecidableEq, Repr

/-- The engines that have a spare (R457). -/
inductive EngineKind where
  | shutter
  | intake
  | louver
  | crypto
  deriving DecidableEq, Repr


/-- A message of a port's secured channel (R318, R328): what sets the channel up, if it does, the XMSS index of the report and
the ML-KEM ciphertext; and the nonce and the sealed bytes of the message. -/
structure Secured where
  setup : Option (DWord × List Byte)
  nonce : List Byte
  data : List Byte
  deriving DecidableEq, Repr

/-- What an IDE_KM message does to a stream (R328). -/
inductive IdeKm where
  | program
  | start
  | stop
  deriving DecidableEq, Repr

/-- The TDISP messages that move an interface (R329). -/
inductive TdispAct where
  | lock
  | start
  | stop
  deriving DecidableEq, Repr

/-- A core's memories (R448). -/
inductive CoreMem where
  | pane
  | registers
  | accumulators
  | bundles
  deriving DecidableEq, Repr

/-- What puts the module in module reset (R470). -/
inductive ResetCause where
  | aonSupply
  | vin48
  | regulator
  | moduleRst
  | farPwrgd
  | vddqFar
  | trip
  deriving DecidableEq, Repr

/-- Instructions of the test access port (R481). -/
inductive TapIns where
  | bypass
  | idcode
  | samplePreload
  | extest
  | clamp
  | highz
  | extestPulse
  | extestTrain
  deriving DecidableEq, Repr

/-- The slow input pins in the order of R420's table; PROFILE_SEL[1:0] counts as one. -/
inductive PinId where
  | perstA
  | perstB
  | profileSel
  | wake
  | pwrcap
  | coolant
  deriving DecidableEq, Repr

/-- What a hub clock monitor found (R438): the PLL off by a number of ppm, the PLL's lock lost, or ACLK off by a number of
ppm. -/
inductive HubClock where
  | pll (ppm : Nat)
  | pllLost
  | aclk (ppm : Nat)
  deriving DecidableEq, Repr

/-- Bits of a directory row that have flipped since it was written (R199, R200): masks over its two key copies, its care mask,
its record and its epochs, and whether VALID flipped. -/
structure DirFlip where
  row : Fin 4194304
  key : BitVec 128 := 0
  key2 : BitVec 128 := 0
  care : BitVec 128 := 0
  record : BitVec 256 := 0
  ins : DWord := 0
  del : DWord := 0
  valid : Bool := false
  deriving DecidableEq, Repr

/-- What a read of a tile's lower copy returned (R140, R325, R326): the sealed bytes that the part last wrote there, other
sealed bytes, or an error of the medium. -/
inductive TierRead where
  | asWritten
  | bytes (b : List Byte)
  | error
  deriving DecidableEq, Repr

/-- What a snapshot writes (R295, R296, R298): the record of a tile, a piece of a shard's index or of the directory shard, the
manifest's body, and the commit record. Objects are given by owner × 2^64 + number. -/
inductive SnapPart where
  | record (obj tile : Nat)
  | piece (shard n : Nat)
  | body
  | commit
  deriving DecidableEq, Repr

/-- A write to a lower tier that is acknowledged or fails (R139, R140, R298, R299): a tile's, or one of a port's snapshot. -/
inductive TierWrite where
  | tile (obj : ObjRef) (tile : Nat)
  | snap (port : Port) (part : SnapPart)
  deriving DecidableEq, Repr

/-- A shard that a restore finds unusable (R302): its epoch and number, with the reason, 1 missing, 2 digest mismatch, 3 seal
failure; reason 4 says that the epoch's commit record is not valid. -/
structure SnapBad where
  epoch : Nat
  shard : Nat
  reason : Fin 5
  deriving DecidableEq, Repr
/-- The commands of the SX20: one constructor for each row of the table of operations and events. -/
inductive Instr where
  /-- MISALIGNED_REGISTER_ACCESS (R7). A BAR0 access that is not a naturally aligned 32-bit access is discarded or reads as zero, and is recorded. -/
  | misalignedRegisterAccess (f : Fn) (off size : Nat) (write : Bool)
  /-- LOW_HALF_READ (R8). A read of the low half of a 64-bit register fills the function's read holding register with the high half and the register's address. -/
  | lowHalfRead (f : Fn) (bar : Bar) (off : Nat)
  /-- LOW_HALF_WRITE (R8). A write of the low half of a 64-bit register is placed in the function's write holding register. -/
  | lowHalfWrite (f : Fn) (bar : Bar) (off : Nat) (v : Word)
  /-- HIGH_HALF_WRITE (R8). A write of the high half of a 64-bit register combines it with the held or current low half, sets the register and empties the write holding register. -/
  | highHalfWrite (f : Fn) (bar : Bar) (off : Nat) (v : Word)
  /-- REGISTER_WRITE (R9). A write to a register with no row of its own sets its fields according to their access codes. -/
  | registerWrite (f : Fn) (bar : Bar) (off : Nat) (v : Word)
  /-- UNDECODED_ACCESS (R487). An access to a BAR0 or BAR4 offset that names no register reads zero, or is discarded and recorded as REGISTER_ACCESS. -/
  | undecodedAccess (f : Fn) (bar : Bar) (off : Nat) (write : Bool)
  /-- VF_BAR0_WRITE (R486). Any BAR0 write by a virtual function is discarded and recorded as REGISTER_ACCESS. -/
  | vfBar0Write (f : Fn) (off size : Nat)
  /-- BAY_ARITH_FLAGS_CLEAR (R63). A write-1-to-clear of BAY_ARITH_FLAGS clears the port's copy of the arithmetic flags, and BAY_ARITH_FIRST invalidates once all flags are clear. -/
  | bayArithFlagsClear (f : Fn) (pbay : Fin 21) (v : Word)
  /-- MMA_K4 (R44). Multiplies a 32x32 K4 block by a K4 or F8 vector and accumulates into one accumulator column, rounded once. -/
  | mmaK4 (k : Fin 10240) (cyc : Nat) (acc : Fin 8) (col : Fin 32) (a scale : PAddr) (bFmt : BFmt) (b : PAddr) (ktA ktB : Fin 8) (z : Bool)
  /-- MMA_K4S (R52). Multiplies a 2:4 paired-sparse K4 block by a 64-element vector and accumulates into one accumulator column. -/
  | mmaK4s (k : Fin 10240) (cyc : Nat) (acc : Fin 8) (col : Fin 32) (a scale : PAddr) (bFmt : BFmt) (b : PAddr) (ktA ktB : Fin 8) (z : Bool)
  /-- MMA_F8 (R44). Multiplies a 32x32 F8 block by an F8 vector and accumulates into one accumulator column. -/
  | mmaF8 (k : Fin 10240) (cyc : Nat) (acc : Fin 8) (col : Fin 32) (a b : PAddr) (aEnc bEnc : F8) (z : Bool)
  /-- MMA_BF16 (R47). Multiplies a 32x32 BF16 block by a BF16 vector with truncated aligned terms and accumulates into one accumulator column. -/
  | mmaBf16 (k : Fin 10240) (cyc : Nat) (acc : Fin 8) (col : Fin 32) (a b : PAddr) (z : Bool)
  /-- ACCRD (R51). Copies an accumulator column into a vector register, optionally converting it to BF16 or F8. -/
  | accrd (k : Fin 10240) (cyc : Nat) (acc : Fin 8) (col : Fin 32) (vd : Fin 32) (fmt : Fmt) (nonsat : Bool)
  /-- VADD (R54). FP32 lane-wise addition on 32 lanes. -/
  | vadd (k : Fin 10240) (cyc : Nat) (vd va vb : Fin 32) (mask : Mask)
  /-- VSUB (R54). FP32 lane-wise subtraction on 32 lanes. -/
  | vsub (k : Fin 10240) (cyc : Nat) (vd va vb : Fin 32) (mask : Mask)
  /-- VMUL (R54). FP32 lane-wise multiplication on 32 lanes. -/
  | vmul (k : Fin 10240) (cyc : Nat) (vd va vb : Fin 32) (mask : Mask)
  /-- VFMA (R54). FP32 fused multiply-add with one rounding on 32 lanes. -/
  | vfma (k : Fin 10240) (cyc : Nat) (vd va vb vc : Fin 32) (mask : Mask)
  /-- VMAX (R54). FP32 lane-wise maximum, NaN if either operand is NaN. -/
  | vmax (k : Fin 10240) (cyc : Nat) (vd va vb : Fin 32) (mask : Mask)
  /-- VMIN (R54). FP32 lane-wise minimum, NaN if either operand is NaN. -/
  | vmin (k : Fin 10240) (cyc : Nat) (vd va vb : Fin 32) (mask : Mask)
  /-- VABS (R54). FP32 lane-wise absolute value. -/
  | vabs (k : Fin 10240) (cyc : Nat) (vd va : Fin 32) (mask : Mask)
  /-- VCVT (R41). Converts vector elements between formats with the stated rounding and saturation, including the FP32 to K4 block rule. -/
  | vcvt (k : Fin 10240) (cyc : Nat) (vd va : Fin 32) (src dst : Fmt) (nonsat : Bool) (kt : Fin 8)
  /-- VADD_I16 (R56). Saturating INT16 addition on 64 lanes. -/
  | vaddI16 (k : Fin 10240) (cyc : Nat) (vd va vb : Fin 32) (mask : Mask)
  /-- VSUB_I16 (R56). Saturating INT16 subtraction on 64 lanes. -/
  | vsubI16 (k : Fin 10240) (cyc : Nat) (vd va vb : Fin 32) (mask : Mask)
  /-- VMUL_I16 (R56). Saturating INT16 multiplication on 64 lanes. -/
  | vmulI16 (k : Fin 10240) (cyc : Nat) (vd va vb : Fin 32) (mask : Mask)
  /-- VMULH_I16 (R56). Returns the upper 16 bits of the exact INT16 product on 64 lanes. -/
  | vmulhI16 (k : Fin 10240) (cyc : Nat) (vd va vb : Fin 32) (mask : Mask)
  /-- VMADD_I16 (R56). Forms a x b + c exactly and saturates once on 64 lanes. -/
  | vmaddI16 (k : Fin 10240) (cyc : Nat) (vd va vb vc : Fin 32) (mask : Mask)
  /-- VSHL_I16 (R56). Saturating INT16 left shift on 64 lanes. -/
  | vshlI16 (k : Fin 10240) (cyc : Nat) (vd va vb : Fin 32) (mask : Mask)
  /-- VSHR_I16 (R56). Arithmetic INT16 right shift on 64 lanes. -/
  | vshrI16 (k : Fin 10240) (cyc : Nat) (vd va vb : Fin 32) (mask : Mask)
  /-- VADD_I16_W (R56). Wrapping INT16 addition on 64 lanes. -/
  | vaddI16W (k : Fin 10240) (cyc : Nat) (vd va vb : Fin 32) (mask : Mask)
  /-- VSUB_I16_W (R56). Wrapping INT16 subtraction on 64 lanes. -/
  | vsubI16W (k : Fin 10240) (cyc : Nat) (vd va vb : Fin 32) (mask : Mask)
  /-- VMUL_I16_W (R56). Wrapping INT16 multiplication on 64 lanes. -/
  | vmulI16W (k : Fin 10240) (cyc : Nat) (vd va vb : Fin 32) (mask : Mask)
  /-- VSUMR (R55). Reduces 32 lanes to one FP32 sum in the fixed pairwise tree. -/
  | vsumr (k : Fin 10240) (cyc : Nat) (rd : RedDest) (va : Fin 32)
  /-- VMAXR (R55). Reduces 32 lanes to one FP32 maximum in the fixed pairwise tree. -/
  | vmaxr (k : Fin 10240) (cyc : Nat) (rd : RedDest) (va : Fin 32)
  /-- VEXP2 (R58). Correctly rounded 2^x on 16 lanes. -/
  | vexp2 (k : Fin 10240) (cyc : Nat) (vd va : Fin 32) (mask : Mask)
  /-- VEXP (R58). Correctly rounded e^x on 16 lanes. -/
  | vexp (k : Fin 10240) (cyc : Nat) (vd va : Fin 32) (mask : Mask)
  /-- VEXPSUB (R58). Correctly rounded e^(x - m) with x - m formed exactly. -/
  | vexpsub (k : Fin 10240) (cyc : Nat) (vd va vm : Fin 32) (mask : Mask)
  /-- VRCP (R58). Correctly rounded reciprocal on 16 lanes. -/
  | vrcp (k : Fin 10240) (cyc : Nat) (vd va : Fin 32) (mask : Mask)
  /-- VRSQRT (R58). Correctly rounded reciprocal square root on 16 lanes. -/
  | vrsqrt (k : Fin 10240) (cyc : Nat) (vd va : Fin 32) (mask : Mask)
  /-- VSIGM (R58). Correctly rounded sigmoid on 16 lanes. -/
  | vsigm (k : Fin 10240) (cyc : Nat) (vd va : Fin 32) (mask : Mask)
  /-- VSILU (R58). Correctly rounded SiLU on 16 lanes. -/
  | vsilu (k : Fin 10240) (cyc : Nat) (vd va : Fin 32) (mask : Mask)
  /-- VTANH (R58). Correctly rounded tanh on 16 lanes. -/
  | vtanh (k : Fin 10240) (cyc : Nat) (vd va : Fin 32) (mask : Mask)
  /-- VERF (R58). Correctly rounded erf on 16 lanes. -/
  | verf (k : Fin 10240) (cyc : Nat) (vd va : Fin 32) (mask : Mask)
  /-- ADD (R57). Scalar 64-bit integer add. -/
  | scAdd (k : Fin 10240) (cyc : Nat) (sd sa : Fin 16) (sb : SOperand)
  /-- SUB (R57). Scalar 64-bit integer subtract. -/
  | scSub (k : Fin 10240) (cyc : Nat) (sd sa : Fin 16) (sb : SOperand)
  /-- MUL (R57). Scalar 64-bit integer multiply, low 64 bits. -/
  | scMul (k : Fin 10240) (cyc : Nat) (sd sa : Fin 16) (sb : SOperand)
  /-- SHL (R57). Scalar left shift. -/
  | scShl (k : Fin 10240) (cyc : Nat) (sd sa : Fin 16) (sb : SOperand)
  /-- SHR (R57). Scalar logical right shift. -/
  | scShr (k : Fin 10240) (cyc : Nat) (sd sa : Fin 16) (sb : SOperand)
  /-- SAR (R57). Scalar arithmetic right shift. -/
  | scSar (k : Fin 10240) (cyc : Nat) (sd sa : Fin 16) (sb : SOperand)
  /-- AND (R57). Scalar bitwise AND. -/
  | scAnd (k : Fin 10240) (cyc : Nat) (sd sa : Fin 16) (sb : SOperand)
  /-- OR (R57). Scalar bitwise OR. -/
  | scOr (k : Fin 10240) (cyc : Nat) (sd sa : Fin 16) (sb : SOperand)
  /-- XOR (R57). Scalar bitwise XOR. -/
  | scXor (k : Fin 10240) (cyc : Nat) (sd sa : Fin 16) (sb : SOperand)
  /-- NOT (R57). Scalar bitwise NOT. -/
  | scNot (k : Fin 10240) (cyc : Nat) (sd sa : Fin 16)
  /-- CEQ (R57). Scalar compare for equality. -/
  | scCeq (k : Fin 10240) (cyc : Nat) (sd sa : Fin 16) (sb : SOperand)
  /-- CLT (R57). Scalar signed less-than compare. -/
  | scClt (k : Fin 10240) (cyc : Nat) (sd sa : Fin 16) (sb : SOperand)
  /-- CLTU (R57). Scalar unsigned less-than compare. -/
  | scCltu (k : Fin 10240) (cyc : Nat) (sd sa : Fin 16) (sb : SOperand)
  /-- MOVI (R57). Loads an immediate into a scalar register. -/
  | scMovi (k : Fin 10240) (cyc : Nat) (sd : Fin 16) (imm : Word)
  /-- MOV (R57). Copies one scalar register to another. -/
  | scMov (k : Fin 10240) (cyc : Nat) (sd sa : Fin 16)
  /-- LOOP (R31). Counted loop with an immediate trip count mapping frame cycles onto stored bundles. -/
  | loop (k : Fin 10240) (cyc : Nat) (level : Fin 8) (trip last : Nat)
  /-- VLD (R60). Loads a vector register from the pane store. -/
  | vld (k : Fin 10240) (cyc : Nat) (v : Fin 32) (addr : PAddr) (bad : Option CoreMem)
  /-- VST (R60). Stores a vector register to the pane store. -/
  | vst (k : Fin 10240) (cyc : Nat) (v : Fin 32) (addr : PAddr)
  /-- TLD (R36). Loads a K4 code-table register from the pane store. -/
  | tld (k : Fin 10240) (cyc : Nat) (kt : Fin 8) (addr : PAddr)
  /-- SLD (R57). Loads a scalar register from 8 aligned pane-store bytes. -/
  | sld (k : Fin 10240) (cyc : Nat) (sr : Fin 16) (addr : PAddr)
  /-- SST (R57). Stores a scalar register to 8 aligned pane-store bytes. -/
  | sst (k : Fin 10240) (cyc : Nat) (sr : Fin 16) (addr : PAddr)
  /-- BLD (R62). Moves data from the core's sliver into its pane store, decoding compressed tiles when a codec mode is given. -/
  | bld (k : Fin 10240) (cyc : Nat) (pane sliver : PAddr) (lines : Nat) (mode : Fin 8) (bad : List Nat)
  /-- BST (R62). Moves data from the pane store into the core's sliver with fresh check bits, unless its tagged slot is masked. -/
  | bst (k : Fin 10240) (cyc : Nat) (pane sliver : PAddr) (lines : Nat) (mode : Fin 8) (tag : Option (Fin 1024))
  /-- LSEND (R77). Sends pane-store data over the lattice to a core of the same bay. -/
  | lsend (k : Fin 10240) (cyc : Nat) (pane : PAddr) (dst : Fin 512) (beats : Nat)
  /-- LRECV (R77). Receives lattice beats into the pane store in their arrival cycles. -/
  | lrecv (k : Fin 10240) (cyc : Nat) (pane : PAddr) (beats : Nat)
  /-- COLONNADE_TRANSFER (R78). A planned colonnade transfer record issues its beats at an even frame cycle. -/
  | colonnadeTransfer (cyc : Nat) (src : ColSource) (dsts : List PanePlace) (path : ColPath) (beats : Nat)
  /-- COLONNADE_BEAT_ARRIVAL (R78). A colonnade beat lands in the destination pane store after the fixed stage latencies. -/
  | colonnadeBeatArrival (k : Fin 10240) (cyc : Nat)
  /-- FRAME_START (R261). The step scheduler starts a frame of a frame group once a pavilion is ready, gathering is done and inputs and masks have landed. -/
  | frameStart (bay : Fin 20) (rates : List LeadRate)
  /-- COLUMN_INPUT_WRITE (R107). The hub writes each active column's embedding row and rotary factors into the near tier between frames. -/
  | columnInputWrite (pav : Fin 80) (slot : Nat)
  /-- MASK_WRITE (R213). The hub writes each sampled column's allow mask to the mask holders between frames. -/
  | maskWrite (pav : Fin 80) (slot : Nat)
  /-- LATCH_DECISION (R87). At frame cycle c - 64 the hub decides which slots go on and sends the verdict vector in the latch window. -/
  | latchDecision (pav : Fin 80) (index : Nat)
  /-- FRAME_END (R261). After the frame's last bundle the scheduler commits, posts completions, applies requests and fills slots. -/
  | frameEnd (bay : Fin 20) (results : List SlotResult) (minima : List ScanResult)
  /-- REFRESH_SLOT (R91). A planned REFRESH slot refreshes every DRAM die of the bay and decrements the owed count. -/
  | refreshSlot (bay : Fin 20) (start : Nat)
  /-- DESKEW_SLOT (R427). A planned DESKEW slot runs one tracking deskew pass on every core of the bay. -/
  | deskewSlot (bay : Fin 20) (start : Nat) (passes : List LinePass)
  /-- HUB_BOND_SLOT (R83). In a HUB_BOND slot the bay writes arriving tiles to and reads departing tiles from near slots. -/
  | hubBondSlot (bay : Fin 20) (start : Nat)
  /-- TRANSOM_WINDOW_BEAT (R81). In each beat of a transom window the switch sends the oldest queued item of the primary or next class. -/
  | transomWindowBeat (bay : Fin 20) (cport : Fin 2) (toBay : Bool) (cyc : Nat)
  /-- BETWEEN_FRAME_HUB_TRANSFER (R84). Between frames the transom switch and bay controller move queued hub traffic in any cycle. -/
  | betweenFrameHubTransfer (bay : Fin 20)
  /-- BAY_IDLE_REFRESH (R84). Between frames the bay controller refreshes and deskews the bay on its own schedule. -/
  | bayIdleRefresh (bay : Fin 20) (passes : List LinePass)
  /-- REFRESH_INTERVAL_ELAPSE (R95). Each actual refresh interval adds one to the bay's owed-refresh count. -/
  | refreshIntervalElapse (bay : Fin 20)
  /-- HOLD_REQUEST (R96). A bay controller requests a hold for refresh, calibration, governor or clock at a bundle boundary. -/
  | holdRequest (bay : Fin 20) (cause : HoldCause) (cyc : Nat)
  /-- HOLD_FREEZE (R96). Every bay of the frame group freezes 48 cycles after the request and serves owed refreshes or the clock switch. -/
  | holdFreeze (bay : Fin 20)
  /-- HOLD_END (R96). The hold ends after its length and the frame resumes where it froze. -/
  | holdEnd (bay : Fin 20) (passes : List LinePass)
  /-- GATHER_EXPIRY (R261). GATHER_NS passes for a ready pavilion and releases the frame start condition. -/
  | gatherExpiry (pav : Fin 80)
  /-- TAG_CLEAR_V (R120). TAG_EDIT action 0 clears the visibility bit of a range of positions. -/
  | tagClearV (r : Req) (first count segment : Nat)
  /-- TAG_SET_V (R120). TAG_EDIT action 1 sets the visibility bit of a range of positions. -/
  | tagSetV (r : Req) (first count segment : Nat)
  /-- TAG_SET_SEGMENT (R120). TAG_EDIT action 2 sets the segment of a range of positions. -/
  | tagSetSegment (r : Req) (first count segment : Nat)
  /-- SET_MASK_MODE (R120). TAG_EDIT action 3 sets the session's MASK_MODE in its state tile. -/
  | setMaskMode (r : Req) (first count segment : Nat)
  /-- SET_CURRENT_SEGMENT (R120). TAG_EDIT action 4 sets the session's current segment in its state tile. -/
  | setCurrentSegment (r : Req) (first count segment : Nat)
  /-- PREEMPTION_SWAP (R130). The hub swaps a pre-emption victim's dirty tiles to the spill tier and frees its slot. -/
  | preemptionSwap (pav : Fin 80) (slot : Nat)
  /-- STREAM_LAYER_FETCH (R127). After a layer's latch point the shutter engines fetch the next stream-slot layer into its buffer. -/
  | streamLayerFetch (pav : Fin 80) (slot layer : Nat)
  /-- TAIL_UNIT_WRITE_BACK (R128). A filled stream tail unit is written to the far tier as a dirty tile. -/
  | tailUnitWriteBack (pav : Fin 80) (slot layer group : Nat)
  /-- PARK (R146). Writes back dirty tiles to the target tier, then releases upper slots and frees the batch slot, or moves a parked session. -/
  | park (r : Req) (target : Nat) (keep checkGen : Bool) (expectGen region codec : Nat)
  /-- PARK_RELEASE (R146). Once every write-back is acknowledged the park releases upper slots and updates the directory. -/
  | parkRelease (f : Fn) (session : DWord)
  /-- REVIVE (R148). Fetches a parked session's tiles layer by layer into a free batch slot. -/
  | revive (r : Req) (early releaseLower checkGen : Bool) (expectGen : Nat)
  /-- REVIVE_COMPLETE (R148). The revive's completion is posted when every tile is CLEAN, or when layer 0 has landed under EARLY. -/
  | reviveComplete (f : Fn) (session : DWord)
  /-- MIGRATE (R159). Checks the destination, advances the generation and moves the session's state to another pavilion or a peer. -/
  | migrate (r : Req) (dest : Nat) (checkGen : Bool) (expectGen pavilion celayPort kind peerNode fenceUs : Nat)
  /-- MIGRATION_DRAINED (R159). When no old-generation work is outstanding the migration releases old slots and completes DONE. -/
  | migrationDrained (f : Fn) (session : DWord)
  /-- MIGRATION_FENCE_TIMEOUT (R159). The fence expires first and the migration completes with FENCE_TIMEOUT. -/
  | migrationFenceTimeout (f : Fn) (session : DWord)
  /-- PLACE (R497). Moves the tiles of a non-session object into an upper tier at dealt addresses or parks it in a lower tier. -/
  | place (r : Req) (object : DWord) (target : Nat) (keepLower : Bool) (region nearBase cores : Nat)
  /-- MODEL_LOAD (R154). Fetches a model image's tiles into the pavilion's near tier at its range addresses. -/
  | modelLoad (r : Req) (slot pavilion : Nat) (object : DWord) (replace : Bool)
  /-- MODEL_LOAD_APPLY (R155). Once every model tile is CLEAN the pavilion is loaded as by a one-entry PAV_LOAD. -/
  | modelLoadApply (pav : Fin 80)
  /-- WRITE_BACK (R144). Writes back a range of an object's tiles to their lower tier. -/
  | writeBack (r : Req) (object : DWord) (first count : Nat)
  /-- REGION_GRANT (R149). Grants a host or pool region for lower copies, replacing an unused grant. -/
  | regionGrant (r : Req) (tier region : Nat) (base : DWord) (granules poolNode : Nat)
  /-- REGION_WITHDRAW (R149). Withdraws a host or pool region that holds no lower copy. -/
  | regionWithdraw (r : Req) (tier region : Nat)
  /-- MAP_READ (R144). Returns one tile map entry into a host buffer. -/
  | mapRead (r : Req) (object : DWord) (tile : Nat) (buf : DWord)
  /-- SHUTTER_FETCH (R150). A shutter engine fetches a tile from a lower tier, opens it and lays it into its upper slot. -/
  | shutterFetch (engine : Fin 33) (obj : ObjRef) (tile : Nat) (read : TierRead)
  /-- SHUTTER_WRITE (R173). A shutter engine reads an upper tile, re-encodes if needed, seals it and writes it to a lower tier. -/
  | shutterWrite (engine : Fin 33) (obj : ObjRef) (tile : Nat)
  /-- SHUTTER_COPY (R150). A shutter engine copies a tile plainly from one near slot to another. -/
  | shutterCopy (engine : Fin 33) (obj : ObjRef) (tile : Nat)
  /-- SHUTTER_SEND (R150). A shutter engine sends a tile over Celay in its stored form. -/
  | shutterSend (engine : Fin 33) (obj : ObjRef) (tile : Nat)
  /-- TILE_ARRIVAL (R139). All 16 KiB of a fetched or pushed tile have been laid into its slot and it becomes CLEAN or DIRTY. -/
  | tileArrival (obj : ObjRef) (tile : Nat)
  /-- TILE_WRITE_ACK (R139). A far commit or host last-granule read acknowledges a write-back and the tile moves to CLEAN or DIRTY. -/
  | tileWriteAck (w : TierWrite)
  /-- TILE_TRANSFER_FAILURE (R140). A failed fetch or write-back is retried once and on a second failure the tile becomes FAILED. -/
  | tileTransferFailure (w : TierWrite) (cause : Fin 6)
  /-- HELD_HATCH_WRITE_APPLY (R143). A hatch write held on an ARRIVING tile applies once it is CLEAN or is discarded if it FAILED. -/
  | heldHatchWriteApply (port : Port)
  /-- K4_TABLE_HELD_WRITE (R177). A write to words 0 to 2 of a hub K4 table is held. -/
  | k4TableHeldWrite (f : Fn) (table : Fin 16) (word : Fin 3) (v : Word)
  /-- K4_TABLE_COMMIT_WRITE (R177). A write to word 3 of a hub K4 table sets the whole table with the held words. -/
  | k4TableCommitWrite (f : Fn) (table : Fin 16) (v : Word)
  /-- DIR_LOOKUP (R186). Searches the directory for a key and writes the winning row's line to the host buffer. -/
  | dirLookup (r : Req) (buf : DWord) (admin ignoreBlock : Bool) (mem : Dma)
  /-- DIR_INSERT (R186). Inserts a block or digest entry into the lowest free row of the needed width. -/
  | dirInsert (r : Req) (buf : DWord) (admin : Bool) (mem : Dma)
  /-- DIR_DELETE (R186). Deletes the visible block or digest entry with the given key and care mask. -/
  | dirDelete (r : Req) (buf : DWord) (admin : Bool) (mem : Dma)
  /-- DIR_UPDATE (R186). Sets the USER field of the exact entry with the given key. -/
  | dirUpdate (r : Req) (buf user : DWord) (admin : Bool) (mem : Dma)
  /-- DIR_SCAN (R186). Reports visible entries of a row range at the scan's epoch. -/
  | dirScan (r : Req) (first count : Nat) (buf : DWord) (maxLines : Nat) (admin : Bool)
  /-- DIR_SEARCH_RESULT (R191). A directory search result is delivered 60 HCLK after issue. -/
  | dirSearchResult (flips : List DirFlip)
  /-- DIR_SHADOW_RETRY (R200). A search meeting a SUSPECT row is re-evaluated on shadow lines and the rows are rewritten. -/
  | dirShadowRetry (unread : List Nat)
  /-- DIR_COMMIT (R192). A directory write commits once its shadow line and row are written and takes the next epoch. -/
  | dirCommit (unread : Bool)
  /-- DIR_RECORD_HOLD_END (R194). 64 HCLK after a commit the row drops its previous record. -/
  | dirRecordHoldEnd (row : Fin 4194304)
  /-- DIR_SCRUB_ROW (R199). The scrubber compares one row with its shadow line and rewrites it on disagreement. -/
  | dirScrubRow (flips : List DirFlip) (unread : Bool)
  /-- DIR_SPARE_BLOCK_SWITCH (R202). Once copied, searches switch to the spare block. -/
  | dirSpareBlockSwitch
  /-- TXT_TABLE_LOAD (R204). Loads a tokeniser, grammar or allowed list from an object into the port's table store. -/
  | txtTableLoad (r : Req) (kind ident : Nat) (object : DWord)
  /-- TXT_TABLE_UNLOAD (R204). Unloads a table that no session binds. -/
  | txtTableUnload (r : Req) (kind ident : Nat)
  /-- TXT_TOKENISE (R207). Turns a UTF-8 byte string into token numbers in a host buffer. -/
  | txtTokenise (r : Req) (tokeniser : Nat) (special : Bool) (src : DWord) (bytes : Nat) (dst : DWord) (capacity : Nat) (mem : Dma)
  /-- TXT_APPEND (R211). Adds tokens from text or given numbers to the session's prompt ring. -/
  | txtAppend (r : Req) (src : DWord) (bytes : Nat) (special tokens : Bool) (mem : Dma)
  /-- TXT_DETOK (R224). Turns tokens into bytes in a host buffer. -/
  | txtDetok (r : Req) (tokeniser : Nat) (src : DWord) (count : Nat) (dst : DWord) (capacity : Nat) (mem : Dma)
  /-- TXT_SAMPLER_SET (R215). Sets the session's 64-byte sampler controls. -/
  | txtSamplerSet (r : Req) (buf : DWord) (mem : Dma)
  /-- TXT_LOUVER_SET (R221). Binds or changes a session's grammar and allowed list, or resets its grammar state. -/
  | txtLouverSet (r : Req) (grammar allow : Nat) (oneShot reset keepGrammar keepAllow : Bool)
  /-- TXT_STOP_SET (R225). Replaces the session's stop strings. -/
  | txtStopSet (r : Req) (buf : DWord) (excludeStop : Bool) (mem : Dma)
  /-- RESAMPLE (R223). Makes the session's next step rerun position LENGTH - 1 with LAST_INPUT. -/
  | resample (r : Req)
  /-- INJECT (R223). Makes a given token NEXT_INPUT and moves the louver. -/
  | inject (r : Req) (token : Nat)
  /-- DROP_PENDING (R223). Discards held and resume bytes. -/
  | dropPending (r : Req)
  /-- TXT_STATE_READ (R232). Returns the state tile's first bytes into a host buffer. -/
  | txtStateRead (r : Req) (buf : DWord)
  /-- RCL_CREATE (R252). Creates a recall index from a header with every record empty. -/
  | rclCreate (r : Req) (object buf : DWord) (mem : Dma)
  /-- RCL_INSERT (R250). Inserts items with their records, sketches, edges and vectors as one change. -/
  | rclInsert (r : Req) (object buf : DWord) (count : Nat) (mem : Dma)
  /-- RCL_DELETE (R249). Deletes items as one change. -/
  | rclDelete (r : Req) (object buf : DWord) (count : Nat) (mem : Dma)
  /-- RCL_PURGE (R250). Releases deleted item numbers by setting FREE. -/
  | rclPurge (r : Req) (object buf : DWord) (count : Nat) (mem : Dma)
  /-- RCL_EDGES (R252). Rewrites the edges of graph nodes. -/
  | rclEdges (r : Req) (object buf : DWord) (count : Nat) (mem : Dma)
  /-- RCL_ENTRY (R252). Sets the four entry edges of a graph index. -/
  | rclEntry (r : Req) (object : DWord) (entries : List Word)
  /-- RCL_QUERY (R244). Queues a similarity query on a scan or graph index. -/
  | rclQuery (r : Req) (object qbuf rbuf : DWord) (k pick l maxExpand : Nat) (mem : Dma)
  /-- RCL_DROP (R252). Drops an index when no query of it runs. -/
  | rclDrop (r : Req) (object : DWord)
  /-- RCL_GRAPH_WALK (R244). The front end walks a graph index and returns the eligible pool for re-ranking. -/
  | rclGraphWalk (port : Port)
  /-- PAV_LOAD (R259). Checks and loads step program images and descriptors for one or more pavilions. -/
  | pavLoad (r : Req) (buf : DWord) (count : Nat) (mem : Dma)
  /-- PAV_UNLOAD (R260). Requests removal of a pavilion's program. -/
  | pavUnload (r : Req) (pavilion : Nat)
  /-- PAV_TENANT_SET (R283). Sets a tenant record, budget and counters. -/
  | pavTenantSet (r : Req) (buf : DWord) (mem : Dma)
  /-- PAV_FUNC_TENANT (R282). Sets the tenant charged for sessions a function opens. -/
  | pavFuncTenant (r : Req) (function tenant : Nat)
  /-- PAV_EXPEDITE (R268). Sets a session's queued or next request to effective level 0. -/
  | pavExpedite (r : Req) (session : DWord)
  /-- ADMISSION_WAIT_TIMEOUT (R264). A queued request's wait reaches WAIT_LIMIT and it completes ADMISSION_DEFERRED. -/
  | admissionWaitTimeout (pav : Fin 80) (f : Fn) (session : DWord)
  /-- LEVEL_PROMOTION (R267). Every 1 µs queued requests past their level's ceiling are promoted one level. -/
  | levelPromotion
  /-- SNP_TAKE (R286). Starts a snapshot of the port, or completes SNP_BUSY. -/
  | snpTake (r : Req) (full : Bool)
  /-- SNP_INCLUDE (R285). Adds or removes an object from the port's snapshot scope. -/
  | snpInclude (r : Req) (object : DWord) (exclude : Bool)
  /-- PORT_RESTORE (R302). SNP_RESTORE mode 0 chooses a valid epoch and restores the whole port's objects PARKED. -/
  | portRestore (r : Req) (target region sourceRegion : Nat) (epoch report : DWord) (bad : List SnapBad)
  /-- SESSION_RESTORE (R304). SNP_RESTORE mode 1 restores one session from an epoch and leaves it PARKED. -/
  | sessionRestore (r : Req) (target region sourceRegion : Nat) (session epoch report : DWord) (bad : List SnapBad)
  /-- SNP_RETIRE (R301). Invalidates manifests up to an epoch and frees unlisted shards. -/
  | snpRetire (r : Req) (epoch : DWord)
  /-- SNP_LIST (R306). Returns the committed epochs into a host buffer. -/
  | snpList (r : Req) (buf : DWord)
  /-- SNP_TIMER_FIRE (R286). The snapshot timer fires and starts a snapshot or is dropped. -/
  | snpTimerFire (port : Port)
  /-- SNP_STEP_TRIGGER (R286). The frame count reaches SNP_STEPS and starts a snapshot or is dropped. -/
  | snpStepTrigger (port : Port)
  /-- SNAPSHOT_CUT (R288). Once every frame group of the port stands between frames the hub records the cut. -/
  | snapshotCut (port : Port)
  /-- SNAPSHOT_TILE_STORED (R293). The writer stores a pending tile, releasing writes and frees that waited for it. -/
  | snapshotTileStored (port : Port) (obj : ObjRef) (tile : Nat)
  /-- SNAPSHOT_COMMIT (R298). The commit record is acknowledged, the epoch commits and change bits clear. -/
  | snapshotCommit (port : Port)
  /-- BOOT_GO (R309). A physical function's GO write takes ownership of the boot and starts reading the image. -/
  | bootGo (f : Fn) (v : Word)
  /-- BOOT_IMAGE_READ_DONE (R309). The image has been read and its header checked, and signature verification begins. -/
  | bootImageReadDone (mem : Dma)
  /-- BOOT_VERIFY_DONE (R309). The signature and SVN pass, the boot counter advances and the image starts. -/
  | bootVerifyDone (floorRead marginal : Bool)
  /-- SEC_ATTEST (R314). Captures the port's measurements and queues a report for signing. -/
  | secAttest (r : Req) (buf : DWord) (kem : Bool) (scope : Nat) (mem : Dma)
  /-- ATTEST_SIGNED (R312). The signing engine signs a report with the next reserved XMSS index. -/
  | attestSigned (readBack : Bool)
  /-- PENDING_KEY_EXPIRY (R317). A pending decapsulation key expires 60 s after its report. -/
  | pendingKeyExpiry
  /-- SEC_KD_RELEASE (R321). Unwraps released keys into a RESERVED domain using a pending key. -/
  | secKdRelease (r : Req) (buf : DWord) (mem : Dma)
  /-- SEC_KD_CREATE (R321). Fills a RESERVED domain with random keys. -/
  | secKdCreate (r : Req) (kd : Nat) (sealFlag : Bool)
  /-- SEC_KD_BIND (R319). Reserves a FREE domain or changes a domain's function mask. -/
  | secKdBind (r : Req) (kd : Nat) (mask : DWord)
  /-- SEC_KD_RETIRE (R324). Destroys a domain's keys and returns it to FREE. -/
  | secKdRetire (r : Req) (kd : Nat)
  /-- SEC_ID_READ (R332). Returns the identity public key and certificate. -/
  | secIdRead (r : Req) (buf : DWord)
  /-- IDE_KM_MESSAGE (R328). An IDE_KM message in the secured DOE channel programs IDE stream keys. -/
  | ideKmMessage (port : Port) (msg : Secured) (stream : Fin 9) (act : IdeKm)
  /-- TDISP_MESSAGE (R329). A TDISP message moves a virtual function's interface between its states. -/
  | tdispMessage (f : Fn) (msg : Secured) (act : TdispAct)
  /-- PORT_RESET (R335). PERST, hot reset, link-down or PF FLR stops the port's rings and withdraws its host regions. -/
  | portReset (port : Port) (cause : PortResetCause)
  /-- VF_FLR (R336). A virtual function's FLR stops its rings and keeps its sessions. -/
  | vfFlr (f : Fn)
  /-- RING_START (R340). ENABLE 0 to 1 latches ring bases and sizes, clears indices and errors and starts fetching. -/
  | ringStart (f : Fn) (v : Word)
  /-- RING_STOP (R340). ENABLE written 0 stops fetching and discards later completions of fetched requests. -/
  | ringStop (f : Fn) (v : Word)
  /-- RQ_TAIL_DOORBELL (R496). A request doorbell write is checked and starts fetching new entries. -/
  | rqTailDoorbell (f : Fn) (v : Word)
  /-- REQUEST_FETCH_FAULT (R340). A failed request fetch stops the rings with CAUSE 2. -/
  | requestFetchFault (f : Fn)
  /-- CQ_HEAD_DOORBELL (R340). A completion doorbell write releases entries, drains the overflow queue or stops the rings on a bad value. -/
  | cqHeadDoorbell (f : Fn) (v : Word)
  /-- COAL_TIMEOUT (R352). COAL_NS passes since the first unsignalled completion and fires vector 0. -/
  | coalTimeout (f : Fn)
  /-- BAD_OPCODE (R342). A request with an unallocated opcode completes BAD_OPCODE. -/
  | badOpcode (r : Req) (opcode : Nat)
  /-- NOP (R346). Completes at once with DONE. -/
  | nop (r : Req)
  /-- RING_FENCE (R346). Completes after every earlier request of the ring has completed. -/
  | ringFence (r : Req)
  /-- OPEN (R348). Checks and creates a session object, its state tile and directory entry. -/
  | openSession (r : Req) (object : DWord) (kd pavilion slotKind modelSlot lmax tokeniser : Nat)
  /-- STEP (R349). Admits a session and starts a run posting one completion per step. -/
  | stepSession (r : Req) (checkGen : Bool) (expectGen : Nat) (outBase : DWord) (outSize : Nat)
  /-- CLOSE (R139). Closes a session, freeing every copy and deleting its directory entry. -/
  | closeSession (r : Req) (checkGen : Bool) (expectGen : Nat)
  /-- HALT (R350). Ends the session's run at its next step completion. -/
  | haltSession (r : Req)
  /-- HATCH_READ (R354). A BAR2 read returns whole near-tier lines or command-area registers. -/
  | hatchRead (port : Port) (off len : Nat) (bad : Bool)
  /-- HATCH_WRITE (R354). A BAR2 write merges and writes near-tier lines with fresh check bits, or is held or discarded. -/
  | hatchWrite (port : Port) (off : Nat) (data : List Byte) (bad : Bool)
  /-- HC_DONE_READ (R364). A read of HC_DONE returns after earlier hatch writes to the bay are applied or held. -/
  | hcDoneRead (port : Port) (off : Nat)
  /-- HATCH_MODE_REQUEST (R357). Writing 1 to a bay's HAT_MODE_REQ bit requests hatch mode entry. -/
  | hatchModeRequest (port : Port) (bay : Fin 20)
  /-- HATCH_EXIT_REQUEST (R357). Writing 0 to a bay's HAT_MODE_REQ bit requests exit from hatch mode. -/
  | hatchExitRequest (port : Port) (bay : Fin 20)
  /-- HATCH_MODE_EXIT (R357). The bay leaves hatch mode once its command queue is empty. -/
  | hatchModeExit (bay : Fin 20)
  /-- HAT_WINDOW_WRITE (R353). A HAT_WINDOWn write maps a quarter, or is refused for a quarter of no pavilion of the port. -/
  | hatWindowWrite (port : Port) (n : Fin 8) (v : Word)
  /-- HC_STORE_WRITE (R363). A write to the micro-program store, deferred while a RUN executes. -/
  | hcStoreWrite (port : Port) (off : Nat) (data : List Byte)
  /-- HATCH_ADD (R360). Hatch command: D = A + B over INT16 runs. -/
  | hatchAdd (port : Port) (bay : Fin 20) (c : HcCmd) (bad : Option HcBad)
  /-- HATCH_SUB (R360). Hatch command: D = A - B. -/
  | hatchSub (port : Port) (bay : Fin 20) (c : HcCmd) (bad : Option HcBad)
  /-- HATCH_MUL (R360). Hatch command: D = A x B. -/
  | hatchMul (port : Port) (bay : Fin 20) (c : HcCmd) (bad : Option HcBad)
  /-- HATCH_MULH (R360). Hatch command: D = upper 16 bits of A x B. -/
  | hatchMulh (port : Port) (bay : Fin 20) (c : HcCmd) (bad : Option HcBad)
  /-- HATCH_MADD (R360). Hatch command: D = A x B + C. -/
  | hatchMadd (port : Port) (bay : Fin 20) (c : HcCmd) (bad : Option HcBad)
  /-- HATCH_SCALE (R360). Hatch command: D = A x H[RX] + H[RY]. -/
  | hatchScale (port : Port) (bay : Fin 20) (c : HcCmd) (bad : Option HcBad)
  /-- HATCH_SHL (R360). Hatch command: D = A shifted left by H[RX]. -/
  | hatchShl (port : Port) (bay : Fin 20) (c : HcCmd) (bad : Option HcBad)
  /-- HATCH_SAR (R360). Hatch command: D = A shifted right arithmetically by H[RX]. -/
  | hatchSar (port : Port) (bay : Fin 20) (c : HcCmd) (bad : Option HcBad)
  /-- HATCH_FILL (R360). Hatch command: D = H[RX]. -/
  | hatchFill (port : Port) (bay : Fin 20) (c : HcCmd) (bad : Option HcBad)
  /-- HATCH_COPY (R360). Hatch command: D = A. -/
  | hatchCopy (port : Port) (bay : Fin 20) (c : HcCmd) (bad : Option HcBad)
  /-- HATCH_SETH (R360). Hatch command: sets a hatch register to IMM on every selected core. -/
  | hatchSeth (port : Port) (bay : Fin 20) (c : HcCmd) (bad : Option HcBad)
  /-- HATCH_RUN (R363). Hatch command: runs stored micro-program entries REPEAT times with strided lines. -/
  | hatchRun (port : Port) (bay : Fin 20) (c : HcCmd) (bad : Option HcBad)
  /-- HATCH_COMMAND_DONE (R360). A hatch command finishes, HC_DONE advances and an IRQ fires if requested. -/
  | hatchCommandDone (bay : Fin 20) (bad : Option HcBad)
  /-- FLIT_TRANSMIT (R371). A Celay port sends the next flit, filling cell places by class, credit, gate and bucket. -/
  | flitTransmit (cport : Fin 4)
  /-- FLIT_RECEIVE (R368). A received flit is checked by FEC, CRC and sequence, acknowledged or NAKed, and its cells and credits taken. -/
  | flitReceive (cport : Fin 4) (flit : Option (List Byte)) (corrected : Nat)
  /-- GATE_ENTRY_ADVANCE (R373). A gate entry's duration ends and the next entry's open mask applies. -/
  | gateEntryAdvance (cport : Fin 4)
  /-- PUSH_OPEN (R378). A prefill machine's push open is decided by one directory search and accepted or refused. -/
  | pushOpen (cport : Fin 4)
  /-- PUSH_DATA (R379). A pushed key/value tile is checked, opened and laid into the session's slot. -/
  | pushData (cport : Fin 4)
  /-- PUSH_END (R381). A push end is accepted when every needed tile has landed, charging the tenant, or aborts the stream. -/
  | pushEnd (cport : Fin 4)
  /-- PUSH_ABORT (R382). A push stream is aborted, restoring LENGTH and NEXT_INPUT and charging nothing. -/
  | pushAbort (cport : Fin 4)
  /-- STREAM_IDLE_TIMEOUT (R382). No cell of a push or hand-over stream arrives for STREAM_IDLE_US. -/
  | streamIdleTimeout (cport : Fin 4) (tag : Nat)
  /-- HAND_OFFER (R385). A receiving SX20 checks a hand-over offer and accepts or refuses it. -/
  | handOffer (cport : Fin 4) (tables : Bool)
  /-- HAND_ACCEPT (R384). The source receives the acceptance and starts sending the session's tiles. -/
  | handAccept (cport : Fin 4)
  /-- HAND_REFUSE (R386). The source receives a refusal and completes the migration without change. -/
  | handRefuse (cport : Fin 4)
  /-- HAND_DATA (R385). The receiver lays a handed-over tile into its reserved slot. -/
  | handData (cport : Fin 4)
  /-- HAND_END (R384). The receiver learns the source has sent every tile. -/
  | handEnd (cport : Fin 4)
  /-- HAND_DONE (R384). The source learns every tile has landed and the old placement has drained. -/
  | handDone (cport : Fin 4)
  /-- HAND_ABORT (R386). A hand-over is cut and the source completes HANDOVER_CUT. -/
  | handAbort (cport : Fin 4)
  /-- POOL_WRITE_ACK (R387). A pool acknowledges a record, completing its write-back. -/
  | poolWriteAck (cport : Fin 4)
  /-- POOL_READ_DATA (R387). A pool returns the granules of a read. -/
  | poolReadData (cport : Fin 4)
  /-- POOL_ERROR (R387). A pool reports a failed transaction, retried by the next allowed port. -/
  | poolError (cport : Fin 4)
  /-- POOL_TIMEOUT (R387). No pool answer arrives within POOL_TIMEOUT_US. -/
  | poolTimeout (tag : Nat)
  /-- CELAY_ENABLE (R388). Writing ENABLE 1 starts link bring-up on a Celay port. -/
  | celayEnable (f : Fn) (cport : Fin 4) (v : Word)
  /-- CELAY_DISABLE (R390). Writing ENABLE 0 takes a Celay port down. -/
  | celayDisable (f : Fn) (cport : Fin 4) (v : Word)
  /-- CELAY_LINK_UP (R388). Bring-up maps eight passing lanes into service and advertises credits. -/
  | celayLinkUp (cport : Fin 4) (lanes : BitVec 9)
  /-- CELAY_BRINGUP_RETRY (R388). A port that failed bring-up retries every 100 ms. -/
  | celayBringupRetry (cport : Fin 4)
  /-- LANE_SWAP (R389). A lane losing lock or exceeding LANE_LIMIT is swapped for the spare with replay. -/
  | laneSwap (cport : Fin 4) (lane : Fin 9)
  /-- WRITE (R398). Profile command that checks an image and writes it into a slot. -/
  | profileWrite (src : ProfileSource) (slot : Fin 4) (mem : Dma)
  /-- PROFILE_WRITE_COMMIT (R398). The profile slot's commit record is written and the slot becomes valid. -/
  | profileWriteCommit (fault : Bool)
  /-- ERASE (R398). Profile command that empties a slot. -/
  | profileErase (src : ProfileSource) (slot : Fin 4) (fault : Bool)
  /-- SELECT_WARM (R402). Profile command that seeks consent and replaces the composition without module reset. -/
  | selectWarm (src : ProfileSource) (slot : Fin 4)
  /-- CONSENT_TIMEOUT (R402). A pending SELECT_WARM not joined within 1 s completes CONSENT_LOST. -/
  | consentTimeout
  /-- SELECT_WARM_APPLY (R402). After quiesce the checks are made and the image is applied or the command fails. -/
  | selectWarmApply
  /-- SET_NEXT (R400). Profile command that names the slot for the next module reset. -/
  | setNext (src : ProfileSource) (slot : Fin 4)
  /-- CLEAR_NEXT (R400). Profile command that clears NEXT_SET. -/
  | clearNext (src : ProfileSource)
  /-- FAR_TRAINING_DONE (R400). Far-tier training ends and the firmware selects and applies a profile. -/
  | farTrainingDone (sites density rate : Nat)
  /-- AON_POWER_UP (R406). The always-on rail comes up and device time starts at 0. -/
  | aonPowerUp
  /-- DOZE_ENTRY (R408). After DOZE_IDLE without work a bay moves from run to doze. -/
  | dozeEntry (bay : Fin 20)
  /-- REST_ENTRY (R408). After REST_IDLE in doze a bay begins entering rest. -/
  | restEntry (bay : Fin 20)
  /-- REST_ENTRY_DONE (R408). Rest entry completes after 5 µs, beginning any waiting wake. -/
  | restEntryDone (bay : Fin 20)
  /-- WAKE_DECISION (R411). Each ACLK cycle the gatehouse combines wake causes and wakes the hub or bays. -/
  | wakeDecision
  /-- BAY_WAKE_START (R412). A staggered group of at most 10 bays begins waking from rest. -/
  | bayWakeStart
  /-- BAY_RUN_READY (R407). A waking bay completes its return to run, with recovery deskew passes from rest. -/
  | bayRunReady (bay : Fin 20) (passes : List LinePass)
  /-- BAY_OFF_REQUEST (R409). Setting a GH_BAY_OFF bit switches the bay off or is refused. -/
  | bayOffRequest (port : Port) (bay : Fin 20)
  /-- BAY_OFF_RELEASE (R409). Clearing a GH_BAY_OFF bit starts bringing the bay back. -/
  | bayOffRelease (port : Port) (bay : Fin 20)
  /-- BAY_OFF_DONE (R409). The bay is back from off after zeroing its near tier and raises OFF_DONE. -/
  | bayOffDone (bay : Fin 20) (passes : List LinePass)
  /-- HUB_QUIET_ENTRY (R410). After HUB_QUIET with all bays at rest and nothing in effect the hub enters quiet. -/
  | hubQuietEntry
  /-- HUB_RETURN (R410). The hub returns from quiet within 5 µs. -/
  | hubReturn
  /-- EFFECTIVE_CAP_CHANGE (R416). A change of the effective envelope takes effect and raises CAP_CHANGED. -/
  | effectiveCapChange
  /-- SENSOR_READING (R418). Every 100 µs the gatehouse reads all sensors and moves levels in and out. -/
  | sensorReading (readings : List (Nat × Nat))
  /-- PIN_LEVEL_ACCEPTED (R420). A slow pin's new level is accepted after 8 equal samples and acted on or held. -/
  | pinLevelAccepted (pin : PinId) (level : Fin 4)
  /-- FAST_TOGGLE_HOLD_EXPIRY (R421). The 1 ms hold ends and a still-accepted level becomes the acted level. -/
  | fastToggleHoldExpiry (pin : PinId)
  /-- PIN_STUCK (R422). A pin active longer than its stuck limit is declared stuck and treated as inactive. -/
  | pinStuck (pin : PinId)
  /-- WAKE_TIMER_FIRE (R423). A wake timer reaches its deadline, clears ENABLE, sets GH_FIRED and wakes the hub. -/
  | wakeTimerFire (port : Port) (timer : Fin 256)
  /-- WAKE_TIMER_PREWAKE (R423). PREWAKE_US before the deadline the timer's pavilion bays are woken to doze. -/
  | wakeTimerPrewake (port : Port) (timer : Fin 256)
  /-- GH_NOTICE_CLEAR (R9). A write-1-to-clear of GH_NOTICE bits. -/
  | ghNoticeClear (port : Port) (v : Word)
  /-- GH_NOTICE_EN_WRITE (R352). Setting an enable bit whose notice is set raises vector 1. -/
  | ghNoticeEnWrite (port : Port) (v : Word)
  /-- GH_FIRED_CLEAR (R423). A write-1-to-clear of fired timer bits. -/
  | ghFiredClear (port : Port) (word : Fin 8) (v : Word)
  /-- PLDM_SENSOR_READ (R425). The management interface reads a sensor over PLDM without waking the hub. -/
  | pldmSensorRead (ident measured : Nat)
  /-- PLDM_EFFECTER_SET (R425). The management interface sets a cap or stuck limit through a PLDM effecter. -/
  | pldmEffecterSet (ident v : Nat)
  /-- PLDM_ERROR_LOG_READ (R445). The management interface reads the module error log or repair list over PLDM. -/
  | pldmErrorLogRead (repairs : Bool)
  /-- DESKEW_PHASE_ALARM (R428). A bond line's phase error exceeds 16 steps and a CALIBRATION hold is requested or left to the next slot. -/
  | deskewPhaseAlarm (core : Fin 10240) (line : Fin 1648) (error : Int) (cyc : Nat)
  /-- FAR_RETRAIN_WINDOW (R430). A retraining window starts on the calendar's channel. -/
  | farRetrainWindow
  /-- FAR_RETRAIN_BURST (R431). A 96 ns training burst starts once no access to its site is in progress. -/
  | farRetrainBurst
  /-- FAR_BURST_END (R431). A training burst ends and waiting site accesses proceed. -/
  | farBurstEnd
  /-- FAR_DEVICE_TEMP_CHANGE (R432). A far device reports a change of more than 10 °C and is retrained in the next window. -/
  | farDeviceTempChange (channel : Fin 64)
  /-- CLOCK_MONITOR_WINDOW (R437). Each 10 µs window a bay's generator is checked and a switch to the spare is made or requested. -/
  | clockMonitorWindow (bay : Fin 20) (ppm : Nat) (lockLost : Bool) (cyc : Nat)
  /-- HUB_CLOCK_FAULT (R438). The hub PLL deviates or loses lock, a module fault, or ACLK deviates and sets ACLK_SUSPECT. -/
  | hubClockFault (fault : HubClock)
  /-- ERROR_RECORD_RETIRE (R443). A record leaves service and the pending record moves in. -/
  | errorRecordRetire (source : Nat)
  /-- ERROR_MUTE_END (R444). A muted source is unmuted after 100 ms with no overflow. -/
  | errorMuteEnd (source : Nat)
  /-- ERR_POP (R445). Writing POP removes the record shown in ERR_RECORD. -/
  | errPop (port : Port)
  /-- CORRECTED_LINE_REWRITE (R452). The scrubber rewrites a corrected line, raising a record and a repair hint if it fails again. -/
  | correctedLineRewrite (place : LinePlace) (corrected : Nat) (again : Option RepairElem)
  /-- NEAR_SCRUB_READ (R453). The near patrol scrubber reads the next line in a HUB_BOND or free bond cycle. -/
  | nearScrubRead (bay : Fin 20) (bad : Option LineRead)
  /-- FAR_SCRUB_READ (R454). The far patrol scrubber reads the next far slot. -/
  | farScrubRead (bad : Option LineRead) (line : Fin 256)
  /-- ENGINE_SPARE_SWITCH (R457). The spare engine takes a failed engine's place at its next command boundary. -/
  | engineSpareSwitch (kind : EngineKind) (engine : Nat)
  /-- MODULE_RESET_ENTRY (R470). A supply, MODULE_RST_N, FAR_PWRGD or trip condition puts the module in reset, losing volatile state. -/
  | moduleResetEntry (cause : ResetCause)
  /-- MODULE_RESET_RELEASE (R472). 1 ms after every reset condition clears the module leaves reset. -/
  | moduleResetRelease
  /-- HUB_PLL_LOCK (R472). The hub PLL locks and the loader waits for a boot. -/
  | hubPllLock
  /-- PORT_TRAIN_ENABLE (R473). 1 ms after reset release and PERST high the port's link may train. -/
  | portTrainEnable (port : Port)
  /-- BYPASS (R481). Boundary-scan BYPASS instruction. -/
  | tapBypass (tdi : List Bool)
  /-- IDCODE (R481). Boundary-scan IDCODE instruction returning the part identity. -/
  | tapIdcode
  /-- SAMPLE_PRELOAD (R481). Boundary-scan SAMPLE/PRELOAD instruction. -/
  | tapSamplePreload (pins data : List Bool)
  /-- EXTEST (R481). Boundary-scan EXTEST instruction. -/
  | tapExtest (pins data : List Bool)
  /-- CLAMP (R481). Boundary-scan CLAMP instruction. -/
  | tapClamp (tdi : List Bool)
  /-- HIGHZ (R481). Boundary-scan HIGHZ instruction. -/
  | tapHighz (tdi : List Bool)
  /-- EXTEST_PULSE (R481). IEEE 1149.6 EXTEST_PULSE on AC-coupled lanes. -/
  | tapExtestPulse (pins data : List Bool)
  /-- EXTEST_TRAIN (R481). IEEE 1149.6 EXTEST_TRAIN on AC-coupled lanes. -/
  | tapExtestTrain (pins data : List Bool)
  /-- IRQ_ENABLE_SET (R352). A RING_CTRL write that sets IRQ_ENABLE fires vector 0 at once when COAL_COUNT or COAL_NS is already met. -/
  | irqEnableSet (f : Fn) (v : Word)
  /-- COMPLETION_WRITE_FAULT (R340). A fault on a completion-ring write stops the function's rings with ERROR and CAUSE 3 and clears ENABLE. -/
  | completionWriteFault (f : Fn)
  /-- TRL_CMD_BAD_OP (R398). A TRL_CMD write whose OP is not 1 to 5 completes with RESULT BAD_OP. -/
  | trlCmdBadOp (port : Port) (op : Nat)
  /-- SNAPSHOT_TARGET_SET (R296). Setting the snapshot target in SNP_CTRL takes 32 far slots for the manifest slots when the target is far, and restarts triggers when ENABLE is set. -/
  | snapshotTargetSet (f : Fn) (v : Word)
  /-- HC_SUBMIT_HELD_WRITE (R358). A write to bytes 0 to 62 of HC_SUBMIT is held until byte 63 is written. -/
  | hcSubmitHeldWrite (port : Port) (off : Nat) (data : List Byte)
  /-- HATCH_UNALLOCATED_OP (R361). A submitted hatch command with an unallocated OP takes the next SEQ and completes at once with cause 2. -/
  | hatchUnallocatedOp (port : Port) (bay : Fin 20) (op : Byte) (c : HcCmd)
  /-- POWER_WINDOW_END (R330). At each end of a POWER_WINDOW_MS window the coarsened power reading and GH_TEMP are updated. -/
  | powerWindowEnd (watts : Nat)
  deriving DecidableEq, Repr

end Sys2Proof
end

