-- ==== Sys2Proof/Machine/Data.lean ====
section
/-! DEFINITION. Sparse maps and byte lists: the plain data every part of State is built from. A map is a list
of (key, value) pairs with keys strictly rising; a byte memory lists no byte equal to zero, which is what an
unlisted address of it reads as. -/

namespace Sys2Proof.Machine

/-- A sparse map: keys strictly rising. -/
abbrev NMap (α : Type) := List (Nat × α)

/-- The value a map holds at a key. -/
def mget? {α : Type} : NMap α → Nat → Option α
  | [], _ => none
  | (k, v) :: m, x => if x = k then some v else mget? m x

/-- The value at a key, or a default. -/
def mgetD {α : Type} (m : NMap α) (x : Nat) (d : α) : α := (mget? m x).getD d

/-- The map with a value put at a key. -/
def mput {α : Type} : NMap α → Nat → α → NMap α
  | [], x, w => [(x, w)]
  | (k, v) :: m, x, w =>
    if x < k then (x, w) :: (k, v) :: m
    else if x = k then (x, w) :: m
    else (k, v) :: mput m x w

/-- The map without a key. -/
def mdel {α : Type} : NMap α → Nat → NMap α
  | [], _ => []
  | (k, v) :: m, x => if x = k then m else (k, v) :: mdel m x

/-- Change the value at a key, starting from a default. -/
def malter {α : Type} (m : NMap α) (x : Nat) (d : α) (f : α → α) : NMap α := mput m x (f (mgetD m x d))

/-- Change the value at a key that is present. -/
def madjust {α : Type} (m : NMap α) (x : Nat) (f : α → α) : NMap α :=
  match mget? m x with
  | none => m
  | some v => mput m x (f v)

/-- The keys of a map are strictly rising, all above a bound. -/
def mapWfFrom {α : Type} : Option Nat → NMap α → Bool
  | _, [] => true
  | lo, (k, _) :: m => (match lo with | none => true | some b => decide (b < k)) && mapWfFrom (some k) m

/-- The canonical form of a map. -/
def mapWf {α : Type} (m : NMap α) : Bool := mapWfFrom none m

/-- A byte memory: the bytes that are not zero, by address. -/
abbrev Memory := List Host.Cell

/-- The canonical form of a byte memory: addresses strictly rising, and no listed byte is zero. -/
def Memory.wf (m : Memory) : Bool := mapWf m && m.all (fun c => c.2 ≠ 0)

/-- One byte of a memory; an unlisted address reads as zero. -/
def memByte (m : Memory) (a : Nat) : Byte := mgetD m a 0

/-- Write one byte. -/
def memPut (m : Memory) (a : Nat) (b : Byte) : Memory := if b = 0 then mdel m a else mput m a b

/-- Read `n` bytes from an address upward. -/
def memRead (m : Memory) (a : Nat) : Nat → List Byte
  | 0 => []
  | n + 1 => memByte m a :: memRead m (a + 1) n

/-- Write bytes from an address upward. -/
def memWrite (m : Memory) (a : Nat) : List Byte → Memory
  | [] => m
  | b :: bs => memWrite (memPut m a b) (a + 1) bs

/-- Set `n` bytes from an address upward to zero. -/
def memClear (m : Memory) (a n : Nat) : Memory := m.filter (fun c => ! (a ≤ c.1 && c.1 < a + n))

/-- The value of bytes, least significant byte first (R5). -/
def leNat : List Byte → Nat
  | [] => 0
  | b :: bs => b.toNat + 256 * leNat bs

/-- The `n` bytes of a value, least significant byte first (R5). -/
def natLe : Nat → Nat → List Byte
  | 0, _ => []
  | n + 1, v => BitVec.ofNat 8 v :: natLe n (v / 256)

/-- `n` bytes of a list from byte `o`, with zeros past its end. -/
def byteSlice (bs : List Byte) (o n : Nat) : List Byte :=
  let t := (bs.drop o).take n
  t ++ List.replicate (n - t.length) 0

/-- A little-endian field of a byte list. -/
def leField (bs : List Byte) (o n : Nat) : Nat := leNat ((bs.drop o).take n)

/-- Replace the part of a list from place `o` on by other elements. -/
def splice {α : Type} (xs : List α) (o : Nat) (ys : List α) : List α :=
  xs.take o ++ ys ++ xs.drop (o + ys.length)

/-- Bits [h:l] of a number. -/
def bits (v l h : Nat) : Nat := (v / 2 ^ l) % 2 ^ (h + 1 - l)

/-- A number with bits [h:l] replaced. -/
def setBits (v l h x : Nat) : Nat :=
  v - bits v l h * 2 ^ l + (x % 2 ^ (h + 1 - l)) * 2 ^ l

/-- Bit `i` of a number. -/
def bitOf (v i : Nat) : Bool := v / 2 ^ i % 2 = 1

/-- The number of a Boolean. -/
def b2n (b : Bool) : Nat := if b then 1 else 0

/-- The first number that satisfies a test among the `n` from `i` on. -/
def firstFrom (p : Nat → Bool) : Nat → Nat → Option Nat
  | 0, _ => none
  | n + 1, i => if p i then some i else firstFrom p n (i + 1)

/-- The lowest number below `n` that satisfies a test. -/
def firstBelow (n : Nat) (p : Nat → Bool) : Option Nat := firstFrom p n 0

/-- Remove repeats, keeping first places. -/
def dedupNat (xs : List Nat) : List Nat := xs.foldl (fun acc x => if acc.contains x then acc else acc ++ [x]) []

/-- Ceiling division. -/
def ceilDiv (a b : Nat) : Nat := (a + b - 1) / b

/-- The sum of a list. -/
def sumNat (xs : List Nat) : Nat := xs.foldl (· + ·) 0

/-- Whether a number is a power of two. -/
def isPow2 (n : Nat) : Bool := n ≠ 0 && 2 ^ n.log2 = n

end Sys2Proof.Machine
end

