-- ==== Sys2Proof/Machine/Image.lean ====
section
/-! DEFINITION. Reading a step program image (R69 to R73, R493): header fields, sections, address expressions, bundles,
slot and latch records. An image is its bytes. -/

namespace Sys2Proof.Machine

/-- A little-endian signed field. -/
def leSigned (bs : List Byte) (o n : Nat) : Int :=
  let v := leField bs o n
  if 2 ^ (8 * n - 1) ≤ v then (v : Int) - 2 ^ (8 * n) else v

/-- Header fields of R69. -/
def imgThermal (b : List Byte) : Nat := leField b 7 1
def imgCycles (b : List Byte) : Nat := leField b 8 4
def imgSlots (b : List Byte) : Nat := leField b 0xC 2
def imgLatches (b : List Byte) : Nat := leField b 0xE 2
def imgQuarters (b : List Byte) : List Nat := (List.range 80).filter (fun q => bitOf (leField b 0x10 16) q)
def imgRedSig (b : List Byte) : Nat := leField b 0x20 8
def imgActPeak (b : List Byte) : Nat := leField b 0x28 4
def imgMacPeak (b : List Byte) : Nat := leField b 0x2C 4
def imgVerdict (b : List Byte) : Nat := leField b 0x30 4
def imgSecCount (b : List Byte) : Nat := leField b 0x34 2
def imgSecTable (b : List Byte) : Nat := leField b 0x38 4
def imgBytes (b : List Byte) : Nat := leField b 0x3C 4
def imgDigest (b : List Byte) : List Byte := byteSlice b 0xE0 32

/-- A section table entry (R70). -/
structure Section where
  kind : Nat
  quarter : Nat
  off : Nat
  len : Nat
  count : Nat
  deriving DecidableEq, Repr

/-- The sections of an image (R70). -/
def imgSections (b : List Byte) : List Section :=
  (List.range (imgSecCount b)).map (fun i =>
    let o := imgSecTable b + 16 * i
    ⟨leField b o 2, leField b (o + 2) 2, leField b (o + 4) 4, leField b (o + 8) 4, leField b (o + 12) 4⟩)

/-- The section of a type whose scope is the whole pavilion. -/
def imgSection (b : List Byte) (kind : Nat) : Option Section := (imgSections b).find? (fun s => s.kind = kind)

/-- The section of a type for one quarter. -/
def imgQuarterSection (b : List Byte) (kind q : Nat) : Option Section :=
  (imgSections b).find? (fun s => s.kind = kind && s.quarter = q)

/-- The eight strides of address expression `x` (R70, R73). -/
def imgStrides (b : List Byte) (x : Nat) : List Int :=
  match imgSection b 3 with
  | none => []
  | some s =>
    if x < s.count then (List.range 8).map (fun i => leSigned b (s.off + 32 * x + 4 * i) 4) else []

/-- S8 to S15 of a core (R68, R70): word `i` of the record of a quarter's core. -/
def imgConst (b : List Byte) (q core i : Nat) : Nat :=
  match imgQuarterSection b 4 q with
  | none => 0
  | some s => leField b (s.off + 64 * core + 8 * i) 8

/-- A SLOTS record (R493). -/
structure SlotRec where
  kind : Nat
  port : Nat
  dir : Nat
  cls : Nat
  start : Nat
  len : Nat
  tail : Nat
  deriving DecidableEq, Repr

/-- The SLOTS records of an image. -/
def imgSlotRecs (b : List Byte) : List SlotRec :=
  match imgSection b 6 with
  | none => []
  | some s => (List.range s.count).map (fun i =>
      let o := s.off + 16 * i
      ⟨leField b o 1, leField b (o + 1) 1, leField b (o + 2) 1, leField b (o + 3) 1, leField b (o + 4) 4,
        leField b (o + 8) 4, leField b (o + 12) 4⟩)

/-- A LATCH record (Latch points of chapter 3). -/
structure LatchRec where
  cycle : Nat
  layer : Nat
  flags : Nat
  listOff : Nat
  listCount : Nat
  deriving DecidableEq, Repr

/-- The LATCH records of an image. -/
def imgLatchRecs (b : List Byte) : List LatchRec :=
  match imgSection b 7 with
  | none => []
  | some s => (List.range (imgLatches b)).map (fun i =>
      let o := s.off + 16 * i
      ⟨leField b o 4, leField b (o + 4) 2, leField b (o + 6) 1, leField b (o + 8) 4, leField b (o + 12) 2⟩)

/-- A live range entry (R275): region, zero, first and last layer, zero. -/
structure LiveRec where
  region : Nat
  first : Nat
  last : Nat
  zeros : Bool
  deriving DecidableEq, Repr

/-- The live ranges of a latch record. -/
def imgLive (b : List Byte) (l : LatchRec) : List LiveRec :=
  match imgSection b 8 with
  | none => []
  | some s => (List.range l.listCount).map (fun i =>
      let o := s.off + l.listOff + 8 * i
      ⟨leField b o 1, leField b (o + 2) 2, leField b (o + 4) 2,
        leField b (o + 1) 1 = 0 && leField b (o + 6) 2 = 0⟩)

/-- The BUNDLES section a quarter runs: its own, or the one its ALIAS names (R70). -/
def imgBundleSection (b : List Byte) (q : Nat) : Option Section :=
  match imgQuarterSection b 1 q with
  | some s => some s
  | none =>
    match imgQuarterSection b 2 q with
    | none => none
    | some a => imgQuarterSection b 1 (leField b a.off 2)

/-- The bundles of a quarter as 512-bit numbers. -/
def imgBundles (b : List Byte) (q : Nat) : List Nat :=
  match imgBundleSection b q with
  | none => []
  | some s => (List.range s.count).map (fun i => leField b (s.off + 64 * i) 64)

end Sys2Proof.Machine
end

