-- ==== Sys2Proof/Machine/Bundle.lean ====
section
/-! DEFINITION. The bundles of a step program (R71 to R73): their slots, operations and operand fields, the bundle that a
frame cycle falls on (R31, R65), and how a bundle spells a core's instruction. -/

namespace Sys2Proof.Machine

/-- First bit and width of the seven slots of a bundle (R71): matrix, vector, special, scalar, pane, bond, lattice. -/
def slotBits : List (Nat × Nat) := [(0, 128), (128, 96), (224, 32), (256, 64), (320, 48), (368, 96), (464, 48)]

/-- Slot `i` of a bundle. -/
def bundleSlot (x i : Nat) : Nat :=
  match slotBits[i]? with
  | none => 0
  | some (o, w) => x / 2 ^ o % 2 ^ w

/-- The widths of an operation's operand fields (R59, R71, R72); none for a reserved opcode. The flag says that the
spec gives the whole layout, so that the bits above it must be zero. What R71, R72 and R59 leave open is settled so
(DESIGN CHOICE, log 98): TLD, BLD and BST name their pane line by the 22-bit field of VLD; an MMA.K4 or MMA.K4S with an F8
b still holds two table-register fields; the second operand of a scalar instruction has the 32 bits of an immediate, whose
low 4 bits may name a register; LRECV has the fields of LSEND; and the operands of VSUMR and VMAXR, whose lane has no
width, are not cut. -/
def fieldWidths (slot op : Nat) : Option (List Nat × Bool) :=
  match slot with
  | 0 =>
    if 1 ≤ op ∧ op ≤ 6 then some ([3, 5, 22, 28, 28, 3, 3, 1], true)
    else if op = 8 then some ([3, 5, 22, 28, 1, 1, 1], true)
    else if op = 0xC then some ([3, 5, 22, 28, 1], true)
    else none
  | 1 =>
    if op = 4 ∨ op = 0x24 then some ([5, 5, 5, 5, 5], true)
    else if op = 7 then some ([5, 5, 5], true)
    else if op = 0x10 then some ([3, 5, 5, 3, 1], true)
    else if op = 0x18 then some ([5, 5, 3, 3, 1, 3], true)
    else if (1 ≤ op ∧ op ≤ 6) ∨ (0x20 ≤ op ∧ op ≤ 0x26) ∨ (0x28 ≤ op ∧ op ≤ 0x2A) then some ([5, 5, 5, 5], true)
    else if op = 0x30 ∨ op = 0x31 then some ([], false)
    else none
  | 2 => if op = 3 then some ([5, 5, 5, 5], true) else if 1 ≤ op ∧ op ≤ 9 then some ([5, 5, 5], true) else none
  | 3 =>
    if op = 0x10 then some ([32, 16, 3], true)
    else if op = 0xA ∨ op = 0xF then some ([4, 4], true)
    else if op = 0xE then some ([4, 32], true)
    else if 1 ≤ op ∧ op ≤ 0xF then some ([4, 4, 32], true)
    else none
  | 4 =>
    if op = 1 ∨ op = 2 then some ([5, 22], true)
    else if op = 3 then some ([3, 22], true)
    else if op = 4 ∨ op = 5 then some ([4, 28], true)
    else none
  | 5 => if op = 1 then some ([22, 28, 14, 3], true) else if op = 2 then some ([22, 28, 14, 3, 11], true) else none
  | 6 => if op = 1 ∨ op = 2 then some ([22, 9, 9], true) else none
  | _ => none

/-- Cut a number into fields, lowest first, with what is left above them. -/
def cutFields : List Nat → Nat → List Nat × Nat
  | [], v => ([], v)
  | w :: ws, v =>
    let r := cutFields ws (v / 2 ^ w)
    (v % 2 ^ w :: r.1, r.2)

/-- An operation of a bundle: its slot, opcode and operand fields. -/
structure SlotOp where
  slot : Nat
  op : Nat
  fields : List Nat
  deriving DecidableEq, Repr

/-- Field `i` of an operation. -/
def SlotOp.get (x : SlotOp) (i : Nat) : Nat := x.fields.getD i 0

/-- The operations of a bundle, empty slots left out. -/
def bundleOps (x : Nat) : List SlotOp :=
  (List.range 7).filterMap (fun i =>
    let v := bundleSlot x i
    let op := v % 256
    match fieldWidths i op with
    | none => none
    | some (ws, _) => some ⟨i, op, (cutFields ws (v / 256)).1⟩)

/-- A counted loop of a bundle: trip count, last bundle and level. -/
def bundleLoop (x : Nat) : Option (Nat × Nat × Nat) :=
  ((bundleOps x).find? (fun o => o.slot = 3 && o.op = 0x10)).map (fun o => (o.get 0, o.get 1, o.get 2))

/-- The frame cycles that bundles `i` to `stop − 1` take, every loop of theirs run through (R65, R73); `n` bounds the
walk. -/
def spanCycles (xs : List Nat) : Nat → Nat → Nat → Nat
  | 0, _, _ => 0
  | n + 1, i, stop =>
    if stop ≤ i then 0
    else
      match bundleLoop (xs.getD i 0) with
      | none => 1 + spanCycles xs n (i + 1) stop
      | some (trip, last, _) => 1 + trip * spanCycles xs n (i + 1) (last + 1) + spanCycles xs n (last + 1) stop

/-- The index of the bundle that cycle `cyc` of the run of bundles `i` to `stop − 1` falls on (R31, R65); `n` bounds the
walk. -/
def bundleIndex (xs : List Nat) : Nat → Nat → Nat → Nat → Option Nat
  | 0, _, _, _ => none
  | n + 1, i, stop, cyc =>
    if stop ≤ i then none
    else if cyc = 0 then some i
    else
      match bundleLoop (xs.getD i 0) with
      | none => bundleIndex xs n (i + 1) stop (cyc - 1)
      | some (trip, last, _) =>
        let body := spanCycles xs n (i + 1) (last + 1)
        if cyc - 1 < trip * body then bundleIndex xs n (i + 1) (last + 1) ((cyc - 1) % body)
        else bundleIndex xs n (last + 1) stop (cyc - 1 - trip * body)

/-- The index of the bundle that a quarter of a program issues at a frame cycle; none past its last one (R65). -/
def issueIndex (xs : List Nat) (cyc : Nat) : Option Nat := bundleIndex xs xs.length 0 xs.length cyc

/-! ### How a bundle spells an instruction -/

/-- What a bundle must hold for a core to issue an instruction: the slot, the opcode, and a test of each operand field. -/
structure Spelling where
  slot : Nat
  op : Nat
  tests : List (Nat → Bool)

/-- A field that holds a number. -/
def isNum (n v : Nat) : Bool := v = n

/-- A lane mask field (R72): bit 4 clear for no mask, or set above the number of the scalar register. -/
def isMask (m : Mask) (v : Nat) : Bool :=
  match m with
  | none => ! bitOf v 4
  | some r => v = 16 + r.val

/-- An address field whose base has `w` bits (R72). -/
def isAddr (w : Nat) (a : PAddr) (v : Nat) : Bool := v % 2 ^ w = a.base && v / 2 ^ w = a.expr.val

/-- A format's number (R72). -/
def fmtNum : Fmt → Nat
  | .fp32 => 0
  | .bf16 => 1
  | .e4m3 => 2
  | .e5m2 => 3
  | .k4 => 4
  | .int16 => 5

/-- An F8 encoding's number (R72). -/
def f8Num : F8 → Nat
  | .e4m3 => 0
  | .e5m2 => 1

/-- The place of a b format among the three opcodes of an MMA (R71). -/
def bFmtNum : BFmt → Nat
  | .k4 => 0
  | .e4m3 => 1
  | .e5m2 => 2

/-- The second operand of a scalar instruction: the field holds the register's number or the immediate (log 98). -/
def isSOp (x : SOperand) (v : Nat) : Bool :=
  match x with
  | .reg r => v = r.val
  | .imm i => v = i.toNat

/-- A vector instruction: its registers, then its mask. -/
def vecSpell (op : Nat) (rs : List (Fin 32)) (m : Mask) : Spelling := ⟨1, op, rs.map (fun r => isNum r.val) ++ [isMask m]⟩

/-- A special function: its registers, then its mask. -/
def specSpell (op : Nat) (rs : List (Fin 32)) (m : Mask) : Spelling := ⟨2, op, rs.map (fun r => isNum r.val) ++ [isMask m]⟩

/-- A scalar instruction of two operands. -/
def scalSpell (op : Nat) (sd sa : Fin 16) (sb : SOperand) : Spelling := ⟨3, op, [isNum sd.val, isNum sa.val, isSOp sb]⟩

/-- An MMA with a K4 A operand; `op` is the opcode with a K4 b. -/
def mmaSpell (op : Nat) (acc : Fin 8) (col : Fin 32) (a scale : PAddr) (bFmt : BFmt) (b : PAddr) (ktA ktB : Fin 8) (z : Bool) :
    Spelling :=
  ⟨0, op + bFmtNum bFmt, [isNum acc.val, isNum col.val, isAddr 14 a, isAddr 20 scale, isAddr 20 b, isNum ktA.val,
    isNum ktB.val, isNum (b2n z)]⟩

/-- How a bundle spells each instruction of a core (R59, R71, R72); a command that no bundle issues has none. -/
def spelling : Instr → Option Spelling
  | .mmaK4 _ _ acc col a sc bf b ka kb z => some (mmaSpell 1 acc col a sc bf b ka kb z)
  | .mmaK4s _ _ acc col a sc bf b ka kb z => some (mmaSpell 4 acc col a sc bf b ka kb z)
  | .mmaF8 _ _ acc col a b ea eb z =>
    some ⟨0, 8, [isNum acc.val, isNum col.val, isAddr 14 a, isAddr 20 b, isNum (f8Num ea), isNum (f8Num eb), isNum (b2n z)]⟩
  | .mmaBf16 _ _ acc col a b z => some ⟨0, 0xC, [isNum acc.val, isNum col.val, isAddr 14 a, isAddr 20 b, isNum (b2n z)]⟩
  | .accrd _ _ acc col vd f n =>
    some ⟨1, 0x10, [isNum acc.val, isNum col.val, isNum vd.val, isNum (fmtNum f), isNum (b2n n)]⟩
  | .vadd _ _ vd va vb m => some (vecSpell 1 [vd, va, vb] m)
  | .vsub _ _ vd va vb m => some (vecSpell 2 [vd, va, vb] m)
  | .vmul _ _ vd va vb m => some (vecSpell 3 [vd, va, vb] m)
  | .vfma _ _ vd va vb vc m => some (vecSpell 4 [vd, va, vb, vc] m)
  | .vmax _ _ vd va vb m => some (vecSpell 5 [vd, va, vb] m)
  | .vmin _ _ vd va vb m => some (vecSpell 6 [vd, va, vb] m)
  | .vabs _ _ vd va m => some (vecSpell 7 [vd, va] m)
  | .vcvt _ _ vd va src dst n kt =>
    some ⟨1, 0x18, [isNum vd.val, isNum va.val, isNum (fmtNum src), isNum (fmtNum dst), isNum (b2n n), isNum kt.val]⟩
  | .vaddI16 _ _ vd va vb m => some (vecSpell 0x20 [vd, va, vb] m)
  | .vsubI16 _ _ vd va vb m => some (vecSpell 0x21 [vd, va, vb] m)
  | .vmulI16 _ _ vd va vb m => some (vecSpell 0x22 [vd, va, vb] m)
  | .vmulhI16 _ _ vd va vb m => some (vecSpell 0x23 [vd, va, vb] m)
  | .vmaddI16 _ _ vd va vb vc m => some (vecSpell 0x24 [vd, va, vb, vc] m)
  | .vshlI16 _ _ vd va vb m => some (vecSpell 0x25 [vd, va, vb] m)
  | .vshrI16 _ _ vd va vb m => some (vecSpell 0x26 [vd, va, vb] m)
  | .vaddI16W _ _ vd va vb m => some (vecSpell 0x28 [vd, va, vb] m)
  | .vsubI16W _ _ vd va vb m => some (vecSpell 0x29 [vd, va, vb] m)
  | .vmulI16W _ _ vd va vb m => some (vecSpell 0x2A [vd, va, vb] m)
  | .vsumr .. => some ⟨1, 0x30, []⟩
  | .vmaxr .. => some ⟨1, 0x31, []⟩
  | .vexp2 _ _ vd va m => some (specSpell 1 [vd, va] m)
  | .vexp _ _ vd va m => some (specSpell 2 [vd, va] m)
  | .vexpsub _ _ vd va vm m => some (specSpell 3 [vd, va, vm] m)
  | .vrcp _ _ vd va m => some (specSpell 4 [vd, va] m)
  | .vrsqrt _ _ vd va m => some (specSpell 5 [vd, va] m)
  | .vsigm _ _ vd va m => some (specSpell 6 [vd, va] m)
  | .vsilu _ _ vd va m => some (specSpell 7 [vd, va] m)
  | .vtanh _ _ vd va m => some (specSpell 8 [vd, va] m)
  | .verf _ _ vd va m => some (specSpell 9 [vd, va] m)
  | .scAdd _ _ sd sa sb => some (scalSpell 1 sd sa sb)
  | .scSub _ _ sd sa sb => some (scalSpell 2 sd sa sb)
  | .scMul _ _ sd sa sb => some (scalSpell 3 sd sa sb)
  | .scShl _ _ sd sa sb => some (scalSpell 4 sd sa sb)
  | .scShr _ _ sd sa sb => some (scalSpell 5 sd sa sb)
  | .scSar _ _ sd sa sb => some (scalSpell 6 sd sa sb)
  | .scAnd _ _ sd sa sb => some (scalSpell 7 sd sa sb)
  | .scOr _ _ sd sa sb => some (scalSpell 8 sd sa sb)
  | .scXor _ _ sd sa sb => some (scalSpell 9 sd sa sb)
  | .scNot _ _ sd sa => some ⟨3, 0xA, [isNum sd.val, isNum sa.val]⟩
  | .scCeq _ _ sd sa sb => some (scalSpell 0xB sd sa sb)
  | .scClt _ _ sd sa sb => some (scalSpell 0xC sd sa sb)
  | .scCltu _ _ sd sa sb => some (scalSpell 0xD sd sa sb)
  | .scMovi _ _ sd imm => some ⟨3, 0xE, [isNum sd.val, isNum imm.toNat]⟩
  | .scMov _ _ sd sa => some ⟨3, 0xF, [isNum sd.val, isNum sa.val]⟩
  | .loop _ _ level trip last => some ⟨3, 0x10, [isNum trip, isNum last, isNum level.val]⟩
  | .vld _ _ v a _ => some ⟨4, 1, [isNum v.val, isAddr 14 a]⟩
  | .vst _ _ v a => some ⟨4, 2, [isNum v.val, isAddr 14 a]⟩
  | .tld _ _ kt a => some ⟨4, 3, [isNum kt.val, isAddr 14 a]⟩
  | .sld _ _ sr a => some ⟨4, 4, [isNum sr.val, isAddr 20 a]⟩
  | .sst _ _ sr a => some ⟨4, 5, [isNum sr.val, isAddr 20 a]⟩
  | .bld _ _ pane sliver lines mode _ =>
    some ⟨5, 1, [isAddr 14 pane, isAddr 20 sliver, fun v => v + 1 = lines, isNum mode.val]⟩
  | .bst _ _ pane sliver lines mode tag =>
    some ⟨5, 2, [isAddr 14 pane, isAddr 20 sliver, fun v => v + 1 = lines, isNum mode.val,
      fun v => match tag with | none => ! bitOf v 10 | some t => v = 1024 + t.val]⟩
  | .lsend _ _ pane dst beats => some ⟨6, 1, [isAddr 14 pane, isNum dst.val, fun v => v + 1 = beats]⟩
  | .lrecv _ _ pane beats => some ⟨6, 2, [isAddr 14 pane, fun _ => true, fun v => v + 1 = beats]⟩
  | _ => none

/-- Whether a bundle spells an instruction: its slot holds the opcode, and each operand field its value. -/
def bundleSpells (x : Nat) (i : Instr) : Bool :=
  match spelling i with
  | none => false
  | some y =>
    let v := bundleSlot x y.slot
    v % 256 = y.op && (match fieldWidths y.slot y.op with
      | none => false
      | some (ws, _) => (y.tests.zip (cutFields ws (v / 256)).1).all (fun p => p.1 p.2))

end Sys2Proof.Machine
end

