-- ==== Sys2Proof/Machine/Fp.lean ====
section
/-! DEFINITION. Exact floating-point values, the decoding of every element format into them, and the one
rounding to nearest, ties to even, that every arithmetic result of a core goes through (R38 to R41, R46). -/

namespace Sys2Proof.Machine

/-- The value of a floating-point element: NaN, an infinity, or (-1)^neg * m * 2^e. -/
inductive FVal where
  | nan
  | inf (neg : Bool)
  | fin (neg : Bool) (m : Nat) (e : Int)
  deriving DecidableEq, Repr

/-- A dyadic number m * 2^e. -/
structure Dy where
  m : Int
  e : Int
  deriving DecidableEq, Repr

/-- A dyadic number written with a smaller exponent. -/
def dyAt (x : Dy) (e : Int) : Int := x.m * 2 ^ (x.e - e).toNat

/-- Exact sum. -/
def dyAdd (x y : Dy) : Dy :=
  let e := min x.e y.e
  ⟨dyAt x e + dyAt y e, e⟩

/-- Exact product. -/
def dyMul (x y : Dy) : Dy := ⟨x.m * y.m, x.e + y.e⟩

/-- Exact negation. -/
def dyNeg (x : Dy) : Dy := ⟨-x.m, x.e⟩

/-- Exact comparison x ≤ y. -/
def dyLe (x y : Dy) : Bool :=
  let e := min x.e y.e
  decide (dyAt x e ≤ dyAt y e)

/-- Exact comparison x < y. -/
def dyLt (x y : Dy) : Bool := ! dyLe y x

/-- The magnitude of a dyadic number. -/
def dyAbs (x : Dy) : Dy := ⟨x.m.natAbs, x.e⟩

/-- The dyadic number of a finite value; zero for the others, which callers treat first. -/
def FVal.dy : FVal → Dy
  | .nan => ⟨0, 0⟩
  | .inf _ => ⟨0, 0⟩
  | .fin neg m e => ⟨if neg then -(m : Int) else m, e⟩

/-- Whether a value is NaN. -/
def FVal.isNan : FVal → Bool
  | .nan => true
  | _ => false

/-- Whether a value is an infinity. -/
def FVal.isInf : FVal → Bool
  | .inf _ => true
  | _ => false

/-- The sign of a value. -/
def FVal.neg : FVal → Bool
  | .nan => false
  | .inf n => n
  | .fin n _ _ => n

/-- Whether a value is a zero of either sign. -/
def FVal.isZero : FVal → Bool
  | .fin _ m _ => m = 0
  | _ => false

/-- The value with the other sign. -/
def FVal.flip : FVal → FVal
  | .nan => .nan
  | .inf n => .inf (!n)
  | .fin n m e => .fin (!n) m e

/-- The finite value of an element with `mb` mantissa bits, biased exponent `x` and mantissa `f`; `emin` is the
exponent of the least subnormal. -/
def finOf (mb : Nat) (emin : Int) (neg : Bool) (x f : Nat) : FVal :=
  if x = 0 then .fin neg f emin else .fin neg (2 ^ mb + f) (emin + (x : Int) - 1)

/-- FP32 is IEEE 754 binary32 (R39). -/
def fp32Val (w : Word) : FVal :=
  let b := w.toNat
  let neg := bitOf b 31
  let x := bits b 23 30
  let f := bits b 0 22
  if x = 255 then (if f = 0 then .inf neg else .nan) else finOf 23 (-149) neg x f

/-- BF16 is the upper half of binary32 (R39). -/
def bf16Val (w : Nat) : FVal :=
  let neg := bitOf w 15
  let x := bits w 7 14
  let f := bits w 0 6
  if x = 255 then (if f = 0 then .inf neg else .nan) else finOf 7 (-133) neg x f

/-- E4M3 (R38): no infinity; NaN is S.1111.111. -/
def e4m3Val (b : Nat) : FVal :=
  let neg := bitOf b 7
  let x := bits b 3 6
  let f := bits b 0 2
  if x = 15 ∧ f = 7 then .nan else finOf 3 (-9) neg x f

/-- E5M2 (R38). -/
def e5m2Val (b : Nat) : FVal :=
  let neg := bitOf b 7
  let x := bits b 2 6
  let f := bits b 0 1
  if x = 31 then (if f = 0 then .inf neg else .nan) else finOf 2 (-16) neg x f

/-- The value of an F8 element in its encoding. -/
def f8Val : F8 → Nat → FVal
  | .e4m3, b => e4m3Val b
  | .e5m2, b => e5m2Val b

/-- The value of an INT16 element. -/
def int16Val (h : Half) : FVal :=
  let i := h.toInt
  .fin (decide (i < 0)) i.natAbs 0

/-- m ÷ 2^k rounded to the nearest integer, ties to even. -/
def rneShift (m : Nat) (k : Int) : Nat :=
  if k ≤ 0 then m * 2 ^ (-k).toNat
  else
    let d := 2 ^ k.toNat
    let q := m / d
    let r := m % d
    if d < 2 * r ∨ (2 * r = d ∧ q % 2 = 1) then q + 1 else q

/-- The magnitude m * 2^e rounded to nearest, ties to even, on the grid of a format with `mb` mantissa bits
and least subnormal 2^emin, with no upper limit: the encoding without its sign, as a number. -/
def roundIdx (mb : Nat) (emin : Int) (m : Nat) (e : Int) : Nat :=
  if m = 0 then 0
  else
    let top : Int := (Nat.log2 m : Int) + e
    let qe := max (top - mb) emin
    (qe - emin).toNat * 2 ^ mb + rneShift m (qe - e)

/-- Canonical quiet NaN of FP32 (R40). -/
def fp32Nan : Word := 0x7FC00000#32

/-- An infinity of FP32. -/
def fp32Inf (neg : Bool) : Word := if neg then 0xFF800000#32 else 0x7F800000#32

/-- A result and whether a finite value became an infinity. -/
structure Rounded where
  bits : Word
  tooBig : Bool
  deriving DecidableEq, Repr

/-- A finite value rounded once to FP32 by RNE. -/
def fp32Round (neg : Bool) (m : Nat) (e : Int) : Rounded :=
  let i := roundIdx 23 (-149) m e
  if 0x7F800000 ≤ i then ⟨fp32Inf neg, true⟩
  else ⟨BitVec.ofNat 32 (i + b2n neg * 2 ^ 31), false⟩

/-- A dyadic number rounded once to FP32; a zero takes the sign given. -/
def fp32OfDy (zeroNeg : Bool) (x : Dy) : Rounded :=
  if x.m = 0 then fp32Round zeroNeg 0 0 else fp32Round (decide (x.m < 0)) x.m.natAbs x.e

/-- Flag bits of R63. -/
def flInvalid : BitVec 5 := 1
def flOverflow : BitVec 5 := 2
def flSaturate : BitVec 5 := 4
def flK4 : BitVec 5 := 8
def flInt16 : BitVec 5 := 16

/-- One element of a result and the flags its computation raises. -/
structure LaneRes (α : Type) where
  val : α
  flags : BitVec 5
  deriving DecidableEq, Repr

/-- The FP32 element of a rounded finite value, with OVERFLOW when it became an infinity. -/
def laneOf (r : Rounded) : LaneRes Word := ⟨r.bits, if r.tooBig then flOverflow else 0⟩

/-- The canonical NaN from operands none of which is NaN: INVALID is set (R63). -/
def laneInvalid : LaneRes Word := ⟨fp32Nan, flInvalid⟩

/-- The FP32 element of an exactly representable value. -/
def fp32OfVal : FVal → Word
  | .nan => fp32Nan
  | .inf n => fp32Inf n
  | .fin n m e => (fp32Round n m e).bits

/-- FP32 addition with one rounding (R54). -/
def fpAdd (x y : FVal) : LaneRes Word :=
  match x, y with
  | .nan, _ => ⟨fp32Nan, 0⟩
  | _, .nan => ⟨fp32Nan, 0⟩
  | .inf a, .inf b => if a = b then ⟨fp32Inf a, 0⟩ else laneInvalid
  | .inf a, .fin _ _ _ => ⟨fp32Inf a, 0⟩
  | .fin _ _ _, .inf b => ⟨fp32Inf b, 0⟩
  | .fin a m e, .fin b n f =>
    laneOf (fp32OfDy (a && b) (dyAdd (FVal.fin a m e).dy (FVal.fin b n f).dy))

/-- FP32 multiplication with one rounding (R54). -/
def fpMul (x y : FVal) : LaneRes Word :=
  match x, y with
  | .nan, _ => ⟨fp32Nan, 0⟩
  | _, .nan => ⟨fp32Nan, 0⟩
  | .inf a, .inf b => ⟨fp32Inf (a != b), 0⟩
  | .inf a, .fin b n _ => if n = 0 then laneInvalid else ⟨fp32Inf (a != b), 0⟩
  | .fin a m _, .inf b => if m = 0 then laneInvalid else ⟨fp32Inf (a != b), 0⟩
  | .fin a m e, .fin b n f => laneOf (fp32Round (a != b) (m * n) (e + f))

/-- FP32 fused multiply-add a × b + c with one rounding (R54). -/
def fpFma (x y z : FVal) : LaneRes Word :=
  match x, y with
  | .nan, _ => ⟨fp32Nan, 0⟩
  | _, .nan => ⟨fp32Nan, 0⟩
  | .fin a m e, .fin b n f =>
    match z with
    | .nan => ⟨fp32Nan, 0⟩
    | .inf c => ⟨fp32Inf c, 0⟩
    | .fin c k g =>
      laneOf (fp32OfDy ((a != b) && c) (dyAdd (FVal.fin (a != b) (m * n) (e + f)).dy (FVal.fin c k g).dy))
  | x, y =>
    if z.isNan then ⟨fp32Nan, 0⟩
    else if x.isZero || y.isZero then laneInvalid
    else
      let s := x.neg != y.neg
      if z.isInf && z.neg != s then laneInvalid else ⟨fp32Inf s, 0⟩

/-- Whether x < y for values that are not NaN, with −0 below +0 (R54). -/
def fpBelow (x y : FVal) : Bool :=
  match x, y with
  | .inf a, .inf b => a && !b
  | .inf a, _ => a
  | _, .inf b => !b
  | x, y => if x.isZero && y.isZero then x.neg && !y.neg else dyLt x.dy y.dy

/-- FP32 maximum: NaN if either operand is NaN; +0 above −0 (R54). -/
def fpMax (x y : FVal) : LaneRes Word :=
  if x.isNan || y.isNan then ⟨fp32Nan, 0⟩ else ⟨fp32OfVal (if fpBelow x y then y else x), 0⟩

/-- FP32 minimum: NaN if either operand is NaN (R54); −0 below +0 (DEDUCED, log 20). -/
def fpMin (x y : FVal) : LaneRes Word :=
  if x.isNan || y.isNan then ⟨fp32Nan, 0⟩ else ⟨fp32OfVal (if fpBelow x y then x else y), 0⟩

/-- FP32 absolute value (R54). -/
def fpAbs (x : FVal) : LaneRes Word :=
  match x with
  | .nan => ⟨fp32Nan, 0⟩
  | .inf _ => ⟨fp32Inf false, 0⟩
  | .fin _ m e => ⟨fp32OfVal (.fin false m e), 0⟩

/-- A conversion result: the element's bits as a number, and flags (R41, R42). -/
abbrev CvtRes := LaneRes Nat

/-- FP32 → BF16 (R41). -/
def toBf16 (x : FVal) : CvtRes :=
  match x with
  | .nan => ⟨0x7FC0, 0⟩
  | .inf n => ⟨0x7F80 + b2n n * 0x8000, 0⟩
  | .fin n m e =>
    let i := roundIdx 7 (-133) m e
    if 0x7F80 ≤ i then ⟨0x7F80 + b2n n * 0x8000, flOverflow⟩ else ⟨i + b2n n * 0x8000, 0⟩

/-- FP32 → E4M3 (R41): SAT clamps to ±448; NONSAT gives NaN from magnitude 464 on. A NONSAT magnitude between 448 and 464 gives
448 and counts as saturating (DESIGN CHOICE, log 99: R42 does not say). -/
def toE4m3 (nonsat : Bool) (x : FVal) : CvtRes :=
  match x with
  | .nan => ⟨0x7F, 0⟩
  | .inf n => if nonsat then ⟨0x7F, flInvalid⟩ else ⟨0x7E + b2n n * 0x80, flSaturate⟩
  | .fin n m e =>
    let mag : Dy := ⟨m, e⟩
    if dyLt ⟨448, 0⟩ mag then
      if nonsat then
        (if dyLe ⟨464, 0⟩ mag then ⟨0x7F, flInvalid⟩ else ⟨0x7E + b2n n * 0x80, flSaturate⟩)
      else ⟨0x7E + b2n n * 0x80, flSaturate⟩
    else ⟨roundIdx 3 (-9) m e + b2n n * 0x80, 0⟩

/-- FP32 → E5M2 (R41): SAT clamps to ±57,344; NONSAT gives ±inf from magnitude 61,440 on. A NONSAT magnitude between 57,344 and
61,440 gives 57,344 and counts as saturating (DESIGN CHOICE, log 99: R42 does not say). -/
def toE5m2 (nonsat : Bool) (x : FVal) : CvtRes :=
  match x with
  | .nan => ⟨0x7E, 0⟩
  | .inf n => if nonsat then ⟨0x7C + b2n n * 0x80, 0⟩ else ⟨0x7B + b2n n * 0x80, flSaturate⟩
  | .fin n m e =>
    let mag : Dy := ⟨m, e⟩
    if dyLt ⟨57344, 0⟩ mag then
      if nonsat then
        (if dyLe ⟨61440, 0⟩ mag then ⟨0x7C + b2n n * 0x80, flOverflow⟩
         else ⟨0x7B + b2n n * 0x80, flSaturate⟩)
      else ⟨0x7B + b2n n * 0x80, flSaturate⟩
    else ⟨roundIdx 2 (-16) m e + b2n n * 0x80, 0⟩

/-- FP32 → INT16: RNE to an integer, saturated; NaN gives 0 (R41, R42). -/
def toInt16 (x : FVal) : CvtRes :=
  match x with
  | .nan => ⟨0, flSaturate⟩
  | .inf n => ⟨if n then 0x8000 else 0x7FFF, flSaturate⟩
  | .fin n m e =>
    let q := if e ≥ 0 then (if m = 0 then 0 else if 16 < e then 0x10000 else m * 2 ^ e.toNat) else rneShift m (-e)
    if n then (if 0x8000 < q then ⟨0x8000, flSaturate⟩ else ⟨(0x10000 - q) % 0x10000, 0⟩)
    else (if 0x7FFF < q then ⟨0x7FFF, flSaturate⟩ else ⟨q, 0⟩)

/-- Table entry c of a K4 table (R34). -/
def ktEntry (t : KTable) (c : Nat) : Int := ((t >>> (8 * c)).truncate 8 : BitVec 8).toInt

/-- The value of a K4 code under a scale byte (R34): NaN in an invalid block. -/
def k4Val (t : KTable) (scale code : Nat) : FVal :=
  if scale = 0xFF then .nan
  else
    let v := ktEntry t code
    .fin (decide (v < 0)) v.natAbs ((scale : Int) - 127)

/-- Code e of a packed K4 block (R35). -/
def k4Code (bytes : List Byte) (e : Nat) : Nat :=
  let b := (bytes.getD (e / 2) 0).toNat
  if e % 2 = 0 then b % 16 else b / 16

/-- The block rule's choice for one element (R43): the entry nearest to x; a tie goes to the smaller magnitude,
then to the lower code. -/
def k4Nearest (t : KTable) (s : Nat) (x : Dy) : Nat :=
  let g (j : Nat) : Dy := ⟨ktEntry t j, (s : Int) - 127⟩
  let dist (j : Nat) : Dy := dyAbs (dyAdd x (dyNeg (g j)))
  (List.range 16).foldl (fun best j =>
    if dyLt (dist j) (dist best) then j
    else if dyLt (dist best) (dist j) then best
    else if dyLt (dyAbs (g j)) (dyAbs (g best)) then j else best) 0

/-- The result of FP32 → K4 on a block: scale byte, codes, flags. -/
structure K4Block where
  scale : Nat
  codes : List Nat
  flags : BitVec 5
  deriving DecidableEq, Repr

/-- FP32 → K4 by the block rule (R43); an element beyond the grid's reach sets SATURATE, and an invalid block, whose every
element is NaN, sets INVALID when an element of it was not (R42). -/
def toK4 (t : KTable) (xs : List FVal) : K4Block :=
  if xs.any (fun x => x.isNan || x.isInf) then ⟨0xFF, xs.map (fun _ => 0), if xs.all FVal.isNan then 0 else flInvalid⟩
  else
    let m := xs.foldl (fun acc x => if dyLt acc (dyAbs x.dy) then dyAbs x.dy else acc) ⟨0, 0⟩
    let tmax := (List.range 16).foldl (fun acc j => max acc (ktEntry t j).natAbs) 0
    let s :=
      if tmax = 0 ∨ m.m = 0 then 0
      else (firstBelow 255 (fun s => dyLe m ⟨tmax, (s : Int) - 127⟩)).getD 254
    let hi := (List.range 16).foldl (fun acc j => max acc (ktEntry t j)) (ktEntry t 0)
    let lo := (List.range 16).foldl (fun acc j => min acc (ktEntry t j)) (ktEntry t 0)
    let far := xs.any (fun x => dyLt ⟨hi, (s : Int) - 127⟩ x.dy || dyLt x.dy ⟨lo, (s : Int) - 127⟩)
    ⟨s, xs.map (fun x => k4Nearest t s x.dy), if far then flSaturate else 0⟩

/-- The exact sum of the products of an MMA column (R46), and the special values of R50. -/
structure MacSum where
  sum : Dy
  nan : Bool
  pos : Bool
  neg : Bool
  invalid : Bool
  deriving DecidableEq, Repr

/-- Add one product to a column sum. -/
def macStep (acc : MacSum) (p : FVal × FVal) : MacSum :=
  match p with
  | (.nan, _) => { acc with nan := true }
  | (_, .nan) => { acc with nan := true }
  | (.fin a m e, .fin b n f) => { acc with sum := dyAdd acc.sum (FVal.fin (a != b) (m * n) (e + f)).dy }
  | (x, y) =>
    if x.isZero || y.isZero then { acc with invalid := true }
    else if x.neg != y.neg then { acc with neg := true } else { acc with pos := true }

/-- Add the accumulator element to a column sum. -/
def macAcc (acc : MacSum) (x : FVal) : MacSum :=
  match x with
  | .nan => { acc with nan := true }
  | .inf n => if n then { acc with neg := true } else { acc with pos := true }
  | .fin _ _ _ => { acc with sum := dyAdd acc.sum x.dy }

/-- Round a column sum once to FP32, with the special values and flags of R50. -/
def macRound (a : MacSum) : LaneRes Word :=
  if a.nan then ⟨fp32Nan, 0⟩
  else if a.invalid || (a.pos && a.neg) then laneInvalid
  else if a.pos then ⟨fp32Inf false, 0⟩
  else if a.neg then ⟨fp32Inf true, 0⟩
  else laneOf (fp32OfDy false a.sum)

/-- One accumulator element of MMA.K4, MMA.K4S and MMA.F8 (R46, R49, R50). -/
def mmaExact (acc : Option FVal) (row : List (FVal × FVal)) : LaneRes Word :=
  let s := row.foldl macStep ⟨⟨0, 0⟩, false, false, false, false⟩
  macRound (match acc with | none => s | some a => macAcc s a)

/-- The exponent of a nonzero finite magnitude. -/
def magExp (m : Nat) (e : Int) : Int := (Nat.log2 m : Int) + e

/-- A term of MMA.BF16 truncated toward zero to a multiple of 2^q (R47). -/
def truncTo (q : Int) (neg : Bool) (m : Nat) (e : Int) : Dy :=
  let k := if e ≥ q then m * 2 ^ (e - q).toNat else m / 2 ^ (q - e).toNat
  ⟨if neg then -(k : Int) else k, q⟩

/-- The nonzero finite products of a BF16 column. -/
def bfTerms (row : List (FVal × FVal)) : List (Bool × Nat × Int) :=
  row.filterMap (fun p => match p with
    | (.fin a m e, .fin b n f) => if m * n = 0 then none else some (a != b, m * n, e + f)
    | _ => none)

/-- The exponents that E of R47 is the largest of: those of the nonzero products and of a nonzero accumulator element. -/
def bfExps (acc : Option FVal) (row : List (FVal × FVal)) : List Int :=
  let ps := (bfTerms row).map (fun u => magExp u.2.1 u.2.2)
  match acc with
  | some (.fin _ k g) => if k = 0 then ps else magExp k g :: ps
  | _ => ps

/-- One accumulator element of MMA.BF16 (R47, R49, R50): each product truncated to a multiple of 2^(E − 62), and their sum
with the accumulator exact (log 62). -/
def mmaBf16 (acc : Option FVal) (row : List (FVal × FVal)) : LaneRes Word :=
  let sp := row.foldl macStep ⟨⟨0, 0⟩, false, false, false, false⟩
  let es := bfExps acc row
  let q := es.foldl max (es.headD 0) - 62
  let sum := (bfTerms row).foldl (fun s u => dyAdd s (truncTo q u.1 u.2.1 u.2.2)) ⟨0, q⟩
  let sp := { sp with sum := sum }
  macRound (match acc with | none => sp | some a => macAcc sp a)

end Sys2Proof.Machine
end

