-- ==== Sys2Proof/Machine/Codec.lean ====
section
/-! DEFINITION. The stored forms of a tile: CODEC bytes, the 64-byte header, the codes ZMASK, XEXP and K4R, the
encoder and the decoder (R162 to R169). -/

namespace Sys2Proof.Machine

/-- Bytes of a tile. -/
def tileBytes : Nat := 16384

/-- MODE of a CODEC byte (R162). -/
def codecMode (c : Nat) : Nat := bits c 0 2

/-- K4R of a CODEC byte (R162). -/
def codecK4r (c : Nat) : Bool := bitOf c 3

/-- TABLE of a CODEC byte (R162). -/
def codecTable (c : Nat) : Nat := bits c 4 7

/-- Whether R162 allows a CODEC byte. -/
def codecValid (c : Nat) : Bool :=
  decide (c < 256) && (if codecK4r c then decide (6 ≤ codecMode c) else codecTable c = 0)

/-- CRC-32C: one bit step of the reflected Castagnoli polynomial. -/
def crcBits : Nat → Nat → Nat
  | 0, x => x
  | n + 1, x => crcBits n (if x % 2 = 1 then (x / 2) ^^^ 0x82F63B78 else x / 2)

/-- CRC-32C of bytes, initial value and final XOR 0xFFFF_FFFF (R163). -/
def crc32c (bs : List Byte) : Nat :=
  (bs.foldl (fun c b => crcBits 8 (c ^^^ b.toNat)) 0xFFFFFFFF) ^^^ 0xFFFFFFFF

/-- Cut a list into pieces of `w` elements, at most `n` pieces. -/
def chunks {α : Type} (w : Nat) : Nat → List α → List (List α)
  | 0, _ => []
  | n + 1, xs => xs.take w :: chunks w n (xs.drop w)

/-- Element width in bytes of a MODE (R162). -/
def modeWidth (m : Nat) : Nat :=
  if m = 2 then 2 else if m = 3 then 4 else if m = 6 then 2 else if m = 7 then 4 else 1

/-- Lowest bit of the exponent field of an XEXP element (R166). -/
def expLow (m : Nat) : Nat := if m = 4 then 3 else if m = 5 then 2 else if m = 6 then 7 else 23

/-- Width of the exponent field of an XEXP element (R38, R39). -/
def expWidth (m : Nat) : Nat := if m = 4 then 4 else if m = 5 then 5 else 8

/-- Numbers of `w` bits packed least significant bit first. -/
def packBits (w : Nat) : List Nat → Nat
  | [] => 0
  | x :: xs => x % 2 ^ w + 2 ^ w * packBits w xs

/-- Unpack `n` numbers of `w` bits. -/
def unpackBits (w : Nat) : Nat → Nat → List Nat
  | 0, _ => []
  | n + 1, v => v % 2 ^ w :: unpackBits w n (v / 2 ^ w)

/-- One ZMASK group of 32 plain bytes (R165). -/
def zmaskGroup (w : Nat) (plain : List Byte) : List Byte :=
  let els := chunks w (32 / w) plain
  let nz := els.map (fun e => e.any (· ≠ 0))
  natLe (ceilDiv 32 (8 * w)) (packBits 1 (nz.map b2n)) ++ (els.filter (fun e => e.any (· ≠ 0))).flatten

/-- The exponent field and the remainder of an element (R166). -/
def xexpSplit (m x : Nat) : Nat × Nat :=
  let lo := expLow m
  let e := expWidth m
  (x / 2 ^ lo % 2 ^ e, x % 2 ^ lo + x / 2 ^ (lo + e) * 2 ^ lo)

/-- The element of an exponent field and a remainder. -/
def xexpJoin (m ex rest : Nat) : Nat :=
  let lo := expLow m
  let e := expWidth m
  rest % 2 ^ lo + (ex % 2 ^ e) * 2 ^ lo + rest / 2 ^ lo * 2 ^ (lo + e)

/-- One XEXP group of 32 elements (R166). -/
def xexpGroup (m : Nat) (plain : List Byte) : List Byte :=
  let w := modeWidth m
  let els := (chunks w 32 plain).map (fun e => xexpSplit m (leNat e))
  let mn := els.foldl (fun a p => min a p.1) 255
  let mx := els.foldl (fun a p => max a p.1) 0
  let k := if mx ≤ mn then 0 else Nat.log2 (mx - mn) + 1
  [BitVec.ofNat 8 mn, BitVec.ofNat 8 k] ++ natLe (4 * k) (packBits k (els.map (fun p => p.1 - mn)))
    ++ natLe (32 * (8 * w - expWidth m) / 8) (packBits (8 * w - expWidth m) (els.map (·.2)))

/-- The value of a source element of K4R (R167): BF16 or FP32. -/
def srcVal (m x : Nat) : FVal := if m = 6 then bf16Val x else fp32Val (BitVec.ofNat 32 x)

/-- One K4R group of 32 elements: scale byte, then 16 bytes of codes (R167). -/
def k4rGroup (m : Nat) (t : KTable) (plain : List Byte) : List Byte :=
  let els := (chunks (modeWidth m) 32 plain).map (fun e => srcVal m (leNat e))
  let b := toK4 t els
  [BitVec.ofNat 8 b.scale] ++ natLe 16 (packBits 4 b.codes)

/-- Plain bytes one group of a CODEC byte covers. -/
def groupPlain (c : Nat) : Nat :=
  if codecMode c < 4 then 32 else 32 * modeWidth (codecMode c)

/-- One coded group under a CODEC byte. -/
def codeGroup (c : Nat) (t : KTable) (plain : List Byte) : List Byte :=
  if codecK4r c then k4rGroup (codecMode c) t plain
  else if codecMode c < 4 then zmaskGroup (modeWidth (codecMode c)) plain
  else xexpGroup (codecMode c) plain

/-- Running offsets of sub-streams from byte 64. -/
def subOffsets (o : Nat) : List (List Byte) → List Nat
  | [] => []
  | s :: ss => o :: subOffsets (o + s.length) ss

/-- Take `n` bytes of a coded stream; none when it is too short. -/
def takeN (n : Nat) (bs : List Byte) : Option (List Byte × List Byte) :=
  if bs.length < n then none else some (bs.take n, bs.drop n)

/-- Place the coded elements of a ZMASK group by its mask. -/
def zmaskFill (w : Nat) : List Bool → List Byte → Option (List Byte × List Byte)
  | [], bs => some ([], bs)
  | b :: ms, bs =>
    if b then
      match takeN w bs with
      | none => none
      | some (e, r) =>
        match zmaskFill w ms r with
        | none => none
        | some (p, r') => some (e ++ p, r')
    else
      match zmaskFill w ms bs with
      | none => none
      | some (p, r') => some (List.replicate w 0 ++ p, r')

/-- Decode one ZMASK group. -/
def zmaskUngroup (w : Nat) (bs : List Byte) : Option (List Byte × List Byte) :=
  match takeN (ceilDiv 32 (8 * w)) bs with
  | none => none
  | some (m, r) => zmaskFill w ((List.range (32 / w)).map (fun i => bitOf (leNat m) i)) r

/-- Decode one XEXP group. -/
def xexpUngroup (m : Nat) (bs : List Byte) : Option (List Byte × List Byte) :=
  let w := modeWidth m
  let rw := 8 * w - expWidth m
  match takeN 2 bs with
  | none => none
  | some (h, r) =>
    let mn := leField h 0 1
    let k := leField h 1 1
    match takeN (4 * k) r with
    | none => none
    | some (d, r2) =>
      match takeN (32 * rw / 8) r2 with
      | none => none
      | some (q, r3) =>
        let ds := unpackBits k 32 (leNat d)
        let qs := unpackBits rw 32 (leNat q)
        some (((ds.zip qs).map (fun p => natLe w (xexpJoin m (mn + p.1) p.2))).flatten, r3)

/-- A decoded K4R value rounded to its source format, saturated at the largest finite value (R167). DEDUCED, log
21: SAT saturation clamps to the largest finite value of the source format. -/
def k4rRound (m : Nat) (x : FVal) : Nat :=
  if m = 6 then
    match x with
    | .nan => 0x7FC0
    | .inf n => 0x7F7F + b2n n * 0x8000
    | .fin n a e => min (roundIdx 7 (-133) a e) 0x7F7F + b2n n * 0x8000
  else
    match x with
    | .nan => 0x7FC00000
    | .inf n => 0x7F7FFFFF + b2n n * 0x80000000
    | .fin n a e => min (roundIdx 23 (-149) a e) 0x7F7FFFFF + b2n n * 0x80000000

/-- Decode one K4R group. -/
def k4rUngroup (m : Nat) (t : KTable) (bs : List Byte) : Option (List Byte × List Byte) :=
  match takeN 17 bs with
  | none => none
  | some (g, r) =>
    some (((List.range 32).map (fun e =>
      natLe (modeWidth m) (k4rRound m (k4Val t (leField g 0 1) (k4Code (g.drop 1) e))))).flatten, r)

/-- Decode one group under a CODEC byte. -/
def uncodeGroup (c : Nat) (t : KTable) (bs : List Byte) : Option (List Byte × List Byte) :=
  if codecK4r c then k4rUngroup (codecMode c) t bs
  else if codecMode c < 4 then zmaskUngroup (modeWidth (codecMode c)) bs
  else xexpUngroup (codecMode c) bs

/-- Decode a sub-stream of `n` groups, which must be consumed exactly (R164). -/
def uncodeSub (c : Nat) (t : KTable) : Nat → List Byte → Option (List Byte)
  | 0, bs => if bs = [] then some [] else none
  | n + 1, bs =>
    match uncodeGroup c t bs with
    | none => none
    | some (p, r) =>
      match uncodeSub c t n r with
      | none => none
      | some q => some (p ++ q)

/-- Decode sub-streams whose bounds are given. -/
def uncodeSubs (c : Nat) (t : KTable) (form : List Byte) : List (Nat × Nat) → Option (List Byte)
  | [] => some []
  | (a, b) :: rs =>
    match uncodeSub c t (1024 / groupPlain c) ((form.drop a).take (b - a)) with
    | none => none
    | some p =>
      match uncodeSubs c t form rs with
      | none => none
      | some q => some (p ++ q)

/-- What the encoder yields: the form's bytes, the CODEC byte recorded, and whether it fell back to RAW. -/
structure Encoded where
  bytes : List Byte
  codec : Nat
  fallback : Bool
  deriving DecidableEq, Repr

/-- The encoder (R168). -/
def encodeTile (c : Nat) (t : KTable) (plain : List Byte) : Encoded :=
  if codecMode c = 0 then ⟨plain, 0, false⟩
  else
    let subs := (chunks 1024 16 plain).map (fun p =>
      ((chunks (groupPlain c) (1024 / groupPlain c) p).map (codeGroup c t)).flatten)
    -- PLAIN_CRC is over the bytes that decoding yields (R163)
    let out := if codecK4r c then
      (subs.map (fun p => (uncodeSub c t (1024 / groupPlain c) p).getD [])).flatten else plain
    let len := 64 + sumNat (subs.map List.length)
    if 16320 < len then ⟨plain, 0, true⟩
    else
      let hdr := natLe 2 0x5A3C ++ [BitVec.ofNat 8 c, 0] ++ natLe 2 len ++ [0, 0] ++ natLe 4 (crc32c out)
        ++ [0, 0, 0, 0] ++ ((subOffsets 64 subs).map (natLe 2)).flatten
        ++ (if codecK4r c then natLe 16 t.toNat else natLe 16 0)
      ⟨hdr ++ subs.flatten, c, false⟩

/-- LENGTH of a stored form named by a CODEC byte: 16,384 for RAW, else the header's (R163). -/
def formLength (c : Nat) (form : List Byte) : Nat := if codecMode c = 0 then 16384 else leField form 4 2

/-- The decoder (R169): none when it refuses the form. -/
def decodeTile (c : Nat) (form : List Byte) : Option (List Byte) :=
  if codecMode c = 0 then some (byteSlice form 0 16384)
  else
    let len := leField form 4 2
    let offs := (List.range 16).map (fun i => leField form (16 + 2 * i) 2)
    let ends := offs.drop 1 ++ [len]
    if leField form 0 2 = 0x5A3C ∧ leField form 2 1 = c ∧ 64 ≤ len ∧ len ≤ 16320 ∧ len ≤ form.length
        ∧ offs.headD 0 = 64 ∧ (offs.zip ends).all (fun p => decide (p.1 ≤ p.2)) = true then
      match uncodeSubs c (BitVec.ofNat 128 (leField form 48 16)) form (offs.zip ends) with
      | none => none
      | some plain => if crc32c plain = leField form 8 4 then some plain else none
    else none

end Sys2Proof.Machine
end

