-- ==== Sys2Proof/Config.lean ====
section
/-! DEFINITION. The values the spec leaves open: each is an opaque constant, so nothing can be proved of its value. -/

namespace Sys2Proof

/-- What a vector register holds after its contents were lost (R407): free; the loss and the register. -/
opaque Config.lostVec : Nat → Nat → BitVec 1024
/-- What a scalar register holds after its contents were lost (R407). -/
opaque Config.lostScalar : Nat → Nat → BitVec 64
/-- What an accumulator column holds after its contents were lost (R407). -/
opaque Config.lostAcc : Nat → Nat → BitVec 1024
/-- What a code-table register holds after its contents were lost (R407). -/
opaque Config.lostTable : Nat → Nat → BitVec 128
/-- What a hatch register holds after its contents were lost (R407). -/
opaque Config.lostHatch : Nat → Nat → BitVec 16
/-- What a pane-store byte holds after its contents were lost (R407). -/
opaque Config.lostPane : Nat → Nat → BitVec 8
/-- The INT16 shift results the spec does not state (R56): a shift amount that is negative. The flag says a left
shift. -/
opaque Config.int16Shift : Bool → BitVec 16 → BitVec 16 → BitVec 16
/-- The scalar shift results the spec does not state (R57): an amount of 64 or more. The number is the operation:
0 left, 1 logical right, 2 arithmetic right. -/
opaque Config.scalarShift : Nat → BitVec 64 → BitVec 64 → BitVec 64
/-- What a scalar compare gives for a true and for a false comparison (R57 states neither). -/
opaque Config.compareResult : Bool → BitVec 64
/-- What ACCRD makes of an FP32 element under a format field of K4 or INT16, which R51 does not give it. -/
opaque Config.accrdOther : Fmt → BitVec 32 → BitVec 16
/-- A choice the spec leaves to the part, drawn with the counter of State: which of the free batch slots, far slots or
map-region slots is taken (R134, R135, R264). -/
opaque Config.freeChoice : Nat → Nat
/-- The public half of the identity key pair a part was made with (chapter 12, Identity): 68 bytes. -/
opaque Config.idPublicKey : List (BitVec 8)
/-- The fused secret that the keys of key domain 0 are derived from (R324). -/
opaque Config.fusedSecret : List (BitVec 8)
/-- LIFECYCLE of the part (R314): 0 production, 1 debug open, 2 returned for analysis. -/
opaque Config.lifecycle : Fin 3
/-- The certificate of the identity key (R332). -/
opaque Config.idCertificate : List (BitVec 8)
/-- Krezhari's manufacturer identity in the IDCODE (R481). -/
opaque Config.manufacturer : BitVec 11
/-- The version of the mask-ROM loader (R308). -/
opaque Config.romVersion : BitVec 32
/-- Whether a firmware image's signature passes against the firmware-signing public key (R309). -/
opaque Config.firmwareSigned : List (BitVec 8) → Bool
/-- The trellis key that the running firmware image holds (R394): 68 bytes. -/
opaque Config.trellisKey : List (BitVec 8)
/-- Whether a signature of a digest passes against a public key (R394, R395). -/
opaque Config.trellisSigned : List (BitVec 8) → List (BitVec 8) → List (BitVec 8) → Bool
/-- The XMSS signature of a report under an index (R312, R314). -/
opaque Config.xmssSign : Nat → List (BitVec 8) → List (BitVec 8)
/-- The ML-KEM encapsulation key of the pair generated for a draw (R317). -/
opaque Config.kemPublic : Nat → List (BitVec 8)
/-- The shared secret a pair's decapsulation key gives for a ciphertext (R318, R321). -/
opaque Config.kemSecret : Nat → List (BitVec 8) → List (BitVec 8)
/-- Keys and an INSTANCE from the hub's random generator (R321). -/
opaque Config.randomKeys : Nat → List (BitVec 8)
/-- AES-256-GCM under a key: ciphertext and tag of nonce, associated data and plaintext (R321, R326, R327). -/
opaque Config.gcmSeal : List (BitVec 8) → List (BitVec 8) → List (BitVec 8) → List (BitVec 8) → List (BitVec 8)
/-- AES-256-GCM opened: the plaintext of nonce, associated data and ciphertext with tag, if the tag passes. -/
opaque Config.gcmOpen : List (BitVec 8) → List (BitVec 8) → List (BitVec 8) → List (BitVec 8) → Option (List (BitVec 8))
/-- AES-256-XTS opened under a key pair (R325): the plaintext of a tweak and a line of 64 bytes. -/
opaque Config.xtsOpen : List (BitVec 8) → Nat → List (BitVec 8) → List (BitVec 8)
/-- The error code of a token number outside the embedding object, which R107 does not name. -/
opaque Config.embedErrCode : BitVec 8

end Sys2Proof
end

