-- ==== Sys2Proof/Machine/State.lean ====
section
/-! DEFINITION. The state of the SX20 as plain data, the state after reset, and the ways a step can stop. A map
(NMap) lists only what differs from its reset value; times are device time in ns; a function is named by Fn.key,
a port by its index, an object by objKey. -/

namespace Sys2Proof.Machine

/-! ### Sliver cores (R29) -/

/-- The destination and value of a core result whose latency has not elapsed (R33, R59). -/
inductive FlightVal where
  | vec (n : Fin 32) (mask value : Vec)
  | scal (n : Fin 16) (value : DWord)
  | acc (tile : Fin 8) (col : Fin 32) (value : Vec)
  | table (n : Fin 8) (value : KTable)
  | pane (addr : Nat) (bytes : List Byte)
  deriving DecidableEq, Repr

/-- A core result in flight: it may be read from frame cycle `due` on (R33). -/
structure Flight where
  due : Nat
  val : FlightVal
  deriving DecidableEq, Repr

/-- A counted loop at one level (R31, R73): the first frame cycle of its body, the trip count, and the frame
cycles one iteration takes. -/
structure LoopState where
  start : Nat
  trip : Nat
  body : Nat
  deriving DecidableEq, Repr

/-- A read of the pane store that a BST still makes (R62): its frame cycle, the pane byte and length, and the cycle and sliver
byte of the store it feeds. -/
structure BondRead where
  cyc : Nat
  pane : Nat
  len : Nat
  due : Nat
  byte : Nat
  deriving DecidableEq, Repr

/-- A store of a BST into the sliver (R62, R172, R174): the frame cycle it is made in, its first sliver byte, its codec mode,
and the bytes read for it so far. -/
structure BondStore where
  due : Nat
  byte : Nat
  mode : Nat
  data : List Byte
  deriving DecidableEq, Repr

/-- A sliver core (R29). A map lists what has been written; `lost` is 0 while an unlisted register reads as its reset value, and
otherwise numbers the loss of power after which unlisted contents are free values (R407). `row` is the near-tier row its bond
interface has open (R59), `reads` and `stores` what a BST still reads and stores, and `bondEnd` the frame cycle its transfer ends
in (R62). -/
structure Core where
  v : NMap Vec := []
  sr : NMap DWord := []
  acc : NMap Vec := []
  kt : NMap KTable := []
  h : NMap Half := []
  pane : NMap Byte := []
  flags : BitVec 5 := 0
  flight : List Flight := []
  loops : NMap LoopState := []
  row : Option Nat := none
  reads : List BondRead := []
  stores : List BondStore := []
  bondEnd : Nat := 0
  lost : Nat := 0
  deriving DecidableEq, Repr

/-- A lattice message between an LSEND and its LRECV (R77): the frame cycle its first beat lands in. -/
structure LatticeMsg where
  dst : Nat
  due : Nat
  data : List Byte
  deriving DecidableEq, Repr

/-- A colonnade beat in flight (R78): the frame cycle it lands in, the core and pane byte address it lands at. -/
structure ColBeat where
  dst : Nat
  addr : Nat
  due : Nat
  data : List Byte
  deriving DecidableEq, Repr

/-! ### Errors (R439 to R445) -/

/-- An error record (R441). All-ones fields hold their all-ones value. `sess` is REF_SESSION. -/
structure ErrRec where
  source : Nat
  cls : Nat
  code : Nat
  overflow : Nat := 0
  hint : Bool := false
  escalated : Bool := false
  sess : Bool := false
  port : Nat := 0xFF
  func : Nat := 0xFF
  time : Nat := 0
  pbay : Nat := 0xFF
  lbay : Nat := 0xFF
  core : Nat := 0xFFFF
  addr : Nat := 0
  element : Nat := 0xFFFF
  spare : Nat := 0xFFFF
  unit : Nat := 0xFF
  ref : Nat := 0
  tile : Nat := 0xFFFFFFFF
  gen : Nat := 0
  kd : Nat := 0xFFFF
  detail : Nat := 0
  seq : Nat := 0
  deriving DecidableEq, Repr

/-- The places of one error source (R443, R444). `overflows` are the times of the overflows that count for
escalation; `escalate` while the containment action is owed. -/
structure ErrSource where
  service : Option ErrRec := none
  pending : Option ErrRec := none
  overflows : List Nat := []
  mutedSince : Option Nat := none
  escalate : Bool := false
  deriving DecidableEq, Repr

/-- A port's error queue (R445), oldest first, and its next SEQ. -/
structure ErrQueue where
  recs : List ErrRec := []
  seq : Nat := 0
  deriving DecidableEq, Repr

/-! ### Rings (R339 to R345) -/

/-- What names a fetched request: its function, its number on the ring, the ring start it was fetched under, its
header, the function it acts for, and whether its result buffers cannot be written (R334, R351). -/
structure ReqId where
  fn : Nat
  seq : Nat
  epoch : Nat
  opcode : Nat
  tag : Nat
  session : Nat
  ident : Nat
  noWrite : Bool := false
  deriving DecidableEq, Repr

/-- What a completion charges when it is posted or discarded (R277, R280). -/
structure Charge where
  port : Nat
  tenant : Nat
  tokensOut : Nat := 0
  tokensIn : Nat := 0
  cycles : Nat := 0
  steps : Nat := 0
  cost : Nat := 0
  preempted : Nat := 0
  deferred : Nat := 0
  deriving DecidableEq, Repr

/-- A completion (R343). `sessKey` and `outBytes` feed the output buffer's consumption (R349). -/
structure Cpl where
  id : ReqId
  status : Nat := 0
  detail : Nat := 0
  error : Bool := false
  more : Bool := false
  token : Nat := 0
  outOffset : Nat := 0
  outBytes : Nat := 0
  gen : Nat := 0
  info : Nat := 0
  sessKey : Nat := 0
  charge : Option Charge := none
  deriving DecidableEq, Repr

/-- A written completion the host has not released (R340, R349): its ring index, session, request and output bytes. -/
structure CqEntry where
  index : Nat
  sessKey : Nat
  seq : Nat
  bytes : Nat
  deriving DecidableEq, Repr

/-- A function's rings (R339, R340): the registers as written, the copies taken at ENABLE, and the requests
fetched and not completed. -/
structure Ring where
  rqTail : Nat := 0
  cqHead : Nat := 0
  rqBase : Nat := 0
  rqSize : Nat := 6
  rqHead : Nat := 0
  cqBase : Nat := 0
  cqSize : Nat := 6
  cqTail : Nat := 0
  enable : Bool := false
  irqEnable : Bool := false
  coalCount : Nat := 1
  coalNs : Nat := 0
  error : Bool := false
  cause : Nat := 0
  rqBaseL : Nat := 0
  rqLogL : Nat := 6
  cqBaseL : Nat := 0
  cqLogL : Nat := 6
  phase : Bool := true
  epoch : Nat := 0
  seq : Nat := 0
  fetched : List ReqId := []
  overflow : List Cpl := []
  unsig : Nat := 0
  firstAt : Nat := 0
  entries : List CqEntry := []
  deriving DecidableEq, Repr

/-- Why a fetched request waits. -/
inductive HeldFor where
  /-- for earlier requests of the session or object to complete, in ring order (R27) -/
  | order (key : Nat)
  /-- for the time between two frames of the session's frame group (R232, R120, R261) -/
  | boundary (key : Nat)
  /-- for the request in effect for an object to complete -/
  | object (key : Nat)
  /-- for every earlier request of the ring (R346) -/
  | ring
  /-- for the time between frames in which sessions of a tenant run (R278) -/
  | tenant (key : Nat)
  /-- for the frame of a pavilion's frame group to end, when its program is to be unloaded (R154) -/
  | group (pav : Nat)
  deriving DecidableEq, Repr

/-- A fetched request that waits, with the command that carries it. -/
structure Held where
  id : ReqId
  why : HeldFor
  cmd : Instr
  deriving DecidableEq, Repr

/-! ### Bays, frames and pavilions -/

/-- Power states of a bay (R407 to R409, R412). -/
inductive BayPower where
  | run
  | doze
  | rest
  | off
  /-- entering rest since a time -/
  | resting (since : Nat)
  /-- waking to run (or to doze) since a time, from rest when `cold` -/
  | waking (since : Nat) (cold toDoze : Bool)
  /-- coming back from off since a time -/
  | returning (since : Nat)
  deriving DecidableEq, Repr

/-- A hatch command in a bay's queue (R358, R359): its SEQ, the port that submitted it, its OP and its fields. -/
structure HcEntry where
  seq : Nat
  port : Nat
  op : Nat
  cmd : HcCmd
  deriving DecidableEq, Repr

/-- A hatch write that a port holds (R143, R355, R364): the line, the first byte in it, the bytes, its window offset ÷ 64,
and the tile whose arrival it waits for. -/
structure HeldWrite where
  port : Nat
  core : Nat
  line : Nat
  off : Nat
  bytes : List Byte
  addr : Nat
  arrive : Option (Nat × Nat) := none
  deriving DecidableEq, Repr

/-- A bond line: its delay step, its phase error in steps as last measured, whether it failed, and the spare line its bit
moved to (R427 to R429, R457). -/
structure BondLine where
  step : Nat := 0
  err : Int := 0
  failed : Bool := false
  spare : Option Nat := none
  deriving DecidableEq, Repr

/-- A request for a hold (R96 to R98). -/
structure HoldReq where
  bay : Nat
  cause : Nat
  freezeAt : Nat
  length : Nat
  deriving DecidableEq, Repr

/-- What the part last answered (R7, R8, R354, R425, R481). -/
inductive Reply where
  | none
  | word (v : Word)
  | bytes (bs : List Byte)
  | unsupported
  | abort
  | bits (v : Nat)
  deriving DecidableEq, Repr

/-- A part of a hatch access within one line: the core and its sliver line, the byte of the line, the bytes and the line
address of the access (R353). -/
structure HatchPart where
  core : Nat
  line : Nat
  off : Nat
  bytes : List Byte
  addr : Nat
  deriving DecidableEq, Repr

/-- An item queued in the transom switch (R80, R81, R84). -/
inductive HubItem where
  /-- a tile on its way to its near slot, with the placement generation it was fetched under, as plain bytes -/
  | arrive (obj tile gen : Nat) (bytes : List Byte)
  /-- a pushed or handed-over tile on its way to its near slot, with its stream's generation, as plain bytes -/
  | push (obj tile gen : Nat) (bytes : List Byte)
  /-- a tile to read from its near slot -/
  | depart (obj tile : Nat)
  /-- a departing tile's stored bytes with their form field, on the way to the hub -/
  | departed (obj tile form : Nat) (bytes : List Byte)
  /-- a column input block of R107, or an allow mask of R213 -/
  | input (core line : Nat) (bytes : List Byte)
  /-- a line of a port's hatch write; `bad` says that a merge finds an uncorrectable error -/
  | hatchWrite (port : Nat) (part : HatchPart) (bad : Bool)
  /-- a port's hatch read, by its parts -/
  | hatchRead (port : Nat) (parts : List HatchPart) (bad : Bool)
  /-- a port's read of HC_DONE -/
  | hatchDone (port : Nat)
  /-- what a hatch read returns, on the way to the hub -/
  | hatchReply (reply : Reply)
  deriving DecidableEq, Repr

/-- An item in the transom queues: its class (R80), its direction, the beats of 512 bytes it still needs, and the
item. -/
structure HubQueued where
  cls : Nat
  toBay : Bool
  left : Nat
  item : HubItem
  deriving DecidableEq, Repr

/-- An item that waits for bond cycles of a core (R83, R142): the core, the cycles still needed, whether its read or
write began, and the item. -/
structure BondItem where
  core : Nat
  need : Nat
  begun : Bool := false
  item : HubItem
  deriving DecidableEq, Repr

/-- A logical bay (R15). `hcRun` is the hatch command that runs with its cause (0 none), `hcEnd` when it ends (R360), `hcHeld`
the bytes of HC_SUBMIT written so far, `storeHeld` writes to HC_STORE that a RUN defers (R358, R363). `hcEnd` and `refreshAt`
count ninths of a ns, `clockBad` says that the generator in use must be switched, `clockOut` the generators out of service
(R437), `wake` a wake that waits, true to run and false to doze (R408, R412), `offPort` the port that last requested off (R409).
`lines` is keyed by core × 2,048 + data line, `slotDirty` and `slotForm` by core × 3,072 + slot. -/
structure Bay where
  power : BayPower := .off
  idleSince : Nat := 0
  fenced : Bool := false
  hatch : Bool := false
  hatchExit : Bool := false
  hcDone : Nat := 0
  hcSubmitted : Nat := 0
  hcErrSeq : Nat := 0
  hcErrCause : Nat := 0
  hcFull : Nat := 0
  hcHeld : NMap Byte := []
  hcStore : Memory := []
  hcQueue : List HcEntry := []
  hcRun : Option (HcEntry × Nat) := none
  hcEnd : Nat := 0
  storeHeld : List (Nat × List Byte) := []
  owed : Nat := 0
  refreshAt : Nat := 0
  slipStepA : Nat := 0
  slipStepB : Nat := 0
  slipLastCause : Nat := 0
  slipValid : Bool := false
  clockBad : Bool := false
  clockOut : List Nat := []
  calHoldAt : Option Nat := none
  lines : NMap BondLine := []
  damaged : List (Nat × Nat) := []
  scrub : Nat := 0
  transom : List HubQueued := []
  bond : List BondItem := []
  wake : Option Bool := none
  offPort : Nat := 0
  deriving DecidableEq, Repr

/-- One slot that runs in a frame (R106, R223, R262, R277): the session, the input tokens of the active columns, the
first position, whether it samples, its budget reservation, the placement generation, the segment it commits, how many of
its tokens came from the prompt ring, and whether it runs a position again. -/
structure SlotRun where
  sess : Nat
  toks : List Nat
  p0 : Nat
  samples : Bool
  reserve : Nat
  gen : Nat
  seg : Nat
  prompt : Nat
  again : Bool
  deriving DecidableEq, Repr

/-- A frame in progress of a frame group (R65 to R67). `runs` maps pavilion × 1,024 + slot to what runs there, `masked` to
the status that cleared its verdict bit, and `holders` to the tenant of the session that held the slot at the frame's
start; `scans` are the query slots that run (R240), `lostProgs` the pavilions whose bundle stores failed (R448); `hold` is
the hold in effect and `serving` the requests it serves. -/
structure Frame where
  bays : List Nat := []
  pavs : List Nat := []
  quarters : List Nat := []
  cycle : Nat := 0
  length : Nat := 0
  start : Nat := 0
  held : Nat := 0
  slipped : Bool := false
  runs : NMap SlotRun := []
  scans : List Nat := []
  holders : NMap Nat := []
  masked : NMap Nat := []
  latched : List (Nat × Nat) := []
  lostProgs : List Nat := []
  damagedSess : List Nat := []
  damagedPavs : List Nat := []
  requests : List HoldReq := []
  hold : Option HoldReq := none
  serving : List HoldReq := []
  stopped : Bool := false
  done : List (Nat × Nat) := []
  deriving DecidableEq, Repr

/-- A step program in force or loaded (R69 to R74, R104, R212, R239): the object of its image, the image's bytes,
the descriptors' bytes (empty when absent), and the rotary table it fills with its number (R124, R259). -/
structure Prog where
  object : Nat
  modelSlot : Nat
  image : List Byte
  decode : List Byte := []
  sample : List Byte := []
  recallDesc : List Byte := []
  rope : Option (Nat × List Byte) := none
  deriving DecidableEq, Repr

/-- A queued request of an admission queue (R264 to R268): the session, its arrival time, its effective level, the
time it came to that level, whether it was expedited, the request it serves, and for a REVIVE its flags EARLY and
RELEASE_LOWER. -/
structure Queued where
  sess : Nat
  arrival : Nat
  level : Nat
  levelAt : Nat
  expedited : Bool
  tenant : Nat
  id : ReqId
  revive : Option (Bool × Bool) := none
  deriving DecidableEq, Repr

/-- A batch slot that is taken (R106, R129, R159): the session that holds it or has it reserved. -/
structure SlotUse where
  sess : Nat
  reserved : Bool := false
  placedAt : Nat := 0
  stepsHere : Nat := 0
  level : Option Nat := none
  deriving DecidableEq, Repr

/-- A model slot of a pavilion (R154, R155). -/
structure ModelUse where
  object : Nat
  outRows : Nat
  digest : List Byte := []
  deriving DecidableEq, Repr

/-- A pavilion (R256). `charged` is CHARGED_t of R270 by tenant; `inputs` are the first position and tokens of the column
inputs written for a slot (R107), and `masks` the allow masks written (R213). -/
structure Pav where
  port : Nat := 0
  quarters : List Nat := []
  prog : Option Prog := none
  next : Option Prog := none
  nextId : Option ReqId := none
  unload : Option ReqId := none
  banks : NMap Nat := []
  step : Nat := 0
  slots : NMap SlotUse := []
  queue : List Queued := []
  share : Bool := false
  charged : NMap Nat := []
  models : NMap ModelUse := []
  readyAt : Option Nat := none
  gathered : Bool := false
  placed : Nat := 0
  inputs : NMap (Nat × List Nat) := []
  masks : NMap Nat := []
  deriving DecidableEq, Repr

/-! ### Objects, tiles and sessions -/

/-- The tile states, numbered as R138 numbers them. -/
inductive TileState where
  | absent
  | lower
  | arriving
  | clean
  | dirty
  | departing
  | redirtied
  | failed
  deriving DecidableEq, Repr

/-- A tile map entry (R137), with the snapshot's change and pending bits (R290, R291), whether it has changed again since the
last cut (log 107), the epoch that last stored it (R297), whether its transfer was retried (R140), whether its data has been laid
or written (`landed`), whether its departure's read began, the stored bytes that reached the hub, the region of its lower copy,
the tier and place a write of it goes to (tier 0 for none) and whether it has been sent there. `hit` says that a write reached
the slot since the read of its departure began (R142), and `fetched` is the stored length of the form it was last fetched as
(R152). `tail` marks a tile of a stream slot's tail unit, which lies in the auxiliary area (R127). -/
structure Tile where
  state : TileState := .absent
  upTier : Nat := 0
  loTier : Nat := 0
  codec : Nat := 0
  upAddr : Nat := 0
  loAddr : Nat := 0
  loGran : Nat := 0
  gen : Nat := 0
  kd : Nat := 0
  layer : Nat := 0xFFFF
  changed : Bool := true
  again : Bool := true
  epoch : Nat := 0
  pending : Bool := false
  retried : Bool := false
  landed : Bool := false
  begun : Bool := false
  out : Option (Nat × List Byte) := none
  loRegion : Nat := 0
  newTier : Nat := 0
  newRegion : Nat := 0
  newAddr : Nat := 0
  newGran : Nat := 0
  newCodec : Nat := 0
  sent : Bool := false
  hit : Bool := false
  fetched : Nat := 0
  tail : Bool := false
  deriving DecidableEq, Repr

/-- What kind of object an object is (R133's opening). -/
inductive ObjKind where
  | session
  | model
  | index
  | other
  deriving DecidableEq, Repr

/-- An object (R132): its kind, key domain, number of tiles and tile map; an unlisted tile is ABSENT. -/
structure Obj where
  kind : ObjKind := .other
  kd : Nat := 0
  ntiles : Nat := 0
  tiles : NMap Tile := []
  deriving DecidableEq, Repr

/-- Where a session's state stands. -/
inductive Place where
  /-- opened and never placed, or parked: the tier that holds it (0 none) and the region -/
  | parked (tier region : Nat)
  | resident (pav slot : Nat)
  | migrating (pav slot : Nat)
  deriving DecidableEq, Repr

/-- A run of a session (R349, R350): the request, the output buffer, the bytes written and not yet consumed, and
whether it ends at its next completion. -/
structure Run where
  id : ReqId
  outBase : Nat
  outSize : Nat
  written : Nat := 0
  unconsumed : Nat := 0
  ending : Bool := false
  admitted : Bool := false
  cmd : Instr := .aonPowerUp
  deriving DecidableEq, Repr

/-- A session: its header beside the tile map (R348), its state tile's bytes (R231), what its directory record says (R184), and
when the first tile of its revival was fetched (R152). Its position tags (R119) are the near tier's and its tag tiles'. -/
structure Session where
  busy : Option ReqId := none
  object : Nat := 0
  home : Nat := 0
  slotKind : Nat := 0
  lmax : Nat := 0
  modelSlot : Nat := 0
  kd : Nat := 0
  tenant : Nat := 0
  gen : Nat := 0
  place : Place := .parked 0 0
  tile : Memory := []
  run : Option Run := none
  expedite : Bool := false
  mapSlot : Option Nat := none
  reviveAt : Option Nat := none
  deriving DecidableEq, Repr

/-- A stored form in a lower tier (R133, R325, R326): what it was sealed with, the stored bytes, and whether they
still pass their check. -/
structure Stored where
  kd : Nat := 0
  keyId : Nat := 0
  inst : Nat := 0
  counter : Nat := 0
  object : Nat := 0
  tile : Nat := 0
  codec : Nat := 0
  bytes : List Byte := []
  intact : Bool := true
  deriving DecidableEq, Repr

/-- A granted region (R144, R149): its base, granules, pool node, and the records in it by first granule, each
with its length. -/
structure Region where
  base : Nat := 0
  granules : Nat := 0
  node : Nat := 0
  records : NMap Nat := []
  deriving DecidableEq, Repr

/-- A tier request in effect for an object (R27, R146 to R159, R497), or a pre-emption swap (R130). -/
inductive Job where
  | park (id : ReqId) (tier region codec : Nat) (keep repark : Bool)
  | revive (id : Option ReqId) (early releaseLower posted : Bool)
  | migrate (id : ReqId) (pav slot : Nat) (oldPav oldSlot : Nat) (fence : Nat) (resident : Bool) (newKind : Nat)
  | handOver (id : ReqId) (cport node tag fence since : Nat) (accepted posted : Bool)
  | place (id : ReqId) (tier region : Nat) (keepLower : Bool)
  | modelLoad (id : ReqId) (pav slot : Nat)
  | writeBack (id : ReqId) (first count : Nat)
  | swap (item : Queued) (ordered : Bool)
  | unload
  deriving DecidableEq, Repr

/-- A shutter command an engine took (R150). -/
structure ShutterCmd where
  op : Nat
  srcTier : Nat
  dstTier : Nat
  codec : Nat
  gen : Nat
  kd : Nat
  srcAddr : Nat
  dstAddr : Nat
  tile : Nat
  granules : Nat
  flags : Nat := 0
  object : Nat
  deriving DecidableEq, Repr

/-! ### The hub and the module -/

/-- A half of a 64-bit register a function holds (R8): the register's address and the held value. -/
structure HalfHold where
  bar : Nat
  off : Nat
  val : Nat
  deriving DecidableEq, Repr

/-- The trellis image in force (R392 to R396): what its sections say. `foundation`, `tierRaw` and `dirRaw` are the
sections' bytes, which a warm select compares (R402). -/
structure Trellis where
  slot : Nat := 0
  serial : Nat := 0
  cDigest : List Byte := []
  foundation : List Byte := []
  tierRaw : List Byte := []
  dirRaw : List Byte := []
  bayMap : List Nat := []
  spareBay : Nat := 20
  coreMap : List Nat := []
  repairs : List Nat := []
  dirRows : List Nat := []
  sites : Nat := 8
  density : Nat := 0
  rate : Nat := 0
  mapSlots : Nat := 0
  cowBase : Nat := 0
  cowPerCore : Nat := 0
  cascade : Nat := 0
  shareA : Nat := 0
  shareB : Nat := 0
  scrubMs : Nat := 1000
  scrubEnable : Bool := true
  envelope : Nat := 1600
  thermal : Nat := 1
  actWindow : Nat := 0
  actLimit : Nat := 0
  macWindow : Nat := 0
  macLimit : Nat := 0
  transomMin : Nat := 1024
  kc : Nat := 0
  kt : Nat := 0
  kp : Nat := 0
  mgmtRaw : Bool := false
  windowMs : Nat := 100
  hostEnable : Nat := 0
  auth : Nat := 0
  celayCtl : List Nat := []
  deriving DecidableEq, Repr

/-- The spare assignment in force (R495, R457): the physical engine held as spare of each type, the clock generator
in use of each physical bay (bit n), and engines out of service as (source kind, physical engine). -/
structure Spares where
  intake : Nat := 0
  louver : Nat := 0
  crypto : Nat := 0
  shutter : Nat := 0
  dirBlock : Nat := 0
  gate : Nat := 0
  clocks : Nat := 0
  out : List (Nat × Nat) := []
  deriving DecidableEq, Repr

/-- A profile slot (R398): the image it holds, and whether its commit record is written. -/
structure ProfileSlot where
  image : List Byte
  valid : Bool
  deriving DecidableEq, Repr

/-- A profile command that is running or a SELECT_WARM that waits (R398, R402). `source` is 0 or 1 for a port's
physical function and 2 for the management interface; `joined` the sources that consented. -/
structure ProfileCmd where
  source : Nat
  op : Nat
  slot : Nat
  image : List Byte := []
  since : Nat := 0
  joined : List Nat := []
  quiescing : Bool := false
  deriving DecidableEq, Repr

/-- The profile store and the fused floors (R397, R398, R400, R459). -/
structure Store where
  slots : NMap ProfileSlot := []
  nextSet : Bool := false
  nextSlot : Nat := 0
  repairs : List Nat := []
  floor : Nat := 1
  running : Option ProfileCmd := none
  waiting : Option ProfileCmd := none
  deriving DecidableEq, Repr

/-- A tenant of a port (R276, R280, R283): its record, budget and counters. -/
structure Tenant where
  level : Nat := 2
  weight : Nat := 256
  inCost : Nat := 1
  outCost : Nat := 1
  unlimited : Bool := true
  budget : Nat := 0
  maxResident : Nat := 0
  waitLimit : Nat := 1000000
  stepLimit : Nat := 0
  tokensOut : Nat := 0
  tokensIn : Nat := 0
  cycles : Nat := 0
  steps : Nat := 0
  preempted : Nat := 0
  deferred : Nat := 0
  deriving DecidableEq, Repr

/-- A directory record (R184). -/
structure DirRec where
  state : Nat := 0
  tier : Nat := 0
  gen : Nat := 0
  kd : Nat := 0
  tenant : Nat := 0
  pav : Nat := 0xFF
  model : Nat := 0
  slot : Nat := 0xFFFF
  object : Nat := 0
  user : Nat := 0
  deriving DecidableEq, Repr

/-- A directory entry (R179, R180, R187, R194): VALID, the two copies of its key and its care mask of 128 bits, or 256 in a
cascaded pair, its record and the record's parity bits, its epochs (no delete epoch while it is live), and the previous record
held until an HCLK cycle. A write sets the second copy and the parity. -/
structure DirRow where
  valid : Bool := true
  key : Nat
  key2 : Nat := 0
  care : Nat
  wide : Bool := false
  data : DirRec := {}
  parity : Nat := 0
  ins : Nat := 0
  del : Option Nat := none
  commit : Nat := 0
  prev : Option DirRec := none
  holdEnd : Nat := 0
  deriving DecidableEq, Repr

/-- A directory write that waits to commit (R192): the rows it sets, whether it inserts or deletes them, and the
request that completes with DONE when it commits. -/
structure DirWrite where
  row : Nat
  entry : DirRow
  insert : Bool := false
  delete : Bool := false
  id : Option ReqId := none
  deriving DecidableEq, Repr

/-- A search in the array (R186, R191, R192). -/
structure DirSearch where
  id : ReqId
  key : Nat
  wide : Bool
  epoch : Nat
  issued : Nat
  buf : Nat
  ignoreBlock : Bool
  deriving DecidableEq, Repr

/-- The session directory (R178 to R203): the array's rows, the global rows marked SUSPECT and when a row was last rewritten,
the sealed shadow lines, the commit epoch, the writes and searches under way, the search being retried on the shadow, the
scrub place, spare rows used by block, the block the spare block copies or stands for, and blocks out of service. -/
structure Dir where
  rows : NMap DirRow := []
  suspects : List Nat := []
  rewritten : NMap Nat := []
  shadow : NMap Stored := []
  epoch : Nat := 0
  writes : List DirWrite := []
  searches : List DirSearch := []
  retry : Option (DirSearch × List Nat) := none
  scrub : Nat := 0
  sparesUsed : NMap Nat := []
  spareCopy : Option (Nat × Nat) := none
  spareFor : Option Nat := none
  outBlocks : List Nat := []
  deriving DecidableEq, Repr

/-- The hub as a whole: module reset, what holds it, when its last cause came, when it ended, PROFILE_SEL as it was taken then, and
the ports whose links may train (R470 to R473); the boot (R309), quiet (R410), a profile selection's quiesce (R402), and a
module fault's stop (R456). -/
structure Hub where
  inReset : Bool := false
  causes : List ResetCause := []
  resetAt : Nat := 0
  releasedAt : Nat := 0
  pinsTaken : Nat := 0
  ableA : Bool := false
  ableB : Bool := false
  pll : Bool := false
  firmware : Bool := false
  quiet : Bool := false
  wake : Bool := false
  idleSince : Nat := 0
  quiesce : Bool := false
  stopped : Bool := false
  deriving DecidableEq, Repr

/-- A temperature level of a sensor (R418): whether it stands, and the consecutive readings at or above it and at least 3 °C
below it. -/
structure Level where
  on : Bool := false
  high : Nat := 0
  low : Nat := 0
  deriving DecidableEq, Repr

/-- A sensor (R418): its last reading in °C and its levels: 0 refresh doubling of class 0, 1 of class 1, 2 WARN, 3 THROTTLE,
4 TRIP. -/
structure Sensor where
  reading : Nat := 0
  levels : NMap Level := []
  deriving DecidableEq, Repr

/-- A slow input pin (R420 to R422): its acted and accepted levels, when the acted level last changed, and whether it is
stuck. -/
structure Pin where
  acted : Nat := 1
  accepted : Nat := 1
  changedAt : Option Nat := none
  stuck : Bool := false
  deriving DecidableEq, Repr

/-- The gatehouse (R406 to R425): sensors by their PLDM identifiers, pins in the order of R420's table, what the management
interface set (stuck limits in s), the envelope in force, the module power as coarsened, when the last window of R330
ended, the times at which bays began to wake from rest, THERMTRIP_N, when the sensors were last read, and whether a THERMAL_TRIP
record is owed to the next boot. -/
structure Gatehouse where
  sensors : NMap Sensor := []
  pins : NMap Pin := [(2, { acted := 0, accepted := 0 })]
  mgmtCap : Nat := 0
  pwrCap : Nat := 1600
  limits : NMap Nat := [(3, 10), (5, 10)]
  effective : Nat := 0
  coarse : Nat := 0
  window : Nat := 0
  wakes : List Nat := []
  thermtrip : Bool := false
  readAt : Option Nat := none
  tripOwed : Bool := false
  deriving DecidableEq, Repr

/-- The far calendar (R430 to R432): T_cal, the next window, its place in the order of the channels, the channels that go
first, the channel of the current or last window, when the window in progress began, the bursts it has started, and when the
burst in progress began; SITES, DENSITY and RATE as training found them (R397). -/
structure FarCal where
  start : Option Nat := none
  found : Nat × Nat × Nat := (0, 0, 0)
  window : Nat := 0
  place : Nat := 0
  early : List Nat := []
  channel : Nat := 0
  windowAt : Option Nat := none
  bursts : Nat := 0
  burstAt : Option Nat := none
  deriving DecidableEq, Repr

/-- The test access port (R481): the instruction in force and the boundary register. -/
structure Tap where
  ins : TapIns := .idcode
  cells : List Bool := []
  deriving DecidableEq, Repr

/-- A key domain of a port (R319, R326): state 0 FREE, 1 RESERVED, 2 KEYED; its four keys, INSTANCE and write
counter. -/
structure KeyDom where
  port : Nat := 0
  state : Nat := 0
  mask : Nat := 0
  isSealed : Bool := false
  released : Bool := false
  keys : List Byte := []
  inst : Nat := 0
  counter : Nat := 0
  deriving DecidableEq, Repr

/-- An attestation request waiting for the signing engine (R314): the requester, the buffer, KEM, the report captured
up to the measurement entries' end. -/
structure AttestReq where
  id : ReqId
  buf : Nat
  kem : Bool
  report : List Byte
  deriving DecidableEq, Repr

/-- A pending decapsulation key (R317): its report's XMSS index, the draw of its pair, the signed report's digest, the report's
time, and the function that asked for it. -/
structure PendingKey where
  index : Nat
  draw : Nat
  digest : List Byte
  since : Nat
  fn : Nat
  deriving DecidableEq, Repr

/-- The states of a TDISP device interface (R329). -/
inductive Tdi where
  | unlocked
  | locked
  | run
  | error
  deriving DecidableEq, Repr

/-- An IDE stream (R328): its key, and whether it is started. -/
structure IdeStream where
  key : List Byte := []
  started : Bool := false
  deriving DecidableEq, Repr

/-- Boot, identity and key domains (R309 to R329). `block` is the counter B of R312. Key domains are keyed by number;
`channels`, the keys of the secured channels, by port (R328); `ide` by port × 16 + stream; `tdi` by function. -/
structure Security where
  boot : Nat := 0
  cause : Nat := 0
  owner : Option Nat := none
  image : List Byte := []
  boots : Nat := 0
  floor : Nat := 1
  svn : Nat := 0
  digest : List Byte := []
  block : Nat := 0
  next : Nat := 0
  faulted : Bool := false
  queue : List AttestReq := []
  pendingKeys : List PendingKey := []
  domains : NMap KeyDom := []
  channels : NMap (List Byte) := []
  ide : NMap IdeStream := []
  tdi : NMap Tdi := []
  deriving DecidableEq, Repr

/-- A loaded text table (R204): kind 1 tokeniser, 2 grammar, 3 allowed list; the object and key domain it came from, and
its bytes. -/
structure TextTable where
  object : Nat
  kd : Nat
  bytes : List Byte
  deriving DecidableEq, Repr

/-! ### Celay (R365 to R391) -/

/-- A Celay cell (R369). -/
structure Cell where
  kind : Nat
  tc : Nat
  first : Bool
  last : Bool
  dest : Nat
  src : Nat
  tag : Nat
  gen : Nat
  payload : List Byte
  deriving DecidableEq, Repr

/-- A flit kept for replay (R368): its SEQ and its header and cell places, 1,040 bytes. -/
structure Flit where
  seq : Nat
  bytes : List Byte
  deriving DecidableEq, Repr

/-- A Celay port (R365 to R373, R388, R389): state 0 DISABLED, 1 TRAINING, 2 UP, 3 DOWN; `rxSeq` is the last SEQ
accepted, `swap` says that the next flit carries LANE_SWAP, `replay` the flits not acknowledged, `resend` those to send again, `fails` the
NAKs in a row for the oldest one, the first for the flit itself and each later one for a replay, `credits` what may be sent and `owed` what is to be returned by class, `tokens` the buckets with 16 fractional bits
at HCLK cycle `tokensAt`, `gate` the gate entry in force, `rx` the cells received and not yet taken. -/
structure CelayPort where
  state : Nat := 0
  lanesOk : Nat := 0
  outLane : Nat := 15
  downAt : Nat := 0
  rxSeq : Nat := 4095
  nak : Bool := false
  swap : Bool := false
  txSeq : Nat := 0
  replay : List Flit := []
  resend : List Flit := []
  fails : Nat := 0
  credits : NMap Nat := []
  owed : NMap Nat := []
  tokens : NMap Nat := []
  tokensAt : Nat := 0
  queues : NMap (List Cell) := []
  gate : Nat := 0
  rx : List Cell := []
  deriving DecidableEq, Repr

/-- A state push or hand-over coming in (R378 to R385): the Celay port, sender, tag and generation; the session; for a
push the positions, what LENGTH and NEXT_INPUT were, and whether the open has taken effect; the tiles landed, when layer
0 landed, and the time of its last cell. -/
structure Stream where
  hand : Bool
  cport : Nat
  node : Nat
  tag : Nat
  gen : Nat
  sess : Nat
  first : Nat := 0
  count : Nat := 0
  input : Nat := 0
  segment : Nat := 0
  oldLen : Nat := 0
  oldNext : Nat := 0
  opened : Bool := false
  lead : Bool := false
  layerNs : Nat := 0
  tiles : Nat := 0
  landed : List Nat := []
  t0 : Option Nat := none
  ended : Bool := false
  aborted : Bool := false
  lastAt : Nat := 0
  deriving DecidableEq, Repr

/-- A pool transaction (R387): the host port it belongs to, the Celay port it goes by, and the tile's record; `snap` for a
write of a snapshot. -/
structure PoolTx where
  port : Nat
  cport : Nat
  tag : Nat
  write : Bool
  obj : Nat
  tile : Nat
  gran : Nat
  since : Nat
  retried : Bool
  snap : Option SnapPart := none
  deriving DecidableEq, Repr

/-- A pool transaction that waits for its turn among the 1,024 of its host port (R387). -/
structure PoolWait where
  fn : Nat
  key : Nat
  tile : Nat
  write : Bool
  retried : Bool
  snap : Option SnapPart
  region : Nat
  addr : Nat
  gran : Nat
  record : List Byte
  deriving DecidableEq, Repr

/-! ### Recall (R234 to R255) -/

/-- A recall index (R248, R250): its commit epoch, the changes that wait for a boundary between frames, each with its
request and the items whose tag blocks it sets or clears, and the epoch that purged an item. -/
structure IndexState where
  epoch : Nat := 0
  pend : List (ReqId × List (Nat × Bool)) := []
  purged : NMap Nat := []
  deriving DecidableEq, Repr

/-- A recall query (R244, R253): its index, its QBUF and RBUF, parameters, the query slot of its pavilion it holds (R240),
and whether a frame runs it, with its epoch. -/
structure Query where
  id : ReqId
  obj : Nat
  graph : Bool
  qbuf : List Byte
  rbuf : Nat
  k : Nat
  pick : Nat
  l : Nat
  maxExpand : Nat
  slot : Option (Nat × Nat) := none
  running : Bool := false
  epoch : Nat := 0
  deriving DecidableEq, Repr

/-! ### Snapshots (R285 to R307) -/

/-- A tile record of an epoch (R295): the tile, the shard and epoch that wrote it, its place, and what was stored. -/
structure SnapRec where
  obj : Nat
  tile : Nat
  shard : Nat
  epoch : Nat
  zeroed : Bool
  tier : Nat
  region : Nat
  addr : Nat
  gran : Nat
  data : Stored
  deriving DecidableEq, Repr

/-- An object of an epoch (R289, R294): its tiles' layers, an index's state, and a session's key and what it was at the cut;
a session with a FAILED tile is damaged. -/
structure SnapObj where
  obj : Nat
  kind : ObjKind
  kd : Nat
  ntiles : Nat
  layers : NMap Nat := []
  index : Option IndexState := none
  sess : Option (Nat × Session) := none
  damaged : Bool := false
  deriving DecidableEq, Repr

/-- A shard as a manifest lists it (R296): LOCATION, BYTES and DIGEST, and the places of its records and index, each an address
with its granules and stored bytes. -/
structure SnapShard where
  epoch : Nat
  shard : Nat
  location : Nat
  bytes : Nat
  digest : List Byte
  places : List (Nat × Nat × Nat)
  deriving DecidableEq, Repr

/-- A committed epoch's manifest (R296, R297): where it lies, the keys that sealed it, what it lists, the port's directory
entries by row, and the 32 KiB of its slot as they were written. -/
structure Manifest where
  epoch : Nat
  full : Bool
  cutTime : Nat
  dirEpoch : Nat
  tier : Nat
  region : Nat
  base : Nat
  node : Nat
  keyId : Nat
  shards : List SnapShard := []
  recs : List SnapRec := []
  objs : List SnapObj := []
  rows : NMap DirRow := []
  slot : List Byte := []
  deriving DecidableEq, Repr

/-- A write of a snapshot that has not been acknowledged (R298, R299): what it writes, where, its bytes, and whether it is the
retry. -/
structure SnapOut where
  part : SnapPart
  tier : Nat
  region : Nat
  addr : Nat
  gran : Nat
  bytes : List Byte
  retried : Bool := false
  deriving DecidableEq, Repr

/-- A copy of a pending tile, taken before its current copy is written (R292): in a copy-on-write slot of a core, or in a far
slot. -/
structure Cow where
  bytes : List Byte
  core : Option Nat := none
  slot : Option Nat := none
  deriving DecidableEq, Repr

/-- A snapshot attempt (R286 to R298): since when it waits for its cut; once the cut is recorded, its time, the tiles owed with
their shards, the directory shard, what has been stored or is carried over from earlier epochs, the writes that are not
acknowledged, the manifest once its body is written, and whether the commit record is. -/
structure SnapRun where
  epoch : Nat
  id : Option ReqId
  full : Bool
  since : Nat
  tier : Nat
  region : Nat
  cutAt : Option Nat := none
  dirEpoch : Nat := 0
  owed : List (Nat × Nat × Nat) := []
  recs : List SnapRec := []
  carried : List SnapShard := []
  objs : List SnapObj := []
  rows : NMap DirRow := []
  dirShard : List Byte := []
  outs : List SnapOut := []
  man : Option Manifest := none
  committing : Bool := false
  deriving DecidableEq, Repr

/-- A port's snapshots: the attempt running, the last number taken (R287), the manifests that stand, the objects included, when
the timer and the frame count started, and the far slots of the manifests. -/
structure SnapPort where
  run : Option SnapRun := none
  last : Nat := 0
  manifests : List Manifest := []
  scope : List Nat := []
  timerFrom : Nat := 0
  frames : Nat := 0
  slots : List Nat := []
  deriving DecidableEq, Repr

/-- The SX20. -/
structure State where
  pending : List Instr := []
  held : List Held := []
  releasing : Option ReqId := none
  reply : Reply := .none
  irqs : List (Nat × Nat) := []
  hostMem : Memory := []
  time : Nat := 0
  hclk : Nat := 0
  free : Nat := 0
  regs : NMap Nat := []
  readHold : NMap HalfHold := []
  writeHold : NMap HalfHold := []
  k4Held : NMap Nat := []
  rings : NMap Ring := []
  tenants : NMap Tenant := []
  fnTenant : NMap Nat := []
  hub : Hub := {}
  trellis : Option Trellis := none
  spares : Spares := {}
  store : Store := {}
  errSources : NMap ErrSource := []
  errQueueA : ErrQueue := {}
  errQueueB : ErrQueue := {}
  modLog : List ErrRec := []
  bays : NMap Bay := []
  cores : NMap Core := []
  near : Memory := []
  slotDirty : NMap Bool := []
  slotForm : NMap Nat := []
  lattice : List LatticeMsg := []
  colonnade : List ColBeat := []
  arithAt : NMap Nat := []
  pavs : NMap Pav := []
  ropes : NMap (List Byte) := []
  frames : NMap Frame := []
  sessions : NMap Session := []
  objects : NMap Obj := []
  far : NMap Stored := []
  regions : NMap Region := []
  records : NMap Stored := []
  farOut : List Nat := []
  farNext : Nat := 0
  farGone : List Nat := []
  farScrub : Nat := 0
  jobs : NMap Job := []
  dir : Dir := {}
  cows : NMap Cow := []
  poolWait : List PoolWait := []
  tails : NMap (List Byte) := []
  cutLen : NMap Nat := []
  recents : NMap (List Byte) := []
  engines : NMap ShutterCmd := []
  sec : Security := {}
  tables : NMap TextTable := []
  celay : NMap CelayPort := []
  streams : List Stream := []
  pools : List PoolTx := []
  poolTag : Nat := 0
  indices : NMap IndexState := []
  queries : List Query := []
  snaps : NMap SnapPort := []
  hatchHeld : List HeldWrite := []
  gate : Gatehouse := {}
  farCal : FarCal := {}
  tap : Tap := {}
  deriving DecidableEq, Repr

/-- The machine right after module reset. -/
def State.reset : State := {}

/-- Why the model stops on a command. -/
inductive Fault where
  /-- raised by a core access to a pane-store byte at or above 786,432, which does not exist (R60); safe -/
  | outsidePane
  /-- raised by a core access to a sliver line at or above 786,432, which does not exist (R497, R361); safe -/
  | outsideSliver
  /-- raised by SLD and SST at an address that is not a multiple of 8, which no instruction may name (R57); safe -/
  | misalignedPane
  deriving DecidableEq, Repr

/-- Why the model declines a command. -/
inductive Refusal where
  /-- raised by the dispatch arm of a command that has no meaning yet; safe -/
  | notModelled (mnemonic : String)
  deriving DecidableEq, Repr

end Sys2Proof.Machine
end

