-- ==== Sys2Proof/Machine/Regs.lean ====
section
/-! DEFINITION. The BAR0 register map (R485 to R490): every register's place, copies, reset value and writable bits,
the stored registers and counters, and MSI-X messages. -/

namespace Sys2Proof.Machine

/-- Copies of a register (R490): one for each port, one shared, one for each physical bay. -/
inductive RegScope where
  | perPort
  | shared
  | perBay
  deriving DecidableEq, Repr

/-- A register, or an array of registers, of the map (R490). `rw` has a 1 for each RW bit. -/
structure RegRow where
  start : Nat
  stride : Nat
  count : Nat
  wide : Bool
  scope : RegScope
  reset : Nat
  rw : Nat
  deriving DecidableEq, Repr

/-- A single 32-bit register. -/
def reg32 (off : Nat) (sc : RegScope) (reset rw : Nat) : RegRow := ⟨off, 4, 1, false, sc, reset, rw⟩
/-- A single 64-bit register. -/
def reg64 (off : Nat) (sc : RegScope) (reset rw : Nat) : RegRow := ⟨off, 8, 1, true, sc, reset, rw⟩
/-- An array of 32-bit registers. -/
def regs32 (off stride n : Nat) (sc : RegScope) (reset rw : Nat) : RegRow := ⟨off, stride, n, false, sc, reset, rw⟩
/-- An array of 64-bit registers. -/
def regs64 (off stride n : Nat) (sc : RegScope) (reset rw : Nat) : RegRow := ⟨off, stride, n, true, sc, reset, rw⟩

/-- GLB_, GH_ and ERR_ registers (R488, R490, R421 to R425, R445). -/
def regRows0 : List RegRow :=
  [reg32 0x0 .shared 0x5320B000 0, reg32 0x4 .perPort 0 0, regs32 0x10 4 4 .shared 0 0,
   reg64 0x10000 .shared 0 0, reg32 0x10008 .perPort 0x1F43E832 0xFFFFFFFF, reg32 0x1000C .perPort 0 0x1FFF,
   reg32 0x10010 .perPort 0 0, regs32 0x10014 4 2 .perPort 0 0, regs32 0x10020 4 2 .perPort 0 0,
   reg32 0x10028 .perPort 0 0xFFFFF, reg32 0x10030 .perPort 0 0, reg32 0x10034 .perPort 0 0x7F,
   reg32 0x10040 .shared 0 0, reg32 0x10044 .shared 0 0, reg32 0x10048 .shared 0 0,
   regs32 0x10100 4 8 .perPort 0 0, regs64 0x11000 16 256 .perPort 0 0xFFFFFFFFFFFFFFFF,
   regs32 0x11008 16 256 .perPort 0x007F0000 0x807FFFFF,
   reg32 0x20000 .perPort 0 0, reg32 0x20004 .perPort 0x7F00 0x7F01, regs32 0x20008 4 2 .perPort 0 0,
   regs32 0x20010 4 7 .perPort 0 0, reg32 0x2002C .shared 0 0, reg32 0x20030 .shared 0 0,
   reg32 0x20040 .shared 0 0, reg32 0x20044 .perPort 0 0xFFF, reg64 0x20048 .perPort 0 0,
   regs32 0x20100 4 16 .perPort 0 0]

/-- TRL_, SEC_, PAV_, ACC_ and SNP_ registers. -/
def regRows1 : List RegRow :=
  [reg32 0x30000 .shared 0 0, reg64 0x30008 .shared 0 0xFFFFFFFFFFFFFFFF, reg32 0x30010 .shared 0 0x7FFFFFF,
   reg32 0x30014 .perPort 0 0, reg32 0x30018 .shared 0 0, regs32 0x30020 4 4 .shared 0 0,
   reg32 0x30030 .shared 0 0, regs32 0x30040 4 2 .shared 0 0,
   reg32 0x40000 .shared 0 0, reg64 0x40008 .shared 0 0xFFFFFFFFFFFFFFFF, reg32 0x40010 .shared 0 0xFFFFFF,
   regs32 0x40014 4 3 .shared 0 0, regs64 0x40020 8 2 .shared 0 0, reg32 0x40030 .shared 0 0,
   reg32 0x40034 .shared 0x64 0, regs32 0x41000 4 4096 .perPort 0 0,
   reg32 0x50000 .perPort 0x00320014 0xFFFFFFFF, regs32 0x51000 0x20 80 .perPort 0x400 0xFFFFFF31,
   regs32 0x51004 0x20 80 .perPort 0 0xFFFF, regs32 0x51008 0x20 80 .perPort 0 0,
   regs64 0x51010 0x20 80 .perPort 1 0xFFFFFFFFFFFFFFFF,
   reg32 0x60000 .perPort 0 0xFFF, reg32 0x60004 .perPort 0 0, regs64 0x60008 8 3 .perPort 0 0,
   reg64 0x60020 .perPort 0xFFFFFFFFFFFFFFFF 0, reg64 0x60028 .perPort 0 0, regs32 0x60030 4 2 .perPort 0 0,
   regs64 0x61000 8 80 .perPort 0 0,
   reg32 0x70000 .perPort 0 0x3FF0077, reg32 0x70004 .perPort 0 0xFFF, reg32 0x70008 .perPort 0xE10 0x1FFFF,
   reg32 0x7000C .perPort 0xF4240 0xFFFFFFFF, reg32 0x70010 .perPort 0 0, regs64 0x70018 8 4 .perPort 0 0,
   regs32 0x70038 4 4 .perPort 0 0]

/-- DIR_, TXT_, RCL_, TIR_ and CMP_ registers. -/
def regRows2 : List RegRow :=
  [reg32 0x80000 .perPort 0x03E80001 0, reg32 0x80004 .perPort 0x40000400 0, reg64 0x80008 .perPort 0 0,
   regs32 0x80010 4 2 .perPort 0 0, reg64 0x80018 .perPort 0 0, regs32 0x80020 4 4 .perPort 0 0,
   reg32 0x90000 .perPort 0x00080010 0, reg32 0x90004 .perPort 0x8000 0, regs64 0x90008 8 2 .perPort 0 0,
   regs32 0x90018 4 5 .perPort 0 0,
   reg32 0xA0000 .perPort 4 0xF, reg32 0xA0004 .perPort 0 0, reg64 0xA0008 .perPort 0 0,
   regs32 0xA0010 4 3 .perPort 0 0, reg64 0xA0020 .perPort 0 0,
   reg32 0xB0000 .perPort 0x02710001 0xFFFFF001, reg32 0xB0004 .perPort 0x800 0xFFFF, reg32 0xB0008 .perPort 0x20 0,
   reg64 0xB0010 .perPort 0 0, regs32 0xB0018 4 3 .perPort 0 0, regs64 0xB0110 8 10 .perPort 0 0,
   reg32 0xC0000 .perPort 4 0x100FF, regs32 0xC0010 4 3 .perPort 0 0, regs64 0xC0020 8 2 .perPort 0 0,
   regs32 0xC0100 4 64 .perPort 0 0xFFFFFFFF]

/-- The registers of one Celay port. -/
def celayRows (p : Nat) : List RegRow :=
  let b := 0xD0000 + 0x1000 * p
  [reg32 b .shared 0x10000000 0xFFFF0003, reg32 (b + 4) .shared 0x00F00000 0, reg32 (b + 8) .shared 0xFFFFFFFF 0xFFFFFFFF,
   reg32 (b + 0xC) .shared 0x44444444 0xFFFFFFFF, reg32 (b + 0x10) .shared 0x511A 0x71FF,
   reg32 (b + 0x20) .shared 0x14 0xFFFFF, reg64 (b + 0x28) .shared 0 0xFFFFFFFFFFFFFFFF,
   regs32 (b + 0x40) 8 8 .shared 0 0x1FFFF, regs32 (b + 0x44) 8 8 .shared 0x10010000 0xFFFFFFFF,
   regs32 (b + 0x80) 4 16 .shared 0xFF000000 0xFFFFFFFF, reg64 (b + 0x100) .shared 0 0,
   regs32 (b + 0x108) 4 2 .shared 0 0, regs64 (b + 0x110) 8 2 .shared 0 0, reg32 (b + 0x120) .shared 0 0]

/-- CLY_ per-port registers, FAR_, CAL_, HAT_ and BAY_ registers. -/
def regRows3 : List RegRow :=
  [regs32 0xD8000 8 16 .perPort 0 0xFFFFFFFF, regs32 0xD8004 8 16 .perPort 0 0xE0007F3F,
   regs32 0xD8100 8 64 .perPort 0xFFFFFFFF 0xFFFFFFFF, regs32 0xD8104 8 64 .perPort 0 0xF,
   reg32 0xD8300 .perPort 0x03E80064 0xFFFFFFFF, regs32 0xD8310 4 5 .perPort 0 0,
   reg32 0xE0000 .shared 0 0, reg64 0xE0008 .shared 0 0, reg32 0xE0010 .shared 0 0,
   reg32 0xF0000 .shared 0 0, reg64 0xF0008 .shared 0 0, reg32 0xF0010 .shared 0 0, regs32 0xF0020 4 5 .shared 0 0,
   reg64 0xF0038 .shared 0 0,
   reg32 0x100000 .perPort 0 0xFFFFF, reg32 0x100004 .perPort 0 0, regs32 0x100010 4 8 .perPort 0 0x8000007F,
   regs32 0x100030 4 3 .perPort 0 0,
   regs32 0x1080000 0x100000 21 .perPort 0 0, regs32 0x1080004 0x100000 21 .perPort 0 0,
   regs32 0x1090000 0x100000 21 .perBay 0 0, regs32 0x1090004 0x100000 21 .perBay 0 0,
   regs32 0x1090008 0x100000 21 .perBay 0 0, regs32 0x109000C 0x100000 21 .perBay 0 0,
   regs32 0x1090010 0x100000 21 .perBay 0 0, regs64 0x1090018 0x100000 21 .perBay 0 0,
   regs32 0x1090020 0x100000 21 .perBay 0 0, regs32 0x1090024 0x100000 21 .perBay 0 0,
   regs32 0x1090028 0x100000 21 .perBay 0 0, regs32 0x109002C 0x100000 21 .perBay 0 0]

/-- The BAR0 map (R490). -/
def regRows : List RegRow :=
  regRows0 ++ regRows1 ++ regRows2 ++ celayRows 0 ++ celayRows 1 ++ celayRows 2 ++ celayRows 3 ++ regRows3

/-- Whether an offset lies in a row; the high half of a 64-bit register counts. -/
def RegRow.has (r : RegRow) (off : Nat) : Bool :=
  decide (r.start ≤ off) && decide ((off - r.start) / r.stride < r.count)
    && ((off - r.start) % r.stride = 0 || (r.wide && (off - r.start) % r.stride = 4))

/-- The row that names a BAR0 offset. -/
def regRow (off : Nat) : Option RegRow := regRows.find? (fun r => r.has off)

/-- Whether an offset is the high half of a 64-bit register. -/
def isHigh (off : Nat) : Bool :=
  match regRow off with
  | none => false
  | some r => r.wide && (off - r.start) % r.stride = 4

/-- Whether an offset is the low half of a 64-bit register. -/
def isLow (off : Nat) : Bool :=
  match regRow off with
  | none => false
  | some r => r.wide && (off - r.start) % r.stride = 0

/-- The key of a stored register: its offset, and the port for a per-port copy. -/
def regKey (p : Nat) (off : Nat) : Nat :=
  match regRow off with
  | none => off
  | some r => if r.scope = .perPort then p * 2 ^ 32 + off else off

/-- The stored value of a register as a port sees it (R490 gives what it holds until it is written). -/
def regGet (s : State) (p off : Nat) : Nat :=
  mgetD s.regs (regKey p off) (match regRow off with | none => 0 | some r => r.reset)

/-- Set a stored register; its width bounds the value. -/
def regSet (p off v : Nat) (s : State) : State :=
  let w := match regRow off with | none => 32 | some r => if r.wide then 64 else 32
  { s with regs := mput s.regs (regKey p off) (v % 2 ^ w) }

/-- Add to a counter register, modulo its width. -/
def regAdd (p off n : Nat) (s : State) : State := regSet p off (regGet s p off + n) s

/-- Set bits of a stored register. -/
def regOr (p off m : Nat) (s : State) : State := regSet p off (regGet s p off ||| m) s

/-- Clear bits of a stored register. -/
def regClear (p off m : Nat) (s : State) : State :=
  regSet p off (regGet s p off - (regGet s p off &&& m)) s

/-- Replace a field of a stored register. -/
def regField (p off lo hi v : Nat) (s : State) : State := regSet p off (setBits (regGet s p off) lo hi v) s

/-- Add to a counter of both ports' copies. -/
def regAddBoth (off n : Nat) (s : State) : State := regAdd 1 off n (regAdd 0 off n s)

/-- Send an MSI-X message of a function (R352), newest first. -/
def sendIrq (fn vec : Nat) (s : State) : State := { s with irqs := (fn, vec) :: s.irqs }

/-- Raise vector 1 of a port's physical function (R352). -/
def noticeIrq (p : Nat) (s : State) : State := sendIrq (p * 64) 1 s

/-- Set GH_NOTICE bits of a port; a bit that changes to 1 while its enable bit is 1 raises vector 1 (R352, GH_NOTICE
of chapter 16). -/
def ghNotice (p m : Nat) (s : State) : State :=
  let fresh := m - (m &&& regGet s p 0x10030)
  let t := regOr p 0x10030 m s
  if fresh &&& regGet s p 0x10034 = 0 then t else noticeIrq p t

/-- Set GH_NOTICE bits of both ports. -/
def ghNoticeBoth (m : Nat) (s : State) : State := ghNotice 1 m (ghNotice 0 m s)

end Sys2Proof.Machine
end

