-- ==== Sys2Proof/Machine/Errors.lean ====
section
/-! DEFINITION. The error log (R439 to R445): the record's bytes, the two places of a source, delivery to the module
log and the port queues, and storms. -/

namespace Sys2Proof.Machine

/-- The 64 bytes of an error record (R441). -/
def ErrRec.bytes (e : ErrRec) : List Byte :=
  natLe 2 e.source ++ natLe 1 e.cls ++ natLe 1 e.code ++ natLe 1 (min e.overflow 255)
    ++ natLe 1 (b2n e.hint + 2 * b2n e.escalated + 4 * b2n e.sess) ++ natLe 1 e.port ++ natLe 1 e.func
    ++ natLe 8 e.time ++ natLe 1 e.pbay ++ natLe 1 e.lbay ++ natLe 2 e.core ++ natLe 4 e.addr ++ natLe 2 e.element
    ++ natLe 2 e.spare ++ natLe 1 e.unit ++ natLe 3 0 ++ natLe 8 e.ref ++ natLe 4 e.tile ++ natLe 2 e.gen
    ++ natLe 2 e.kd ++ natLe 8 e.detail ++ natLe 4 e.seq ++ natLe 4 0

/-- Source identifier of a kind and instance (R439). -/
def srcId (kind inst : Nat) : Nat := kind * 256 + inst

/-- The error queue of a port. -/
def errQueue (s : State) (p : Nat) : ErrQueue := if p = 0 then s.errQueueA else s.errQueueB

/-- Replace the error queue of a port. -/
def setErrQueue (p : Nat) (q : ErrQueue) (s : State) : State :=
  if p = 0 then { s with errQueueA := q } else { s with errQueueB := q }

/-- Deliver a record to one port's queue (R445): counted, masked by ERR_CTRL, given the next SEQ, displacing the
oldest of 256, and vector 1 when HAVE becomes 1 under NOTICE_EN. -/
def queueErr (p : Nat) (e : ErrRec) (s : State) : State :=
  let s := regAdd p (0x20010 + 4 * e.cls) 1 s
  if ! bitOf (regGet s p 0x20004) (8 + e.cls) then s
  else
    let q := errQueue s p
    let full := decide (256 ≤ q.recs.length)
    let kept := if full then q.recs.drop 1 else q.recs
    let s := if full then regAdd p 0x2000C 1 s else s
    let s := setErrQueue p ⟨kept ++ [{ e with seq := q.seq }], (q.seq + 1) % 2 ^ 32⟩ s
    if q.recs = [] && bitOf (regGet s p 0x20004) 0 then noticeIrq p s else s

/-- Deliver a record to the module log, which keeps the 256 newest, and to the port queues (R445). -/
def deliverErr (e : ErrRec) (s : State) : State :=
  let s := { s with modLog := (e :: s.modLog).take 256 }
  if e.port = 0xFF then queueErr 1 e (queueErr 0 e s) else queueErr e.port e s

/-- The places of a source. -/
def errSource (s : State) (src : Nat) : ErrSource := mgetD s.errSources src {}

/-- Replace the places of a source. -/
def setErrSource (src : Nat) (x : ErrSource) (s : State) : State :=
  { s with errSources := mput s.errSources src x }

/-- Add a repair list entry in the REPAIR record format when it is new and the list of 4,096 has room (R459). -/
def addRepair (pbay kind core elem spare : Nat) (s : State) : State :=
  let e := leNat (natLe 1 pbay ++ natLe 1 kind ++ natLe 2 core ++ natLe 2 elem ++ natLe 2 spare)
  if s.store.repairs.contains e || 4096 ≤ s.store.repairs.length then s
  else { s with store := { s.store with repairs := s.store.repairs ++ [e] } }

/-- Whether escalation of a source kind mutes it: host ports and the gatehouse (R444). -/
def mutes (src : Nat) : Bool := src / 256 = 5 || src / 256 = 0x0A

/-- An error of a source is detected (R443, R444): it takes the service place and is delivered, or the pending
place, or is an overflow of the pending record. The third overflow within 100 ms escalates the source: a host port or
the gatehouse is muted, and every other source's containment action is owed. -/
def raiseErr (e0 : ErrRec) (s : State) : State :=
  let e := { e0 with time := s.time }
  let x := errSource s e.source
  let bump := x.pending.map (fun r => { r with overflow := min 255 (r.overflow + 1) })
  if x.mutedSince.isSome then
    setErrSource e.source { x with pending := bump, mutedSince := some s.time } s
  else
    match x.service, x.pending with
    | none, _ => deliverErr e (setErrSource e.source { x with service := some e } s)
    | some _, none => setErrSource e.source { x with pending := some e } s
    | some _, some _ =>
      let times := (x.overflows.filter (fun t => decide (s.time < t + 100000000))) ++ [s.time]
      if 3 ≤ times.length && ! x.escalate then
        regAdd 0 0x2002C 1 (setErrSource e.source { x with
          pending := bump.map (fun r => { r with escalated := true }), overflows := [],
          mutedSince := if mutes e.source then some s.time else none,
          escalate := ! mutes e.source } s)
      else setErrSource e.source { x with pending := bump, overflows := times } s

/-- Escalate a source without waiting for overflows (R447). -/
def escalateNow (src : Nat) (s : State) : State :=
  regAdd 0 0x2002C 1 (setErrSource src { errSource s src with escalate := true } s)

/-- The physical bay of a logical bay under the image in force (R15, R396). -/
def physBay (s : State) (b : Nat) : Nat :=
  match s.trellis with
  | none => b
  | some t => t.bayMap.getD b b

/-- An access to a far slot: one to the site of a retraining burst in progress waits for the burst's end, counted in
CAL_BURST_WAITS (R431). -/
def farAccess (slot : Nat) (s : State) : State :=
  let sites := match s.trellis with | none => 8 | some t => max t.sites 1
  if s.farCal.burstAt.isSome && s.farCal.channel / 4 = slot % sites then regAdd 0 0xF0038 1 s else s

/-- The far slot of a directory row's shadow line (R197). -/
def shadowSlot (s : State) (row : Nat) : Nat := (match s.trellis with | none => 0 | some t => t.mapSlots) + row / 128

/-- The physical core of a logical core, as physical row × 32 + column (R18, R441). -/
def physCore (s : State) (k : Nat) : Nat :=
  let row := k % 512 / 32
  let col := k % 32
  let gone := match s.trellis with
    | none => 0xFF
    | some t => t.coreMap.getD (32 * physBay s (k / 512) + col) 0xFF
  (if gone ≤ row then row + 1 else row) * 32 + col

/-- A record of a bay's error at a core (R439, R441). -/
def bayErr (s : State) (k cls code : Nat) : ErrRec :=
  { source := srcId 1 (physBay s (k / 512)), cls := cls, code := code, pbay := physBay s (k / 512), lbay := k / 512,
    core := physCore s k }

/-- A refused register access (R442 code 0x20): size, direction and BAR in DETAIL. An access of 256 bytes or more keeps the low
eight bits of its size (DESIGN CHOICE, log 97: R442 gives the size one byte). -/
def regAccessErr (f : Fn) (bar : Bar) (off size : Nat) (write : Bool) : ErrRec :=
  { source := srcId 5 f.port.idx, cls := 1, code := 0x20, port := f.port.idx, func := f.num.val, addr := off,
    detail := size % 256 + 256 * b2n write + 65536 * (match bar with | .bar0 => 0 | .bar4 => 4) }

end Sys2Proof.Machine
end

