-- ==== Sys2Proof/Machine/CoreOps.lean ====
section
/-! DEFINITION. What sliver-core instructions share: issue in a running frame (R30, R65), results in flight (R33,
R59), registers, lane masks (R32), flags (R63) and pane-store addresses (R60, R73). -/

namespace Sys2Proof.Machine

/-- A core's resources. -/
def coreAt (s : State) (k : Nat) : Core := mgetD s.cores k {}

/-- Replace a core's resources. -/
def setCore (k : Nat) (c : Core) (s : State) : State := { s with cores := mput s.cores k c }

/-- A logical bay. -/
def bayAt (s : State) (b : Nat) : Bay := mgetD s.bays b {}

/-- Replace a bay. -/
def setBay (b : Nat) (x : Bay) (s : State) : State := { s with bays := mput s.bays b x }

/-- Change a bay. -/
def onBay (b : Nat) (f : Bay → Bay) (s : State) : State := setBay b (f (bayAt s b)) s

/-- The bay of a core (R19). -/
def coreBay (k : Nat) : Nat := k / 512

/-- The global quarter of a core (chapter 3, Frames and frame groups): 128 cores each. -/
def coreQuarter (k : Nat) : Nat := k / 128

/-- The pavilion a quarter belongs to (R256). -/
def quarterPav (s : State) (q : Nat) : Option (Nat × Pav) := s.pavs.find? (fun p => p.2.quarters.contains q)

/-- The frame in progress that a bay takes part in, with its key. -/
def frameOf (s : State) (b : Nat) : Option (Nat × Frame) := s.frames.find? (fun p => p.2.bays.contains b)

/-- Whether some pavilion of a bay takes part in a frame (R67). -/
def Frame.runsIn (f : Frame) (bay : Nat) : Bool := f.quarters.any (fun q => q / 4 = bay)

/-- The frame in which a bay's hub traffic is bound to windows and slots (R84): its group's frame, when a pavilion of the
bay takes part. -/
def boundFrame (s : State) (bay : Nat) : Option (Nat × Frame) :=
  match frameOf s bay with
  | none => none
  | some (key, f) => if f.runsIn bay then some (key, f) else none

/-- Replace a frame. -/
def setFrame (key : Nat) (f : Frame) (s : State) : State := { s with frames := mput s.frames key f }

/-- The frame a core issues bundles in at a frame cycle: its quarter takes part, the frame is not frozen or stopped,
and the cycle is neither past nor after a freeze that is due (R65, R67, R96). -/
def issuing (s : State) (k cyc : Nat) : Option (Nat × Frame) :=
  match frameOf s (coreBay k) with
  | none => none
  | some (key, f) =>
    if f.quarters.contains (coreQuarter k) && f.hold.isNone && ! f.stopped && decide (f.cycle ≤ cyc)
        && decide (cyc < f.length) && f.requests.all (fun r => decide (cyc < r.freezeAt)) then some (key, f) else none

/-! ### Registers -/

/-- A vector register's contents. -/
def Core.vreg (c : Core) (n : Fin 32) : Vec :=
  (mget? c.v n).getD (if c.lost = 0 then 0 else Config.lostVec c.lost n)

/-- A scalar register's contents. -/
def Core.sreg (c : Core) (n : Fin 16) : DWord :=
  (mget? c.sr n).getD (if c.lost = 0 then 0 else Config.lostScalar c.lost n)

/-- The key of an accumulator column. -/
def accKey (t : Fin 8) (j : Fin 32) : Nat := t * 32 + j

/-- An accumulator column's contents. -/
def Core.accCol (c : Core) (t : Fin 8) (j : Fin 32) : Vec :=
  (mget? c.acc (accKey t j)).getD (if c.lost = 0 then 0 else Config.lostAcc c.lost (accKey t j))

/-- A code-table register's contents. -/
def Core.table (c : Core) (n : Fin 8) : KTable :=
  (mget? c.kt n).getD (if c.lost = 0 then 0 else Config.lostTable c.lost n)

/-- A hatch register's contents. -/
def Core.hreg (c : Core) (n : Nat) : Half :=
  (mget? c.h n).getD (if c.lost = 0 then 0 else Config.lostHatch c.lost n)

/-- Bytes of the pane store (R29). -/
def paneBytes : Nat := 786432

/-- A pane-store byte. -/
def Core.paneByte (c : Core) (a : Nat) : Byte :=
  (mget? c.pane a).getD (if c.lost = 0 then 0 else Config.lostPane c.lost a)

/-- Read pane-store bytes. -/
def Core.paneRead (c : Core) (a n : Nat) : List Byte := (List.range n).map (fun i => c.paneByte (a + i))

/-- Write a pane-store byte; the map lists zeros only where an unlisted byte would not read as zero. -/
def Core.panePut (c : Core) (a : Nat) (b : Byte) : Core :=
  { c with pane := if c.lost = 0 && b = 0 then mdel c.pane a else mput c.pane a b }

/-- Write pane-store bytes. -/
def Core.paneWrite (c : Core) (a : Nat) : List Byte → Core
  | [] => c
  | b :: bs => (c.panePut a b).paneWrite (a + 1) bs

/-! ### Results in flight -/

/-- Write a result whose latency has elapsed; a masked lane keeps what it holds then (R32). -/
def landVal (c : Core) : FlightVal → Core
  | .vec n m x => { c with v := mput c.v n ((c.vreg n &&& ~~~ m) ||| (x &&& m)) }
  | .scal n x => { c with sr := mput c.sr n x }
  | .acc t j x => { c with acc := mput c.acc (accKey t j) x }
  | .table n x => { c with kt := mput c.kt n x }
  | .pane a bs => c.paneWrite a bs

/-- Land every result due by a cycle, oldest first. -/
def retire (now : Nat) (c : Core) : Core :=
  let due := c.flight.filter (fun f => decide (f.due ≤ now))
  due.foldl (fun c f => landVal c f.val) { c with flight := c.flight.filter (fun f => decide (now < f.due)) }

/-- Place a result among those in flight, after every one due no later. -/
def insertFlight (f : Flight) : List Flight → List Flight
  | [] => [f]
  | g :: gs => if f.due < g.due then f :: g :: gs else g :: insertFlight f gs

/-- Send a result on its way: it may be read from cycle `due` on (R33). -/
def fly (due : Nat) (v : FlightVal) (c : Core) : Core := { c with flight := insertFlight ⟨due, v⟩ c.flight }

/-! ### Flags (R63) -/

/-- Record the flags a core sets: in the core, in its port's copy of BAY_ARITH_FLAGS, and in BAY_ARITH_FIRST when no
flag was set; of several cores in one cycle the lowest-numbered is kept. -/
def setFlags (k key : Nat) (f : Frame) (cyc : Nat) (fl : BitVec 5) (s : State) : State :=
  if fl = 0 then s
  else
    let c := coreAt s k
    let s := setCore k { c with flags := c.flags ||| fl } s
    match quarterPav s (coreQuarter k) with
    | none => s
    | some (_, pav) =>
      let base := 0x1000000 + physBay s (coreBay k) * 0x100000
      let first := regGet s pav.port (base + 0x80004)
      let stamp := f.start * 2 ^ 33 + key * 2 ^ 32 + cyc
      let rk := regKey pav.port (base + 0x80004)
      let s := regOr pav.port (base + 0x80000) fl.toNat s
      if ! bitOf first 31 || (mgetD s.arithAt rk 0 = stamp && decide (k % 512 < bits first 0 8)) then
        { regSet pav.port (base + 0x80004) (2 ^ 31 + pav.step % 65536 * 512 + k % 512) s with
          arithAt := mput s.arithAt rk stamp }
      else s

/-! ### What an instruction does -/

/-- What an instruction does to its core: the core after issue and the flags it sets, or an address that does not
exist. -/
inductive CoreRes where
  | ok (c : Core) (flags : BitVec 5)
  | bad (f : Fault)
  deriving DecidableEq, Repr

/-! ### Lanes -/

/-- The elements of a register, `w` bits each. -/
def lanes (w n : Nat) (v : Vec) : List Nat := unpackBits w n v.toNat

/-- A register of elements, `w` bits each; the bits above the last element are zero. -/
def ofLanes (w : Nat) (xs : List Nat) : Vec := BitVec.ofNat 1024 (packBits w xs)

/-- Whether each of `n` lanes is enabled (R32). -/
def laneOn (c : Core) (m : Mask) (n : Nat) : List Bool :=
  match m with
  | none => List.replicate n true
  | some r => (List.range n).map (fun i => (c.sreg r).getLsbD i)

/-- The bits of a register that enabled lanes cover. -/
def laneBits (w : Nat) (on : List Bool) : Vec := ofLanes w (on.map (fun b => if b then 2 ^ w - 1 else 0))

/-- The flags of the enabled lanes. -/
def laneFlags (on : List Bool) (fl : List (BitVec 5)) : BitVec 5 :=
  ((on.zip fl).filter (·.1)).foldl (fun a p => a ||| p.2) 0

/-- A vector result of `w`-bit lanes: it lands after `lat` cycles in the enabled lanes of Vd. -/
def vecOut (w lat cyc : Nat) (vd : Fin 32) (m : Mask) (rs : List (LaneRes Nat)) (c : Core) : CoreRes :=
  let on := laneOn c m rs.length
  .ok (fly (cyc + lat) (.vec vd (laneBits w on) (ofLanes w (rs.map (·.val)))) c) (laneFlags on (rs.map (·.flags)))

/-- The FP32 elements of a register. -/
def fpLanes (v : Vec) : List FVal := (lanes 32 32 v).map (fun x => fp32Val (BitVec.ofNat 32 x))

/-- An FP32 lane result as a number. -/
def numRes (r : LaneRes Word) : LaneRes Nat := ⟨r.val.toNat, r.flags⟩

/-- Apply an FP32 function of one operand in every lane. -/
def fpUn (f : FVal → LaneRes Word) (a : Vec) : List (LaneRes Nat) := (fpLanes a).map (fun x => numRes (f x))

/-- Apply an FP32 function of two operands in every lane. -/
def fpBin (f : FVal → FVal → LaneRes Word) (a b : Vec) : List (LaneRes Nat) :=
  ((fpLanes a).zip (fpLanes b)).map (fun p => numRes (f p.1 p.2))

/-- Apply an FP32 function of three operands in every lane. -/
def fpTer (f : FVal → FVal → FVal → LaneRes Word) (a b c : Vec) : List (LaneRes Nat) :=
  ((fpLanes a).zip ((fpLanes b).zip (fpLanes c))).map (fun p => numRes (f p.1 p.2.1 p.2.2))

/-- An exact integer saturated to INT16; saturation sets SATURATE and INT16 (R56, R63). -/
def sat16 (x : Int) : LaneRes Nat :=
  if x < -32768 then ⟨0x8000, flSaturate ||| flInt16⟩
  else if 32767 < x then ⟨0x7FFF, flSaturate ||| flInt16⟩
  else ⟨(x % 65536).toNat, 0⟩

/-- An exact integer wrapped modulo 2^16; no flag (R56). -/
def wrap16 (x : Int) : LaneRes Nat := ⟨(x % 65536).toNat, 0⟩

/-- The INT16 elements of a register. -/
def intLanes (v : Vec) : List Int := (lanes 16 64 v).map (fun x => (BitVec.ofNat 16 x : Half).toInt)

/-- Apply an INT16 function of two operands in every lane. -/
def i16Bin (f : Int → Int → LaneRes Nat) (a b : Vec) : List (LaneRes Nat) :=
  ((intLanes a).zip (intLanes b)).map (fun p => f p.1 p.2)

/-- A saturating left shift (R56). An amount below zero is a shift the spec does not state: a free value. -/
def shl16 (a b : Int) : LaneRes Nat :=
  if b < 0 then ⟨(Config.int16Shift true (BitVec.ofInt 16 a) (BitVec.ofInt 16 b)).toNat, 0⟩
  else sat16 (a * 2 ^ b.toNat)

/-- An arithmetic right shift (R56), with the same free value. -/
def sar16 (a b : Int) : LaneRes Nat :=
  if b < 0 then ⟨(Config.int16Shift false (BitVec.ofInt 16 a) (BitVec.ofInt 16 b)).toNat, 0⟩
  else wrap16 (a / 2 ^ b.toNat)

end Sys2Proof.Machine
end

