-- ==== Sys2Proof/Machine/Desc.lean ====
section
/-! DEFINITION. The decode descriptor (R104) and what follows from it: slot kinds and capacities, units, the deal
function (R113), and the numbering of a session's tiles (R135). A descriptor is its 64 bytes, empty when absent. -/

namespace Sys2Proof.Machine

/-- Fields of R104. -/
def dKvFormat (d : List Byte) : Nat := leField d 0 1
def dPosEnc (d : List Byte) : Nat := leField d 1 1
def dRopePairs (d : List Byte) : Nat := leField d 2 1
def dRopeTable (d : List Byte) : Nat := leField d 3 1
def dLayers (d : List Byte) : Nat := if d = [] then 1 else leField d 4 2
def dGroups (d : List Byte) : Nat := leField d 6 1
def dHeads (d : List Byte) : Nat := leField d 7 1
def dWide (d : List Byte) : Nat := leField d 8 2
def dStream (d : List Byte) : Nat := leField d 10 2
def dWidth (d : List Byte) : Nat := leField d 12 2
def dRopeDims (d : List Byte) : Nat := leField d 14 2
def dHolders (d : List Byte) : Nat := leField d 0x10 4
def dRun (d : List Byte) : Nat := leField d 0x14 2
def dSRun (d : List Byte) : Nat := leField d 0x16 2
def dSHolders (d : List Byte) : Nat := leField d 0x18 4
def dKvBase (d : List Byte) : Nat := leField d 0x1C 4
def dSBase (d : List Byte) : Nat := leField d 0x20 4
def dAuxBase (d : List Byte) : Nat := leField d 0x24 4
def dInBase (d : List Byte) : Nat := leField d 0x28 4
def dSlotIn (d : List Byte) : Nat := leField d 0x2C 4
def dHidden (d : List Byte) : Nat := leField d 0x34 2
def dEmbed (d : List Byte) : Nat := leField d 0x38 8

/-- Positions per unit (R110). -/
def unitPos (d : List Byte) : Nat := if dKvFormat d = 2 then 32 else if dKvFormat d = 3 then 2048 else 64

/-- Tiles per unit (R110). -/
def unitTiles (d : List Byte) : Nat := if dKvFormat d = 3 then 17 else 1

/-- The kind of a batch slot as R347 numbers them: 0 narrow, 1 wide, 2 stream (R104). -/
def slotKindOf (d : List Byte) (s : Nat) : Nat :=
  if s < dWide d then 1 else if s < dWide d + dStream d then 2 else 0

/-- The capacity of a slot of a kind in positions (R109); a program with no decode descriptor bounds none. -/
def slotCap (d : List Byte) (kind : Nat) : Nat :=
  if d = [] then 2097152
  else if kind = 2 then dSHolders d * dSRun d * unitPos d else dHolders d * dRun d * unitPos d

/-- Columns of a slot of a kind (chapter 4, Columns, slots and slot records). -/
def slotWidth (d : List Byte) (kind : Nat) : Nat := if kind = 1 then dWidth d else 1

/-- The first pavilion column of a slot. -/
def slotCol (d : List Byte) (s : Nat) : Nat := if s < dWide d then s * dWidth d else dWide d * dWidth d + (s - dWide d)

/-- The bays of a pavilion. -/
def Pav.bays (p : Pav) : List Nat := dedupNat (p.quarters.map (· / 4))

/-- The number of cores of a pavilion. -/
def pavCores (p : Pav) : Nat := 128 * p.quarters.length

/-- Pavilion core `j` as a global core: ascending global index (R107). -/
def pavCore (p : Pav) (j : Nat) : Nat := p.quarters.getD (j / 128) 0 * 128 + j % 128

/-- The deal function of R113: pavilion core and local index of unit `n`. -/
def dealFn (c k r b gn l g s n : Nat) : Nat × Nat :=
  let i := s * gn + g
  let w := c / k
  (k * (i % w) + n / r, (l * ceilDiv (b * gn) w + i / w) * r + n % r)

/-- Where unit `n` of layer `l` and group `g` of a batch slot lies: global core and sliver line (R113, R127). -/
def unitPlace (p : Pav) (d : List Byte) (slots l g s n : Nat) : Nat × Nat :=
  let (ju, base) :=
    if slotKindOf d s = 2 then
      (dealFn (pavCores p) (dSHolders d) (dSRun d) (dStream d) (dGroups d) (l % 2) g (s - dWide d) n, dSBase d)
    else (dealFn (pavCores p) (dHolders d) (dRun d) slots (dGroups d) l g s n, dKvBase d)
  (pavCore p ju.1, base + ju.2 * 256 * unitTiles d)

/-- The decode descriptor of a pavilion's program; empty when it has none. -/
def Pav.desc (p : Pav) : List Byte := match p.prog with | none => [] | some g => g.decode

/-- The batch slots of a pavilion's program. -/
def Pav.nslots (p : Pav) : Nat := match p.prog with | none => 0 | some g => imgSlots g.image

/-! ### Tiles of a session (R135) -/

/-- Units per layer and group: ⌈Lmax ÷ P_u⌉. -/
def sessUnits (d : List Byte) (lmax : Nat) : Nat := ceilDiv lmax (unitPos d)

/-- Number of key and value tiles, K of R135. -/
def kvTiles (d : List Byte) (lmax : Nat) : Nat := dLayers d * dGroups d * sessUnits d lmax * unitTiles d

/-- Number of tag tiles. -/
def tagTiles (lmax : Nat) : Nat := ceilDiv lmax 8192

/-- Index of tile `t` of unit `n` of layer `l`, group `g`. -/
def kvIndex (d : List Byte) (lmax l g n t : Nat) : Nat :=
  ((l * dGroups d + g) * sessUnits d lmax + n) * unitTiles d + t

/-- The layer, group, unit and tile of a key or value tile index. -/
def kvOf (d : List Byte) (lmax i : Nat) : Nat × Nat × Nat × Nat :=
  let t := unitTiles d
  let u := sessUnits d lmax
  (i / t / u / dGroups d, i / t / u % dGroups d, i / t % u, i % t)

/-- The core and first byte of the tags that group `g`'s holder keeps for the positions of unit `n` (R113, R119, R135): two
bytes a position in unit order from AUX_BASE, as a holder numbers a layer's units; those of stream slots follow the others
(log 30). -/
def tagUnit (p : Pav) (d : List Byte) (slot g n : Nat) : Nat × Nat :=
  let stream := slotKindOf d slot = 2
  let a := unitPlace p d p.nslots 0 g slot n
  let u := (a.2 - (if stream then dSBase d else dKvBase d)) / (256 * unitTiles d)
  let skip := if stream then ceilDiv (p.nslots * dGroups d) (pavCores p / dHolders d) * dRun d else 0
  (a.1, 64 * dAuxBase d + 2 * unitPos d * (skip + u))

/-- The core and byte of a position's tag in group `g`'s holder. -/
def tagByte (p : Pav) (slot g pos : Nat) : Nat × Nat :=
  let a := tagUnit p p.desc slot g (pos / unitPos p.desc)
  (a.1, a.2 + 2 * (pos % unitPos p.desc))

/-- The units whose positions' tags a tag tile holds (R135). -/
def tagUnits (d : List Byte) (lmax m : Nat) : List Nat :=
  let per := 8192 / unitPos d
  (List.range (min per (sessUnits d lmax - per * m))).map (per * m + ·)

/-- Where a session's tile lies in a batch slot (R113, R135): core and sliver line. A tag tile's entry names the
group-0 holder of its first position and its line of the auxiliary area (log 30). -/
def sessTilePlace (p : Pav) (d : List Byte) (lmax slot i : Nat) : Nat × Nat :=
  let k := kvTiles d lmax
  if i < k then
    let x := kvOf d lmax i
    let a := unitPlace p d p.nslots x.1 x.2.1 slot x.2.2.1
    (a.1, a.2 + 256 * x.2.2.2)
  else
    let a := tagUnit p d slot 0 (8192 * (i - k) / unitPos d)
    (a.1, a.2 / 64 / 4 * 4)

/-- The layer a session's tile belongs to in its tile map entry. -/
def sessTileLayer (d : List Byte) (lmax i : Nat) : Nat :=
  if i < kvTiles d lmax then (kvOf d lmax i).1 else 0xFFFF

/-- Whether a key or value tile belongs to a tail unit of a session of length `len` (R127): its unit holds a position at
or after the last full unit. -/
def kvTail (d : List Byte) (lmax len i : Nat) : Bool := decide (len < ((kvOf d lmax i).2.2.1 + 1) * unitPos d)

/-- Whether a tile of a session in a batch slot is one a stream slot keeps in no near slot of its own (R127). -/
def streamed (d : List Byte) (lmax len slot i : Nat) : Bool :=
  slotKindOf d slot = 2 && decide (i < kvTiles d lmax) && ! kvTail d lmax len i

/-- Whether a session of length `len` needs a key or value tile: it holds a position below the length (R136). -/
def kvNeeded (d : List Byte) (lmax len i : Nat) : Bool :=
  let x := kvOf d lmax i
  decide (x.2.2.1 * unitPos d < len) &&
    (unitTiles d = 1 || x.2.2.2 = 16 || decide (x.2.2.1 * unitPos d + 128 * x.2.2.2 < len))

/-- The tile indices a session needs for a layer (R136). -/
def neededTiles (d : List Byte) (lmax len layer : Nat) : List Nat :=
  let per := dGroups d * sessUnits d lmax * unitTiles d
  let kv := ((List.range per).map (fun i => layer * per + i)).filter (fun i => kvNeeded d lmax len i)
  let k := kvTiles d lmax
  if layer = 0 then kv ++ (List.range (tagTiles lmax + 1)).map (fun m => k + m) else kv

/-- Choose among alternatives the spec leaves to the part; a single alternative is no choice. -/
def choose (xs : List Nat) (s : State) : Option Nat :=
  match xs with
  | [] => none
  | [x] => some x
  | x :: y :: zs => some ((x :: y :: zs).getD (Config.freeChoice s.free % (zs.length + 2)) x)

/-- Advance the counter of free values. -/
def drew (s : State) : State := { s with free := s.free + 1 }

end Sys2Proof.Machine
end

