-- ==== Sys2Proof/Machine/Rings.lean ====
section
/-! DEFINITION. Request and completion rings (R339 to R346, R352): fetching a request, completing one, the completion
interrupt, and the charges a completion carries (R280). -/

namespace Sys2Proof.Machine

/-- The rings of a function. -/
def ringOf (s : State) (fn : Nat) : Ring := mgetD s.rings fn {}

/-- Replace the rings of a function. -/
def setRing (fn : Nat) (r : Ring) (s : State) : State := { s with rings := mput s.rings fn r }

/-- Change the rings of a function. -/
def onRing (fn : Nat) (f : Ring → Ring) (s : State) : State := setRing fn (f (ringOf s fn)) s

/-- The entry count of a ring whose size field holds `v` (R339): 2^6 to 2^16. -/
def ringLog (v : Nat) : Nat := min 16 (max 6 (v % 32))

/-- The port of a function. -/
def fnPort (fn : Nat) : Nat := fn / 64

/-- The key of a byte of a port's host memory. -/
def hostKey (p addr : Nat) : Nat := p * 2 ^ 64 + addr % 2 ^ 64

/-- Write bytes to a port's host memory (R344). -/
def dmaWrite (p addr : Nat) (bs : List Byte) (s : State) : State :=
  { s with hostMem := memWrite s.hostMem (hostKey p addr) bs }

/-- The tenant of a port. -/
def tenantOf (s : State) (p t : Nat) : Tenant := mgetD s.tenants (p * 4096 + t) {}

/-- Change a tenant. -/
def onTenant (p t : Nat) (f : Tenant → Tenant) (s : State) : State :=
  { s with tenants := mput s.tenants (p * 4096 + t) (f (tenantOf s p t)) }

/-- Commit the charges of a completion (R277, R280). -/
def applyCharge (c : Option Charge) (s : State) : State :=
  match c with
  | none => s
  | some c => onTenant c.port c.tenant (fun t => { t with
      tokensOut := t.tokensOut + c.tokensOut, tokensIn := t.tokensIn + c.tokensIn, cycles := t.cycles + c.cycles,
      steps := t.steps + c.steps, preempted := t.preempted + c.preempted, deferred := t.deferred + c.deferred,
      budget := if t.unlimited then t.budget else t.budget - c.cost }) s

/-- Whether the completion interrupt's condition holds (R352). -/
def coalMet (r : Ring) (time : Nat) : Bool :=
  decide (0 < r.unsig) && (decide (max 1 r.coalCount ≤ r.unsig) || decide (r.firstAt + r.coalNs ≤ time))

/-- Fire vector 0 when it is enabled and its condition holds (R352). -/
def fireCoal (fn : Nat) (s : State) : State :=
  let r := ringOf s fn
  if r.irqEnable && coalMet r s.time then sendIrq fn 0 (setRing fn { r with unsig := 0 } s) else s

/-- Whether the completion ring is full (R345). -/
def cqFull (r : Ring) : Bool := (r.cqTail + 1) % 2 ^ r.cqLogL = r.cqHead

/-- The 32 bytes of a completion entry (R343). -/
def cplBytes (phase : Bool) (c : Cpl) : List Byte :=
  natLe 1 (b2n phase + 2 * b2n c.more + 4 * b2n c.error) ++ natLe 1 c.status ++ natLe 1 c.detail
    ++ natLe 1 c.id.opcode ++ natLe 4 c.id.tag ++ natLe 8 c.id.session ++ natLe 4 c.token ++ natLe 4 c.outOffset
    ++ natLe 2 c.outBytes ++ natLe 2 c.gen ++ natLe 4 c.info

/-- Write a completion at CQ_TAIL with the current phase and commit its charges (R280, R340, R343, R352). -/
def writeCpl (fn : Nat) (c : Cpl) (s : State) : State :=
  let r := ringOf s fn
  let t := (r.cqTail + 1) % 2 ^ r.cqLogL
  let r' := { r with
    cqTail := t
    phase := if t = 0 then ! r.phase else r.phase
    unsig := r.unsig + 1
    firstAt := if r.unsig = 0 then s.time else r.firstAt
    entries := r.entries ++ [⟨r.cqTail, c.sessKey, c.id.seq, c.outBytes⟩] }
  fireCoal fn (applyCharge c.charge
    (setRing fn r' (dmaWrite (fnPort fn) (r.cqBaseL + 32 * r.cqTail) (cplBytes r.phase c) s)))

/-- Drain the overflow queue into the completion ring (R345). -/
def drainOverflow (fn : Nat) : Nat → State → State
  | 0, s => s
  | n + 1, s =>
    let r := ringOf s fn
    match r.overflow with
    | [] => s
    | c :: cs =>
      if cqFull r then s else drainOverflow fn n (writeCpl fn c (setRing fn { r with overflow := cs } s))

/-- Whether the completions of a request are discarded: its rings stopped since it was fetched (R340). -/
def cplDead (r : Ring) (id : ReqId) : Bool := ! r.enable || r.epoch ≠ id.epoch

/-- Deliver a completion: discard it with its charges when its rings stopped, queue it when the ring is full, and
else write it (R280, R340, R345). The last completion of a request takes it off the fetched requests. -/
def postCpl (c : Cpl) (s : State) : State :=
  if s.hub.stopped then s
  else
  let fn := c.id.fn
  let r := ringOf s fn
  let r := if c.more then r else { r with fetched := r.fetched.filter (· ≠ c.id) }
  let s := setRing fn r s
  if cplDead r c.id then applyCharge c.charge s
  else if r.overflow ≠ [] || cqFull r then setRing fn { r with overflow := r.overflow ++ [c] } s
  else writeCpl fn c s

/-! ### Fetching a request -/

/-- Whether the hub runs firmware with an image in force and takes requests (R308, R401, R402, R410, R456). -/
def hubServes (s : State) : Bool :=
  s.hub.firmware && s.trellis.isSome && ! s.hub.inReset && ! s.hub.quiet && ! s.hub.quiesce && ! s.hub.stopped

/-- Whether a function's ring has a request to fetch (R340, R345). -/
def fetchable (s : State) (fn : Nat) : Bool :=
  let r := ringOf s fn
  hubServes s && r.enable && decide (r.rqHead ≠ r.rqTail) && r.overflow = []

/-- The key that names a session: the identity it was opened under and its identifier (R26, R181). -/
def sessKey (fn id : Nat) : Nat := fn * 2 ^ 64 + id

/-- The key that names an object: its owner and its number (R132). -/
def objKey (fn num : Nat) : Nat := fn * 2 ^ 64 + num

/-- The key of a session or object a host names. -/
def refKey (o : ObjRef) : Nat := objKey o.owner.key o.num.toNat

/-- Take the request at RQ_HEAD (R340), or the held request that is being released; none when there is none. -/
def fetchReq (r : Req) (op : Nat) (s : State) : Option (ReqId × State) :=
  match s.releasing with
  | some id => some (id, { s with releasing := none })
  | none =>
    if fetchable s r.fn.key then
      let q := ringOf s r.fn.key
      let id : ReqId := ⟨r.fn.key, q.seq, q.epoch, op, r.tag.toNat, r.session.toNat, r.identity.key, r.noWrite⟩
      some (id, setRing r.fn.key { q with
        rqHead := (q.rqHead + 1) % 2 ^ q.rqLogL, seq := q.seq + 1, fetched := q.fetched ++ [id] } s)
    else none

/-- The session a request names under its identity, as the hub keeps it. -/
def sessOf (s : State) (id : ReqId) : Option Session := mget? s.sessions (sessKey id.ident id.session)

/-- The tenant a function's sessions charge (R282, R283). -/
def fnTenant (s : State) (fn : Nat) : Nat := mgetD s.fnTenant fn 0

/-- Whether an opcode's header names a session (R341): nibble 0x1 and the text requests that act on one. -/
def namesSession (op : Nat) : Bool := op / 16 = 1 || op = 0x33 || (decide (0x35 ≤ op) && decide (op ≤ 0x39))

/-- The session that a request's header names, when it names one. -/
def sessNamed (s : State) (id : ReqId) : Option Session := if namesSession id.opcode then sessOf s id else none

/-- A request's completion with a detail, the step status of the detail's table (none for '—'), and INFO. A failing
detail without a status sets ERROR (R343). A deferral counts for the session's tenant, and without a session for the tenant
the function charges (R280, log 65). -/
def complete (id : ReqId) (detail : Nat) (status : Option Nat) (info : Nat) (s : State) : State :=
  postCpl { id := id, status := status.getD 0, detail := detail, error := decide (status = none) && decide (detail ≠ 0),
            gen := ((sessNamed s id).map (·.gen)).getD 0, info := info,
            charge := if status = some 7 then
              some { port := fnPort id.fn, tenant := ((sessNamed s id).map (·.tenant)).getD (fnTenant s id.ident), deferred := 1 }
            else none } s

/-- Complete with DONE. -/
def done (id : ReqId) (s : State) : State := complete id 0 (some 0) 0 s

/-- Complete with a detail that has no status. -/
def fail (id : ReqId) (detail : Nat) (s : State) : State := complete id detail none 0 s

/-- Write a request's result to a host buffer and go on, or complete with DMA_FAULT where the buffer cannot be written (R334,
R351). -/
def withOut (id : ReqId) (addr : Nat) (bs : List Byte) (next : State → State) (s : State) : State :=
  if id.noWrite then fail id 0x94 s else next (dmaWrite (fnPort id.fn) addr bs s)

/-- Complete with ADMISSION_DEFERRED and a detail. -/
def defer (id : ReqId) (detail : Nat) (s : State) : State := complete id detail (some 7) 0 s

/-- Complete with BAD_ENTRY, INFO the entry byte at fault (R342). -/
def badEntry (id : ReqId) (byte : Nat) (s : State) : State := complete id 0x92 none byte s

/-- The TDISP state of a function (R329). -/
def tdiOf (s : State) (fn : Nat) : Tdi := mgetD s.sec.tdi fn .unlocked

/-- Fetch a request and carry it out: every request of a function whose interface is in ERROR is refused (R329), a
reserved byte of its header or an operand out of range completes it with
BAD_ENTRY, a virtual function's ADMIN with NOT_ADMIN (R341, R342). `bad` is the entry byte of a bad operand. -/
def onReq (r : Req) (op : Nat) (bad : Option Nat) (body : ReqId → State → State) (s : State) : State :=
  match fetchReq r op s with
  | none => s
  | some (id, t) =>
    if tdiOf t r.fn.key = .error then fail id 0x89 t
    else
    match r.stray with
    | some b => badEntry id b t
    | none =>
      if r.admin && ! r.fn.isPf then fail id 0x69 t
      else
        match bad with
        | some b => badEntry id b t
        | none => body id t

/-- Hold a fetched request, with the command that carries it. -/
def holdReq (id : ReqId) (why : HeldFor) (cmd : Instr) (s : State) : State :=
  { s with held := s.held ++ [⟨id, why, cmd⟩] }

end Sys2Proof.Machine
end

