-- ==== Sys2Proof/Machine/HostRings.lean ====
section
/-! DEFINITION. Ring doorbells, ring control, function resets and the control requests (R335, R336, R340, R342, R346,
R352, R496). -/

namespace Sys2Proof.Machine

/-- Every run whose request came from a function ends at its next step completion (R335, R340). -/
def endRuns (p : ReqId → Bool) (s : State) : State :=
  { s with sessions := s.sessions.map (fun x =>
      (x.1, { x.2 with run := x.2.run.map (fun r => if p r.id then { r with ending := true } else r) })) }

/-- Stop a function's rings (R340): fetching stops, completions waiting for room are discarded with their charges
(R280), runs end, and with an error ERROR and CAUSE are set and ENABLE clears. -/
def stopRings (fn : Nat) (cause : Option Nat) (s : State) : State :=
  let r := ringOf s fn
  let s := r.overflow.foldl (fun s c => applyCharge c.charge s) s
  let r := { r with enable := false, overflow := [], error := r.error || cause.isSome, cause := cause.getD r.cause }
  endRuns (fun id => id.fn = fn) (setRing fn r s)

/-- Set the coalescing fields of RING_CTRL (R339). -/
def Ring.coal (r : Ring) (v : Word) : Ring := { r with coalCount := bits v.toNat 8 15, coalNs := bits v.toNat 16 31 }

/-- RING_START (R340, R352): ENABLE written 1 while it is 0. -/
def execRingStart (f : Fn) (v : Word) (s : State) : Host.Outcome State Fault Refusal :=
  let r := ringOf s f.key
  if ! r.enable && bitOf v.toNat 0 then
    .next (setRing f.key { r.coal v with
      enable := true, irqEnable := bitOf v.toNat 1, error := false, cause := 0, phase := true, epoch := r.epoch + 1
      rqBaseL := r.rqBase, rqLogL := ringLog r.rqSize, cqBaseL := r.cqBase, cqLogL := ringLog r.cqSize
      rqHead := 0, rqTail := 0, cqHead := 0, cqTail := 0, unsig := 0, entries := [] } s)
  else .next s

/-- RING_STOP (R340): ENABLE written 0. -/
def execRingStop (f : Fn) (v : Word) (s : State) : Host.Outcome State Fault Refusal :=
  let r := ringOf s f.key
  if r.enable && ! bitOf v.toNat 0 then
    .next (stopRings f.key none (fireCoal f.key (setRing f.key { r.coal v with irqEnable := bitOf v.toNat 1 } s)))
  else .next s

/-- RQ_TAIL_DOORBELL (R340, R410, R496): a value of at least the ring size stops the rings with CAUSE 1; a doorbell
wakes a quiet hub. -/
def execRqTailDoorbell (f : Fn) (v : Word) (s : State) : Host.Outcome State Fault Refusal :=
  let r := ringOf s f.key
  if r.enable && decide (2 ^ r.rqLogL ≤ v.toNat) then .next (stopRings f.key (some 1) s)
  else .next { setRing f.key { r with rqTail := v.toNat } s with hub := { s.hub with wake := s.hub.wake || s.hub.quiet } }

/-- REQUEST_FETCH_FAULT (R340): a fault on the fetch of a waiting entry stops the rings with CAUSE 2. -/
def execRequestFetchFault (f : Fn) (s : State) : Host.Outcome State Fault Refusal :=
  if fetchable s f.key then .next (stopRings f.key (some 2) s) else .next s

/-- Entries from CQ_HEAD forward that a new CQ_HEAD releases (R340). -/
def released (r : Ring) (v : Nat) : List CqEntry :=
  let size := 2 ^ r.cqLogL
  r.entries.filter (fun e => decide ((e.index + size - r.cqHead) % size < (v + size - r.cqHead) % size))

/-- Output bytes of a run count as consumed once CQ_HEAD has passed their completions (R349). -/
def consume (fn : Nat) (es : List CqEntry) (s : State) : State :=
  es.foldl (fun s e => { s with sessions := madjust s.sessions e.sessKey (fun x =>
    { x with run := x.run.map (fun r =>
        if r.id.fn = fn ∧ r.id.seq = e.seq then { r with unconsumed := r.unconsumed - e.bytes } else r) }) }) s

/-- CQ_HEAD_DOORBELL (R340, R345, R349): a value that would release entries not yet written stops the rings with CAUSE
4; otherwise entries are released and the overflow queue drains. -/
def execCqHeadDoorbell (f : Fn) (v : Word) (s : State) : Host.Outcome State Fault Refusal :=
  let r := ringOf s f.key
  let size := 2 ^ r.cqLogL
  if ! r.enable then .next (setRing f.key { r with cqHead := v.toNat } s)
  else if size ≤ v.toNat ∨ (r.cqTail + size - r.cqHead) % size < (v.toNat + size - r.cqHead) % size then
    .next (stopRings f.key (some 4) s)
  else
    let gone := released r v.toNat
    .next (drainOverflow f.key 1024 (consume f.key gone
      (setRing f.key { r with cqHead := v.toNat, entries := r.entries.filter (fun e => ! gone.contains e) } s)))

/-- COAL_TIMEOUT (R352): COAL_NS have passed since the first unsignalled completion. -/
def execCoalTimeout (f : Fn) (s : State) : Host.Outcome State Fault Refusal :=
  let r := ringOf s f.key
  if r.irqEnable && decide (0 < r.unsig) && decide (r.firstAt + r.coalNs ≤ s.time) then
    .next (sendIrq f.key 0 (setRing f.key { r with unsig := 0 } s))
  else .next s

/-- IRQ_ENABLE_SET (R352): a RING_CTRL write that sets IRQ_ENABLE fires vector 0 when its condition already holds. -/
def execIrqEnableSet (f : Fn) (v : Word) (s : State) : Host.Outcome State Fault Refusal :=
  let r := ringOf s f.key
  if ! r.irqEnable && bitOf v.toNat 1 && bitOf v.toNat 0 = r.enable then
    .next (fireCoal f.key (setRing f.key { r.coal v with irqEnable := true } s))
  else .next s

/-- COMPLETION_WRITE_FAULT (R340): the rings stop with CAUSE 3. -/
def execCompletionWriteFault (f : Fn) (s : State) : Host.Outcome State Fault Refusal :=
  if (ringOf s f.key).enable then .next (stopRings f.key (some 3) s) else .next s

/-- The key of a region: its function, the tier as requests name it (3 own host port, 5 pool), and its number (R144,
R161). -/
def regionKey (fn tier region : Nat) : Nat := fn * 2 ^ 20 + tier * 2 ^ 12 + region

/-- Whether a region key is of a port's host tier. -/
def hostRegionOf (p key : Nat) : Bool := fnPort (key / 2 ^ 20) = p && key / 2 ^ 12 % 2 ^ 8 = 3

/-- VF_FLR (R336): the virtual function's rings stop and its sessions remain. -/
def execVfFlr (f : Fn) (s : State) : Host.Outcome State Fault Refusal :=
  if f.isPf then .next s else .next (stopRings f.key none s)

/-- Whether an opcode is allocated (R342). -/
def opcodeAllocated (op : Nat) : Bool :=
  op ≤ 0x01 || (0x10 ≤ op && op ≤ 0x16) || op = 0x1C || (0x20 ≤ op && op ≤ 0x24) || (0x30 ≤ op && op ≤ 0x39)
    || (0x40 ≤ op && op ≤ 0x47) || (0x50 ≤ op && op ≤ 0x55) || (0x60 ≤ op && op ≤ 0x64) || (0x70 ≤ op && op ≤ 0x75)
    || (0x80 ≤ op && op ≤ 0x84)

/-- BAD_OPCODE (R342): an unallocated opcode completes with BAD_OPCODE. -/
def execBadOpcode (r : Req) (opcode : Nat) (s : State) : Host.Outcome State Fault Refusal :=
  if opcodeAllocated opcode then .next s
  else
    match fetchReq r opcode s with
    | none => .next s
    | some (id, t) => .next (fail id 0x91 t)

/-- NOP (R346). -/
def execNop (r : Req) (s : State) : Host.Outcome State Fault Refusal := .next (onReq r 0 none done s)

/-- RING_FENCE (R346): completes after every earlier request of the ring. -/
def execRingFence (r : Req) (s : State) : Host.Outcome State Fault Refusal :=
  .next (onReq r 1 none (fun id t =>
    if (ringOf t id.fn).fetched.any (fun x => decide (x.seq < id.seq)) then holdReq id .ring (.ringFence r) t
    else done id t) s)

end Sys2Proof.Machine
end

