-- ==== Sys2Proof/Machine/Objects.lean ====
section
/-! DEFINITION. Objects and their tile maps (R132 to R139): an object's tiles, and the session whose state it is. -/

namespace Sys2Proof.Machine

/-- An object. -/
def objOf (s : State) (key : Nat) : Option Obj := mget? s.objects key

/-- An object's tile; an unlisted tile is ABSENT (R138). -/
def Obj.tile (o : Obj) (i : Nat) : Tile := mgetD o.tiles i { kd := o.kd }

/-- A tile of an object. -/
def tileOf (s : State) (key i : Nat) : Tile :=
  match objOf s key with
  | none => {}
  | some o => o.tile i

/-- Change a tile of an object that exists. -/
def onTile (key i : Nat) (f : Tile → Tile) (s : State) : State :=
  match objOf s key with
  | none => s
  | some o => { s with objects := mput s.objects key { o with tiles := mput o.tiles i (f (o.tile i)) } }

/-- The session whose state an object is. -/
def sessOfObj (s : State) (key : Nat) : Option (Nat × Session) :=
  s.sessions.find? (fun p => objKey (p.1 / 2 ^ 64) p.2.object = key)

/-- The port an object belongs to: its owner's (R132, R338). -/
def objPort (key : Nat) : Nat := fnPort (key / 2 ^ 64)

/-- The key of a snapshot copy. -/
def cowKey (key i : Nat) : Nat := key * 2 ^ 32 + i

/-- The port a session belongs to: its owner's. -/
def sessPort (key : Nat) : Nat := fnPort (key / 2 ^ 64)

/-- A pavilion. -/
def pavAt (s : State) (n : Nat) : Pav := mgetD s.pavs n {}

/-- The pavilion a session's placement or home names. -/
def Session.pav (x : Session) : Nat :=
  match x.place with
  | .parked _ _ => x.home
  | .resident p _ => p
  | .migrating p _ => p

/-- A field of a session's state tile (R231). -/
def Session.get (x : Session) (off n : Nat) : Nat := leNat (memRead x.tile off n)

/-- LENGTH of a session. -/
def Session.length (x : Session) : Nat := x.get 0x48 4

end Sys2Proof.Machine
end

