-- ==== Sys2Proof/Machine/Records.lean ====
section
/-! DEFINITION. Places in the lower tiers and what is stored there (R133, R134, R147, R161, R325, R326): far slots,
regions and records, and stored forms sealed and opened. -/

namespace Sys2Proof.Machine

/-! ### Keys of domains -/

/-- Change the security state. -/
def onSec (f : Security → Security) (s : State) : State := { s with sec := f s.sec }

/-- A key domain. -/
def kdOf (s : State) (d : Nat) : KeyDom := mgetD s.sec.domains d {}

/-- What identifies a domain's keys: the keys themselves. -/
def keyTag (s : State) (kd : Nat) : Nat := leNat (kdOf s kd).keys

/-! ### Places in the lower tiers -/

/-- A tier as requests name it, as the absolute code of R137 (R147): 3 is the own host port. -/
def absTier (p tier : Nat) : Nat := if tier = 3 then 3 + p else tier

/-- A tier of R137 as requests name it. -/
def relTier (tier : Nat) : Nat := if tier = 4 then 3 else tier

/-- A granted region of a function. -/
def regionOf (s : State) (fn tier region : Nat) : Option Region := mget? s.regions (regionKey fn tier region)

/-- The key of a record: its region and first granule. -/
def recKey (fn tier region gran : Nat) : Nat := regionKey fn tier region * 2 ^ 32 + gran

/-- Whether a run of granules is free among records. -/
def granFree (recs : NMap Nat) (start need : Nat) : Bool :=
  recs.all (fun r => decide (start + need ≤ r.1) || decide (r.1 + r.2 ≤ start))

/-- The lowest-addressed run of free granules long enough (R133): it begins at 0 or where a record ends. -/
def firstFit (r : Region) (need : Nat) : Option Nat :=
  ((0 :: r.records.map (fun x => x.1 + x.2)).filter (fun g => decide (g + need ≤ r.granules))).find? (fun g =>
    granFree r.records g need)

/-- Far slots in all, in the map region, and where the free-slot pool begins (R396). -/
def farTotal (s : State) : Nat := match s.trellis with | none => 0 | some t => t.sites * t.density * 65536

def farPool (s : State) : Nat := match s.trellis with | none => 0 | some t => t.mapSlots + 32768

/-- Populated sites. -/
def farSites (s : State) : Nat := match s.trellis with | none => 8 | some t => max t.sites 1

/-- Whether a pool slot is free (R134, R454). -/
def farFree (s : State) (n : Nat) : Bool :=
  decide (farPool s ≤ n) && decide (n < farTotal s) && (mget? s.far n).isNone && ! s.farOut.contains (n % farSites s)
    && ! s.farGone.contains n

/-- A free pool slot of a site: the first from one the part is free to choose. -/
def farPick (s : State) (site : Nat) : Option Nat :=
  let per := farTotal s / farSites s
  let slot (i : Nat) : Nat := (Config.freeChoice s.free + i) % per * farSites s + site
  (firstBelow per (fun i => farFree s (slot i))).map slot

/-- Take a far slot: sites in rotation, one passed over only while it has no free slot (R134). The slot is held until
its contents are written. -/
def farAlloc (s : State) : Option (Nat × State) :=
  let sites := farSites s
  let order := (List.range sites).map (fun i => (s.farNext + i) % sites)
  match order.findSome? (fun site => (farPick s site).map (fun n => (n, site))) with
  | none => none
  | some (n, site) =>
    some (n, { drew s with far := mput s.far n { intact := false }, farNext := (site + 1) % sites })

/-- A place in a lower tier: its tier as requests name it, region, address as R137 writes it, and granules. -/
structure Spot where
  tier : Nat
  region : Nat
  addr : Nat
  gran : Nat
  deriving DecidableEq, Repr

/-- The first granule of a place. -/
def Spot.granule (sp : Spot) (base : Nat) : Nat :=
  if sp.tier = 3 then (sp.addr - base) / 256 else sp.addr % 2 ^ 48 / 256

/-- Take a place for `len` stored bytes in a lower tier (R133, R134): a far slot, or granules for the record with its
trailer of 32 bytes. -/
def spotAlloc (fn tier region len : Nat) (s : State) : Option (Spot × State) :=
  if tier = 2 then
    match farAlloc s with
    | none => none
    | some (n, t) => some (⟨2, 0, n, 0⟩, t)
  else
    match regionOf s fn tier region with
    | none => none
    | some r =>
      let need := ceilDiv (len + 32) 256
      match firstFit r need with
      | none => none
      | some g =>
        let addr := if tier = 3 then r.base + 256 * g else region * 2 ^ 48 + 256 * g
        some (⟨tier, region, addr, need⟩,
          { s with regions := mput s.regions (regionKey fn tier region) { r with records := mput r.records g need } })

/-- Free a place and what it holds. -/
def spotFree (fn : Nat) (sp : Spot) (s : State) : State :=
  if sp.tier = 2 then { s with far := mdel s.far sp.addr }
  else
    match regionOf s fn sp.tier sp.region with
    | none => s
    | some r =>
      let g := sp.granule r.base
      { s with regions := mput s.regions (regionKey fn sp.tier sp.region) { r with records := mdel r.records g }
               records := mdel s.records (recKey fn sp.tier sp.region g) }

/-- The stored form at a place; none when its region was withdrawn. -/
def spotRead (s : State) (fn : Nat) (sp : Spot) : Option Stored :=
  if sp.tier = 2 then mget? s.far sp.addr
  else
    match regionOf s fn sp.tier sp.region with
    | none => none
    | some r => mget? s.records (recKey fn sp.tier sp.region (sp.granule r.base))

/-- The place of a tile's lower copy. -/
def Tile.lower (t : Tile) : Spot := ⟨relTier t.loTier, t.loRegion, t.loAddr, t.loGran⟩

/-- Whether a tile's write to its target place is owed. -/
def Tile.owesWrite (t : Tile) : Bool := decide (t.newTier ≠ 0)

/-- The place a write of a tile goes to. -/
def Tile.target (t : Tile) : Spot := ⟨t.newTier, t.newRegion, t.newAddr, t.newGran⟩

/-! ### Stored forms -/

/-- INSTANCE of a domain (R321, R324). -/
def kdInst (s : State) (kd : Nat) : Nat := (kdOf s kd).inst

/-- The plain tile of a stored form: it opens with the keys it was sealed with, and its form decodes (R164, R169). -/
def openStored (s : State) (x : Stored) : Option (List Byte) :=
  if x.intact && x.keyId = keyTag s x.kd then decodeTile x.codec x.bytes else none

/-- A hub K4 table of a port (R177). -/
def hubTable (s : State) (p n : Nat) : KTable :=
  BitVec.ofNat 128 (leNat (((List.range 4).map (fun w => natLe 4 (regGet s p (0xC0100 + 16 * n + 4 * w)))).flatten))

/-- The bytes of a sealed record in a host or pool tier under an INSTANCE (R326, R171): sealed form, trailer, zero fill. -/
def sealUnder (s : State) (inst kd tile codec : Nat) (form : List Byte) (counter : Nat) : List Byte :=
  let nonce := natLe 4 inst ++ natLe 8 counter
  let aad := natLe 2 kd ++ natLe 4 tile ++ natLe 1 codec ++ natLe 2 form.length
  let ct := byteSlice (Config.gcmSeal (byteSlice (kdOf s kd).keys 64 32) nonce aad form) 0 (form.length + 16)
  let rec0 := ct ++ nonce ++ natLe 2 kd ++ [1, 0]
  rec0 ++ List.replicate ((256 - rec0.length % 256) % 256) 0

/-- The bytes of a record that is sealed now. -/
def sealRecord (s : State) (kd tile codec : Nat) (form : List Byte) (counter : Nat) : List Byte :=
  sealUnder s (kdInst s kd) kd tile codec form counter

/-- The form a sealed record holds (R326): it opens under its domain's tile GCM key for its domain, tile index, CODEC byte and
LENGTH, with the nonce of its trailer. -/
def recordForm (s : State) (kd tile codec len : Nat) (b : List Byte) : Option (List Byte) :=
  if leField b (len + 28) 2 ≠ kd ∨ leField b (len + 30) 1 ≠ 1 then none
  else Config.gcmOpen (byteSlice (kdOf s kd).keys 64 32) (byteSlice b (len + 16) 12)
    (natLe 2 kd ++ natLe 4 tile ++ natLe 1 codec ++ natLe 2 len) (byteSlice b 0 (len + 16))

/-- The plain bytes of a far slot's sealed lines (R325): line `l` of slot `n` opens under the tweak n × 256 + l. -/
def slotForm (s : State) (kd n : Nat) (b : List Byte) : List Byte :=
  ((List.range 256).map (fun l => byteSlice (Config.xtsOpen (byteSlice (kdOf s kd).keys 0 64) (n * 256 + l)
    (byteSlice b (64 * l) 64)) 0 64)).flatten

/-- Decode an opened form, or the R442 code of its refusal (R169). -/
def decodeForm (codec : Nat) (b : List Byte) : Nat ⊕ List Byte :=
  match decodeTile codec b with
  | none => .inl 5
  | some bs => .inr bs

/-- A stored form opened as the part wrote it: its plain tile, or the R442 code of the failure (1 tag, 2 ECC, 5 decode). -/
def openKept (s : State) (x : Stored) : Nat ⊕ List Byte :=
  if ! x.intact then .inl 2 else if x.keyId ≠ keyTag s x.kd then .inl 1 else decodeForm x.codec x.bytes

/-- A sealed record read back (R326): the bytes the part wrote, or others, which its tag must pass. An older record of the same
tile passes too. -/
def openRecord (s : State) (x : Stored) (b : List Byte) : Nat ⊕ List Byte :=
  if b = sealUnder s x.inst x.kd x.tile x.codec x.bytes x.counter then openKept s x
  else
    match recordForm s x.kd x.tile x.codec x.bytes.length b with
    | none => .inl 1
    | some f => decodeForm x.codec f

/-- A lower copy as a read returned it (R140, R325, R326): a far slot changed on the board opens to other bytes, which only a
compressed form's check exposes. -/
def openRead (s : State) (sp : Spot) (x : Stored) (r : TierRead) : Nat ⊕ List Byte :=
  match r with
  | .asWritten => openKept s x
  | .error => .inl (if sp.tier = 2 then 2 else 3)
  | .bytes b => if sp.tier = 2 then decodeForm x.codec (slotForm s x.kd sp.addr b) else openRecord s x b

/-- Advance a domain's write counter (R326). -/
def bumpCounter (kd : Nat) (s : State) : State :=
  onSec (fun x => { x with domains := madjust x.domains kd (fun k => { k with counter := k.counter + 1 }) }) s

/-- Write a form at a place, sealed for it (R325, R326): a far slot, or a record, which in the host tier is written to
the host's memory. The place is a function's. -/
def spotWriteAs (fn key tile kd : Nat) (sp : Spot) (e : Encoded) (s : State) : State :=
  let x : Stored := { kd := kd, keyId := keyTag s kd, inst := kdInst s kd, counter := (kdOf s kd).counter, object := key,
                      tile := tile, codec := e.codec, bytes := e.bytes }
  if sp.tier = 2 then { s with far := mput s.far sp.addr x }
  else
    match regionOf s fn sp.tier sp.region with
    | none => s
    | some r =>
      let s := { s with records := mput s.records (recKey fn sp.tier sp.region (sp.granule r.base)) x }
      let s := if sp.tier = 3 then dmaWrite (fnPort fn) sp.addr (sealRecord s kd tile e.codec e.bytes (kdOf s kd).counter) s
        else s
      bumpCounter kd s

/-- Write a tile's form at a place of its owner's. -/
def spotWrite (key tile kd : Nat) (sp : Spot) (e : Encoded) (s : State) : State := spotWriteAs (key / 2 ^ 64) key tile kd sp e s

/-- Count stored bytes moved into (direction 0) or out of (1) a tier, for the object's port (TIR_TIER_BYTES). -/
def tierBytes (key tier dir n : Nat) (s : State) : State := regAdd (objPort key) (0xB0100 + 16 * tier + 8 * dir) n s

end Sys2Proof.Machine
end

