-- ==== Sys2Proof/Machine/PoolSend.lean ====
section
/-! DEFINITION. Messages to a Celay port's queues (R371, R374) and pool transactions (R376, R387). -/

namespace Sys2Proof.Machine

/-- A Celay port. -/
def clyAt (s : State) (p : Nat) : CelayPort := mgetD s.celay p {}

/-- Change a Celay port. -/
def onCly (p : Nat) (f : CelayPort → CelayPort) (s : State) : State := { s with celay := mput s.celay p (f (clyAt s p)) }

/-- A register of a Celay port's block (R391). -/
def clyReg (s : State) (p off : Nat) : Nat := regGet s 0 (0xD0000 + 0x1000 * p + off)

/-- A Celay port's node identifier. -/
def clyNode (s : State) (p : Nat) : Nat := clyReg s p 8

/-- Cut a message into its cells (R369, R374): one at least, of 240 payload bytes but for the last. -/
def msgCells (c : Cell) : List Cell :=
  let n := max 1 (ceilDiv c.payload.length 240)
  (List.range n).map (fun i =>
    { c with first := i = 0, last := i + 1 = n, payload := (c.payload.drop (240 * i)).take 240 })

/-- Queue a message on a Celay port in a class (R371, R374). -/
def sendMsg (p cls kind dest tag gen : Nat) (payload : List Byte) (s : State) : State :=
  let cells := msgCells ⟨kind, cls, true, true, dest, clyNode s p, tag, gen, payload⟩
  onCly p (fun x => { x with queues := mput x.queues cls (mgetD x.queues cls [] ++ cells) }) s

/-- The Celay ports a host port's route to a pool node allows (R376). -/
def poolPorts (s : State) (p node : Nat) : List Nat :=
  match (List.range 64).find? (fun n => node ≠ 0xFFFFFFFF && regGet s p (0xD8100 + 8 * n) = node) with
  | none => []
  | some n => (List.range 4).filter (fun c => bitOf (regGet s p (0xD8104 + 8 * n)) c)

/-- Whether a host port has as many pool transactions outstanding as it may (R387). -/
def poolFull (s : State) (p : Nat) : Bool := decide (1024 ≤ (s.pools.filter (fun x => x.port = p)).length)

/-- Open a pool transaction and send its message (R374, R376, R387). Tiles are dealt over the allowed ports in ascending index; a
retry goes by the next. Writes of a snapshot travel in a class of their own. None where the region or the route is gone. -/
def poolOpen (w : PoolWait) (s : State) : Option State :=
  let p := fnPort w.fn
  match regionOf s w.fn 5 w.region with
  | none => none
  | some r =>
    let ports := poolPorts s p r.node
    if ports = [] then none
    else
      let c := ports.getD ((w.tile + b2n w.retried) % ports.length) 0
      let tag := s.poolTag % 65536
      let head := natLe 2 w.region ++ natLe 6 (w.addr % 2 ^ 48) ++ natLe 2 w.gran
      let map := clyReg s c 0x10
      let x : PoolTx := ⟨p, c, tag, w.write, w.key, w.tile, w.gran, s.time, w.retried, w.snap⟩
      let s := { s with poolTag := s.poolTag + 1, pools := s.pools ++ [x] }
      let cls := if w.snap.isSome then bits map 6 8 else bits map 3 5
      some (if w.write then sendMsg c cls 0x10 r.node tag 0 (head ++ List.replicate 6 0 ++ w.record) s
        else sendMsg c 0 0x12 r.node tag 0 (head ++ natLe 1 (bits map 12 14)) s)

/-- Ask for a pool transaction for a record at a function's place (R387): one beyond the 1,024 of its host port waits its turn. -/
def poolSendAs (fn key i : Nat) (write retried : Bool) (snap : Option SnapPart) (sp : Spot) (record : List Byte) (s : State) :
    Option State :=
  let w : PoolWait := ⟨fn, key, i, write, retried, snap, sp.region, sp.addr, sp.gran, record⟩
  match regionOf s fn 5 sp.region with
  | none => none
  | some r =>
    if poolPorts s (fnPort fn) r.node = [] then none
    else if poolFull s (fnPort fn) then some { s with poolWait := s.poolWait ++ [w] } else poolOpen w s

/-- Ask for a pool transaction for a tile's record at a place of its owner's. -/
def poolSend (key i : Nat) (write retried : Bool) (sp : Spot) (record : List Byte) (s : State) : Option State :=
  poolSendAs (key / 2 ^ 64) key i write retried none sp record s

end Sys2Proof.Machine
end

