-- ==== Sys2Proof/Machine/Rows.lean ====
section
/-! DEFINITION. Where a position's key and value rows lie in a unit (R110, R111): the bytes of a tile that belong to it. -/

namespace Sys2Proof.Machine

/-- Byte `d` of the K row of page position `t`, and of its V row, in an F8 page (R110). -/
def f8K (t d : Nat) : Nat := t / 32 * 4096 + d / 32 * 1024 + t % 32 * 32 + d % 32
def f8V (t d : Nat) : Nat := 8192 + d / 32 * 2048 + t / 32 * 1024 + d % 32 * 32 + t % 32

/-- The first byte of element `d` of the K row of page position `t`, and of its V row, in a BF16 page (R110). -/
def bfK (t d : Nat) : Nat := d / 32 * 2048 + t * 64 + d % 32 * 2
def bfV (t d : Nat) : Nat := 8192 + d / 32 * 2048 + d % 32 * 64 + t * 2

/-- The bytes of a position's K row in its page, in the order of its elements: 128 bytes in F8, 256 in BF16, and 64 in K4,
two elements a byte. `t` is the place in the page. -/
def kPlaces (d : List Byte) (t : Nat) : List Nat :=
  if dKvFormat d = 3 then (List.range 64).map (fun j => t / 32 * 2048 + j / 16 * 512 + t % 32 * 16 + j % 16)
  else if dKvFormat d = 2 then ((List.range 128).map (fun e => [bfK t e, bfK t e + 1])).flatten
  else (List.range 128).map (f8K t)

/-- The bytes of a position's V row in its page, in the order of its elements; none in K4, whose V blocks are committed
whole (R122). -/
def vPlaces (d : List Byte) (t : Nat) : List Nat :=
  if dKvFormat d = 3 then []
  else if dKvFormat d = 2 then ((List.range 128).map (fun e => [bfV t e, bfV t e + 1])).flatten
  else (List.range 128).map (f8V t)

/-- The bytes of the K4 V blocks of 32 positions from page position `t` on: 4 blocks of 512 bytes (R110). -/
def k4VPlaces (t : Nat) : List Nat :=
  ((List.range 4).map (fun b => (List.range 512).map (fun j => 8192 + b * 2048 + t / 32 * 512 + j))).flatten

/-- The scale bytes of a K4 position's K row, and of its 32-position V blocks, in the unit's scale tile (R111). `i` is the
code page. -/
def k4KScales (i t : Nat) : List Nat := (List.range 4).map (fun b => 1024 * i + b * 128 + t)
def k4VScales (i t : Nat) : List Nat := (List.range 128).map (fun e => 1024 * i + 512 + t / 32 * 128 + e)

/-- The positions of a page of a unit. -/
def pagePos (d : List Byte) : Nat := if dKvFormat d = 3 then 128 else unitPos d

/-- Every byte of a key or value tile that belongs to page positions from `t` on. -/
def rowsFrom (d : List Byte) (t : Nat) : List Nat :=
  ((List.range (pagePos d - t)).map (fun j => kPlaces d (t + j) ++ vPlaces d (t + j))).flatten

/-- Replace bytes of a tile at given places by other bytes. -/
def putAt (tile : List Byte) (places : List Nat) (bs : List Byte) : List Byte :=
  (places.zip bs).foldl (fun t p => t.set p.1 p.2) tile

/-- A tile with the bytes at given places taken from another. -/
def takeAt (tile new : List Byte) (places : List Nat) : List Byte :=
  putAt tile places (places.map (fun i => new.getD i 0))

/-- A tile with the bytes at given places cleared. -/
def clearAt (tile : List Byte) (places : List Nat) : List Byte := putAt tile places (places.map (fun _ => 0))

/-- The first position of a key or value tile and the number of positions it holds (R110): a K4 unit's scale tile holds
all of its unit's. -/
def tileSpan (d : List Byte) (lmax i : Nat) : Nat × Nat :=
  let x := kvOf d lmax i
  let base := x.2.2.1 * unitPos d
  if unitTiles d = 1 then (base, unitPos d)
  else if x.2.2.2 = 16 then (base, unitPos d) else (base + 128 * x.2.2.2, 128)

/-- Whether a key or value tile holds one of `count` positions from `first` on. -/
def tileHolds (d : List Byte) (lmax i first count : Nat) : Bool :=
  let sp := tileSpan d lmax i
  decide (i < kvTiles d lmax) && decide (sp.1 < first + count) && decide (first < sp.1 + sp.2)

end Sys2Proof.Machine
end

