-- ==== Sys2Proof/Machine/SnapWrite.lean ====
section
/-! DEFINITION. The snapshot writer (R289 to R299): records of pending tiles, the writes that are not acknowledged, and an
attempt that fails. -/

namespace Sys2Proof.Machine

/-- A port's snapshots. -/
def snapAt (s : State) (p : Nat) : SnapPort := mgetD s.snaps p {}

/-- Change a port's snapshots. -/
def onSnap (p : Nat) (f : SnapPort → SnapPort) (s : State) : State := { s with snaps := mput s.snaps p (f (snapAt s p)) }

/-- The place of a snapshot record. -/
def SnapRec.spot (r : SnapRec) : Spot := ⟨r.tier, r.region, r.addr, r.gran⟩

/-- The place of a write. -/
def SnapOut.spot (o : SnapOut) : Spot := ⟨o.tier, o.region, o.addr, o.gran⟩

/-- Change a port's attempt. -/
def onRun (p : Nat) (f : SnapRun → SnapRun) (s : State) : State := onSnap p (fun x => { x with run := x.run.map f }) s

/-! ### Copies of pending tiles (R292, R299) -/

/-- A tile's copy goes, and the far slot it took. -/
def dropCow (key i : Nat) (s : State) : State :=
  match mget? s.cows (cowKey key i) with
  | none => s
  | some c =>
    let s := { s with cows := mdel s.cows (cowKey key i) }
    match c.slot with
    | none => s
    | some n => { s with far := mdel s.far n }

/-- No tile of a port is pending any more, and no copy of one is kept. -/
def unpend (p : Nat) (s : State) : State :=
  let mine (c : Nat × Cow) : Bool := decide (objPort (c.1 / 2 ^ 32) = p)
  let free (t : Nat × Tile) : Nat × Tile := (t.1, { t.2 with pending := false })
  { s with
    objects := s.objects.map (fun o => if objPort o.1 = p then (o.1, { o.2 with tiles := o.2.tiles.map free }) else o)
    far := ((s.cows.filter mine).filterMap (fun c => c.2.slot)).foldl (fun m n => mdel m n) s.far
    cows := s.cows.filter (fun c => ! mine c)
    cutLen := s.cutLen.filter (fun c => decide (sessPort c.1 ≠ p)) }

/-- A port's attempt fails (R287, R299): its records and shards are freed, its tiles keep their change bits, and its request
completes with SNP_FAILED. -/
def snapFail (p : Nat) (s : State) : State :=
  match (snapAt s p).run with
  | none => s
  | some r =>
    let recs := (r.recs.filter (fun x => x.epoch = r.epoch)).map SnapRec.spot
    let shards := (((r.man.map (·.shards)).getD []).filter (fun h => h.epoch = r.epoch)).flatMap (fun h =>
      h.places.map (fun a => (⟨r.tier, r.region, a.1, a.2.1⟩ : Spot)))
    let s := (recs ++ shards).foldl (fun s x => spotFree (64 * p) x s) s
    let s := { s with poolWait := s.poolWait.filter (fun w => ! (w.snap.isSome && decide (fnPort w.fn = p))) }
    let s := regAdd p 0x70044 1 (unpend p (onSnap p (fun x => { x with run := none }) s))
    match r.id with | none => s | some id => fail id 0x71 s

/-! ### Writes and their acknowledgement (R298) -/

/-- What a pool transaction calls a write of a snapshot: an object and an index. -/
def partName : SnapPart → Nat × Nat
  | .record key i => (key, i)
  | .piece shard n => (shard, n)
  | .body => (0, 0)
  | .commit => (0, 1)

/-- A write of an attempt is under way (R298): it counts until it is acknowledged, and in the pool it is a message of its own
class. None where the pool cannot be reached. -/
def snapOut (p : Nat) (part : SnapPart) (sp : Spot) (retried : Bool) (bytes : List Byte) (s : State) : Option State :=
  let o : SnapOut := ⟨part, sp.tier, sp.region, sp.addr, sp.gran, bytes, retried⟩
  let s := onRun p (fun r => { r with outs := r.outs.filter (fun x => decide (x.part ≠ part)) ++ [o] }) s
  if sp.tier = 5 then poolSendAs (64 * p) (partName part).1 (partName part).2 true retried (some part) sp bytes s else some s

/-- A write of a port's snapshot is acknowledged (R139, R298). -/
def snapAck (p : Nat) (part : SnapPart) (s : State) : State :=
  onRun p (fun r => { r with outs := r.outs.filter (fun x => decide (x.part ≠ part)) }) s

/-- A write of a port's snapshot fails (R140, R299): it is made once more, and the second failure fails the attempt. -/
def snapMiss (p : Nat) (part : SnapPart) (s : State) : State :=
  match ((snapAt s p).run).bind (fun r => r.outs.find? (fun x => x.part = part)) with
  | none => s
  | some o =>
    if o.retried then snapFail p s
    else
      let s := if o.tier = 5 then regAdd p 0xD8320 1 s else if o.tier = 3 then dmaWrite p o.addr o.bytes s else s
      (snapOut p part o.spot true o.bytes s).getD (snapFail p s)

/-! ### Tile records (R289, R291, R295) -/

/-- The nibbles of the K4 V blocks of a code page that belong to page positions from `t` on, each as a byte and the mask of what
stays (R110). -/
def k4VFrom (t : Nat) : List (Nat × Byte) :=
  (List.range (128 - t)).flatMap (fun j => (List.range 128).map (fun d =>
    (8192 + d / 32 * 2048 + (t + j) / 32 * 512 + d % 32 * 16 + (t + j) % 32 / 2, if (t + j) % 2 = 0 then 0xF0 else 0x0F)))

/-- The scales of a K4 unit's scale tile that belong to unit positions from `t` on: K scales of a position, and V scales of whole
blocks (R111). -/
def k4ScalesFrom (t : Nat) : List Nat :=
  (List.range (2048 - t)).flatMap (fun j => k4KScales ((t + j) / 128) ((t + j) % 128)
    ++ (if (t + j) % 32 = 0 then k4VScales ((t + j) / 128) ((t + j) % 128) else []))

/-- The bytes of a session's tile that hold rows at or beyond its LENGTH at the cut, with the mask of what stays (R291). -/
def beyondCut (s : State) (o : SnapObj) (i : Nat) : List (Nat × Byte) :=
  match o.sess with
  | none => []
  | some (k, x) =>
    let d := (pavAt s x.pav).desc
    let cut := mgetD s.cutLen k x.length
    let tags := tagTiles x.lmax
    let first := o.ntiles - 1 - tags
    let whole (xs : List Nat) : List (Nat × Byte) := xs.map (fun a => (a, 0))
    if i + 1 = o.ntiles then []
    else if first ≤ i then
      let a := 8192 * (i - first)
      whole ((List.range (2 * (a + 8192 - max a cut))).map (fun j => 2 * (max a cut - a) + j))
    else if d = [] then []
    else
      let sp := tileSpan d x.lmax i
      let t := cut - sp.1
      if sp.1 + sp.2 ≤ cut then []
      else if dKvFormat d = 3 ∧ sp.2 ≠ 128 then whole (k4ScalesFrom t)
      else whole (rowsFrom d t) ++ (if dKvFormat d = 3 then k4VFrom t else [])

/-- A tile with bytes masked. -/
def keepBits (tile : List Byte) (ms : List (Nat × Byte)) : List Byte :=
  ms.foldl (fun t m => t.set m.1 (t.getD m.1 0 &&& m.2)) tile

/-- The stored bytes of a record as its shard's digest and SNP_BYTES count them: the sealed record, or a far slot's form. -/
def SnapRec.stored (s : State) (r : SnapRec) : List Byte :=
  if r.tier = 2 then r.data.bytes else sealRecord s r.data.kd r.tile r.data.codec r.data.bytes r.data.counter

/-- Write a tile's record (R168, R290, R295): none when there is no room, or no way to the pool. -/
def storeRecord (p : Nat) (r : SnapRun) (key i shard kd : Nat) (zeroed : Bool) (plain : List Byte) (s : State) : Option State :=
  let e := encodeTile (Config.freeChoice s.free % 8) 0 plain
  match spotAlloc (64 * p) r.tier r.region e.bytes.length (drew s) with
  | none => none
  | some (sp, t) =>
    let data : Stored := { kd := kd, keyId := keyTag t kd, inst := kdInst t kd, counter := (kdOf t kd).counter, object := key,
                           tile := i, codec := e.codec, bytes := e.bytes }
    let y : SnapRec := { obj := key, tile := i, shard := shard, epoch := r.epoch, zeroed := zeroed, tier := r.tier,
                         region := r.region, addr := sp.addr, gran := sp.gran, data := data }
    let bytes := y.stored t
    let t := if e.fallback then regAdd p 0xC0018 1 t else t
    let t := regAdd p 0x70030 bytes.length (spotWriteAs (64 * p) key i kd sp e t)
    let t := onTile key i (fun t => { t with pending := false }) (dropCow key i t)
    snapOut p (.record key i) sp false bytes
      (onRun p (fun r => { r with owed := r.owed.filter (· ≠ (key, i, shard)), recs := r.recs ++ [y] }) t)

/-- The writer stores an owed tile, whose content at the cut is given (R291, R295). A record that cannot be written fails the
attempt (R299). -/
def snapStore (p key i : Nat) (plain : List Byte) (s : State) : State :=
  match (snapAt s p).run with
  | none => s
  | some r =>
    match r.owed.find? (fun o => o.1 = key && o.2.1 = i), r.objs.find? (fun o => o.obj = key) with
    | some (_, _, shard), some o =>
      let cut := beyondCut s o i
      (storeRecord p r key i shard o.kd (cut ≠ []) (keepBits plain cut) s).getD (snapFail p s)
    | _, _ => s

end Sys2Proof.Machine
end

