-- ==== Sys2Proof/Machine/Near.lean ====
section
/-! DEFINITION. The near tier (R132 to R141): its lines, the tiles that lie in them, a tile's plain content, what a write does to
tiles, copy-on-write (R292 to R294), and the damaged-line list (R447). -/

namespace Sys2Proof.Machine

/-- Lines of a sliver (R161, R361). -/
def sliverLines : Nat := 786432

/-- The key of a near-tier byte. -/
def nearKey (k byte : Nat) : Nat := k * 50331648 + byte

/-- Bytes of sliver lines. -/
def nearRead (s : State) (k line n : Nat) : List Byte := memRead s.near (nearKey k (64 * line)) (64 * n)

/-- Write bytes to a sliver from a byte on, without the effects on tiles. -/
def nearPokeAt (k byte : Nat) (bs : List Byte) (s : State) : State :=
  { s with near := memWrite s.near (nearKey k byte) bs }

/-- Write bytes to a sliver from a line on, without the effects on tiles. -/
def nearPoke (k line : Nat) (bs : List Byte) (s : State) : State := nearPokeAt k (64 * line) bs s

/-- The global core of a near UPPER_ADDR (R137). -/
def addrCore (a : Nat) : Nat := a % 2 ^ 14

/-- The sliver line of a near UPPER_ADDR (R137). -/
def addrLine (a : Nat) : Nat := a / 2 ^ 14 * 4

/-- A near UPPER_ADDR (R137). -/
def nearAddr (k line : Nat) : Nat := k + line / 4 * 2 ^ 14

/-- Whether a tile has a near slot: its entry names one, and it is not a session's tag or state tile, whose entry
names no slot, nor in a stream slot's tail unit (R127, R135, R137). -/
def hasSlot (o : Obj) (t : Tile) : Bool :=
  t.upTier = 1 && ! t.tail && (decide (o.kind ≠ .session) || decide (t.layer ≠ 0xFFFF))

/-- The tiles whose near slots meet lines `line` to `line + n − 1` of a core, as (object, index). -/
def nearTiles (s : State) (k line n : Nat) : List (Nat × Nat) :=
  (s.objects.map (fun p => (p.2.tiles.filter (fun q =>
    hasSlot p.2 q.2 && decide (addrCore q.2.upAddr = k) && decide (addrLine q.2.upAddr < line + n)
      && decide (line < addrLine q.2.upAddr + 256))).map (fun q => (p.1, q.1)))).flatten

/-- The bytes of a tile's near slot. -/
def slotBytes (s : State) (t : Tile) : List Byte := nearRead s (addrCore t.upAddr) (addrLine t.upAddr) 256

/-- A tile's change bit is set (R290). -/
def Tile.touch (t : Tile) : Tile := { t with changed := true, again := true }

/-- A write reaches a tile's upper copy (R139): ABSENT and CLEAN become DIRTY, and DEPARTING becomes REDIRTIED once the
write-back read has begun; the tile has changed since the last epoch took it (R290), and a read of the slot that is under way
has been met (R142). -/
def Tile.written (t : Tile) : Tile :=
  let t := { t with hit := t.hit || (t.begun && decide (t.newTier ≠ 0)) }
  match t.state with
  | .absent => { t.touch with state := .dirty }
  | .clean => { t.touch with state := .dirty }
  | .departing => { t.touch with state := if t.begun then .redirtied else .departing }
  | .dirty => t.touch
  | .redirtied => t.touch
  | _ => t

/-- The placement generation of the session whose state an object is (R156); 0 for another object. -/
def objGen (s : State) (key : Nat) : Nat := ((sessOfObj s key).map (fun x => x.2.gen)).getD 0

/-- A tile's upper copy is written (R137, R139): its state follows, and its entry names the current generation. -/
def writeTile (key i : Nat) (s : State) : State := onTile key i (fun t => { t.written with gen := objGen s key }) s

/-- The key of a slot's dirty bit and form field: its core and first line (R141, R172). -/
def slotKey (k line : Nat) : Nat := k * 1048576 + line

/-- The first lines of the near slots that lines of a core lie in: the slots that tile maps name there, and otherwise
the 256-line slots of R133. -/
def slotsAt (s : State) (k line n : Nat) : List Nat :=
  let named := (nearTiles s k line n).map (fun p => addrLine (tileOf s p.1 p.2).upAddr)
  if named = [] then (List.range ((line + n + 255) / 256 - line / 256)).map (fun i => (line / 256 + i) * 256) else named

/-- The form field of a slot (R172). -/
def formAt (s : State) (k line : Nat) : Nat := mgetD s.slotForm (slotKey k line) 0

/-- Set the form field of slots; field 0 is not listed. -/
def setForm (k form : Nat) (slots : List Nat) (s : State) : State :=
  let put (m : NMap Nat) (l : Nat) : NMap Nat :=
    if form = 0 then mdel m (slotKey k l) else mput m (slotKey k l) form
  { s with slotForm := slots.foldl put s.slotForm }

/-- Set the dirty bit of slots (R141). -/
def setDirty (k : Nat) (slots : List Nat) (s : State) : State :=
  { s with slotDirty := slots.foldl (fun m l => mput m (slotKey k l) true) s.slotDirty }

/-- Clear the dirty bit of a slot (R141). -/
def clearDirty (k line : Nat) (s : State) : State := { s with slotDirty := mdel s.slotDirty (slotKey k line) }

/-- The bay of a slot key. -/
def slotKeyBay (key : Nat) : Nat := key / 1048576 / 512

/-- A batch slot of a pavilion whose program has a decode descriptor, as a place of tags. -/
def tagSlot (s : State) (n slot : Nat) : List (Pav × Nat) :=
  let p := mgetD s.pavs n {}
  if p.desc = [] then [] else [(p, slot)]

/-- The batch slots that a session's tags may be scattered for (R135): the one it holds, and the one that a migration within this
part takes it from. -/
def tagHomes (s : State) (sk : Nat) (x : Session) : List (Pav × Nat) :=
  match x.place with
  | .parked _ _ => []
  | .resident n slot => tagSlot s n slot
  | .migrating n slot => tagSlot s n slot ++ (match mget? s.jobs (objKey (sk / 2 ^ 64) x.object) with
    | some (.migrate _ _ _ old oldSlot _ true _) => tagSlot s old oldSlot
    | _ => [])

/-- The batch slot for which a tag tile is scattered: the one its entry names a holder of (R135). -/
def tagHome (s : State) (sk : Nat) (x : Session) (i : Nat) : Option (Pav × Nat) :=
  let t := tileOf s (objKey (sk / 2 ^ 64) x.object) i
  (tagHomes s sk x).find? (fun h =>
    let a := sessTilePlace h.1 h.1.desc x.lmax h.2 i
    t.upTier = 1 && decide (t.upAddr = nearAddr a.1 a.2))

/-- The tag tiles with a scattered part in lines `line` to `line + n − 1` of a core, as (object, index) (R135). -/
def tagTilesAt (s : State) (k line n : Nat) : List (Nat × Nat) :=
  (s.sessions.map (fun x => (tagHomes s x.1 x.2).flatMap (fun h =>
      let p := h.1
      let slot := h.2
      let d := p.desc
      if line + n ≤ dAuxBase d then []
      else ((List.range (sessUnits d x.2.lmax)).filter (fun u => (List.range (dGroups d)).any (fun g =>
        let a := tagUnit p d slot g u
        decide (a.1 = k) && decide (a.2 < 64 * (line + n)) && decide (64 * line < a.2 + 2 * unitPos d)))).map (fun u =>
          (objKey (x.1 / 2 ^ 64) x.2.object, kvTiles d x.2.lmax + u * unitPos d / 8192))))).flatten

/-- The tiles with data in lines of a core: those whose near slots meet them, and tag tiles scattered there. -/
def lineTiles (s : State) (k line n : Nat) : List (Nat × Nat) := nearTiles s k line n ++ tagTilesAt s k line n

/-- The tiles whose near slot a slot key names. -/
def slotOwners (s : State) (key : Nat) : List (Nat × Nat) :=
  (nearTiles s (key / 1048576) (key % 1048576) 1).filter (fun q =>
    decide (slotKey (addrCore (tileOf s q.1 q.2).upAddr) (addrLine (tileOf s q.1 q.2).upAddr) = key))

/-- Whether the dirty bit of a slot can be folded: that of a slot whose tile is still ARRIVING waits for TILE_ARRIVAL (R139). -/
def foldsNow (s : State) (bays : List Nat) (key : Nat) : Bool :=
  bays.contains (slotKeyBay key) && ! (slotOwners s key).any (fun q => (tileOf s q.1 q.2).state = .arriving)

/-- The hub folds the dirty bits of some bays' slots into the tile map (R141). -/
def foldDirty (bays : List Nat) (s : State) : State :=
  let mine := s.slotDirty.filter (fun p => foldsNow s bays p.1)
  let s' := mine.foldl (fun st p =>
    (slotOwners st p.1 ++ tagTilesAt st (p.1 / 1048576) (p.1 % 1048576) 256).foldl (fun st q => writeTile q.1 q.2 st) st) s
  { s' with slotDirty := s.slotDirty.filter (fun p => ! foldsNow s bays p.1) }

/-! ### Content of tiles (R135, R138, R170, R446) -/

/-- A position's tag as group `g`'s holder keeps it. -/
def tagAt (s : State) (p : Pav) (slot g pos : Nat) : Nat :=
  let a := tagByte p slot g pos
  leNat (memRead s.near (nearKey a.1 a.2) 2)

/-- Gather a tag tile from the holders of group 0 (R135); zeros beyond the session's last unit (log 32). -/
def tagGather (s : State) (p : Pav) (slot lmax m : Nat) : List Byte :=
  let w := 2 * unitPos p.desc
  byteSlice ((tagUnits p.desc lmax m).flatMap (fun u =>
    let a := tagUnit p p.desc slot 0 u
    memRead s.near (nearKey a.1 a.2) w)) 0 16384

/-- Whether a line stands in its bay's damaged-line list (R447). -/
def isDamaged (s : State) (k line : Nat) : Bool := (bayAt s (coreBay k)).damaged.contains (k, line)

/-- Whether a tile's slot holds a damaged line (R446, R447). -/
def slotDamaged (s : State) (t : Tile) : Bool :=
  (List.range 256).any (fun j => isDamaged s (addrCore t.upAddr) (addrLine t.upAddr + j))

/-- Whether group 0's holders of a tag tile's positions can be read (R446, R455). -/
def tagReadable (s : State) (p : Pav) (slot lmax m : Nat) : Bool :=
  (tagUnits p.desc lmax m).all (fun u =>
    let a := tagUnit p p.desc slot 0 u
    ! (bayAt s (coreBay a.1)).fenced && (List.range (ceilDiv (a.2 + 2 * unitPos p.desc) 64 - a.2 / 64)).all (fun j =>
      ! isDamaged s a.1 (a.2 / 64 + j)))

/-- A session tile that is its tag tile `m`, or its state tile; none for a key or value tile (R135). -/
def sessPart (o : Obj) (x : Session) (i : Nat) : Option (Option Nat) :=
  let tags := tagTiles x.lmax
  if i + 1 = o.ntiles then some none
  else if o.ntiles ≤ i + 1 + tags then some (some (i + tags + 1 - o.ntiles)) else none

/-- The plain content of a tile's near slot; that of a fenced bay or with a damaged line cannot be read (R170, R446, R455). -/
def slotPlain (s : State) (t : Tile) : Option (List Byte) :=
  if (bayAt s (coreBay (addrCore t.upAddr))).fenced || slotDamaged s t then none
  else decodeTile (formAt s (addrCore t.upAddr) (addrLine t.upAddr)) (slotBytes s t)

/-- The plain bytes of a tile, wherever its current copy stands (R138, R289); none when it has no readable copy. A session's
state is kept with the session (log 32); the tags of a resident session are gathered. -/
def tilePlain (s : State) (key i : Nat) : Option (List Byte) :=
  match objOf s key with
  | none => none
  | some o =>
    let t := o.tile i
    let part := (sessOfObj s key).bind (fun x => (sessPart o x.2 i).map (fun p => (x, p)))
    if t.state = .failed ∨ t.state = .absent then none
    else
      match part with
      | some ((_, x), none) => some (memRead x.tile 0 16384)
      | some ((sk, x), some m) =>
        if t.state = .lower ∨ t.state = .arriving then (spotRead s (key / 2 ^ 64) t.lower).bind (openStored s)
        else (tagHome s sk x i).bind (fun h =>
          if tagReadable s h.1 h.2 x.lmax m then some (tagGather s h.1 h.2 x.lmax m) else none)
      | none =>
        if t.tail ∧ t.state ≠ .lower ∧ t.state ≠ .arriving then mget? s.tails (cowKey key i)
        else if t.state = .lower ∨ t.state = .arriving then (spotRead s (key / 2 ^ 64) t.lower).bind (openStored s)
        else if t.upTier = 1 then slotPlain s t
        else (mget? s.far t.upAddr).bind (openStored s)

/-! ### Copy-on-write (R292 to R294) -/

/-- The number of copy-on-write slots of a core in use. -/
def cowsOnCore (s : State) (k : Nat) : Nat := (s.cows.filter (fun c => c.2.core = some k)).length

/-- Before an event that frees or overwrites a pending tile's only copy: the writer stores the tile, ahead of its queue, and the
event then goes on (R294). -/
def snapKeep (key i : Nat) (s : State) : State :=
  if ! (tileOf s key i).pending || (mget? s.cows (cowKey key i)).isSome then s
  else
    match tilePlain s key i with
    | none => s
    | some bs => snapStore (objPort key) key i bs s

/-- Whether a tile's current copy stands in the near tier (R138, R289). -/
def Tile.isNear (t : Tile) : Bool := t.upTier = 1 && t.state ≠ .lower && t.state ≠ .arriving

/-- A far slot takes a pending tile's content as its copy (R292). -/
def cowFar (key i n : Nat) (bs : List Byte) (s : State) : State :=
  spotWrite key i (tileOf s key i).kd ⟨2, 0, n, 0⟩ ⟨bs, 0, false⟩
    { s with cows := mput s.cows (cowKey key i) { bytes := bs, slot := some n } }

/-- Before another write to a pending tile's current copy (R292, R293): the tile is copied first, into a copy-on-write slot of its
core or into a far slot, counted in SNP_COW_COPIES. Where none is free the write waits until the writer has stored the tile,
ahead of its queue, counted in SNP_COW_WAITS. A tile that cannot be read fails the attempt (R299). -/
def cowKeep (key i : Nat) (s : State) : State :=
  let t := tileOf s key i
  let p := objPort key
  if ! t.pending || (mget? s.cows (cowKey key i)).isSome then s
  else
    match tilePlain s key i with
    | none => snapFail p s
    | some bs =>
      if t.isNear then
        let k := addrCore t.upAddr
        if (match s.trellis with | none => 0 | some x => x.cowPerCore) ≤ cowsOnCore s k then
          snapStore p key i bs (regAdd p 0x7003C 1 s)
        else regAdd p 0x70038 1 { s with cows := mput s.cows (cowKey key i) { bytes := bs, core := some k } }
      else
        match farAlloc s with
        | none => snapStore p key i bs (regAdd p 0x7003C 1 s)
        | some (n, s) => regAdd p 0x70038 1 (cowFar key i n bs s)

/-! ### Writes -/

/-- Whole lines written take their entries off the damaged-line list (R447). -/
def undamage (k line n : Nat) (s : State) : State :=
  onBay (coreBay k) (fun b => { b with damaged := b.damaged.filter (fun d =>
    ! (d.1 = k && decide (line ≤ d.2) && decide (d.2 < line + n))) }) s

/-- Write bytes of a run of whole lines to the near tier: dirty bits are set (R141), and damaged lines whose last byte is written
recovered (R447). -/
def nearSet (k byte : Nat) (bs : List Byte) (s : State) : State :=
  let line := byte / 64
  setDirty k (slotsAt s k line (ceilDiv (byte + bs.length) 64 - line))
    (undamage k line ((byte + bs.length) / 64 - line) (nearPokeAt k byte bs s))

/-- Write bytes of a run of whole lines to the near tier, in order: pending tiles that lie there are copied first (R292). -/
def nearStoreAt (k byte : Nat) (bs : List Byte) (s : State) : State :=
  let line := byte / 64
  nearSet k byte bs ((lineTiles s k line (ceilDiv (byte + bs.length) 64 - line)).foldl (fun st p => cowKeep p.1 p.2 st) s)

/-- Write whole lines to the near tier. -/
def nearStore (k line : Nat) (bs : List Byte) (s : State) : State := nearStoreAt k (64 * line) bs s

/-! ### Tags (R119, R120, R135) -/

/-- Write tags into a holder's auxiliary area (R141, R172): the dirty bit is set and the form field is 0. -/
def tagStore (k byte : Nat) (bs : List Byte) (s : State) : State :=
  setForm k 0 (slotsAt s k (byte / 64) (ceilDiv (byte + bs.length) 64 - byte / 64)) (nearSet k byte bs s)

/-- Change a position's tag in every group's holder (R120, R121). -/
def tagChange (p : Pav) (slot pos : Nat) (f : Nat → Nat) (s : State) : State :=
  (List.range (dGroups p.desc)).foldl (fun s g =>
    let a := tagByte p slot g pos
    tagStore a.1 a.2 (natLe 2 (f (tagAt s p slot g pos))) s) s

/-- Scatter a tag tile to every group's holders of its positions (R135). -/
def tagScatter (p : Pav) (slot lmax m : Nat) (bs : List Byte) (s : State) : State :=
  let w := 2 * unitPos p.desc
  (tagUnits p.desc lmax m).foldl (fun s u =>
    (List.range (dGroups p.desc)).foldl (fun s g =>
      let a := tagUnit p p.desc slot g u
      tagStore a.1 a.2 (byteSlice bs (w * u - 16384 * m) w) s) s) s

/-- Whether a line lies in a slot whose tile is ARRIVING and has not been laid: nothing but the arrival is written there
(R143). -/
def lineArriving (s : State) (k line : Nat) : Bool :=
  (nearTiles s k line 1).any (fun q => (tileOf s q.1 q.2).state = .arriving && ! (tileOf s q.1 q.2).landed)

/-- Fail the sessions that a lost slot belongs to at the end of a frame (R175, R446): the session whose tile map names
the slot, and otherwise every session of the core's pavilion. -/
def damageSlot (key k line : Nat) (s : State) : State :=
  match mget? s.frames key with
  | none => s
  | some f =>
    let owners := (nearTiles s k line 1).filterMap (fun p => (sessOfObj s p.1).map (·.1))
    if owners ≠ [] then setFrame key { f with damagedSess := f.damagedSess ++ owners } s
    else
      match quarterPav s (coreQuarter k) with
      | none => s
      | some (n, _) => setFrame key { f with damagedPavs := f.damagedPavs ++ [n] } s

/-- A line is read uncorrectably (R446, R447): a new one raises NEAR_UNCORRECTABLE with the tile that names its slot
and enters the list; a list of 1,024 that overflows escalates the bay. -/
def lineLost (k line : Nat) (s : State) : State :=
  if isDamaged s k line then s
  else
    let e0 := { bayErr s k 2 2 with addr := line }
    let e := match (nearTiles s k line 1).head? with
      | none => e0
      | some (key, i) => { e0 with ref := key % 2 ^ 64, tile := i }
    let s := raiseErr e s
    if 1024 ≤ (bayAt s (coreBay k)).damaged.length then escalateNow (srcId 1 (physBay s (coreBay k))) s
    else onBay (coreBay k) (fun b => { b with damaged := b.damaged ++ [(k, line)] }) s

/-! ### Hatch commands at work (R359, R361, R364) -/

/-- The lines a hatch operation reads, by its OP (R360). -/
def hcSources (op : Nat) (c : HcCmd) : List Nat :=
  if op = 5 then [c.a.toNat, c.b.toNat, c.c.toNat]
  else if 1 ≤ op ∧ op ≤ 4 then [c.a.toNat, c.b.toNat]
  else if op = 6 ∨ op = 7 ∨ op = 8 ∨ op = 0x0C then [c.a.toNat] else []

/-- Whether a hatch operation writes a destination run. -/
def hcHasDest (op : Nat) : Bool := (decide (1 ≤ op) && decide (op ≤ 8)) || op = 0x0B || op = 0x0C

/-- The cores of the quarters that a hatch command selects in a bay. -/
def hcCores (b : Nat) (q : BitVec 4) : List Nat :=
  (((List.range 4).filter (fun i => q.getLsbD i)).map (fun i =>
    (List.range 128).map (fun j => 512 * b + 128 * i + j))).flatten

/-- Whether the command that runs in a bay selects a core. -/
def hcSelects (s : State) (k : Nat) (e : HcEntry) : Bool := e.cmd.quarters.getLsbD (k / 128 % 4) && decide (k / 512 < 20) && (bayAt s (coreBay k)).hatch

/-- Whether a running hatch command writes a line (R364); a RUN may write any line of its cores. -/
def hcWrites (s : State) (k line : Nat) : Bool :=
  match (bayAt s (coreBay k)).hcRun with
  | none => false
  | some (e, _) => hcSelects s k e && (e.op = 0x20 || (hcHasDest e.op
      && decide (e.cmd.d.toNat ≤ line) && decide (line < e.cmd.d.toNat + e.cmd.lines.toNat)))

/-- Whether a run of a hatch command at work meets a session's slots (R361): PARK and MIGRATE wait for it. -/
def hcTouches (s : State) (key : Nat) : Bool :=
  match objOf s key with
  | none => false
  | some o => o.tiles.any (fun t => hasSlot o t.2 &&
      (let k := addrCore t.2.upAddr
       let l := addrLine t.2.upAddr
       match (bayAt s (coreBay k)).hcRun with
       | none => false
       | some (e, _) => hcSelects s k e && (e.op = 0x20 ||
          ((if hcHasDest e.op then [e.cmd.d.toNat] else []) ++ hcSources e.op e.cmd).any (fun r =>
            decide (r < l + 256) && decide (l < r + e.cmd.lines.toNat)))))

end Sys2Proof.Machine
end

