-- ==== Sys2Proof/Machine/CoreIssue.lean ====
section
/-! DEFINITION. A core's issue: the bundle its program places at a frame cycle (R30, R65), the transfers of its bond interface
and colonnade beats that reach it meanwhile (R62, R78), and what issuing an instruction changes. -/

namespace Sys2Proof.Machine

/-! ### The program in force -/

/-- The image of the program that a core's pavilion runs. -/
def coreImage (s : State) (k : Nat) : Option (List Byte) :=
  (quarterPav s (coreQuarter k)).bind (fun p => p.2.prog.map (·.image))

/-- The bundles a core runs. -/
def coreBundles (s : State) (k : Nat) : List Nat :=
  match coreImage s k with
  | none => []
  | some b => imgBundles b (coreQuarter k)

/-- The bundle that a core issues at a frame cycle, if its program places one there (R65). -/
def coreBundle (s : State) (k cyc : Nat) : Option Nat :=
  let xs := coreBundles s k
  (issueIndex xs cyc).map (fun i => xs.getD i 0)

/-- Whether a core's program places an instruction at a frame cycle (R65). -/
def placed (s : State) (k cyc : Nat) (i : Instr) : Bool := (coreBundle s k cyc).any (fun x => bundleSpells x i)

/-- Whether a slot record bars the bond interfaces of a core's bay at a frame cycle: a REFRESH, DESKEW or HUB_BOND slot, in which
no core of the bay issues BLD or BST (R83, R91). -/
def bondBarred (s : State) (k cyc : Nat) : Bool :=
  match coreImage s k with
  | none => false
  | some b => (imgSlotRecs b).any (fun x => decide (x.kind ≤ 3) && decide (x.start ≤ cyc) && decide (cyc < x.start + x.len))

/-- The frame in which a core issues an instruction at a frame cycle: the core issues then, and its program places the
instruction there (R23, R65). -/
def issues (s : State) (k cyc : Nat) (i : Instr) : Option (Nat × Frame) := if placed s k cyc i then issuing s k cyc else none

/-! ### What reaches a core meanwhile -/

/-- The parts of bytes from a byte of a sliver on, one for each line they meet. -/
def lineParts (byte : Nat) (bs : List Byte) : List (Nat × List Byte) :=
  ((List.range ((byte % 64 + bs.length + 63) / 64)).map (fun i =>
    let lo := if i = 0 then byte else byte / 64 * 64 + 64 * i
    (lo, (bs.drop (lo - byte)).take (64 - lo % 64))))

/-- Store bytes of a BST; lines of a slot whose tile is ARRIVING keep what they hold (R143). -/
def bstStoreAt (k byte : Nat) (bs : List Byte) (s : State) : State :=
  (lineParts byte bs).foldl (fun s x => if lineArriving s k (x.1 / 64) then s else nearStoreAt k x.1 x.2 s) s

/-- Store the tile of a codec BST (R168, R172, R174): the lines of its form, and the form field of what was stored; a
fallback is counted. -/
def bstTile (k byte mode : Nat) (data : List Byte) (s : State) : State :=
  let e := encodeTile mode 0 data
  let pad := (64 - e.bytes.length % 64) % 64
  let port := match quarterPav s (coreQuarter k) with | none => 0 | some p => p.2.port
  let free := ! lineArriving s k (byte / 64)
  let s := if free then setForm k e.codec [byte / 64] (nearStoreAt k byte (e.bytes ++ List.replicate pad 0) s) else s
  if e.fallback then regAdd port 0xC0018 1 s else s

/-- The near-tier row of a sliver byte: 2,048 bytes (R59, R413). -/
def rowOfByte (byte : Nat) : Nat := byte / 2048

/-- A store of a BST is made (R62, R141, R172, R174); its last row stays open (R59). -/
def bondStore (k : Nat) (x : BondStore) (s : State) : State :=
  let s :=
    if x.mode = 0 then
      setForm k 0 (slotsAt s k (x.byte / 64) (ceilDiv (x.byte + x.data.length) 64 - x.byte / 64)) (bstStoreAt k x.byte x.data s)
    else bstTile k x.byte x.mode x.data s
  let len := if x.mode = 0 then x.data.length else formLength (formAt s k (x.byte / 64)) (nearRead s k (x.byte / 64) 1)
  setCore k { coreAt s k with row := some (rowOfByte (x.byte + len - 1)) } s

/-- A BST reads the pane store for one of its stores, once the results due by then have landed. -/
def bondRead (c : Core) (r : BondRead) : Core :=
  let c := retire r.cyc c
  { c with stores := c.stores.map (fun x => if x.due = r.due ∧ x.byte = r.byte then { x with data := x.data ++ c.paneRead r.pane r.len } else x) }

/-- Colonnade beats that are due at a core by a frame cycle are on their way into its pane store (R23, R78). -/
def pullBeats (k cyc : Nat) (s : State) : State :=
  let due := s.colonnade.filter (fun b => b.dst = k && decide (b.due ≤ cyc))
  setCore k (due.foldl (fun c b => fly b.due (.pane b.addr b.data) c) (coreAt s k))
    { s with colonnade := s.colonnade.filter (fun b => ! (b.dst = k && decide (b.due ≤ cyc))) }

/-- A core at a frame cycle: what is due by then has landed, in the order it was due, and the reads and stores of its bond
interface have been made (R33, R62, R78). -/
def advance (k cyc : Nat) (s : State) : State :=
  let s := pullBeats k cyc s
  let c := coreAt s k
  let c := retire cyc ((c.reads.filter (fun r => decide (r.cyc ≤ cyc))).foldl bondRead c)
  let s := setCore k { c with
    reads := c.reads.filter (fun r => decide (cyc < r.cyc))
    stores := c.stores.filter (fun x => decide (cyc < x.due)) } s
  (c.stores.filter (fun x => decide (x.due ≤ cyc))).foldl (fun s x => bondStore k x s) s

/-- The latest cycle at which something of a core is still due. -/
def lastDue (s : State) (k : Nat) : Nat :=
  let c := coreAt s k
  ((c.flight.map (·.due)) ++ (c.reads.map (·.cyc)) ++ (c.stores.map (·.due))
    ++ ((s.colonnade.filter (fun b => b.dst = k)).map (·.due))).foldl max 0

/-- The cores of a bay that have a store under way, at a frame cycle (R62). -/
def advanceBay (bay cyc : Nat) (s : State) : State :=
  (s.cores.filter (fun c => coreBay c.1 = bay && decide (c.2.stores ≠ []))).foldl (fun s c => advance c.1 cyc s) s

/-- Whether a BLD or BST of a bay is in progress at a frame cycle (R95). -/
def bondBusy (s : State) (bay cyc : Nat) : Bool := s.cores.any (fun c => coreBay c.1 = bay && decide (cyc < c.2.bondEnd))

/-! ### Issue -/

/-- The core as it stands when it issues at a frame cycle (R33). -/
abbrev coreNow (s : State) (k cyc : Nat) : Core := coreAt (advance k cyc s) k

/-- After an instruction: the core is `c`, its frame stands at the instruction's cycle, and the flags it raised are recorded
(R63). -/
def issued (s : State) (k cyc key : Nat) (f : Frame) (c : Core) (fl : BitVec 5) : State :=
  setFlags k key f cyc fl (setCore k c (setFrame key { f with cycle := cyc } (advance k cyc s)))

/-- Issue an instruction on a core at a frame cycle: results due by then have landed, and the frame stands at that
cycle. A core whose program does not place the instruction there, or that issues no bundle then, is not affected (R65, R67). -/
def coreStep (i : Instr) (k cyc : Nat) (g : Core → CoreRes) (s : State) : Host.Outcome State Fault Refusal :=
  match issues s k cyc i with
  | none => .next s
  | some (key, f) =>
    match g (coreNow s k cyc) with
    | .bad e => .fault e
    | .ok c fl => .next (issued s k cyc key f c fl)

end Sys2Proof.Machine
end

