-- ==== Sys2Proof/Machine/Shake.lean ====
section
/-! DEFINITION. SHAKE256, which R69, R295, R309, R315, R318 and R395 name as published (PRESUMED, log 31: FIPS 202). The
sponge's 1,600 bits are held as five sheets, sheet x a list of the five words (x, 0) to (x, 4); the constants of a round
and the turns of the words are computed from the feedback register and the walk that define them. -/

namespace Sys2Proof.Machine

/-- The sponge: five sheets of five words. -/
abbrev Sponge := List (List (BitVec 64))

/-- Word (x, y), both taken modulo 5. -/
def Sponge.word (a : Sponge) (x y : Nat) : BitVec 64 := (a.getD (x % 5) []).getD (y % 5) 0

/-- A sponge from a rule for its words. -/
def Sponge.make (f : Nat → Nat → BitVec 64) : Sponge := (List.range 5).map (fun x => (List.range 5).map (f x))

/-- The feedback register of eight bits, x^8 + x^6 + x^5 + x^4 + 1, after one more bit. -/
def feedbackNext (r : Nat) : Nat := if 128 ≤ r then (2 * r) % 256 ^^^ 0x71 else 2 * r

/-- The word mixed in by a round, from the register at its first bit: its seven output bits stand at the places 2^j - 1. -/
def roundWord (r : Nat) : Nat :=
  ((List.range 7).foldl (fun (acc : Nat × Nat) j => (acc.1 + acc.2 % 2 * 2 ^ (2 ^ j - 1), feedbackNext acc.2)) (0, r)).1

/-- The words of the next `n` rounds. -/
def roundWords : Nat → Nat → List (BitVec 64)
  | 0, _ => []
  | n + 1, r => BitVec.ofNat 64 (roundWord r) :: roundWords n ((List.range 7).foldl (fun q _ => feedbackNext q) r)

/-- The next `n` places of the walk from place (x, y): each goes to (y, 2 x + 3 y). -/
def spongeWalk : Nat → Nat × Nat → List (Nat × Nat)
  | 0, _ => []
  | n + 1, p => p :: spongeWalk n (p.2, (2 * p.1 + 3 * p.2) % 5)

/-- How far word (x, y) turns left: the triangular number of its step on the walk from (1, 0); word (0, 0) stays. -/
def spongeTurn (x y : Nat) : Nat :=
  match (spongeWalk 24 (1, 0)).findIdx? (· == (x, y)) with
  | some t => (t + 1) * (t + 2) / 2 % 64
  | none => 0

/-- Each word with the parities of the sheet below it and, turned by one, of the sheet above it. -/
def Sponge.mixSheets (a : Sponge) : Sponge :=
  let parity := a.map (fun s => s.foldl (· ^^^ ·) 0)
  Sponge.make (fun x y => a.word x y ^^^ parity.getD ((x + 4) % 5) 0 ^^^ (parity.getD ((x + 1) % 5) 0).rotateLeft 1)

/-- Each word turned and moved: the word that arrives at (x, y) comes from (x + 3 y, x). -/
def Sponge.scatter (a : Sponge) : Sponge :=
  Sponge.make (fun x y => (a.word (x + 3 * y) x).rotateLeft (spongeTurn ((x + 3 * y) % 5) (x % 5)))

/-- Each word where its two neighbours along x allow, and the round's word into (0, 0). -/
def Sponge.combine (a : Sponge) (k : BitVec 64) : Sponge :=
  Sponge.make (fun x y =>
    let v := a.word x y ^^^ (a.word (x + 2) y &&& ~~~ a.word (x + 1) y)
    if x + y = 0 then v ^^^ k else v)

/-- The permutation: 24 rounds. -/
def Sponge.permute (a : Sponge) : Sponge :=
  (roundWords 24 1).foldl (fun s k => (s.mixSheets.scatter).combine k) a

/-- Take in one block of 136 bytes: 17 words, word (x, y) being number x + 5 y. -/
def Sponge.absorb (a : Sponge) (b : List Byte) : Sponge :=
  (Sponge.make (fun x y => a.word x y ^^^ BitVec.ofNat 64 (leField b (8 * (x + 5 * y)) 8))).permute

/-- Give out `n` blocks of 136 bytes. -/
def Sponge.squeeze : Nat → Sponge → List Byte
  | 0, _ => []
  | n + 1, a => (List.range 17).flatMap (fun i => natLe 8 (a.word i (i / 5)).toNat) ++ Sponge.squeeze n a.permute

/-- Take in the message in blocks of 136 bytes: its end is marked by 1111 and padded by 10...01; `n` bounds the blocks. -/
def Sponge.feed : Nat → List Byte → Sponge → Sponge
  | 0, _, a => a
  | n + 1, m, a =>
    if 136 ≤ m.length then Sponge.feed n (m.drop 136) (a.absorb (m.take 136))
    else
      let pad := m ++ 0x1F#8 :: List.replicate (135 - m.length) 0
      a.absorb (pad.take 135 ++ [pad.getD 135 0 ||| 0x80])

/-- SHAKE256 output of `n` bytes. -/
def shake256 (m : List Byte) (n : Nat) : List Byte :=
  (Sponge.squeeze (ceilDiv n 136) (Sponge.feed (m.length / 136 + 1) m (Sponge.make (fun _ _ => 0)))).take n

end Sys2Proof.Machine
end

