-- ==== Sys2Proof/Machine/ImageCheck.lean ====
section
/-! DEFINITION. The checks of one step program image when it is loaded (R70 to R73, R75, R82, R83, R91 to R94, R275,
R413, R415, R493, R494). Each check answers true when the image passes. -/

namespace Sys2Proof.Machine

/-! ### Header and sections -/

/-- The image proper: the object's first IMAGE_BYTES bytes. -/
def imgOwn (b : List Byte) : List Byte := b.take (imgBytes b)

/-- 0x01 BAD_HEADER (R69, R75). -/
def headerOk (b : List Byte) : Bool :=
  leField b 0 4 = 0x50535853 && leField b 4 2 = 1 && leField b 6 1 = 0xB0 && decide (imgThermal b ≤ 1)
    && decide (4096 ≤ imgCycles b) && decide (imgCycles b ≤ 4294967294) && imgCycles b % 2 = 0
    && decide (1 ≤ imgSlots b) && decide (imgSlots b ≤ 1024) && decide (imgLatches b ≤ 4096)
    && leField b 0x1A 6 = 0 && imgVerdict b % 64 = 0 && decide (imgVerdict b + 128 ≤ 786432)
    && decide (1 ≤ imgSecCount b) && decide (imgSecCount b ≤ 1024) && leField b 0x36 2 = 0
    && decide (imgSecTable b + 16 * imgSecCount b ≤ imgBytes b) && decide (imgBytes b ≤ b.length)
    && leField b 0x44 156 = 0
    && imgDigest b = shake256 (splice (imgOwn b) 0xE0 (List.replicate 32 0)) 32

/-- Whether a section type names one quarter (R70). -/
def oneQuarter (kind : Nat) : Bool := kind = 1 || kind = 2 || kind = 4

/-- The length a section of a type must have (R70). -/
def Section.sizeOk (b : List Byte) (x : Section) : Bool :=
  if x.kind = 1 then x.len = 64 * x.count && decide (x.count ≤ 16384)
  else if x.kind = 2 then x.len = 2
  else if x.kind = 3 then x.len = 32 * x.count
  else if x.kind = 4 then x.len = 8192
  else if x.kind = 5 ∨ x.kind = 9 then x.len = 32 * x.count
  else if x.kind = 6 then x.len = 16 * x.count
  else if x.kind = 7 then x.len = 16 * imgLatches b
  else x.kind = 8

/-- Whether two sections overlap. -/
def Section.meets (x y : Section) : Bool := decide (x.off < y.off + y.len) && decide (y.off < x.off + x.len)

/-- Whether no two of a list meet under a relation. -/
def noPair {α : Type} (p : α → α → Bool) : List α → Bool
  | [] => true
  | x :: xs => xs.all (fun y => ! p x y) && noPair p xs

/-- Whether a slot record is well formed (R80, R493). -/
def SlotRec.ok (cycles : Nat) (x : SlotRec) : Bool :=
  let rail := x.kind = 4
  decide (1 ≤ x.kind) && decide (x.kind ≤ 4) && x.tail = 0
    && (if rail then
          decide (x.port ≤ 1) && decide (x.dir ≤ 1) && decide (1 ≤ x.cls) && decide (x.cls ≤ 5)
            && ! (x.cls = 2 && x.dir = 1) && ! (x.cls = 3 && x.dir = 0) && x.start % 2 = 0 && x.len % 2 = 0
        else x.port = 0 && x.dir = 0 && x.cls = 0)
    && (if x.kind = 1 then x.len = 128 else if x.kind = 2 then x.len = 64 else decide (1 ≤ x.len))
    && decide (x.start + x.len ≤ cycles)

/-- The quarters that have bundles of their own or of an ALIAS (R70). -/
def quarterBundled (b : List Byte) (q : Nat) : Bool :=
  ((imgSections b).filter (fun x => x.quarter = q && (x.kind = 1 || x.kind = 2))).length = 1
    && (imgBundleSection b q).isSome

/-- 0x02 BAD_SECTION (R70, R75, R493). -/
def sectionsOk (b : List Byte) : Bool :=
  let xs := imgSections b
  xs.all (fun x => decide (1 ≤ x.kind) && decide (x.kind ≤ 9) && x.sizeOk b && decide (x.off + x.len ≤ imgBytes b)
      && (if oneQuarter x.kind then decide (x.quarter < 80) else x.quarter = 0xFFFF))
    && noPair Section.meets xs
    && noPair (fun x y => x.kind = y.kind && (! oneQuarter x.kind || (x.kind = 4 && x.quarter = y.quarter))) xs
    && (imgQuarters b).all (quarterBundled b)
    && (imgLatches b = 0 || (imgSection b 7).isSome)
    && (imgSlotRecs b).all (fun x => x.ok (imgCycles b))

/-! ### Bundles -/

/-- Whether a slot of a bundle is well formed (R71, R72): empty, or an opcode with no unused bit set, no reserved
format, and whole tiles under a codec mode (R174). -/
def slotOk (x i : Nat) : Bool :=
  let v := bundleSlot x i
  let op := v % 256
  if op = 0 then v = 0
  else
    match fieldWidths i op with
    | none => false
    | some (ws, whole) =>
      let r := cutFields ws (v / 256)
      (! whole || r.2 = 0) && ! (i = 1 && op = 0x10 && decide (6 ≤ r.1.getD 3 0))
        && ! (i = 1 && op = 0x18 && (decide (6 ≤ r.1.getD 2 0) || decide (6 ≤ r.1.getD 3 0)))
        && ! (i = 5 && decide (r.1.getD 3 0 ≠ 0) && decide ((r.1.getD 2 0 + 1) % 256 ≠ 0))

/-- Whether the loops of a program keep R73: at bundle `i` the open loops are listed as last bundle and level. -/
def loopsOk (count : Nat) : Nat → List (Nat × Nat) → List Nat → Bool
  | _, _, [] => true
  | i, stack, x :: xs =>
    let stack := stack.filter (fun l => decide (i ≤ l.1))
    match bundleLoop x with
    | none => loopsOk count (i + 1) stack xs
    | some (trip, last, level) =>
      decide (1 ≤ trip) && decide (i < last) && decide (last < count)
        && stack.all (fun l => decide (last ≤ l.1) && decide (l.2 ≠ level))
        && loopsOk count (i + 1) ((last, level) :: stack) xs

/-- 0x03 BAD_BUNDLE (R71 to R73, R75, R174). -/
def bundlesOk (b : List Byte) : Bool :=
  (imgQuarters b).all (fun q =>
    let xs := imgBundles b q
    xs.all (fun x => (List.range 7).all (slotOk x)) && loopsOk xs.length 0 [] xs)

/-- The bundles of a range in issue order, each with the indices of the eight loop levels (R65, R73). -/
def unroll (xs : List Nat) : Nat → Nat → Nat → List Nat → List (Nat × List Nat)
  | 0, _, _, _ => []
  | n + 1, i, stop, idx =>
    if stop ≤ i then []
    else
      let x := xs.getD i 0
      match bundleLoop x with
      | none => (x, idx) :: unroll xs n (i + 1) stop idx
      | some (trip, last, level) =>
        (x, idx) :: ((List.range trip).map (fun j => unroll xs n (i + 1) (last + 1) (idx.set level j))).flatten
          ++ unroll xs n (last + 1) stop idx

/-- An operation as a frame issues it: its frame cycle and the loop indices it sees. -/
structure Issue where
  cyc : Nat
  op : SlotOp
  idx : List Nat
  deriving DecidableEq, Repr

/-- The operations a quarter issues in a frame. -/
def quarterIssues (b : List Byte) (q : Nat) : List Issue :=
  let xs := imgBundles b q
  (((unroll xs xs.length 0 xs.length (List.replicate 8 0)).take (imgCycles b)).zipIdx.map (fun p =>
    (bundleOps p.1.1).map (fun o => (⟨p.2, o, p.1.2⟩ : Issue)))).flatten

/-- The value of an address field: its low bits plus its expression's strides (R72, R73). -/
def fieldAddr (b : List Byte) (w : Nat) (idx : List Nat) (v : Nat) : Int :=
  let x := v / 2 ^ w
  let strides := if x = 0 then [] else imgStrides b x
  (strides.zip idx).foldl (fun (a : Int) p => a + p.1 * p.2) (v % 2 ^ w : Nat)

/-! ### Pane store, lattice -/

/-- A pane-store access: its cycle, first byte and length, whether it draws on banks, and whether it writes. -/
structure PaneUse where
  cyc : Nat
  addr : Int
  len : Nat
  draws : Bool
  writes : Bool
  deriving DecidableEq, Repr

/-- The 64-byte lines of an MMA's A block, spread over its busy cycles (R60, R61). -/
def blockUses (cyc : Nat) (a : Int) (cycles per : Nat) : List PaneUse :=
  (List.range cycles).map (fun i => ⟨cyc + i, a + 64 * per * i, 64 * per, true, false⟩)

/-- The rows of 2,048 bytes of a core's sliver that a bond operation touches (R59, R413), with its first byte. -/
def bondRows (b : List Byte) (x : Issue) : Int × List Int :=
  let first := 64 * fieldAddr b 20 x.idx (x.op.get 1)
  let len : Int := ((64 * (x.op.get 2 + 1) : Nat) : Int)
  (first, (List.range (((first + len + 2047) / 2048 - first / 2048).toNat)).map (fun (i : Nat) => first / 2048 + (i : Int)))

/-- Each operation with the row its core has open before it: the one that the bond operation before it ended in (log 36). -/
def withRow (b : List Byte) : Option Int → List Issue → List (Issue × Option Int)
  | _, [] => []
  | r, x :: xs => (x, r) :: withRow b (if x.op.slot = 5 then ((bondRows b x).2.getLast?).or r else r) xs

/-- The accesses of an operation (R59 to R62, R77); a BLD lands after 28 cycles from the row that is open and after 60 from
another (R59), and 48 later through the codec (R174). -/
def paneUses (b : List Byte) (x : Issue) (row : Option Int) : List PaneUse :=
  let line (i : Nat) : Int := 64 * fieldAddr b 14 x.idx (x.op.get i)
  let byte (i : Nat) : Int := fieldAddr b 20 x.idx (x.op.get i)
  let lines := x.op.get 2 + 1
  match x.op.slot with
  | 0 =>
    if x.op.op ≤ 6 then
      blockUses x.cyc (line 2) 1 (if x.op.op ≤ 3 then 8 else 12) ++ [⟨x.cyc, byte 3, if x.op.op ≤ 3 then 32 else 64, true, false⟩,
        ⟨x.cyc, byte 4, if x.op.op ≤ 3 then (if x.op.op = 1 then 17 else 32) else (if x.op.op = 4 then 34 else 64), false, false⟩]
    else if x.op.op = 8 then blockUses x.cyc (line 2) 2 8 ++ [⟨x.cyc, byte 3, 32, false, false⟩]
    else blockUses x.cyc (line 2) 8 4 ++ [⟨x.cyc, byte 3, 64, false, false⟩]
  | 4 =>
    if x.op.op ≤ 2 then [⟨x.cyc, line 1, 128, true, x.op.op = 2⟩]
    else if x.op.op = 3 then [⟨x.cyc, line 1, 16, true, false⟩]
    else [⟨x.cyc, byte 1, 8, true, x.op.op = 5⟩]
  | 5 =>
    let wait := (if row.isSome && row = (bondRows b x).2.head? then 28 else 60) + (if x.op.get 3 = 0 then 0 else 48)
    let from' := if x.op.op = 1 then x.cyc + wait else x.cyc
    (List.range (ceilDiv (64 * lines) 200)).map (fun i =>
      ⟨from' + i, line 0 + 200 * i, min 200 (64 * lines - 200 * i), true, x.op.op = 1⟩)
  | 6 => (List.range (lines)).map (fun i => ⟨x.cyc + i, line 0 + 256 * i, 256, true, x.op.op = 2⟩)
  | _ => []

/-- The pane-store accesses of a quarter in a frame. -/
def quarterPanes (b : List Byte) (q : Nat) : List PaneUse :=
  ((withRow b none (quarterIssues b q)).map (fun p => paneUses b p.1 p.2)).flatten

/-- Whether an access falls inside the pane store. -/
def PaneUse.inside (x : PaneUse) : Bool := decide (0 ≤ x.addr) && decide (x.addr + x.len ≤ 786432)

/-- The cycle and bank numbers an access draws on, as one number each (R60). -/
def PaneUse.banks (x : PaneUse) : List Nat :=
  if x.draws then
    let a := x.addr.toNat
    (List.range ((a + x.len + 63) / 64 - a / 64)).map (fun i => x.cyc * 24 + (a / 64 + i) % 24)
  else []

/-- Whether a list of numbers has no repeat. -/
def noRepeat (xs : List Nat) : Bool := noPair (fun x y => x = y) xs

/-- 0x04 PANE_CONFLICT (R60, R61, R75). -/
def panesOk (b : List Byte) : Bool :=
  (imgQuarters b).all (fun q =>
    let us := quarterPanes b q
    us.all PaneUse.inside && noRepeat ((us.map PaneUse.banks).flatten))

/-- The links of a route (R77): along the sending core's row to the destination column, then along that column. A link
is its core, row × 32 + column, with its direction: 0 to 3 for column up, column down, row up, row down. -/
def route (r c r' c' : Nat) : List Nat :=
  let h := if c ≤ c' then (List.range (c' - c)).map (fun i => (r * 32 + c + i) * 4)
    else (List.range (c - c')).map (fun i => (r * 32 + c - i) * 4 + 1)
  let v := if r ≤ r' then (List.range (r' - r)).map (fun i => ((r + i) * 32 + c') * 4 + 2)
    else (List.range (r - r')).map (fun i => ((r - i) * 32 + c') * 4 + 3)
  h ++ v

/-- A lattice transfer of one core: bay, destination row and column, hops, beats, issue cycle and links. -/
structure LatUse where
  bay : Nat
  row : Nat
  col : Nat
  hops : Nat
  beats : Nat
  cyc : Nat
  links : List Nat
  deriving DecidableEq, Repr

/-- The lattice transfers of a quarter: every core of it that is not the destination sends. -/
def latUses (b : List Byte) (q : Nat) : List LatUse :=
  (((quarterIssues b q).filter (fun x => x.op.slot = 6 && x.op.op = 1)).map (fun x =>
    let r' := x.op.get 1 % 16
    let c' := x.op.get 1 / 16
    ((List.range 128).map (fun k =>
      let l := route (4 * (q % 4) + k / 32) (k % 32) r' c'
      (⟨q / 4, r', c', l.length, x.op.get 2 + 1, x.cyc, l⟩ : LatUse))).filter (fun u => u.links ≠ []))).flatten

/-- The bay, link and cycle numbers a transfer occupies (R77), as one number each. -/
def LatUse.slots (u : LatUse) : List Nat :=
  (u.links.zipIdx.map (fun l => (List.range u.beats).map (fun i =>
    ((u.cyc + 3 + l.2 + i) * 20 + u.bay) * 2048 + l.1))).flatten

/-- The quarter a transfer ends in. -/
def LatUse.quarter (u : LatUse) : Nat := u.bay * 4 + u.row / 4

/-- 0x05 LINK_CONFLICT (R75, R77): every transfer's destination issues its LRECV in the arrival cycle, and every LRECV
has a transfer that arrives in its cycle. -/
def linksOk (b : List Byte) : Bool :=
  let us := ((imgQuarters b).map (latUses b)).flatten
  let recvs (q : Nat) : List Issue := (quarterIssues b q).filter (fun x => x.op.slot = 6 && x.op.op = 2)
  let pair (u : LatUse) (x : Issue) : Bool := x.cyc = u.cyc + 3 + u.hops && x.op.get 2 + 1 = u.beats
  noRepeat ((us.map LatUse.slots).flatten)
    && us.all (fun u => (recvs u.quarter).any (pair u))
    && (imgQuarters b).all (fun q => (recvs q).all (fun x => us.any (fun u => u.quarter = q && pair u x)))

/-- 0x06 OUTSIDE_PAVILION (R70, R75). -/
def insideOk (b : List Byte) : Bool :=
  let qs := imgQuarters b
  (imgSections b).all (fun x => ! oneQuarter x.kind || qs.contains x.quarter)
    && qs.all (fun q => (latUses b q).all (fun u => qs.contains u.quarter))

/-! ### Slots, windows and power -/

/-- The largest distance between starts that follow one another, counted cyclically in a frame of `n` cycles; a frame
without a start never has one. -/
def spacing (n : Nat) (starts : List Nat) : Option Nat :=
  if starts = [] then none
  else some ((starts.map (fun a =>
    ((starts.map (fun c => (c + n - a - 1) % n + 1)).foldl min n))).foldl max 0)

/-- Starts of the slots of a kind. -/
def slotStarts (b : List Byte) (kind : Nat) : List Nat :=
  ((imgSlotRecs b).filter (fun x => x.kind = kind)).map (·.start)

/-- Whether two slot records may not stand together (R494). -/
def SlotRec.clash (x y : SlotRec) : Bool :=
  decide (x.start < y.start + y.len) && decide (y.start < x.start + x.len)
    && ((decide (x.kind ≠ 4) && decide (y.kind ≠ 4)) || (x.kind = 4 && y.kind = 4 && x.port = y.port && x.dir = y.dir))

/-- 0x07 SLOT_SPACING (R92 to R94, R494). `classes` has a bit for each class the profile allows. -/
def slotsOk (classes : Nat) (b : List Byte) : Bool :=
  let n := imgCycles b
  let within (kind limit : Nat) : Bool := match spacing n (slotStarts b kind) with | none => false | some d => decide (d ≤ limit)
  bitOf classes (imgThermal b) && within 1 (if imgThermal b = 0 then 8775 else 4387) && within 2 2250000
    && noPair SlotRec.clash (imgSlotRecs b)

/-- A span of cycles with a weight for each cycle. -/
structure WSpan where
  start : Nat
  len : Nat
  weight : Nat
  deriving DecidableEq, Repr

/-- The cycles two ranges share. -/
def shared (a la b lb : Nat) : Nat := min (a + la) (b + lb) - max a b

/-- The weight of spans in the `w` cycles from `f` on, counted cyclically in a frame of `n`. -/
def windowSum (n w : Nat) (xs : List WSpan) (f : Nat) : Nat :=
  let total := sumNat (xs.map (fun x => x.len * x.weight))
  let r := w % n
  (w / n) * total + sumNat (xs.map (fun x => x.weight * (shared x.start x.len f r + shared (x.start + n) x.len f r)))

/-- The first cycles at which a window's weight can be least or greatest: a span begins or ends at one of its ends. -/
def windowStarts (n w : Nat) (xs : List WSpan) : List Nat :=
  dedupNat (0 :: (xs.map (fun x =>
    [x.start % n, (x.start + x.len) % n, (x.start + n * (w / n + 1) - w) % n, (x.start + x.len + n * (w / n + 1) - w) % n])).flatten)

/-- The greatest and the least weight of a window. -/
def windowMax (n w : Nat) (xs : List WSpan) : Nat := ((windowStarts n w xs).map (windowSum n w xs)).foldl max 0
def windowMin (n w : Nat) (xs : List WSpan) : Nat :=
  ((windowStarts n w xs).map (windowSum n w xs)).foldl min (windowSum n w xs 0)

/-- The cycles of the slots of a kind, or of the transom windows of a port and direction. -/
def slotSpans (b : List Byte) (kind port dir : Nat) : List WSpan :=
  ((imgSlotRecs b).filter (fun x => x.kind = kind && x.port = port && x.dir = dir)).map (fun x => ⟨x.start, x.len, 1⟩)

/-- 0x08 WINDOW_SHARE (R82, R83). -/
def windowsOk (least : Nat) (b : List Byte) : Bool :=
  let n := imgCycles b
  [(0, 0), (0, 1), (1, 0), (1, 1)].all (fun p => decide (2 * max 1024 least ≤ windowMin n 8192 (slotSpans b 4 p.1 p.2)))
    && decide (64 ≤ windowMin n 2048 (slotSpans b 3 0 0))

/-- The cycles each MMA issue keeps a core's array busy (R413). -/
def macSpans (b : List Byte) (q : Nat) : List WSpan :=
  ((quarterIssues b q).filter (fun x => x.op.slot = 0)).map (fun x =>
    ⟨x.cyc, if x.op.op ≤ 6 then 1 else if x.op.op = 8 then 2 else 8, 1⟩)

/-- The row activations of one core of a quarter (R59, R413): each row of 2,048 bytes that a bond operation touches,
unless it is the row opened last, in the cycle of its first beat; a codec BST issues its beats 48 cycles later (R174). -/
def rowSpans (b : List Byte) (q : Nat) : List WSpan :=
  (((withRow b none (quarterIssues b q)).filter (fun p => p.1.op.slot = 5)).map (fun p =>
    let r := bondRows b p.1
    let shift := if p.1.op.op = 2 ∧ p.1.op.get 3 ≠ 0 then 48 else 0
    (r.2.filter (fun y => p.2 ≠ some y)).map (fun y => (⟨p.1.cyc + shift + (2048 * y - r.1).toNat / 200, 1, 1⟩ : WSpan)))).flatten

/-- Spans with their weights multiplied. -/
def scaleSpans (m : Nat) (xs : List WSpan) : List WSpan := xs.map (fun x => { x with weight := m * x.weight })

/-- The activations of a bay (R94, R413): 128 cores for each quarter, and 50 for each HUB_BOND cycle. -/
def baySpans (b : List Byte) (bay : Nat) : List WSpan :=
  (((imgQuarters b).filter (fun q => q / 4 = bay)).map (fun q => scaleSpans 128 (rowSpans b q))).flatten
    ++ scaleSpans 50 (slotSpans b 3 0 0)

/-- The joint quanta of a bay (R413, R415). -/
def quantaSpans (b : List Byte) (bay : Nat) : List WSpan :=
  (((imgQuarters b).filter (fun q => q / 4 = bay)).map (fun q => scaleSpans 256 (macSpans b q))).flatten
    ++ scaleSpans 53 (baySpans b bay)

/-- The joint budget of an envelope (R414): ⌊(E − 1,140) × ACT_WINDOW ÷ 0.801⌋. -/
def jointBudget (envelope window : Nat) : Nat := (envelope - 1140) * window * 1000 / 801

/-- The limits of the POWER section in force. -/
structure PowerLimits where
  window : Nat
  act : Nat
  mac : Nat
  joint : Nat
  deriving DecidableEq, Repr

/-- 0x09 POWER_LIMIT (R94, R413 to R415). -/
def powerOk (l : PowerLimits) (b : List Byte) : Bool :=
  let n := imgCycles b
  let bays := dedupNat ((imgQuarters b).map (· / 4))
  let acts := (bays.map (fun y => windowMax n l.window (baySpans b y))).foldl max 0
  let macs := ((imgQuarters b).map (fun q => windowMax n l.window (macSpans b q))).foldl max 0
  decide (acts ≤ l.act) && decide (macs ≤ l.mac) && acts = imgActPeak b && macs = imgMacPeak b
    && bays.all (fun y => decide (windowMax n l.window (quantaSpans b y) ≤ l.joint))

/-! ### Frame groups, latch points and tags -/

/-- The records of one kind or more, as a set. -/
def sameRecs (p : SlotRec → Bool) (x y : List Byte) : Bool :=
  let a := (imgSlotRecs x).filter p
  let c := (imgSlotRecs y).filter p
  a.all c.contains && c.all a.contains

/-- Whether two images share a bay. -/
def shareBay (x y : List Byte) : Bool := (imgQuarters x).any (fun q => (imgQuarters y).any (fun r => q / 4 = r / 4))

/-- 0x0A FRAME_MISMATCH for two images that share a bay (R66). -/
def framesMatch (x y : List Byte) : Bool :=
  ! shareBay x y || (imgCycles x = imgCycles y && sameRecs (fun r => decide (r.kind ≠ 4)) x y
    && sameRecs (fun r => r.kind = 4) x y)

/-- Whether a live range entry has the format of R275. -/
def LiveRec.ok (x : LiveRec) : Bool :=
  decide (x.region ≤ 3) && x.zeros && (if 2 ≤ x.region then x.first = 0 && x.last = 0 else decide (x.first ≤ x.last))

/-- The pane-store bytes a program writes. -/
def paneWrites (b : List Byte) : List PaneUse :=
  ((imgQuarters b).map (fun q => (quarterPanes b q).filter (·.writes))).flatten

/-- 0x0B LATCH_TABLE (R75, R87, R275). -/
def latchesOk (b : List Byte) : Bool :=
  let ls := imgLatchRecs b
  let v : Int := imgVerdict b
  (ls.zip (ls.drop 1)).all (fun p => decide (p.1.cycle + 64 ≤ p.2.cycle))
    && ls.all (fun l => decide (64 ≤ l.cycle) && decide (l.cycle < imgCycles b)
      && (slotSpans b 4 0 0).all (fun x => shared x.start x.len (l.cycle - 64) 64 = 0)
      && l.listOff % 8 = 0
      && (l.listCount = 0 || (match imgSection b 8 with
          | none => false
          | some s => decide (l.listOff + 8 * l.listCount ≤ s.len)))
      && (imgLive b l).all LiveRec.ok)
    && (paneWrites b).all (fun x => decide (x.addr + x.len ≤ v) || decide (v + 128 ≤ x.addr))

/-- The layers of latch records and live ranges lie below LAYERS (R105). -/
def layersOk (layers : Nat) (b : List Byte) : Bool :=
  (imgLatchRecs b).all (fun l => decide (l.layer < layers)
    && (imgLive b l).all (fun x => decide (x.first < layers) && (x.last = 0xFFFF || decide (x.last < layers))))

/-- 0x0C SLOT_TAG (R75). -/
def tagsOk (b : List Byte) : Bool :=
  (imgQuarters b).all (fun q => (imgBundles b q).all (fun x => (bundleOps x).all (fun o =>
    ! (o.slot = 5 && o.op = 2) || ! bitOf (o.get 4) 10 || decide (o.get 4 % 1024 < imgSlots b))))

end Sys2Proof.Machine
end

