-- ==== Sys2Proof/Machine/Special.lean ====
section
/-! DEFINITION. The special functions, correctly rounded (R58). Each irrational value is enclosed between two
fixed-point numbers, and the enclosure is narrowed until both ends round to the same FP32 element. -/

namespace Sys2Proof.Machine

/-- An enclosure: the value lies between lo ÷ 2^p and hi ÷ 2^p, for the precision p in use. -/
structure Encl where
  lo : Nat
  hi : Nat
  deriving DecidableEq, Repr

/-- ⌈a ÷ b⌉ with a positive divisor. -/
def cdiv (a b : Nat) : Nat := (a + b - 1) / b

/-- Enclosure of a product. -/
def enMul (p : Nat) (x y : Encl) : Encl := ⟨x.lo * y.lo / 2 ^ p, cdiv (x.hi * y.hi) (2 ^ p)⟩

/-- Enclosure of a sum. -/
def enAdd (x y : Encl) : Encl := ⟨x.lo + y.lo, x.hi + y.hi⟩

/-- Enclosure of a difference x − y that is not negative. -/
def enSub (x y : Encl) : Encl := ⟨x.lo - y.hi, x.hi - y.lo⟩

/-- Enclosure of a quotient; the divisor's lower end is positive. -/
def enDiv (p : Nat) (x y : Encl) : Encl := ⟨x.lo * 2 ^ p / y.hi, cdiv (x.hi * 2 ^ p) (max y.lo 1)⟩

/-- Enclosure of the magnitude m * 2^e. -/
def enDy (p m : Nat) (e : Int) : Encl :=
  let k : Int := (p : Int) + e
  if k ≥ 0 then ⟨m * 2 ^ k.toNat, m * 2 ^ k.toNat⟩
  else ⟨m / 2 ^ (-k).toNat, cdiv m (2 ^ (-k).toNat)⟩

/-- Enclosure of 1. -/
def enOne (p : Nat) : Encl := ⟨2 ^ p, 2 ^ p⟩

/-- The series of e^y for y below 2^-8: `n` further terms after the term given, which has the index k. -/
def expTerms (p : Nat) (y : Encl) : Nat → Nat → Encl → Encl → Encl
  | 0, _, t, s => ⟨s.lo, s.hi + 2 * t.hi + 2⟩
  | n + 1, k, t, s =>
    let t' : Encl := ⟨t.lo * y.lo / 2 ^ p / k, cdiv (cdiv (t.hi * y.hi) (2 ^ p)) k⟩
    expTerms p y n (k + 1) t' (enAdd s t')

/-- Square an enclosure a number of times. -/
def enSquares (p : Nat) : Nat → Encl → Encl
  | 0, x => x
  | n + 1, x => enSquares p n (enMul p x x)

/-- Enclosure of e^x for a magnitude 0 ≤ x < 256. -/
def enExp (p : Nat) (x : Encl) : Encl :=
  let y : Encl := ⟨x.lo / 2 ^ 16, cdiv x.hi (2 ^ 16)⟩
  enSquares p 16 (expTerms p y (p / 8 + 2) 1 (enOne p) (enOne p))

/-- The series Σ 1 ÷ ((2k + 1) q^(2k+1)) from a power on, with its sign alternating or not, split into the sum
of positive and of negative terms. -/
def atanTerms (p q : Nat) (alt : Bool) : Nat → Nat → Nat → Encl → Encl → Encl × Encl
  | 0, _, _, pos, negs => (⟨pos.lo, pos.hi + 2⟩, ⟨negs.lo, negs.hi + 2⟩)
  | n + 1, k, pw, pos, negs =>
    let t : Encl := ⟨2 ^ p / (pw * (2 * k + 1)), cdiv (2 ^ p) (pw * (2 * k + 1))⟩
    if alt && k % 2 = 1 then atanTerms p q alt n (k + 1) (pw * q * q) pos (enAdd negs t)
    else atanTerms p q alt n (k + 1) (pw * q * q) (enAdd pos t) negs

/-- Enclosure of ln 2 = 2 artanh(1/3). -/
def enLn2 (p : Nat) : Encl :=
  let r := (atanTerms p 3 false (p / 3 + 2) 0 3 ⟨0, 0⟩ ⟨0, 0⟩).1
  ⟨2 * r.lo, 2 * r.hi⟩

/-- Enclosure of arctan(1/q). -/
def enAtanInv (p q : Nat) : Encl :=
  let r := atanTerms p q true (p / 4 + 2) 0 q ⟨0, 0⟩ ⟨0, 0⟩
  enSub r.1 r.2

/-- Enclosure of π = 16 arctan(1/5) − 4 arctan(1/239). -/
def enPi (p : Nat) : Encl :=
  let a := enAtanInv p 5
  let b := enAtanInv p 239
  enSub ⟨16 * a.lo, 16 * a.hi⟩ ⟨4 * b.lo, 4 * b.hi⟩

/-- ⌊√v⌋ below 2^n, bit by bit. -/
def isqrtBits (v : Nat) : Nat → Nat → Nat
  | 0, r => r
  | n + 1, r => let t := r + 2 ^ n; isqrtBits v n (if t * t ≤ v then t else r)

/-- ⌊√v⌋. -/
def isqrt (v : Nat) : Nat := isqrtBits v (Nat.log2 v / 2 + 1) 0

/-- Enclosure of a square root. -/
def enSqrt (p : Nat) (x : Encl) : Encl :=
  let r := isqrt (x.lo * 2 ^ p)
  let t := isqrt (x.hi * 2 ^ p)
  ⟨r, t + 1⟩

/-- The positive series of erf: terms 2^n x^(2n+1) ÷ (1·3·…·(2n+1)). -/
def erfTerms (p : Nat) (x2 : Encl) : Nat → Nat → Encl → Encl → Encl
  | 0, _, t, s => ⟨s.lo, s.hi + 2 * t.hi + 2⟩
  | n + 1, k, t, s =>
    let u := enMul p t x2
    let t' : Encl := ⟨2 * u.lo / (2 * k + 1), cdiv (2 * u.hi) (2 * k + 1)⟩
    erfTerms p x2 n (k + 1) t' (enAdd s t')

/-- Enclosure of erf x for 0 ≤ x < 8. -/
def enErf (p : Nat) (x : Encl) : Encl :=
  let x2 := enMul p x x
  let series := erfTerms p x2 (p / 2 + 80) 1 x x
  let scale := enDiv p ⟨2 * 2 ^ p, 2 * 2 ^ p⟩ (enSqrt p (enPi p))
  enDiv p (enMul p series scale) (enExp p x2)

/-- Whether both ends of an enclosure round to the same FP32 magnitude; then that magnitude. -/
def enAgree (p : Nat) (x : Encl) : Option Nat :=
  let a := roundIdx 23 (-149) x.lo (-(p : Int))
  let b := roundIdx 23 (-149) x.hi (-(p : Int))
  if a = b then some a else none

/-- Narrow an enclosure, doubling the precision, until both ends agree. -/
def enRound (f : Nat → Encl) : Nat → Nat → Nat
  | 0, p => roundIdx 23 (-149) (f p).lo (-(p : Int))
  | n + 1, p =>
    match enAgree p (f p) with
    | some i => i
    | none => enRound f n (2 * p)

/-- The FP32 element of a magnitude's encoding with a sign, ±inf with OVERFLOW past the range. -/
def idxLane (neg : Bool) (i : Nat) : LaneRes Word :=
  if 0x7F800000 ≤ i then ⟨fp32Inf neg, flOverflow⟩ else ⟨BitVec.ofNat 32 (i + b2n neg * 2 ^ 31), 0⟩

/-- The first working precision, in bits. -/
def spPrec : Nat := 384

/-- A correctly rounded value from enclosures of its magnitude. -/
def spRound (neg : Bool) (f : Nat → Encl) : LaneRes Word := idxLane neg (enRound f 6 spPrec)

/-- e^x for a finite dyadic x, correctly rounded (R58). -/
def expDy (x : Dy) : LaneRes Word :=
  if x.m = 0 then ⟨0x3F800000#32, 0⟩
  else if dyLe ⟨200, 0⟩ x then ⟨fp32Inf false, flOverflow⟩
  else if dyLe x ⟨-200, 0⟩ then ⟨0, 0⟩
  else spRound false (fun p =>
    let e := enExp p (enDy p x.m.natAbs x.e)
    if x.m < 0 then enDiv p (enOne p) e else e)

/-- 2^x, correctly rounded (R58). An infinite input raises no flag (DEDUCED, log 99: OVERFLOW is a finite computation's, R63). -/
def fpExp2 (x : FVal) : LaneRes Word :=
  match x with
  | .nan => ⟨fp32Nan, 0⟩
  | .inf n => if n then ⟨0, 0⟩ else ⟨fp32Inf false, 0⟩
  | .fin _ _ _ =>
    let d := x.dy
    if d.m = 0 then ⟨0x3F800000#32, 0⟩
    else if dyLe ⟨128, 0⟩ d then ⟨fp32Inf false, flOverflow⟩
    else if dyLe d ⟨-150, 0⟩ then ⟨0, 0⟩
    else
      let i : Int := if d.e ≥ 0 then d.m * 2 ^ d.e.toNat else d.m / 2 ^ (-d.e).toNat
      let f : Dy := dyAdd d ⟨-i, 0⟩
      if f.m = 0 then ⟨(fp32Round false 1 i).bits, 0⟩
      else spRound false (fun p =>
        let q := p + 160
        let v := enExp q (enMul q (enDy q f.m.natAbs f.e) (enLn2 q))
        if i ≥ 0 then ⟨v.lo * 2 ^ i.toNat / 2 ^ 160, cdiv (v.hi * 2 ^ i.toNat) (2 ^ 160)⟩
        else ⟨v.lo / 2 ^ ((-i).toNat + 160), cdiv v.hi (2 ^ ((-i).toNat + 160))⟩)

/-- e^x, correctly rounded (R58): the rounding decides, so 0x42B1_7217, which R58 prints as the first input to give +inf, gives a
finite value, and 0x42B1_7218 is the first (DEDUCED, log 99). An infinite input raises no flag. -/
def fpExp (x : FVal) : LaneRes Word :=
  match x with
  | .nan => ⟨fp32Nan, 0⟩
  | .inf n => if n then ⟨0, 0⟩ else ⟨fp32Inf false, 0⟩
  | .fin _ _ _ => expDy x.dy

/-- e^(x − m) with the difference formed exactly (R58); an infinite input alone raises no OVERFLOW (log 99). -/
def fpExpSub (x m : FVal) : LaneRes Word :=
  match x, m with
  | .nan, _ => ⟨fp32Nan, 0⟩
  | _, .nan => ⟨fp32Nan, 0⟩
  | .inf a, .inf b => if a = b then laneInvalid else if a then ⟨0, 0⟩ else ⟨fp32Inf false, 0⟩
  | .inf a, _ => if a then ⟨0, 0⟩ else ⟨fp32Inf false, 0⟩
  | _, .inf b => if b then ⟨fp32Inf false, 0⟩ else ⟨0, 0⟩
  | x, m => expDy (dyAdd x.dy (dyNeg m.dy))

/-- n ÷ d × 2^e rounded once to FP32, for a positive divisor. -/
def ratRound (neg : Bool) (n d : Nat) (e : Int) : LaneRes Word :=
  let q := n * 2 ^ 128 / d
  let r := n * 2 ^ 128 % d
  laneOf (fp32Round neg (2 * q + (if r = 0 then 0 else 1)) (e - 129))

/-- 1 ÷ x, correctly rounded (R58). -/
def fpRcp (x : FVal) : LaneRes Word :=
  match x with
  | .nan => ⟨fp32Nan, 0⟩
  | .inf n => ⟨if n then 0x80000000#32 else 0, 0⟩
  | .fin n m e => if m = 0 then ⟨fp32Inf n, 0⟩ else ratRound n 1 m (-e)

/-- 1 ÷ √x, correctly rounded (R58). -/
def fpRsqrt (x : FVal) : LaneRes Word :=
  match x with
  | .nan => ⟨fp32Nan, 0⟩
  | .inf n => if n then laneInvalid else ⟨0, 0⟩
  | .fin n m e =>
    if m = 0 then ⟨fp32Inf n, 0⟩
    else if n then laneInvalid
    else
      let k : Nat := if e % 2 = 0 then m else 2 * m
      let h : Int := if e % 2 = 0 then e / 2 else (e - 1) / 2
      let r := isqrt (2 ^ 256 / k)
      let exact := decide (r * r * k = 2 ^ 256)
      laneOf (fp32Round false (2 * r + (if exact then 0 else 1)) (-129 - h))

/-- Enclosure of 1 ÷ (1 + e^−x). -/
def enSigm (p : Nat) (x : Dy) : Encl :=
  let e := enExp p (enDy p x.m.natAbs x.e)
  if x.m < 0 then enDiv p (enOne p) (enAdd (enOne p) e) else enDiv p e (enAdd (enOne p) e)

/-- 1 ÷ (1 + e^−x), correctly rounded (R58). -/
def fpSigm (x : FVal) : LaneRes Word :=
  match x with
  | .nan => ⟨fp32Nan, 0⟩
  | .inf n => if n then ⟨0, 0⟩ else ⟨0x3F800000#32, 0⟩
  | .fin _ _ _ =>
    let d := x.dy
    if d.m = 0 then ⟨0x3F000000#32, 0⟩
    else if dyLe ⟨200, 0⟩ d then ⟨0x3F800000#32, 0⟩
    else if dyLe d ⟨-200, 0⟩ then ⟨0, 0⟩
    else spRound false (fun p => enSigm p d)

/-- x ÷ (1 + e^−x), correctly rounded (R58). -/
def fpSilu (x : FVal) : LaneRes Word :=
  match x with
  | .nan => ⟨fp32Nan, 0⟩
  | .inf n => if n then ⟨0x80000000#32, 0⟩ else ⟨fp32Inf false, 0⟩
  | .fin n m e =>
    let d := x.dy
    if m = 0 then ⟨fp32OfVal x, 0⟩
    else if dyLe ⟨200, 0⟩ d then ⟨fp32OfVal x, 0⟩
    else if dyLe d ⟨-200, 0⟩ then ⟨0x80000000#32, 0⟩
    else spRound n (fun p => enMul p (enDy p m e) (enSigm p d))

/-- tanh x, correctly rounded (R58). -/
def fpTanh (x : FVal) : LaneRes Word :=
  match x with
  | .nan => ⟨fp32Nan, 0⟩
  | .inf n => ⟨if n then 0xBF800000#32 else 0x3F800000#32, 0⟩
  | .fin n m e =>
    let mag : Dy := ⟨m, e⟩
    if dyLt mag ⟨1, -12⟩ then ⟨fp32OfVal x, 0⟩
    else if dyLe ⟨64, 0⟩ mag then ⟨if n then 0xBF800000#32 else 0x3F800000#32, 0⟩
    else spRound n (fun p =>
      let t := enExp p (enDy p m (e + 1))
      enDiv p (enSub t (enOne p)) (enAdd t (enOne p)))

/-- erf x, correctly rounded (R58). -/
def fpErf (x : FVal) : LaneRes Word :=
  match x with
  | .nan => ⟨fp32Nan, 0⟩
  | .inf n => ⟨if n then 0xBF800000#32 else 0x3F800000#32, 0⟩
  | .fin n m e =>
    let mag : Dy := ⟨m, e⟩
    if m = 0 then ⟨fp32OfVal x, 0⟩
    else if dyLe ⟨6, 0⟩ mag then ⟨if n then 0xBF800000#32 else 0x3F800000#32, 0⟩
    else spRound n (fun p => enErf p (enDy p m e))

end Sys2Proof.Machine
end

