-- ==== Sys2Proof/Machine/HostRegs.lean ====
section
/-! DEFINITION. Register accesses (R7 to R11, R16, R63, R177, R256, R337, R391, R401, R486, R487): refused accesses,
64-bit halves, and writes of registers that have no command of their own. -/

namespace Sys2Proof.Machine

/-- Offset inside a function's own BAR4 share of a ring register, and whether the function owns that share (R337,
R339): the physical function's BAR4 also shows its virtual functions' shares. -/
def shareOf (f : Fn) (off : Nat) : Nat × Nat :=
  if f.isPf then (f.port.idx * 64 + off / 0x40000, off % 0x40000) else (f.key, off)

/-- Whether an offset inside a ring share names a register (R339). -/
def shareNames (off : Nat) : Bool :=
  [0, 4, 0x1000, 0x1004, 0x1008, 0x100C, 0x1010, 0x1014, 0x1018, 0x101C, 0x1020, 0x1024].contains off

/-- Whether a BAR0 or BAR4 offset names a register for a function (R337, R485, R487). -/
def decodes (f : Fn) (bar : Bar) (off : Nat) : Bool :=
  match bar with
  | .bar0 => (regRow off).isSome && (f.isPf || decide (off < 0x100000))
  | .bar4 => shareNames (shareOf f off).2

/-- Whether an offset lies inside a function's BAR (R337). -/
def inBar (f : Fn) (bar : Bar) (off : Nat) : Bool :=
  match bar with
  | .bar0 => decide (off < if f.isPf then 0x4000000 else 0x100000)
  | .bar4 => decide (off < if f.isPf then 0x1000000 else 0x40000)

/-- Record a refused access (R442 code 0x20). -/
def refuseAccess (f : Fn) (bar : Bar) (off size : Nat) (write : Bool) (s : State) : State :=
  raiseErr (regAccessErr f bar off size write) s

/-- MISALIGNED_REGISTER_ACCESS (R7): a BAR0 access that is not a naturally aligned 32-bit access is discarded, or reads
as zero in every byte, and is recorded. -/
def execMisalignedRegisterAccess (f : Fn) (off size : Nat) (write : Bool) (s : State) :
    Host.Outcome State Fault Refusal :=
  if inBar f .bar0 off && (decide (size ≠ 4) || decide (off % 4 ≠ 0)) then
    let s := refuseAccess f .bar0 off size write s
    .next (if write then s else { s with reply := .bytes (List.replicate size 0) })
  else .next s

/-- UNDECODED_ACCESS (R487): an aligned access to an offset that names no register reads zero, or is discarded and
recorded. -/
def execUndecodedAccess (f : Fn) (bar : Bar) (off : Nat) (write : Bool) (s : State) :
    Host.Outcome State Fault Refusal :=
  if inBar f bar off && decide (off % 4 = 0) && ! decodes f bar off then
    .next (if write then refuseAccess f bar off 4 true s else { s with reply := .word 0 })
  else .next s

/-- VF_BAR0_WRITE (R486): discarded and recorded. -/
def execVfBar0Write (f : Fn) (off size : Nat) (s : State) : Host.Outcome State Fault Refusal :=
  if ! f.isPf && inBar f .bar0 off then .next (refuseAccess f .bar0 off size true s) else .next s

/-- Whether a region answers: GLB_ and SEC_ always, ERR_ and TRL_ once firmware runs, and every region once a trellis
image is in force (R308, R401). -/
def responds (s : State) (off : Nat) : Bool :=
  if ! s.hub.firmware then decide (off < 0x10000) || (decide (0x40000 ≤ off) && decide (off < 0x50000))
  else s.trellis.isSome || decide (off < 0x10000) || (decide (0x20000 ≤ off) && decide (off < 0x50000))

/-- Whether a quarter of a physical bay belongs to a pavilion of a port (R16). -/
def bayOfPort (s : State) (p pbay : Nat) : Bool :=
  s.pavs.any (fun x => x.2.port = p && x.2.quarters.any (fun q => physBay s (q / 4) = pbay))

/-- Bits of a register that another command governs: an ENABLE, request or commit bit whose writes have a command of
their own. -/
def governed (off : Nat) : Nat :=
  if off = 0x40000 ∨ off = 0x10028 ∨ off = 0x10034 ∨ off = 0x70000 ∨ off = 0x100000 then 2 ^ 32 - 1
  else if 0x100010 ≤ off ∧ off < 0x100030 then 2 ^ 32 - 1
  else if 0xC0100 ≤ off ∧ off < 0xC0200 then 2 ^ 32 - 1
  else if off = 0xD0000 ∨ off = 0xD1000 ∨ off = 0xD2000 ∨ off = 0xD3000 then 1
  else 0

/-- The Celay port whose block an offset lies in (R391). -/
def celayBlock (off : Nat) : Option Nat :=
  if 0xD0000 ≤ off ∧ off < 0xD4000 then some ((off - 0xD0000) / 0x1000) else none

/-- The host port that controls a Celay port (R391, R396). -/
def celayCtl (s : State) (p : Nat) : Nat := match s.trellis with | none => 0 | some t => t.celayCtl.getD p 0

/-- The pavilion whose PAV_ registers an offset lies in (R256). -/
def pavBlock (off : Nat) : Option Nat :=
  if 0x51000 ≤ off ∧ off < 0x51000 + 0x20 * 80 then some ((off - 0x51000) / 0x20) else none

/-- The physical bay whose BAY_ region an offset lies in. -/
def bayBlock (off : Nat) : Option Nat :=
  if 0x1000000 ≤ off ∧ off < 0x1000000 + 0x100000 * 21 then some ((off - 0x1000000) / 0x100000) else none

/-- What a physical function's write to a decoded BAR0 register meets (R16, R256, R391, R401). -/
inductive WriteGate where
  | open
  | dropped
  | recorded
  deriving DecidableEq, Repr

/-- The gate of a BAR0 write. -/
def writeGate (s : State) (f : Fn) (off : Nat) : WriteGate :=
  if ! responds s off then .dropped
  else
    match celayBlock off, pavBlock off, bayBlock off with
    | some c, _, _ => if celayCtl s c = f.port.idx then .open else .dropped
    | _, some n, _ => if (mget? s.pavs n).any (fun p => p.port = f.port.idx) then .open else .dropped
    | _, _, some b => if bayOfPort s f.port.idx b then .open else .recorded
    | _, _, _ => .open

/-- Virtual functions of a port, among those a mask of changed bits names, whose interface is locked or running
(R329). -/
def lockedFns (s : State) (p changed : Nat) : List Nat :=
  ((List.range 64).map (fun i => p * 64 + i)).filter (fun f =>
    bitOf changed (f % 64) && (tdiOf s f = .locked || tdiOf s f = .run))

/-- Interfaces move to ERROR (R329). -/
def tdiError (fns : List Nat) (s : State) : State :=
  { s with sec := { s.sec with tdi := fns.foldl (fun m f => mput m f .error) s.sec.tdi } }

/-- A change of the bits of a function mask: refused with the locked interfaces moving to ERROR, or made (R329). -/
def maskChange (p old new : Nat) (refuse make : State → State) (s : State) : State :=
  let hit := lockedFns s p (old ^^^ new)
  if hit = [] then make s else refuse (tdiError hit s)

/-- Whether an offset is a PAV_ASSIGN register's low half. -/
def isAssign (off : Nat) : Bool := (pavBlock off).isSome && off % 0x20 = 0x10

/-- Set the RW bits of a stored register from a written value; RO, reserved and governed bits keep theirs (R9, R11).
A TIR_CTRL
FENCE_US of 0 is taken as 1; a change of PAV_ASSIGN that a locked interface forbids is refused (R329). -/
def setFields (p off v : Nat) (s : State) : State :=
  match regRow off with
  | none => s
  | some row =>
    let m := row.rw - (row.rw &&& governed off)
    let old := regGet s p off
    let x := (old - (old &&& m)) ||| (v &&& m)
    if isAssign off then maskChange p old x id (regSet p off x) s
    else regSet p off (if off = 0xB0000 ∧ bits x 12 31 = 0 then setBits x 12 31 1 else x) s

/-- LOW_HALF_WRITE (R8): the value and the register's address go to the function's write holding register. A half of a register
that the function may not write is discarded whole and leaves the holding register as it was (DESIGN CHOICE, log 97: R8 does
not say); so does a discarded HIGH_HALF_WRITE. -/
def execLowHalfWrite (f : Fn) (bar : Bar) (off : Nat) (v : Word) (s : State) : Host.Outcome State Fault Refusal :=
  let hold : State := { s with writeHold := mput s.writeHold f.key ⟨match bar with | .bar0 => 0 | .bar4 => 4, off, v.toNat⟩ }
  match bar with
  | .bar0 =>
    if f.isPf && decodes f bar off && isLow off then
      match writeGate s f off with
      | .open => .next hold
      | .dropped => .next s
      | .recorded => .next (refuseAccess f bar off 4 true s)
    else .next s
  | .bar4 =>
    if (shareOf f off).1 = f.key ∧ ((shareOf f off).2 = 0x1000 ∨ (shareOf f off).2 = 0x1010) then .next hold else .next s

/-- The low half that a high-half write combines with (R8). -/
def heldLow (s : State) (f : Fn) (bar off cur : Nat) : Nat :=
  match mget? s.writeHold f.key with
  | none => cur
  | some h => if h.bar = bar ∧ h.off = off then h.val else cur

/-- HIGH_HALF_WRITE (R8): the register takes its value and the write holding register empties. -/
def execHighHalfWrite (f : Fn) (bar : Bar) (off : Nat) (v : Word) (s : State) : Host.Outcome State Fault Refusal :=
  let empty : State := { s with writeHold := mdel s.writeHold f.key }
  match bar with
  | .bar0 =>
    if f.isPf && decodes f bar off && isHigh off then
      match writeGate s f off with
      | .open =>
        let lo := off - 4
        let low := heldLow s f 0 lo (regGet s f.port.idx lo % 2 ^ 32)
        .next (setFields f.port.idx lo (low + 2 ^ 32 * v.toNat) empty)
      | .dropped => .next s
      | .recorded => .next (refuseAccess f bar off 4 true s)
    else .next s
  | .bar4 =>
    let r := ringOf s f.key
    if (shareOf f off).1 = f.key ∧ (shareOf f off).2 = 0x1004 then
      let x := heldLow s f 4 (off - 4) (r.rqBase % 2 ^ 32) + 2 ^ 32 * v.toNat
      .next (setRing f.key { r with rqBase := x / 4096 * 4096 } empty)
    else if (shareOf f off).1 = f.key ∧ (shareOf f off).2 = 0x1014 then
      let x := heldLow s f 4 (off - 4) (r.cqBase % 2 ^ 32) + 2 ^ 32 * v.toNat
      .next (setRing f.key { r with cqBase := x / 4096 * 4096 } empty)
    else .next s

/-- REGISTER_WRITE (R9, R11, R339, R391): a write to a 32-bit register, or to the fields of one that no other command
governs. A physical function's write to the view of a virtual function's share is discarded. -/
def execRegisterWrite (f : Fn) (bar : Bar) (off : Nat) (v : Word) (s : State) : Host.Outcome State Fault Refusal :=
  match bar with
  | .bar0 =>
    if f.isPf && decodes f bar off && ! isLow off && ! isHigh off then
      match writeGate s f off with
      | .open => .next (setFields f.port.idx off v.toNat s)
      | .dropped => .next s
      | .recorded => .next (refuseAccess f bar off 4 true s)
    else .next s
  | .bar4 =>
    let r := ringOf s f.key
    if (shareOf f off).1 = f.key then
      if (shareOf f off).2 = 0x1008 then .next (setRing f.key { r with rqSize := v.toNat % 32 } s)
      else if (shareOf f off).2 = 0x1018 then .next (setRing f.key { r with cqSize := v.toNat % 32 } s)
      else if (shareOf f off).2 = 0x1020 then
        .next (fireCoal f.key (setRing f.key { r.coal v with irqEnable := r.irqEnable && bitOf v.toNat 1 } s))
      else .next s
    else .next s

/-! ### Hub K4 tables (R177) -/

/-- The BAR0 offset of a word of a hub K4 table. -/
def k4Off (table word : Nat) : Nat := 0xC0100 + 16 * table + 4 * word

/-- The key of a held word of a port's table. -/
def k4Key (p table word : Nat) : Nat := p * 64 + table * 4 + word

/-- K4_TABLE_HELD_WRITE (R177): a write to word 0, 1 or 2 is held. -/
def execK4TableHeldWrite (f : Fn) (table : Fin 16) (word : Fin 3) (v : Word) (s : State) : Host.Outcome State Fault Refusal :=
  if f.isPf && responds s (k4Off table word) then
    .next { s with k4Held := mput s.k4Held (k4Key f.port.idx table word) v.toNat }
  else .next s

/-- K4_TABLE_COMMIT_WRITE (R177): a write to word 3 gives the table its new value, with the held words or the current ones
where none is held. -/
def execK4TableCommitWrite (f : Fn) (table : Fin 16) (v : Word) (s : State) : Host.Outcome State Fault Refusal :=
  let p := f.port.idx
  if f.isPf && responds s (k4Off table 3) then
    let word (s : State) (w : Nat) : State :=
      match mget? s.k4Held (k4Key p table w) with
      | none => s
      | some x => { regSet p (k4Off table w) x s with k4Held := mdel s.k4Held (k4Key p table w) }
    .next (regSet p (k4Off table 3) v.toNat (word (word (word s 0) 1) 2))
  else .next s

/-- BAY_ARITH_FLAGS_CLEAR (R17, R63): a 1 clears the bit in the port's copy; BAY_ARITH_FIRST clears once every flag is
clear. The cores of the port's quarters in the bay clear the same sticky flags (log 26). -/
def execBayArithFlagsClear (f : Fn) (pbay : Fin 21) (v : Word) (s : State) : Host.Outcome State Fault Refusal :=
  let p := f.port.idx
  let base := 0x1000000 + pbay.val * 0x100000
  if ! f.isPf then .next s
  else if ! bayOfPort s p pbay then .next (refuseAccess f .bar0 (base + 0x80000) 4 true s)
  else
    let m := v.toNat % 32
    let s := regClear p (base + 0x80000) m s
    let mine (k : Nat) : Bool := decide (physBay s (coreBay k) = pbay.val) &&
      (match quarterPav s (coreQuarter k) with | none => false | some x => x.2.port = p)
    let s := { s with cores := s.cores.map (fun c =>
      if mine c.1 then (c.1, { c.2 with flags := c.2.flags &&& ~~~ (BitVec.ofNat 5 m) }) else c) }
    .next (if regGet s p (base + 0x80000) = 0 then regSet p (base + 0x80004) 0 s else s)

end Sys2Proof.Machine
end

