-- ==== Sys2Proof/Machine/Directory.lean ====
section
/-! DEFINITION. The session directory (R178 to R203): keys, matching, writes and their commits, searches, scans, the
scrubber and spares. -/

namespace Sys2Proof.Machine

/-! ### Keys and records -/

/-- PORT and FUNCTION of a key, at bits [71:64] (R181). -/
def keyFn (fn : Nat) : Nat := (fn % 64 + 128 * (fn / 64)) * 2 ^ 64

/-- The key of a session entry (R181, R182). -/
def sessDirKey (fn id : Nat) : Nat := id + keyFn fn + 2 ^ 72

/-- A full care mask. -/
def fullCare (wide : Bool) : Nat := if wide then 2 ^ 256 - 1 else 2 ^ 128 - 1

/-- KIND of a key (R181). -/
def keyKind (k : Nat) : Nat := bits k 72 75

/-- The 32 bytes of a record (R184). -/
def DirRec.bytes (r : DirRec) : List Byte :=
  natLe 1 r.state ++ natLe 1 r.tier ++ natLe 2 r.gen ++ natLe 2 r.kd ++ natLe 2 r.tenant ++ natLe 1 r.pav
    ++ natLe 1 r.model ++ natLe 2 r.slot ++ natLe 4 0 ++ natLe 8 r.object ++ natLe 8 r.user

/-- A record from its 32 bytes (R184). -/
def DirRec.ofBytes (b : List Byte) : DirRec := {
  state := leField b 0 1, tier := leField b 1 1, gen := leField b 2 2, kd := leField b 4 2, tenant := leField b 6 2
  pav := leField b 8 1, model := leField b 9 1, slot := leField b 10 2, object := leField b 16 8, user := leField b 24 8 }

/-- The parity bits over a record (R179): one for each of its bytes (DESIGN CHOICE, log 103: the spec does not say how many). -/
def recParity (r : DirRec) : Nat :=
  (r.bytes.zipIdx.map (fun b => (List.range 8).foldl (fun a i => a + b2n (b.1.getLsbD i)) 0 % 2 * 2 ^ b.2)).foldl (· + ·) 0

/-- A row as a write leaves it: VALID, both key copies, and the record's parity. -/
def DirRow.written (e : DirRow) : DirRow := { e with valid := true, key2 := e.key, parity := recParity e.data }

/-- Whether a row's record passes its parity (R200). -/
def DirRow.whole (e : DirRow) : Bool := e.parity = recParity e.data

/-- A block of the directory that is out of service, or a row beyond the rows (R178, R203). -/
def rowInService (s : State) (n : Nat) : Bool := decide (n < 4194304) && ! s.dir.outBlocks.contains (n / 65536)

/-- Whether a block belongs to a cascaded pair (R180). -/
def cascaded (s : State) (block : Nat) : Bool :=
  match s.trellis with
  | none => false
  | some t => bitOf t.cascade (block / 2)

/-- DEL_EPOCH of a line: all ones while the entry is live. -/
def delField (d : Option Nat) : Nat := d.getD (2 ^ 64 - 1)

/-- A delete epoch from DEL_EPOCH. -/
def delOf (x : Nat) : Option Nat := if x = 2 ^ 64 - 1 then none else some x

/-- The 128 bytes of a line (R187). -/
def dirLine (n : Nat) (suspect : Bool) (e : DirRow) (r : DirRec) : List Byte :=
  natLe 32 e.key ++ natLe 32 e.care ++ r.bytes ++ natLe 8 e.ins ++ natLe 8 (delField e.del) ++ natLe 8 e.commit
    ++ natLe 4 n ++ natLe 1 (b2n e.valid + 2 * b2n suspect + 4 * b2n e.wide) ++ natLe 3 0

/-- The entry that a line holds (R187). -/
def DirRow.ofLine (b : List Byte) : DirRow :=
  let flags := leField b 124 1
  { (DirRow.written { key := leField b 0 32, care := leField b 32 32, wide := bitOf flags 2
                      data := DirRec.ofBytes (byteSlice b 64 32), ins := leField b 96 8, del := delOf (leField b 104 8)
                      commit := leField b 112 8 }) with valid := bitOf flags 0 }

/-- Whether a global row of an entry is marked SUSPECT: either row of a cascaded pair. -/
def rowSuspect (s : State) (n : Nat) (e : DirRow) : Bool :=
  s.dir.suspects.contains n || (e.wide && s.dir.suspects.contains (n + 65536))

/-! ### The shadow (R197, R198) -/

/-- A row's shadow line: 128 bytes of the far tier, sealed under key domain 0 (R197). -/
def sealLine (s : State) (n : Nat) (e : DirRow) : Stored :=
  { keyId := keyTag s 0, tile := n, bytes := dirLine n false e e.data }

/-- A row as its shadow line has it: none where no line was written, or one that does not open. -/
def openLine (s : State) (n : Nat) : Option DirRow :=
  (mget? s.dir.shadow n).bind (fun x => if x.intact && x.keyId = keyTag s 0 then some (DirRow.ofLine x.bytes) else none)

/-- The directory as the shadow has it, which is the authority (R198). -/
def shadowRows (s : State) : NMap DirRow := s.dir.shadow.filterMap (fun x => (openLine s x.1).map (fun e => (x.1, e)))

/-! ### Searches (R183, R200) -/

/-- Whether an entry is visible at an epoch (R183, R193). -/
def DirRow.visible (e : DirRow) (ep : Nat) : Bool :=
  e.valid && decide (e.ins ≤ ep) && (match e.del with | none => true | some d => decide (ep < d))

/-- Whether one key copy of an entry matches a query key (R183). -/
def DirRow.copyMatches (e : DirRow) (k q : Nat) : Bool := k &&& e.care = q &&& e.care

/-- Whether an entry matches a query key (R179, R183): both its key copies do. -/
def DirRow.matchesKey (e : DirRow) (wide : Bool) (q : Nat) : Bool :=
  e.wide = wide && e.copyMatches e.key q && e.copyMatches e.key2 q

/-- The result of a search of rows at an epoch (R183): the lowest matching block entry, else the exact entry. -/
def dirSearch (rows : NMap DirRow) (wide : Bool) (q ep : Nat) (ignoreBlock : Bool) : Option (Nat × DirRow) :=
  let hits := rows.filter (fun r => r.2.visible ep && r.2.matchesKey wide q)
  match (if ignoreBlock then none else hits.find? (fun r => r.2.data.state = 4)) with
  | some r => some r
  | none => hits.find? (fun r => decide (r.2.data.state ≠ 4) && r.2.key = q)

/-- The rows of an entry that raise a suspect line (R200): in a row of 128 key bits exactly one copy matches; the high row of
a pair compares under the match of its low row (R180). -/
def suspectLines (n : Nat) (e : DirRow) (wide : Bool) (q : Nat) : List Nat :=
  let low (k : Nat) : Bool := bits k 0 127 &&& bits e.care 0 127 = bits q 0 127 &&& bits e.care 0 127
  let high (k : Nat) : Bool := bits k 128 255 &&& bits e.care 128 255 = bits q 128 255 &&& bits e.care 128 255
  if e.wide ≠ wide then []
  else if low e.key ≠ low e.key2 then [n]
  else if e.wide && low e.key && high e.key ≠ high e.key2 then [n + 65536] else []

/-- The rows that make a search be retried on the shadow (R200): those that raise a suspect line, and a winner marked SUSPECT
or whose record fails its parity as it is read. -/
def searchSuspects (s : State) (wide : Bool) (q ep : Nat) (ignoreBlock : Bool) : List Nat :=
  let lines := ((s.dir.rows.filter (fun r => r.2.visible ep)).map (fun r => suspectLines r.1 r.2 wide q)).flatten
  let won := match dirSearch s.dir.rows wide q ep ignoreBlock with
    | none => []
    | some (n, e) => (if s.dir.suspects.contains n || ! e.whole then [n] else [])
        ++ (if e.wide && s.dir.suspects.contains (n + 65536) then [n + 65536] else [])
  dedupNat (lines ++ won)

/-- The record a search of an epoch reads: the previous one while the row holds it and the commit is later (R194). -/
def DirRow.recordAt (e : DirRow) (ep : Nat) : DirRec :=
  match e.prev with
  | some p => if ep < e.commit then p else e.data
  | none => e.data

/-! ### Writes -/

/-- The row that a write committed at an epoch leaves. -/
def DirWrite.row' (w : DirWrite) (ep : Nat) : DirRow :=
  (if w.insert then { w.entry with ins := ep, del := none, commit := ep }
    else if w.delete then { w.entry with del := some ep, commit := ep } else { w.entry with commit := ep }).written

/-- The rows after a write committed at an epoch. -/
def DirWrite.install (w : DirWrite) (ep : Nat) (rows : NMap DirRow) : NMap DirRow := mput rows w.row (w.row' ep)

/-- The directory, as the shadow has it, once every queued write has committed. -/
def dirFuture (s : State) : NMap DirRow :=
  (s.dir.writes.foldl (fun (a : NMap DirRow × Nat) w => (w.install a.2 a.1, a.2 + 1)) (shadowRows s, s.dir.epoch + 1)).1

/-- The live entries among rows. -/
def liveRows (rows : NMap DirRow) : NMap DirRow := rows.filter (fun r => r.2.del.isNone)

/-- Rows a port uses (R189): a 256-bit entry counts as two. -/
def dirUsed (s : State) (p : Nat) : Nat :=
  sumNat ((liveRows (dirFuture s)).map (fun r => if bits r.2.key 71 71 = p then (if r.2.wide then 2 else 1) else 0))

/-- A port's share of rows (R189). -/
def dirShare (s : State) (p : Nat) : Nat :=
  match s.trellis with
  | none => 0
  | some t => if p = 0 then t.shareA else t.shareB

/-- Whether a row may take a new entry (R189, R196): in service, of the needed width, and free; a row freed by a
delete waits until its 64 HCLK hold has ended. -/
def rowFree (s : State) (future : NMap DirRow) (wide : Bool) (n : Nat) : Bool :=
  let free (m : Nat) : Bool := rowInService s m && (match mget? future m with
    | none => true
    | some e => e.del.isSome && (match mget? s.dir.rows m with
        | none => false
        | some c => c.del.isSome && decide (c.holdEnd ≤ s.hclk)))
  if wide then cascaded s (n / 65536) && n / 65536 % 2 = 0 && free n && free (n + 65536)
  else ! cascaded s (n / 65536) && free n

/-- The lowest row an insert takes (R189). -/
def dirFreeRow (s : State) (wide : Bool) : Option Nat :=
  let f := dirFuture s
  firstBelow 4194304 (rowFree s f wide)

/-- Whether the directory accepts an insert, and where (R188, R189): KEY_EXISTS, then DIR_FULL. -/
def dirAccept (s : State) (p : Nat) (wide : Bool) (key care : Nat) : Nat ⊕ Nat :=
  if (liveRows (dirFuture s)).any (fun r => r.2.wide = wide && r.2.key = key && r.2.care = care) then .inl 0x31
  else if dirShare s p < dirUsed s p + (if wide then 2 else 1) then .inl 0x30
  else
    match dirFreeRow s wide with
    | none => .inl 0x30
    | some n => .inr n

/-- Queue a directory write (R192). -/
def dirWrite (w : DirWrite) (s : State) : State := { s with dir := { s.dir with writes := s.dir.writes ++ [w] } }

/-- The entry with exactly a key, once every queued write has committed. -/
def dirExact (s : State) (wide : Bool) (key : Nat) : Option (Nat × DirRow) :=
  (liveRows (dirFuture s)).find? (fun r => r.2.wide = wide && decide (r.2.data.state ≠ 4) && r.2.key = key)

/-- Queue the change of a session's record (R185); the request, if any, completes when it commits. -/
def dirSetSession (sk : Nat) (f : DirRec → DirRec) (id : Option ReqId) (s : State) : State :=
  match dirExact s false (sessDirKey (sk / 2 ^ 64) (sk % 2 ^ 64)) with
  | none => s
  | some (n, e) => dirWrite { row := n, entry := { e with data := f e.data }, id := id } s

/-- Queue the delete of a session's entry (R185). -/
def dirDropSession (sk : Nat) (id : Option ReqId) (s : State) : State :=
  match dirExact s false (sessDirKey (sk / 2 ^ 64) (sk % 2 ^ 64)) with
  | none => s
  | some (n, e) => dirWrite { row := n, entry := e, delete := true, id := id } s

/-- The search a session-life request makes (R182, R183, R191): counted for its port; a block entry answers
DIR_BLOCKED (0x34), a miss UNKNOWN_SESSION (0x90). -/
def sessSearch (s : State) (id : ReqId) : Nat :=
  match dirSearch s.dir.rows false (sessDirKey id.ident id.session) s.dir.epoch false with
  | none => 0x90
  | some (_, e) => if e.data.state = 4 then 0x34 else 0

/-! ### Rows in doubt, and spares (R199 to R203) -/

/-- Change the rows of the array. -/
def onRows (f : NMap DirRow → NMap DirRow) (s : State) : State := { s with dir := { s.dir with rows := f s.dir.rows } }

/-- The physical directory block behind a logical one: the spare once it stands for it (R202). -/
def physBlock (s : State) (b : Nat) : Nat :=
  if s.dir.spareFor = some b then s.spares.dirBlock else if s.spares.dirBlock ≤ b ∧ s.spares.dirBlock < 65 then b + 1 else b

/-- A queued write to a row of blocks that left service (R203): an insert takes another row, if one is free; any other finds
its entry lost. -/
def moveWrite (gone : List Nat) (s : State) (w : DirWrite) : State :=
  if ! gone.contains (w.row / 65536) then dirWrite w s
  else
    match dirFreeRow s w.entry.wide with
    | some n => dirWrite (if w.insert then { w with row := n } else { w with delete := true }) s
    | none => dirWrite { w with delete := true, insert := false } s

/-- A block needs the spare block, or fails as a whole (R202, R203): the spare block starts to copy it; with the spare
already used the block leaves service and its entries move to free rows of the same width, or are lost. -/
def blockFails (b : Nat) (s : State) : State :=
  if s.dir.spareCopy.any (fun c => c.1 = b) then s
  else if s.dir.spareFor = none ∧ s.dir.spareCopy = none then
    let e : ErrRec := { source := srcId 4 (physBlock s b), cls := 3, code := 0x14 }
    raiseErr e { s with dir := { s.dir with spareCopy := some (b, s.time) } }
  else
    let gone := if cascaded s b then [b / 2 * 2, b / 2 * 2 + 1] else [b]
    let src := srcId 4 (physBlock s b)
    let moving := (liveRows (shadowRows s)).filter (fun r => gone.contains (r.1 / 65536))
    let s := { s with dir := { s.dir with outBlocks := s.dir.outBlocks ++ gone.filter (! s.dir.outBlocks.contains ·)
                                          rows := s.dir.rows.filter (fun r => ! gone.contains (r.1 / 65536))
                                          shadow := s.dir.shadow.filter (fun r => ! gone.contains (r.1 / 65536)) } }
    let s := moving.foldl (fun s r =>
      match dirFreeRow s r.2.wide with
      | some n => { s with dir := { s.dir with
          rows := mput s.dir.rows n r.2, shadow := mput s.dir.shadow n (sealLine s n r.2)
          writes := s.dir.writes.map (fun w => if w.row = r.1 then { w with row := n } else w) } }
      | none => raiseErr { source := src, cls := 2, code := 0x15, port := bits r.2.key 71 71, func := bits r.2.key 64 70,
                           ref := r.2.key % 2 ^ 64, detail := r.2.key / 2 ^ 64 % 2 ^ 64 } s) s
    s.dir.writes.foldl (moveWrite gone) { s with dir := { s.dir with writes := [] } }

/-- The spare row of a block that the next retirement takes (R201): the foundation's retirements have theirs (R396). -/
def spareRow (s : State) (b used : Nat) : Nat :=
  let fixed := if s.dir.spareFor = some b then []
    else ((match s.trellis with | none => [] | some t => t.dirRows).filter (fun r => r % 256 = b)).map (fun r => bits r 32 47)
  ((List.range 1024).filter (fun n => ! fixed.contains n)).getD (used - fixed.length) 0

/-- A row takes its shadow line's content, and SUSPECT clears (R199 to R202); a previous record it still holds stays. -/
def cleanRow (n : Nat) (s : State) : State :=
  let base := if cascaded s (n / 65536) && n / 65536 % 2 = 1 then n - 65536 else n
  let s := { s with dir := { s.dir with suspects := s.dir.suspects.filter (· ≠ n) } }
  match openLine s base with
  | none => onRows (fun m => mdel m base) s
  | some e =>
    let old := mget? s.dir.rows base
    onRows (fun m => mput m base { e with prev := old.bind (·.prev), holdEnd := (old.map (·.holdEnd)).getD 0 }) s

/-- A row is rewritten from its shadow line (R199, R200). -/
def rewriteRow (n : Nat) (s : State) : State :=
  let s := cleanRow n (farAccess (shadowSlot s n) s)
  { s with dir := { s.dir with rewritten := mput s.dir.rewritten n s.time } }

/-- A row is retired onto a spare row of its block (R201), which takes its shadow line; a block with no spare row left needs
the spare block. -/
def retireRow (n : Nat) (s : State) : State :=
  let b := n / 65536
  let used := mgetD s.dir.sparesUsed b 0
  if 1024 ≤ used then blockFails b s
  else
    let s := cleanRow n (farAccess (shadowSlot s n) s)
    let s := { s with dir := { s.dir with
      sparesUsed := mput s.dir.sparesUsed b (used + 1), rewritten := mdel s.dir.rewritten n } }
    regAddBoth 0x8002C 1 (raiseErr { source := srcId 4 (physBlock s b), cls := 3, code := 0x13, addr := n, spare := spareRow s b used } s)

/-- Whether a row was rewritten within one scrub pass before now (R201). -/
def rewrittenNow (s : State) (n : Nat) : Bool :=
  let pass := match s.trellis with | none => 1000 | some t => t.scrubMs
  match mget? s.dir.rewritten n with | none => false | some t => decide (s.time < t + pass * 1000000)

/-- A row becomes SUSPECT (R200, R201): again within one scrub pass of being rewritten, it is retired. -/
def markSuspect (n : Nat) (s : State) : State :=
  let t := { s with dir := { s.dir with suspects := if s.dir.suspects.contains n then s.dir.suspects else s.dir.suspects ++ [n] } }
  if rewrittenNow s n then retireRow n t else t

/-- A SUSPECT row is rewritten; one that was retired meanwhile has its content. -/
def mendRow (n : Nat) (s : State) : State := if s.dir.suspects.contains n then rewriteRow n s else s

/-- Bits of a row flip (R199, R200): the high row of a cascaded pair holds bits [255:128] of its key and care mask. A row that
holds no entry is one of zeros. -/
def flipRow (s : State) (x : DirFlip) : State :=
  let high := cascaded s (x.row.val / 65536) && x.row.val / 65536 % 2 = 1
  let n := if high then x.row.val - 65536 else x.row.val
  let up (m : BitVec 128) : Nat := if high then m.toNat * 2 ^ 128 else m.toNat
  let e : DirRow := (mget? s.dir.rows n).getD { valid := false, key := 0, care := 0, del := some 0 }
  onRows (fun m => mput m n { e with
    valid := e.valid != x.valid, key := e.key ^^^ up x.key, key2 := e.key2 ^^^ up x.key2, care := e.care ^^^ up x.care
    data := DirRec.ofBytes (natLe 32 (leNat e.data.bytes ^^^ x.record.toNat)), ins := e.ins ^^^ x.ins.toNat
    del := delOf (delField e.del ^^^ x.del.toNat) }) s

/-- Whether a global row agrees with its shadow line (R199): key copies, care mask, record, epochs and validity. -/
def rowAgrees (s : State) (n : Nat) : Bool :=
  let high := cascaded s (n / 65536) && n / 65536 % 2 = 1
  let base := if high then n - 65536 else n
  let half (k : Nat) : Nat := if high then bits k 128 255 else bits k 0 127
  match mget? s.dir.rows base, openLine s base with
  | none, none => true
  | some e, some x => half e.key = half x.key && half e.key2 = half x.key && half e.care = half x.care
      && e.data = x.data && e.parity = x.parity && e.ins = x.ins && e.del = x.del && e.commit = x.commit && e.valid = x.valid
  | _, _ => false

/-- A search that is made and answered at once (R183, R200): where rows are suspect it is retried on their shadow lines, which
rewrites them. -/
def searchNow (wide : Bool) (q : Nat) (s : State) : State :=
  match searchSuspects s wide q s.dir.epoch false with
  | [] => s
  | ns => regAddBoth 0x80028 1 (ns.foldl (fun s n => mendRow n s) (ns.foldl (fun s n => markSuspect n s) s))

/-- Count a search for a port (DIR_LOOKUPS). -/
def countSearch (p : Nat) (s : State) : State := regAdd p 0x80018 1 s

/-- What a request of nibble 0x1 that names a session meets first: its directory search (R183, R351). -/
def withSession (id : ReqId) (body : Nat → Session → State → State) (s : State) : State :=
  let s := searchNow false (sessDirKey id.ident id.session) (countSearch (fnPort id.fn) s)
  match sessSearch s id, sessOf s id with
  | 0x34, _ => defer id 0x34 s
  | 0, some x => body (sessKey id.ident id.session) x s
  | _, _ => fail id 0x90 s

/-! ### Key blocks (R182, R186) -/

/-- A key block of host memory: 32 bytes of key, 32 of care mask. -/
structure KeyBlock where
  key : Nat
  care : Nat
  deriving DecidableEq, Repr

/-- The key block of a buffer, with PORT and FUNCTION filled in (R182): from the acting identity, or FUNCTION from the
block under FLAGS ADMIN; their care bits are 1, but FLAGS ADMIN may leave FUNCTION's clear. -/
def keyBlock (id : ReqId) (admin : Bool) (bs : List Byte) : KeyBlock :=
  let key := leField bs 0 32
  let care := leField bs 32 32
  let fn := if admin then bits key 64 70 + 128 * fnPort id.fn else bits (keyFn id.ident) 64 71
  let kc := if admin then bits care 64 70 + 128 else 255
  ⟨setBits key 64 71 fn, setBits care 64 71 kc⟩

/-- Whether a key is well formed (R181): KIND 1 or 2, reserved bits and the unused half zero, FUNCTION in range. -/
def keyOk (k : KeyBlock) : Bool :=
  (keyKind k.key = 2 || (keyKind k.key = 1 && bits k.key 76 255 = 0 && bits k.care 128 255 = 0))
    && decide (bits k.key 64 70 < 64)

/-- Whether KIND 2, which searches cascaded pairs. -/
def KeyBlock.wide (k : KeyBlock) : Bool := keyKind k.key = 2

/-- The entry byte of a buffer address that is not 64-byte aligned (R186). -/
def misBuf (buf : DWord) (byte : Nat) : Option Nat := if buf.toNat % 64 = 0 then none else some byte

/-- The bytes of a host buffer, or DMA_FAULT. -/
def withMem (id : ReqId) (mem : Dma) (body : List Byte → State → State) (s : State) : State :=
  match mem with
  | .fault => fail id 0x94 s
  | .data bs => body bs s

/-- DIR_LOOKUP (R186, R190 to R192): the search issues with the epoch of now. -/
def execDirLookup (r : Req) (buf : DWord) (admin ignoreBlock : Bool) (mem : Dma) (s : State) :
    Host.Outcome State Fault Refusal :=
  .next (onReq r 0x20 (misBuf buf 32) (fun id s =>
    withMem id mem (fun bs s =>
      let k := keyBlock id admin bs
      if (admin && ! r.fn.isPf) || ! keyOk k then fail id 0x33 s
      else
        let q : DirSearch := ⟨id, k.key, k.wide, s.dir.epoch, s.hclk, buf.toNat, ignoreBlock⟩
        countSearch (fnPort id.fn) { s with dir := { s.dir with searches := s.dir.searches ++ [q] } }) s) s)

/-- Whether a record may be inserted (R186): STATE 4 of either KIND, or STATE 5 with KIND 2 and a full care mask. -/
def insertOk (k : KeyBlock) (state : Nat) : Bool :=
  state = 4 || (state = 5 && k.wide && k.care = fullCare true)

/-- DIR_INSERT (R186 to R189). -/
def execDirInsert (r : Req) (buf : DWord) (admin : Bool) (mem : Dma) (s : State) :
    Host.Outcome State Fault Refusal :=
  .next (onReq r 0x21 (misBuf buf 32) (fun id s =>
    withMem id mem (fun bs s =>
      let k := keyBlock id admin bs
      let rec0 := bs.drop 64
      let st := leField rec0 0 1
      let exactFn := bits k.care 64 70 = 127 || st = 4
      if (admin && ! r.fn.isPf) || ! keyOk k || ! insertOk k st || ! exactFn then fail id 0x33 s
      else
        match dirAccept s (fnPort id.fn) k.wide k.key k.care with
        | .inl d => if d = 0x30 then defer id d s else fail id d s
        | .inr n =>
          let d : DirRec := {
            state := st, tier := if st = 5 then leField rec0 1 1 else 0, kd := leField rec0 4 2 % 4096,
            tenant := leField rec0 6 2, object := leField rec0 16 8, user := leField rec0 24 8 }
          let e : DirRow := { key := k.key, care := k.care, wide := k.wide, data := d }
          dirWrite { row := n, entry := e, insert := true, id := some id } s) s) s)

/-- DIR_DELETE (R186): the visible entry with the identical key and care mask. -/
def execDirDelete (r : Req) (buf : DWord) (admin : Bool) (mem : Dma) (s : State) :
    Host.Outcome State Fault Refusal :=
  .next (onReq r 0x22 (misBuf buf 32) (fun id s =>
    withMem id mem (fun bs s =>
      let k := keyBlock id admin bs
      if (admin && ! r.fn.isPf) || ! keyOk k then fail id 0x33 s
      else
        match (liveRows (dirFuture s)).find? (fun e => e.2.wide = k.wide && e.2.key = k.key && e.2.care = k.care) with
        | none => fail id 0x32 s
        | some (n, e) =>
          if e.data.state ≤ 3 then fail id 0x33 s
          else dirWrite { row := n, entry := e, delete := true, id := some id } s) s) s)

/-- DIR_UPDATE (R186): sets USER in the exact entry of any KIND. -/
def execDirUpdate (r : Req) (buf user : DWord) (admin : Bool) (mem : Dma) (s : State) :
    Host.Outcome State Fault Refusal :=
  .next (onReq r 0x23 (misBuf buf 32) (fun id s =>
    withMem id mem (fun bs s =>
      let k := keyBlock id admin bs
      if (admin && ! r.fn.isPf) || ! keyOk k then fail id 0x33 s
      else
        match dirExact s k.wide k.key with
        | none => fail id 0x32 s
        | some (n, e) =>
          dirWrite { row := n, entry := { e with data := { e.data with user := user.toNat } }, id := some id } s) s) s)

/-- Whether a scan reports an entry (R182, R186): of its port, and of the acting identity unless ADMIN. -/
def scanSees (id : ReqId) (admin : Bool) (e : DirRow) : Bool :=
  if admin then bits e.key 71 71 = fnPort id.fn else bits e.key 64 71 = bits (keyFn id.ident) 64 71

/-- Walk rows for a scan, ending at `maxLines` lines: the lines, the row after the last one examined, and the state, in which a
row whose record fails its parity as it is read is SUSPECT (R200). -/
def scanRows (id : ReqId) (admin : Bool) (ep : Nat) (maxLines stop : Nat) :
    NMap DirRow → List (List Byte) → State → List (List Byte) × Nat × State
  | [], acc, s => (acc, stop, s)
  | (n, e) :: rest, acc, s =>
    if e.visible ep && scanSees id admin e then
      let s := if e.whole then s else markSuspect n s
      let e := (mget? s.dir.rows n).getD e
      let acc := acc ++ [dirLine n (rowSuspect s n e) e e.data]
      if maxLines ≤ acc.length then (acc, n + 1, s) else scanRows id admin ep maxLines stop rest acc s
    else scanRows id admin ep maxLines stop rest acc s

/-- DIR_SCAN (R186, R187, R195). -/
def execDirScan (r : Req) (first count : Nat) (buf : DWord) (maxLines : Nat) (admin : Bool) (s : State) :
    Host.Outcome State Fault Refusal :=
  let bad := if 4194304 ≤ first then some 32 else if count = 0 ∨ 65536 < count then some 36 else misBuf buf 40
  .next (onReq r 0x24 bad (fun id s =>
    if admin && ! r.fn.isPf then fail id 0x33 s
    else
      let stop := min (first + count) 4194304
      let rows := s.dir.rows.filter (fun e => decide (first ≤ e.1) && decide (e.1 < stop))
      let (lines, next, s) := if maxLines = 0 then ([], first, s) else scanRows id admin s.dir.epoch maxLines stop rows [] s
      let hdr := natLe 8 s.dir.epoch ++ natLe 4 lines.length ++ natLe 4 next ++ natLe 48 0
      withOut id buf.toNat (hdr ++ lines.flatten) (done id) s) s)

/-! ### Events of the array -/

/-- Deliver a search result (R183, R186, R187). -/
def deliverSearch (q : DirSearch) (hit : Option (Nat × DirRow)) (s : State) : State :=
  match hit with
  | none => fail q.id 0x32 s
  | some (n, e) =>
    withOut q.id (q.buf + 64) (dirLine n (rowSuspect s n e) e (e.recordAt q.epoch)) (done q.id) s

/-- DIR_SEARCH_RESULT (R191, R194, R200): the oldest search is delivered 60 HCLK after its issue. `flips` are the bits of rows
that have flipped by then. Where a row raises a suspect line, or the winner is SUSPECT, the search is retried on the shadow. -/
def execDirSearchResult (flips : List DirFlip) (s : State) : Host.Outcome State Fault Refusal :=
  let s := flips.foldl flipRow s
  match s.dir.searches, s.dir.retry with
  | q :: rest, none =>
    if s.hclk < q.issued + 60 then .next s
    else
      let s := { s with dir := { s.dir with searches := rest } }
      match searchSuspects s q.wide q.key q.epoch q.ignoreBlock with
      | [] => .next (deliverSearch q (dirSearch s.dir.rows q.wide q.key q.epoch q.ignoreBlock) s)
      | ns =>
        let s := ns.foldl (fun s n => markSuspect n s) s
        .next { s with dir := { s.dir with retry := some (q, ns) } }
  | _, _ => .next s

/-- DIR_SHADOW_RETRY (R200, R201): the search is evaluated on the shadow lines of the suspect rows, which are rewritten; those of
`unread` fail to read back and are retired. -/
def execDirShadowRetry (unread : List Nat) (s : State) : Host.Outcome State Fault Refusal :=
  match s.dir.retry with
  | none => .next s
  | some (q, rows) =>
    let s := { s with dir := { s.dir with retry := none } }
    let s := regAddBoth 0x80028 1 (rows.foldl (fun s n => mendRow n s) s)
    let s := (rows.filter unread.contains).foldl (fun s n => retireRow n s) s
    .next (deliverSearch q (dirSearch s.dir.rows q.wide q.key q.epoch q.ignoreBlock) s)

/-- The request of a committed write completes, and its session is free for the next request (R27). -/
def commitDone (id : Option ReqId) (s : State) : State :=
  match id with
  | none => s
  | some id =>
    let s := { s with sessions := s.sessions.map (fun x =>
      if x.2.busy = some id then (x.1, { x.2 with busy := none }) else x) }
    done id s

/-- DIR_COMMIT (R192, R194, R198, R201): the oldest write commits at the next epoch, its shadow line first; a row still
within the hold of an earlier commit waits. `unread` says that the row fails to read back, which retires it. -/
def execDirCommit (unread : Bool) (s : State) : Host.Outcome State Fault Refusal :=
  match s.dir.writes with
  | [] => .next s
  | w :: rest =>
    let old := mget? s.dir.rows w.row
    let held := match old with | none => false | some e => e.prev.isSome && decide (s.hclk < e.holdEnd)
    if held then .next s
    else
      let s := farAccess (shadowSlot s w.row) s
      let ep := s.dir.epoch + 1
      let prev := if w.insert then none else old.map (·.data)
      let w' := { w with entry := { w.entry with prev := prev, holdEnd := s.hclk + 64 } }
      let s := { s with dir := { s.dir with
        writes := rest, epoch := ep, shadow := mput s.dir.shadow w.row (sealLine s w.row (w'.row' ep))
        rows := w'.install ep s.dir.rows } }
      let s := if unread then retireRow w.row s else s
      .next (commitDone w.id (regSet 0 0x80008 ep (regSet 1 0x80008 ep s)))

/-- DIR_RECORD_HOLD_END (R194): 64 HCLK after its commit the row drops its previous record. -/
def execDirRecordHoldEnd (row : Fin 4194304) (s : State) : Host.Outcome State Fault Refusal :=
  match mget? s.dir.rows row with
  | none => .next s
  | some e =>
    if e.prev.isSome && decide (e.holdEnd ≤ s.hclk) then .next (onRows (fun m => mput m row { e with prev := none }) s)
    else .next s

/-- DIR_SCRUB_ROW (R199, R201): the scrubber compares the next row with its shadow line. `flips` are the bits of rows that have
flipped by then; `unread` says that the rewritten row fails to read back. The pass counter advances after the last row. -/
def execDirScrubRow (flips : List DirFlip) (unread : Bool) (s : State) : Host.Outcome State Fault Refusal :=
  let s := flips.foldl flipRow s
  let on := match s.trellis with | none => false | some t => t.scrubEnable
  if ! on || s.hub.quiet then .next s
  else
    let n := s.dir.scrub
    let s := farAccess (shadowSlot s n) s
    let agree := rowAgrees s n
    let fixed := if agree then s else regAddBoth 0x80024 1 (mendRow n (markSuspect n s))
    let s := if ! agree && unread then retireRow n fixed else fixed
    let last := decide (n + 1 = 4194304)
    let s := { s with dir := { s.dir with scrub := if last then 0 else n + 1 } }
    .next (if last then regAddBoth 0x80020 1 s else s)

/-- DIR_SPARE_BLOCK_SWITCH (R202): once the block's lines are copied, after at least 218 µs, searches switch to the
spare block, which holds the shadow's content and whose own spare rows are free; TRL_SPARES shows no spare. -/
def execDirSpareBlockSwitch (s : State) : Host.Outcome State Fault Refusal :=
  match s.dir.spareCopy with
  | none => .next s
  | some (b, since) =>
    if s.time < since + 218000 then .next s
    else
      let ns := dedupNat (((s.dir.rows.map (·.1)) ++ s.dir.suspects).filter (fun n => n / 65536 = b))
      let s := ns.foldl (fun s n => cleanRow n s) s
      .next { s with dir := { s.dir with
        spareCopy := none, spareFor := some b, sparesUsed := mdel s.dir.sparesUsed b
        rewritten := s.dir.rewritten.filter (fun x => x.1 / 65536 ≠ b) } }

end Sys2Proof.Machine
end

