-- ==== Sys2Proof/Machine/Security.lean ====
section
/-! DEFINITION. Boot, attestation, key domains, IDE and TDISP (R308 to R333). -/

namespace Sys2Proof.Machine

/-- The identity public key: 68 bytes. -/
def idKey : List Byte := byteSlice Config.idPublicKey 0 68

/-- DEVICE_ID: the first 16 bytes of SHAKE256 over the public key (chapter 12, Identity). -/
def deviceId : List Byte := shake256 idKey 16

/-! ### Boot (R308 to R313) -/

/-- BOOT_GO (R309): a physical function's write of GO. The first takes the boot; the owner may try again after a
failure. -/
def execBootGo (f : Fn) (v : Word) (s : State) : Host.Outcome State Fault Refusal :=
  let free := s.sec.boot = 0 && s.sec.owner = none
  let again := s.sec.boot = 4 && s.sec.owner = some f.port.idx
  if f.isPf && bitOf v.toNat 0 && ! s.hub.inReset && (free || again) then
    .next (onSec (fun x => { x with boot := 1, cause := 0, owner := some f.port.idx, image := [] }) s)
  else .next s

/-- A boot fails with a cause; nothing of the image runs (R309). -/
def bootFail (cause : Nat) (s : State) : State := onSec (fun x => { x with boot := 4, cause := cause, image := [] }) s

/-- The cause a firmware header fails with, 0 when it passes (R309 step 2). -/
def bootHeader (len : Nat) (b : List Byte) : Nat :=
  let svn := leField b 8 4
  if leField b 0 4 ≠ 0x57465853 ∨ leField b 4 2 ≠ 1 ∨ 1 < leField b 7 1 ∨ svn < 1 ∨ 63 < svn
      ∨ leField b 0x10 4 + 9893 ≠ leField b 0xC 4 ∨ leField b 0x14 12 ≠ 0 ∨ leField b 0x40 192 ≠ 0 then 1
  else if leField b 6 1 ≠ 0xB0 ∨ leField b 0xC 4 ≠ len ∨ 8388608 < len then 6
  else 0

/-- BOOT_IMAGE_READ_DONE (R309, R311): the image is in hub SRAM, or the read failed, and its header is checked; a part without
boots left refuses every image. -/
def execBootImageReadDone (mem : Dma) (s : State) : Host.Outcome State Fault Refusal :=
  if s.sec.boot ≠ 1 then .next s
  else if 1048576 ≤ s.sec.boots then .next (bootFail 7 s)
  else
    match mem with
    | .fault => .next (bootFail 2 s)
    | .data bs =>
      let len := regGet s 0 0x40010 % 2 ^ 24
      let b := bs.take len
      let c := if len < 9893 + 256 ∨ b.length < len then 6 else bootHeader len b
      if c ≠ 0 then .next (bootFail c s) else .next (onSec (fun x => { x with boot := 2, image := b }) s)

/-- The FW_DIGEST of an image (R309): SHAKE256 over the bytes before the signature with the field zero. -/
def fwDigest (b : List Byte) : List Byte :=
  shake256 (splice (b.take (leField b 0x10 4)) 0x20 (List.replicate 32 0)) 32

/-- The THERMAL_TRIP record that a boot after a trip writes (R419, R442). -/
def tripRecord (s : State) : State :=
  let v := regGet s 0 0x10048
  if s.gate.tripOwed then
    raiseErr { source := srcId 0xA 0, cls := 5, code := 0x31, unit := bits v 8 15, detail := bits v 0 7 }
      { s with gate := { s.gate with tripOwed := false } }
  else s

/-- Key domain 0 after boot `n` (R324): its XTS keys come from the fused secret, a label and the boot counter, its GCM key from
the secret and a label alone, and its INSTANCE is the counter's low 32 bits. It belongs to no port and has no I/O key. The
counter is taken as four bytes and the secret first (DEDUCED, log 104). -/
def ownDomain (n : Nat) : KeyDom := {
  port := 2, state := 2, released := false, inst := n % 2 ^ 32
  keys := shake256 (Config.fusedSecret ++ [0x53, 0x58, 0x44, 0x30, 0x58] ++ natLe 4 n) 64
    ++ shake256 (Config.fusedSecret ++ [0x53, 0x58, 0x44, 0x30, 0x47]) 32 ++ List.replicate 32 0 }

/-- BOOT_VERIFY_DONE (R309 to R312, R324): digest, signature, SVN and boots left are checked; then the boot counter advances
and the image starts. `floorRead` says that a raised floor reads back, `marginal` that the block counter's cell reads
marginal, which counts as advanced. -/
def execBootVerifyDone (floorRead marginal : Bool) (s : State) : Host.Outcome State Fault Refusal :=
  if s.sec.boot ≠ 2 then .next s
  else
    let b := s.sec.image
    let svn := leField b 8 4
    if 1048576 ≤ s.sec.boots then .next (bootFail 7 s)
    else if fwDigest b ≠ byteSlice b 0x20 32 then .next (bootFail 3 s)
    else if ! Config.firmwareSigned b then .next (bootFail 4 s)
    else if svn < s.sec.floor then .next (bootFail 5 s)
    else
      let floor := if bitOf (leField b 7 1) 0 && floorRead then max s.sec.floor svn else s.sec.floor
      let block := if marginal then s.sec.block + 1 else s.sec.block
      .next { onSec (fun x => { x with
        boot := 3, boots := x.boots + 1, floor := floor, svn := svn, digest := fwDigest b, block := block,
        next := 64 * block, faulted := false, domains := mput x.domains 0 (ownDomain (x.boots + 1)) }) (tripRecord s) with hub := { s.hub with firmware := true } }

/-! ### Key domains (R319 to R324) -/

/-- Replace a key domain. -/
def setKd (d : Nat) (k : KeyDom) (s : State) : State := onSec (fun x => { x with domains := mput x.domains d k }) s

/-- Whether an identity may use a domain (R320). -/
def kdUsable (s : State) (fn d : Nat) : Bool :=
  let k := kdOf s d
  decide (d ≠ 0) && decide (d < 4096) && k.state = 2 && k.port = fnPort fn && bitOf k.mask (fn % 64)

/-- Whether a domain is SEALED (R323). -/
def kdSealed (s : State) (d : Nat) : Bool := (kdOf s d).state = 2 && (kdOf s d).isSealed

/-- Directory entries, tile maps and tables that name a domain (R324). -/
def kdUsers (s : State) (d : Nat) : Nat :=
  ((liveRows (dirFuture s)).filter (fun r => r.2.data.kd = d)).length
    + (s.objects.filter (fun o => o.2.kd = d)).length + (s.tables.filter (fun t => t.2.kd = d)).length

/-- SEC_KD_BIND (R319, R324, R329): reserves a FREE domain, or changes a domain's mask. -/
def execSecKdBind (r : Req) (kd : Nat) (mask : DWord) (s : State) : Host.Outcome State Fault Refusal :=
  .next (onReq r 0x73 (if kd < 4096 then none else some 32) (fun id s =>
    let k := kdOf s kd
    if ! r.fn.isPf then fail id 0x69 s
    else if kd = 0 ∨ (k.state ≠ 0 ∧ k.port ≠ fnPort id.fn) then fail id 0x86 s
    else
      let old := if k.state = 0 then 0 else k.mask
      maskChange (fnPort id.fn) old mask.toNat (fail id 0x89)
        (fun s => done id (setKd kd (if k.state = 0 then { port := fnPort id.fn, state := 1, mask := mask.toNat }
          else { k with mask := mask.toNat }) s)) s) s)

/-- Whether an identity may key a domain: of its port, with its bit in the mask, and not domain 0 (R332, R333). -/
def kdMine (k : KeyDom) (fn d : Nat) : Bool :=
  decide (d ≠ 0) && (k.state = 0 || (k.port = fnPort fn && bitOf k.mask (fn % 64)))

/-- SEC_KD_CREATE (R321): a RESERVED domain takes random keys. -/
def execSecKdCreate (r : Req) (kd : Nat) (sealFlag : Bool) (s : State) : Host.Outcome State Fault Refusal :=
  .next (onReq r 0x72 (if kd < 4096 then none else some 32) (fun id s =>
    let k := kdOf s kd
    if ! kdMine k id.ident kd then fail id 0x86 s
    else if k.state ≠ 1 then fail id 0x84 s
    else
      let rnd := Config.randomKeys s.free
      let k := { k with state := 2, isSealed := sealFlag, released := false, keys := byteSlice rnd 0 128 }
      done id (setKd kd { k with inst := leNat (byteSlice rnd 128 4), counter := 0 } (drew s))) s)

/-- SEC_KD_RETIRE (R324, R329). -/
def execSecKdRetire (r : Req) (kd : Nat) (s : State) : Host.Outcome State Fault Refusal :=
  .next (onReq r 0x74 (if kd < 4096 then none else some 32) (fun id s =>
    let k := kdOf s kd
    if ! r.fn.isPf then fail id 0x69 s
    else if kd = 0 ∨ (k.state ≠ 0 ∧ k.port ≠ fnPort id.fn) then fail id 0x86 s
    else if k.state = 0 then fail id 0x84 s
    else if kdUsers s kd ≠ 0 then fail id 0x85 s
    else maskChange (fnPort id.fn) k.mask 0 (fail id 0x89)
      (fun s => done id (onSec (fun x => { x with domains := mdel x.domains kd }) s)) s) s)

/-- Whether a release block is well formed (R321). -/
def releaseOk (b : List Byte) : Bool :=
  leField b 0 4 = 0x524B5853 && decide (leField b 12 2 < 4096) && decide (leField b 14 1 ≤ 1) && leField b 15 1 = 0
    && decide (leField b 16 4 ≠ 0xFFFFFFFF) && leField b 20 44 = 0

/-- The key a report's pending key and a ciphertext give (R318): the first 32 bytes of SHAKE256 over the shared secret,
the digest of the signed report, and a label. -/
def kekOf (k : PendingKey) (ct label : List Byte) : List Byte :=
  shake256 (byteSlice (Config.kemSecret k.draw ct) 0 32 ++ k.digest ++ label) 32

/-- SEC_KD_RELEASE (R317, R318, R321): the pending key is used up whatever the unwrap gives. -/
def execSecKdRelease (r : Req) (buf : DWord) (mem : Dma) (s : State) : Host.Outcome State Fault Refusal :=
  .next (onReq r 0x71 none (fun id s =>
    let _ := buf
    withMem id mem (fun b s =>
      let d := leField b 12 2
      let k := kdOf s d
      if ! releaseOk b then fail id 0x87 s
      else if ! kdMine k id.ident d then fail id 0x86 s
      else if k.state ≠ 1 then fail id 0x84 s
      else
        match s.sec.pendingKeys.find? (fun p => p.index = leField b 4 8 && decide (s.time < p.since + 60000000000)) with
        | none => fail id 0x82 s
        | some p =>
          let s := onSec (fun x => { x with pendingKeys := x.pendingKeys.filter (· ≠ p) }) s
          let kek := kekOf p (byteSlice b 64 1568) [0x53, 0x58, 0x4B, 0x52]
          match Config.gcmOpen kek (List.replicate 12 0) (byteSlice b 0 64) (byteSlice b 1632 144) with
          | none => fail id 0x83 s
          | some keys =>
            let k := { k with state := 2, isSealed := bitOf (leField b 14 1) 0, released := true }
            done id (setKd d { k with keys := byteSlice keys 0 128, inst := leField b 16 4, counter := 0 } s)) s) s)

/-- PENDING_KEY_EXPIRY (R317): keys of reports 60 s old expire. -/
def execPendingKeyExpiry (s : State) : Host.Outcome State Fault Refusal :=
  .next (onSec (fun x => { x with
    pendingKeys := x.pendingKeys.filter (fun p => decide (s.time < p.since + 60000000000)) }) s)

/-! ### Attestation (R312 to R317) -/

/-- A measurement entry (R315). -/
def measEntry (kind index object : Nat) (digest : List Byte) : List Byte :=
  natLe 1 kind ++ natLe 1 0 ++ natLe 2 index ++ natLe 4 0 ++ natLe 8 object ++ byteSlice digest 0 32

/-- The pavilions a function's report covers (R316). -/
def measPavs (s : State) (fn : Nat) : NMap Pav :=
  s.pavs.filter (fun p => p.2.port = fnPort fn && (fn % 64 = 0 || bitOf (regGet s (fnPort fn) (0x51010 + 0x20 * p.1)) (fn % 64)))

/-- The measurements of a report (R314 to R316): step programs, model images, and text tables under SCOPE bit 2. -/
def measurements (s : State) (fn : Nat) (tables : Bool) : List (List Byte) :=
  let pavs := measPavs s fn
  let progs := pavs.filterMap (fun p => p.2.prog.map (fun g => measEntry 1 p.1 (g.object % 2 ^ 64) (imgDigest g.image)))
  let models := (pavs.map (fun p => p.2.models.map (fun m => measEntry 2 m.1 (m.2.object % 2 ^ 64) m.2.digest))).flatten
  let tabs := (s.tables.filter (fun t => t.1 / 2 ^ 16 = fnPort fn)).map (fun t =>
    measEntry 3 (t.1 / 4096 % 4 * 2 ^ 14 + t.1 % 4096) (t.2.object % 2 ^ 64) (shake256 t.2.bytes 32))
  (progs ++ models ++ (if tables then tabs else [])).take 256

/-- The report as captured (R314): the XMSS index and the encapsulation key are filled in at signing. -/
def captureReport (s : State) (fn : Nat) (nonce : List Byte) (kem tables : Bool) : List Byte :=
  let ms := measurements s fn tables
  natLe 4 0x54415853 ++ natLe 2 1 ++ natLe 1 0xB0 ++ natLe 1 Config.lifecycle.val ++ natLe 8 s.time ++ deviceId ++ byteSlice nonce 0 32
    ++ natLe 1 (fnPort fn) ++ natLe 1 (fn % 64) ++ natLe 2 ms.length ++ natLe 4 Config.romVersion.toNat
    ++ natLe 4 s.sec.svn ++ natLe 4 s.sec.floor ++ natLe 4 s.sec.boots
    ++ natLe 1 ((s.trellis.map (·.slot)).getD 0) ++ natLe 1 (b2n kem) ++ natLe 2 0 ++ natLe 8 0
    ++ byteSlice s.sec.digest 0 32 ++ byteSlice ((s.trellis.map (·.cDigest)).getD []) 0 32 ++ natLe 32 0
    ++ natLe 1568 0 ++ ms.flatten

/-- Whether no XMSS index is left (R313): the block in use is spent and B has advanced 67,108,864 times. -/
def xmssSpent (x : Security) : Bool := decide (64 * x.block ≤ x.next) && decide (67108864 ≤ x.block)

/-- SEC_ATTEST (R312 to R317): the measurements are captured now and the report waits to be signed. -/
def execSecAttest (r : Req) (buf : DWord) (kem : Bool) (scope : Nat) (mem : Dma) (s : State) :
    Host.Outcome State Fault Refusal :=
  .next (onReq r 0x70 (if scope = 0 ∨ scope = 4 then none else some 41) (fun id s =>
    withMem id mem (fun nonce s =>
      if s.sec.faulted then fail id 0x81 s
      else if xmssSpent s.sec then fail id 0x80 s
      else
        let q : AttestReq := ⟨id, buf.toNat, kem, captureReport s id.ident nonce kem (scope = 4)⟩
        onSec (fun x => { x with queue := x.queue ++ [q] }) s) s) s)

/-- ATTEST_SIGNED (R312, R314, R317): the oldest report takes the next index of the block in use, a fresh block being
reserved first when it is spent; `readBack` says that an advanced counter reads back. -/
def execAttestSigned (readBack : Bool) (s : State) : Host.Outcome State Fault Refusal :=
  match s.sec.queue with
  | [] => .next s
  | q :: rest =>
    let s := onSec (fun x => { x with queue := rest }) s
    let fresh := decide (64 * s.sec.block ≤ s.sec.next)
    if s.sec.faulted then .next (fail q.id 0x81 s)
    else if xmssSpent s.sec then .next (fail q.id 0x80 s)
    else if fresh && ! readBack then .next (fail q.id 0x81 (onSec (fun x => { x with faulted := true }) s))
    else
      let block := if fresh then s.sec.block + 1 else s.sec.block
      let index := s.sec.next
      let ek := if q.kem then byteSlice (Config.kemPublic s.free) 0 1568 else natLe 1568 0
      let body := splice (splice q.report 0x58 (natLe 8 index)) 0xC0 ek
      let report := body ++ byteSlice (Config.xmssSign index body) 0 9893
      let key : PendingKey := ⟨index, s.free, shake256 report 32, s.time, q.id.fn⟩
      let keys := if q.kem then (s.sec.pendingKeys ++ [key]).drop (s.sec.pendingKeys.length + 1 - 16) else s.sec.pendingKeys
      let s := onSec (fun x => { x with block := block, next := index + 1, pendingKeys := keys }) (drew s)
      .next (withOut q.id q.buf report (done q.id) s)

/-- SEC_ID_READ (R332): the public key and the certificate. -/
def execSecIdRead (r : Req) (buf : DWord) (s : State) : Host.Outcome State Fault Refusal :=
  .next (onReq r 0x75 none (fun id s =>
    withOut id buf.toNat ((idKey ++ Config.idCertificate).take 16384) (done id) s) s)

/-! ### IDE and TDISP (R328, R329) -/

/-- The key of a port's secured channel for a message (R318, R328): the one in use, or the one that the message sets up from a
pending key of a report that the port's physical function asked for, which uses that key up. -/
def channelKey (p : Nat) (m : Secured) (s : State) : Option (List Byte × State) :=
  match m.setup with
  | none => (mget? s.sec.channels p).map (fun k => (k, s))
  | some (index, ct) =>
    (s.sec.pendingKeys.find? (fun k => k.index = index.toNat && k.fn = 64 * p && decide (s.time < k.since + 60000000000))).map (fun k =>
      let key := kekOf k ct [0x53, 0x58, 0x43, 0x48]
      (key, onSec (fun x => { x with pendingKeys := x.pendingKeys.filter (· ≠ k), channels := mput x.channels p key }) s))

/-- A message of a port's secured channel, opened (R328): its bytes; none when it does not pass. -/
def openSecured (p : Nat) (m : Secured) (s : State) : Option (List Byte × State) :=
  (channelKey p m s).bind (fun k => (Config.gcmOpen k.1 m.nonce [] m.data).map (fun b => (b, k.2)))

/-- What an IDE_KM message does to stream `k` (R328): a program takes the key it carries, its last 32 bytes (DEDUCED, log 104). -/
def ideMove (k : Nat) (act : IdeKm) (b : List Byte) (s : State) : State :=
  onSec (fun x => { x with ide := match act with
    | .program => mput x.ide k { key := b.drop (b.length - 32) }
    | .start => madjust x.ide k (fun y => { y with started := true })
    | .stop => mdel x.ide k }) s

/-- IDE_KM_MESSAGE (R328): a message that passes the secured channel programs a stream's key, starts it or stops it.
Stream 0 is the link stream. -/
def execIdeKmMessage (port : Port) (msg : Secured) (stream : Fin 9) (act : IdeKm) (s : State) :
    Host.Outcome State Fault Refusal :=
  match openSecured port.idx msg s with
  | none => .next s
  | some (b, s) => .next (ideMove (port.idx * 16 + stream.val) act b s)

/-- The standard move of a virtual function's interface (R329). -/
def tdispMove (fn : Nat) (act : TdispAct) (s : State) : State :=
  let set (x : Tdi) : State := onSec (fun z => { z with tdi := if x = .unlocked then mdel z.tdi fn else mput z.tdi fn x }) s
  match act, tdiOf s fn with
  | .lock, .unlocked => set .locked
  | .start, .locked => set .run
  | .stop, _ => set .unlocked
  | _, _ => s

/-- TDISP_MESSAGE (R328, R329): a message that passes the secured channel of its port moves a virtual function's interface. -/
def execTdispMessage (f : Fn) (msg : Secured) (act : TdispAct) (s : State) : Host.Outcome State Fault Refusal :=
  match openSecured f.port.idx msg s with
  | none => .next s
  | some (_, s) => .next (if f.isPf then s else tdispMove f.key act s)

end Sys2Proof.Machine
end

