-- ==== Sys2Proof/Machine/Tiles.lean ====
section
/-! DEFINITION. Where tiles lie and what they hold (R133 to R137, R147, R161): far slots, regions and records, stored
forms (R170, R173, R325, R326), and a tile's plain content. -/

namespace Sys2Proof.Machine

/-! ### Stored forms -/

/-- The CODEC byte a tile is stored under: a session's tag and state tiles never take K4R (R173). -/
def tileCodec (o : Obj) (t : Tile) (codec : Nat) : Nat :=
  if codecK4r codec && decide (o.kind = .session) && t.layer = 0xFFFF then 2 else codec

/-- Store a tile's form under a CODEC byte (R168, R173): equal forms pass through, others are re-encoded, counted. A
form that does not decode fails. -/
def reform (p form codec : Nat) (bytes : List Byte) (s : State) : Option (Encoded × State) :=
  if form = codec && codecMode codec ≠ 0 then
    some (⟨bytes.take (formLength form bytes), form, false⟩, s)
  else
    match decodeTile form bytes with
    | none => none
    | some plain =>
      let e := encodeTile codec (hubTable s p (codecTable codec)) plain
      let s := if e.fallback then regAdd p 0xC0018 1 s else s
      some (e, if codecMode codec = 0 then s else regAdd p 0xC0028 e.bytes.length (regAdd p 0xC0020 16384 s))

/-! ### Content -/

/-- The plain bytes of an object, its tiles in order; none when a tile has no readable copy. -/
def objPlain (s : State) (key : Nat) : Option (List Byte) :=
  match objOf s key with
  | none => none
  | some o => ((List.range o.ntiles).mapM (fun i => tilePlain s key i)).map List.flatten

/-- Release a tile's upper copy (R139): CLEAN becomes LOWER. A far slot is freed; a near slot is only reserved by its
batch slot or placement. -/
def releaseUpper (key i : Nat) (s : State) : State :=
  let t := tileOf s key i
  let s := snapKeep key i s
  let s := if t.upTier = 2 then { s with far := mdel s.far t.upAddr } else s
  let s := if t.tail then { s with tails := mdel s.tails (cowKey key i) } else s
  onTile key i (fun t => { t with
    upTier := 0, upAddr := 0, tail := false, landed := false, begun := false, out := none,
    state := if t.state = .clean then .lower else t.state }) s

/-- Free a tile's lower copy, if it has one. -/
def releaseLower (key i : Nat) (s : State) : State :=
  let t := tileOf s key i
  if t.loTier = 0 then s
  else
    let s := if t.state = .lower ∨ t.state = .arriving then snapKeep key i s else s
    let s := spotFree (key / 2 ^ 64) t.lower s
    onTile key i (fun t => { t with loTier := 0, loAddr := 0, loGran := 0, loRegion := 0 }) s

/-- Close an object (R139): every tile becomes ABSENT with every copy freed, and the object is gone. -/
def closeObject (key : Nat) (s : State) : State :=
  match objOf s key with
  | none => s
  | some o =>
    let s := o.tiles.foldl (fun s p => releaseLower key p.1 (snapKeep key p.1 s)) s
    let s := o.tiles.foldl (fun s p => if p.2.upTier = 2 then { s with far := mdel s.far p.2.upAddr }
      else if p.2.tail then { s with tails := mdel s.tails (cowKey key p.1) } else s) s
    { s with objects := mdel s.objects key, jobs := mdel s.jobs key }

/-! ### Map region (R135) -/

/-- Map-region slots the tile maps and resident sessions' state tiles take. -/
def mapUsed (s : State) : Nat :=
  sumNat (s.objects.map (fun o => ceilDiv (32 * o.2.ntiles) 16384)) + (s.sessions.filter (fun x => x.2.mapSlot.isSome)).length

/-- Whether the map region has room for a number of slots more. -/
def mapRoom (s : State) (n : Nat) : Bool :=
  decide (mapUsed s + n ≤ match s.trellis with | none => 0 | some t => t.mapSlots)

/-- A map-region slot for a state tile: one not in use, of the part's choice. -/
def mapPick (s : State) : Option Nat :=
  let n := match s.trellis with | none => 0 | some t => t.mapSlots
  let slot (i : Nat) : Nat := (Config.freeChoice s.free + i) % n
  (firstBelow n (fun i => ! s.sessions.any (fun x => x.2.mapSlot = some (slot i)))).map slot

end Sys2Proof.Machine
end

