-- ==== Sys2Proof/Machine/TextTables.lean ====
section
/-! DEFINITION. Text tables (R204 to R206, R218): the layouts of tokenisers, grammars and allowed lists, and what a load
checks. A table is its bytes. -/

namespace Sys2Proof.Machine

/-! ### Tokenisers (R205) -/

/-- The first byte of section `i` of a tokeniser, in the order PREMAP, DECOMP, CCC, COMP, CLASS, SPLIT, BYTEMAP, MERGES,
STRINGS, SPECIAL. -/
def tkOff (b : List Byte) (i : Nat) : Nat := leField b (16 + 4 * i) 4

/-- Where section `i` ends: where the next begins, or the object ends (DEDUCED, log 40). -/
def tkEnd (b : List Byte) (i : Nat) : Nat := if i = 9 then b.length else tkOff b (i + 1)

/-- Fields of the header. -/
def tkVocab (b : List Byte) : Nat := leField b 4 4
def tkNorm (b : List Byte) : Nat := leField b 11 1
def tkRefuse (b : List Byte) : Bool := leField b 12 1 = 1

/-- The entries, `size` bytes each, of a section that has no count of its own. -/
def tkEntries (b : List Byte) (i size : Nat) : List Nat :=
  (List.range ((tkEnd b i - tkOff b i) / size)).map (fun j => tkOff b i + size * j)

/-- The bytes of pool of DECOMP that its first `n` entries reach. -/
def decompReach (b : List Byte) (n : Nat) : Nat :=
  (List.range n).foldl (fun m j =>
    let o := tkOff b 1 + 12 * j
    max m (leField b (o + 8) 4 + 4 * leField b (o + 5) 1)) 0

/-- The number of DECOMP entries: entries and the pool they reach fill the section (DEDUCED, log 40). -/
def decompCount (b : List Byte) : Option Nat :=
  let len := tkEnd b 1 - tkOff b 1
  firstBelow (len / 12 + 1) (fun n => 12 * n + decompReach b n = len)

/-- The DECOMP entries. -/
def decompEntries (b : List Byte) : List Nat :=
  (List.range ((decompCount b).getD 0)).map (fun j => tkOff b 1 + 12 * j)

/-- The decomposition a code point has, canonical ones alone unless `compat`. -/
def decompOf (b : List Byte) (compat : Bool) (cp : Nat) : Option (List Nat) :=
  ((decompEntries b).find? (fun o => leField b o 4 = cp && (compat || leField b (o + 4) 1 = 0))).map (fun o =>
    let pool := tkOff b 1 + 12 * (decompCount b).getD 0 + leField b (o + 8) 4
    (List.range (leField b (o + 5) 1)).map (fun i => leField b (pool + 4 * i) 4))

/-- The value of a range section for a code point. -/
def rangeOf (b : List Byte) (i cp d : Nat) : Nat :=
  match (tkEntries b i 12).find? (fun o => decide (leField b o 4 ≤ cp) && decide (cp ≤ leField b (o + 4) 4)) with
  | none => d
  | some o => leField b (o + 8) 1

/-- Canonical combining class. -/
def cccOf (b : List Byte) (cp : Nat) : Nat := rangeOf b 2 cp 0

/-- The composite of two code points. -/
def compOf (b : List Byte) (x y : Nat) : Option Nat :=
  ((tkEntries b 3 12).find? (fun o => leField b o 4 = x && leField b (o + 4) 4 = y)).map (fun o => leField b (o + 8) 4)

/-- The premapping of a code point (R207 step 3). -/
def premapOf (b : List Byte) (cp : Nat) : List Nat :=
  match (tkEntries b 0 20).find? (fun o => leField b o 4 = cp) with
  | none => [cp]
  | some o => (List.range (leField b (o + 4) 1)).map (fun i => leField b (o + 8 + 4 * i) 4)

/-- SPLIT[a][b'] (R205, R208). -/
def splitRule (b : List Byte) (x y : Nat) : Nat :=
  let k := 16 * x + y
  leField b (tkOff b 5 + k / 4) 1 / 4 ^ (k % 4) % 4

/-- The MERGES entries, in rank order. -/
def mergeEntries (b : List Byte) : List Nat := (List.range (leField b (tkOff b 7) 4)).map (fun r => tkOff b 7 + 4 + 12 * r)

/-- The byte pool of STRINGS. -/
def tkPool (b : List Byte) : Nat := tkOff b 8 + 8 * tkVocab b

/-- Flags of a token: bit 0 HIDDEN, bit 1 END. -/
def tokFlags (b : List Byte) (t : Nat) : Nat := if t < tkVocab b then leField b (tkOff b 8 + 8 * t + 5) 1 else 0

/-- The bytes a token turns into (R224): none when HIDDEN. -/
def tokBytes (b : List Byte) (t : Nat) : List Byte :=
  if tkVocab b ≤ t ∨ bitOf (tokFlags b t) 0 = true then []
  else byteSlice b (tkPool b + leField b (tkOff b 8 + 8 * t) 4) (leField b (tkOff b 8 + 8 * t + 4) 1)

/-- The SPECIAL entries. -/
def specialEntries (b : List Byte) : List Nat := (List.range (leField b (tkOff b 9) 4)).map (fun j => tkOff b 9 + 4 + 12 * j)

/-- The string of a SPECIAL entry. -/
def specialString (b : List Byte) (o : Nat) : List Byte := byteSlice b (tkPool b + leField b (o + 8) 4) (leField b (o + 4) 1)

/-- Whether numbers rise strictly. -/
def rising : List Nat → Bool
  | [] => true
  | [_] => true
  | x :: y :: zs => decide (x < y) && rising (y :: zs)

/-- Whether ranges (first, last) lie in order and apart. -/
def rangesApart : List (Nat × Nat) → Bool
  | [] => true
  | [r] => decide (r.1 ≤ r.2)
  | r :: q :: rs => decide (r.1 ≤ r.2) && decide (r.2 < q.1) && rangesApart (q :: rs)

/-- Whether a list of numbers has no repeats. -/
def distinctNat (xs : List Nat) : Bool := (dedupNat xs).length = xs.length

/-- The sections of a tokeniser lie in order inside the object, with their counted parts. -/
def tkSectionsOk (b : List Byte) : Bool :=
  decide (64 ≤ tkOff b 0) && ((List.range 10).all (fun i => decide (tkOff b i ≤ tkEnd b i)))
    && decide (tkOff b 5 + 64 ≤ tkEnd b 5) && decide (tkOff b 6 + 1024 ≤ tkEnd b 6)
    && decide (tkOff b 7 + 4 + 12 * leField b (tkOff b 7) 4 ≤ tkEnd b 7) && decide (tkPool b ≤ tkEnd b 8)
    && decide (tkOff b 9 + 4 + 12 * leField b (tkOff b 9) 4 ≤ b.length)

/-- The sorted sections of a tokeniser rise and their ranges lie apart. -/
def tkSorted (b : List Byte) : Bool :=
  let ranges (i : Nat) : List (Nat × Nat) := (tkEntries b i 12).map (fun o => (leField b o 4, leField b (o + 4) 4))
  rising ((tkEntries b 0 20).map (fun o => leField b o 4)) && (decompCount b).isSome
    && rising ((decompEntries b).map (fun o => leField b o 4))
    && rangesApart (ranges 2) && rangesApart (ranges 4)
    && rising ((tkEntries b 3 12).map (fun o => leField b o 4 * 2 ^ 32 + leField b (o + 4) 4))

/-- The token numbers of a tokeniser lie below VOCAB, and no two merges have the same pair. -/
def tkTokens (b : List Byte) : Bool :=
  let v := tkVocab b
  ((List.range 256).all (fun i => decide (leField b (tkOff b 6 + 4 * i) 4 < v)))
    && decide (leField b (tkOff b 7) 4 ≤ 1048575)
    && (mergeEntries b).all (fun o => [0, 4, 8].all (fun i => decide (leField b (o + i) 4 < v)))
    && distinctNat ((mergeEntries b).map (fun o => leField b o 8))
    && (specialEntries b).all (fun o => decide (leField b o 4 < v))

/-- The lengths and values of a tokeniser's entries are in range, and its strings lie inside the object; rule 3 of R208
is reserved. -/
def tkRanges (b : List Byte) : Bool :=
  let v := tkVocab b
  (tkEntries b 0 20).all (fun o => decide (leField b (o + 4) 1 ≤ 3))
    && (decompEntries b).all (fun o => decide (1 ≤ leField b (o + 5) 1) && decide (leField b (o + 5) 1 ≤ 18)
        && decide (leField b (o + 4) 1 ≤ 1))
    && (tkEntries b 4 12).all (fun o => decide (leField b (o + 8) 1 ≤ 14))
    && (List.range 256).all (fun k => decide (splitRule b (k / 16) (k % 16) ≠ 3))
    && (List.range v).all (fun t => decide (leField b (tkOff b 8 + 8 * t + 4) 1 ≤ 128)
        && decide (tkPool b + leField b (tkOff b 8 + 8 * t) 4 + leField b (tkOff b 8 + 8 * t + 4) 1 ≤ b.length))
    && decide (leField b (tkOff b 9) 4 ≤ 1024)
    && (specialEntries b).all (fun o => decide (1 ≤ leField b (o + 4) 1) && decide (leField b (o + 4) 1 ≤ 128)
        && decide (tkPool b + leField b (o + 8) 4 + leField b (o + 4) 1 ≤ b.length))

/-- Whether a tokeniser passes R206. -/
def tokeniserOk (b : List Byte) : Bool :=
  leField b 0 4 = 0x4B545853 && decide (1 ≤ tkVocab b) && decide (tkVocab b ≤ 1048576) && decide (tkNorm b ≤ 4)
    && decide (leField b 12 1 ≤ 1) && leField b 13 3 = 0 && leField b 56 8 = 0
    && tkSectionsOk b && tkSorted b && tkTokens b && tkRanges b

/-! ### Grammars and allowed lists (R218) -/

/-- Fields of a grammar. -/
def grVocab (b : List Byte) : Nat := leField b 4 4
def grStates (b : List Byte) : Nat := leField b 8 4
def grStart (b : List Byte) : Nat := leField b 12 4
def grMasks (b : List Byte) : Nat := leField b 16 4

/-- The first byte of a state record, and its fields. -/
def grState (b : List Byte) (s : Nat) : Nat := leField b 20 4 + 16 * s
def grMaskOf (b : List Byte) (s : Nat) : Nat := leField b (grState b s) 4
def grDefault (b : List Byte) (s : Nat) : Nat := leField b (grState b s + 4) 4

/-- Bytes of a mask over a vocabulary. -/
def maskBytes (vocab : Nat) : Nat := ceilDiv vocab 512 * 64

/-- The transitions of a state, as byte offsets. -/
def grTrans (b : List Byte) (s : Nat) : List Nat :=
  (List.range (leField b (grState b s + 12) 2)).map (fun i => leField b 24 4 + 12 * (leField b (grState b s + 8) 4 + i))

/-- Token, action, next state and return state of a transition. -/
def trTok (b : List Byte) (o : Nat) : Nat := leField b o 4 % 2 ^ 20
def trAct (b : List Byte) (o : Nat) : Nat := bits (leField b o 4) 24 25
def trNext (b : List Byte) (o : Nat) : Nat := leField b (o + 4) 4
def trRet (b : List Byte) (o : Nat) : Nat := leField b (o + 8) 4

/-- Whether a state record of a grammar passes: its mask, DEFAULT and transitions exist, sorted by token. -/
def grStateOk (b : List Byte) (s : Nat) : Bool :=
  let ts := grTrans b s
  decide (grMaskOf b s < grMasks b) && decide (grDefault b s < grStates b) && leField b (grState b s + 14) 2 = 0
    && ts.all (fun o => decide (o + 12 ≤ b.length) && decide (trTok b o < grVocab b) && decide (trAct b o ≤ 2)
      && (trAct b o = 2 || decide (trNext b o < grStates b)) && (trAct b o ≠ 1 || decide (trRet b o < grStates b))
      && leField b o 4 = trTok b o + trAct b o * 2 ^ 24)
    && rising (ts.map (trTok b))

/-- Whether a grammar passes R206 in the format of R218. -/
def grammarOk (b : List Byte) : Bool :=
  leField b 0 4 = 0x4C475853 && decide (1 ≤ grVocab b) && decide (grVocab b ≤ 1048576) && decide (1 ≤ grStates b)
    && decide (grStates b ≤ 16777215) && decide (grStart b < grStates b) && leField b 32 32 = 0
    && decide (64 ≤ leField b 20 4) && decide (leField b 20 4 + 16 * grStates b ≤ leField b 24 4)
    && decide (leField b 24 4 ≤ leField b 28 4)
    && decide (leField b 28 4 + maskBytes (grVocab b) * grMasks b ≤ b.length)
    && (List.range (grStates b)).all (grStateOk b)

/-- Whether an allowed list passes R206 in the format of R218. -/
def allowOk (b : List Byte) : Bool :=
  leField b 0 4 = 0x4C415853 && decide (1 ≤ leField b 4 4) && decide (leField b 4 4 ≤ 1048576)
    && leField b 8 56 = 0 && decide (64 + maskBytes (leField b 4 4) ≤ b.length)

/-- A mask's allow bits as one number, bits at or above VOCAB cleared (R213). -/
def maskAt (b : List Byte) (off vocab : Nat) : Nat := leField b off (maskBytes vocab) % 2 ^ vocab

/-! ### The store (R204) -/

/-- The key of a table of a port. -/
def tableKey (p kind ident : Nat) : Nat := p * 2 ^ 16 + kind * 4096 + ident

/-- A table of a port. -/
def tableOf (s : State) (p kind ident : Nat) : Option TextTable := mget? s.tables (tableKey p kind ident)

/-- Bytes of a port's half of the store in use. -/
def storeUsed (s : State) (p : Nat) : Nat :=
  sumNat ((s.tables.filter (fun t => t.1 / 2 ^ 16 = p)).map (fun t => t.2.bytes.length))

/-- Whether a kind and an identifier name a place in the store; otherwise the entry byte at fault (R342). -/
def tablePlace (kind ident : Nat) : Option Nat :=
  if kind = 0 ∨ 3 < kind then some 32
  else if (if kind = 1 then 16 else 4096) ≤ ident then some 33 else none

/-- The state tile's place for the identifier a session binds of a kind (R231). -/
def bindOff (kind : Nat) : Nat := if kind = 1 then 0x40 else if kind = 2 then 0x42 else 0x44

/-- Set a field of a session's state tile. -/
def Session.set (x : Session) (off n v : Nat) : Session := { x with tile := memWrite x.tile off (natLe n v) }

/-- Set bytes of a session's state tile. -/
def Session.put (x : Session) (off : Nat) (bs : List Byte) : Session := { x with tile := memWrite x.tile off bs }

/-- Whether some session binds a table (R204). -/
def tableBound (s : State) (p kind ident : Nat) : Bool :=
  s.sessions.any (fun x => sessPort x.1 = p && x.2.get (bindOff kind) 2 = ident)

/-- TXT_TABLE_LOAD (R204, R206, R232, R320): a table replaces one of its identifier that no session binds (log 41). -/
def execTxtTableLoad (r : Req) (kind ident : Nat) (object : DWord) (s : State) : Host.Outcome State Fault Refusal :=
  .next (onReq r 0x30 (tablePlace kind ident) (fun id s =>
    let p := fnPort id.fn
    match objOf s (objKey id.ident object.toNat) with
    | none => fail id 0x26 s
    | some o =>
      let old := ((tableOf s p kind ident).map (fun t => t.bytes.length)).getD 0
      if ! kdUsable s id.ident o.kd then fail id 0x86 s
      else if tableBound s p kind ident then fail id 0x42 s
      else if 33554432 < storeUsed s p - old + 16384 * o.ntiles then defer id 0x40 s
      else
        match objPlain s (objKey id.ident object.toNat) with
        | none => complete id 0x24 (some 8) 0 s
        | some b =>
          if (if kind = 1 then tokeniserOk b else if kind = 2 then grammarOk b else allowOk b) then
            done id { s with tables := mput s.tables (tableKey p kind ident) ⟨objKey id.ident object.toNat, o.kd, b⟩ }
          else fail id 0x41 s) s)

/-- TXT_TABLE_UNLOAD (R204, R232). -/
def execTxtTableUnload (r : Req) (kind ident : Nat) (s : State) : Host.Outcome State Fault Refusal :=
  .next (onReq r 0x31 (tablePlace kind ident) (fun id s =>
    let p := fnPort id.fn
    if (tableOf s p kind ident).isNone then fail id 0x43 s
    else if tableBound s p kind ident then fail id 0x42 s
    else done id { s with tables := mdel s.tables (tableKey p kind ident) }) s)

end Sys2Proof.Machine
end

