-- ==== Sys2Proof/Machine/Tokenise.lean ====
section
/-! DEFINITION. Intake engines (R207 to R211): special tokens, UTF-8, premapping, normalisation, pre-splitting and
merging. The tokeniser's tables give all normalisation data (log 42). -/

namespace Sys2Proof.Machine

/-! ### UTF-8 (R207 step 2) -/

/-- For a lead byte: the range of the second byte and the number of bytes after it; none for a byte that leads no
sequence of two or more. -/
def utfLead (b : Nat) : Option (Nat × Nat × Nat) :=
  if 0xC2 ≤ b ∧ b ≤ 0xDF then some (0x80, 0xBF, 0)
  else if b = 0xE0 then some (0xA0, 0xBF, 1)
  else if b = 0xED then some (0x80, 0x9F, 1)
  else if 0xE1 ≤ b ∧ b ≤ 0xEF then some (0x80, 0xBF, 1)
  else if b = 0xF0 then some (0x90, 0xBF, 2)
  else if 0xF1 ≤ b ∧ b ≤ 0xF3 then some (0x80, 0xBF, 2)
  else if b = 0xF4 then some (0x80, 0x8F, 2)
  else none

/-- How many of the next `n` bytes continue a sequence. -/
def utfConts : Nat → List Byte → Nat
  | 0, _ => 0
  | _, [] => 0
  | n + 1, b :: bs => if 0x80 ≤ b.toNat ∧ b.toNat ≤ 0xBF then 1 + utfConts n bs else 0

/-- The code point at the head of a byte list, none when ill-formed, and the bytes it takes: the whole sequence, or its
maximal ill-formed subsequence. -/
def utfHead (b : Byte) (bs : List Byte) : Option Nat × Nat :=
  if b.toNat < 0x80 then (some b.toNat, 1)
  else
    match utfLead b.toNat, bs with
    | some (lo, hi, more), c :: cs =>
      if lo ≤ c.toNat ∧ c.toNat ≤ hi then
        let got := utfConts more cs
        if got < more then (none, 2 + got)
        else
          let lead := if more = 0 then b.toNat - 0xC0 else if more = 1 then b.toNat - 0xE0 else b.toNat - 0xF0
          (some ((c :: cs.take more).foldl (fun a x => a * 64 + x.toNat % 64) lead), 2 + more)
      else (none, 1)
    | _, _ => (none, 1)

/-- The code points of bytes with their offsets; none where ill-formed. The first number bounds the steps. -/
def utfDecode : Nat → Nat → List Byte → List (Option Nat × Nat)
  | 0, _, _ => []
  | _, _, [] => []
  | n + 1, o, b :: bs =>
    let h := utfHead b bs
    (h.1, o) :: utfDecode n (o + h.2) ((b :: bs).drop h.2)

/-- The UTF-8 bytes of a code point. -/
def utfEncode (c : Nat) : List Byte :=
  if c < 0x80 then [BitVec.ofNat 8 c]
  else if c < 0x800 then [BitVec.ofNat 8 (0xC0 + c / 64), BitVec.ofNat 8 (0x80 + c % 64)]
  else if c < 0x10000 then
    [BitVec.ofNat 8 (0xE0 + c / 4096), BitVec.ofNat 8 (0x80 + c / 64 % 64), BitVec.ofNat 8 (0x80 + c % 64)]
  else
    [BitVec.ofNat 8 (0xF0 + c / 262144), BitVec.ofNat 8 (0x80 + c / 4096 % 64), BitVec.ofNat 8 (0x80 + c / 64 % 64),
      BitVec.ofNat 8 (0x80 + c % 64)]

/-! ### Normalisation (R207 step 4) -/

/-- The full decomposition of a code point; the number bounds nested mappings. -/
def fullDecomp (b : List Byte) (compat : Bool) : Nat → Nat → List Nat
  | 0, c => [c]
  | n + 1, c =>
    match decompOf b compat c with
    | none => [c]
    | some cs => (cs.map (fullDecomp b compat n)).flatten

/-- Code points with U+034F inserted after 30 consecutive non-starters, and the insertions (Stream-Safe Text Format).
`run` counts the non-starters so far. -/
def streamSafe (b : List Byte) : Nat → List Nat → List Nat × Nat
  | _, [] => ([], 0)
  | run, c :: cs =>
    let d := fullDecomp b true 16 c
    let lead := (d.takeWhile (fun x => decide (cccOf b x ≠ 0))).length
    let tail := (d.reverse.takeWhile (fun x => decide (cccOf b x ≠ 0))).length
    let cut := decide (30 < run + lead)
    let before := if cut then 0 else run
    let r := streamSafe b (if lead = d.length then before + lead else tail) cs
    if cut then (0x34F :: c :: r.1, r.2 + 1) else (c :: r.1, r.2)

/-- Put a code point in canonical order at the end of a list held in reverse: a non-starter passes those of a higher
class. -/
def orderIn (b : List Byte) (c : Nat) : List Nat → List Nat
  | [] => [c]
  | x :: xs => if cccOf b c ≠ 0 ∧ cccOf b c < cccOf b x then x :: orderIn b c xs else c :: x :: xs

/-- Canonical ordering. -/
def canonOrder (b : List Byte) (cs : List Nat) : List Nat := (cs.foldl (fun a c => orderIn b c a) []).reverse

/-- Canonical composition: the starter so far, the code points after it in reverse, and the class of the last. -/
def composeGo (b : List Byte) : Option Nat → List Nat → Nat → List Nat → List Nat
  | st, after, _, [] => st.toList ++ after.reverse
  | st, after, last, c :: cs =>
    let k := cccOf b c
    let made := if after = [] ∨ last < k then st.bind (fun x => compOf b x c) else none
    match made with
    | some p => composeGo b (some p) after last cs
    | none =>
      if k = 0 then st.toList ++ after.reverse ++ composeGo b (some c) [] 0 cs
      else composeGo b st (c :: after) k cs

/-- Apply NORM_FORM: the code points and the insertions. -/
def normalise (b : List Byte) (cs : List Nat) : List Nat × Nat :=
  let f := tkNorm b
  if f = 0 then (cs, 0)
  else
    let safe := streamSafe b 0 cs
    let d := canonOrder b ((safe.1.map (fullDecomp b (decide (3 ≤ f)) 16)).flatten)
    (if f = 1 ∨ f = 3 then composeGo b none [] 0 d else d, safe.2)

/-! ### Pre-splitting (R208) -/

/-- Split code points into pieces: the piece so far in reverse, then the rest. -/
def splitGo (b : List Byte) : List Nat → List Nat → List (List Nat)
  | cur, [] => if cur = [] then [] else [cur.reverse]
  | [], c :: cs => splitGo b [c] cs
  | x :: xs, c :: cs =>
    let rule := splitRule b (rangeOf b 4 x 15) (rangeOf b 4 c 15)
    if rule = 1 then (x :: xs).reverse :: splitGo b [c] cs
    else if rule = 2 ∧ xs ≠ [] then xs.reverse :: splitGo b [c, x] cs
    else splitGo b (c :: x :: xs) cs

/-- Cut a piece at the last code-point boundary at or before each 1,024th byte: the bytes so far, then the rest. -/
def cutPiece : List Byte → List Nat → List (List Byte)
  | cur, [] => if cur = [] then [] else [cur]
  | cur, c :: cs =>
    let e := utfEncode c
    if 1024 < cur.length + e.length then cur :: cutPiece e cs else cutPiece (cur ++ e) cs

/-! ### Merging (R209) -/

/-- The rank and result of a merge. -/
def mergeRank (b : List Byte) (x y : Nat) : Option (Nat × Nat) :=
  (((mergeEntries b).zip (List.range (mergeEntries b).length)).find? (fun e =>
    leField b e.1 4 = x && leField b (e.1 + 4) 4 = y)).map (fun e => (e.2, leField b (e.1 + 8) 4))

/-- The place, rank and result of the best merge: the lowest rank, leftmost first. -/
def bestMerge (b : List Byte) : Nat → List Nat → Option (Nat × Nat × Nat) → Option (Nat × Nat × Nat)
  | i, x :: y :: ts, best =>
    let here := (mergeRank b x y).map (fun r => (i, r.1, r.2))
    let next := match here, best with
      | some h, some z => if h.2.1 < z.2.1 then some h else some z
      | some h, none => some h
      | none, z => z
    bestMerge b (i + 1) (y :: ts) next
  | _, _, best => best

/-- Merge within one piece; each merge takes one token away. -/
def mergeGo (b : List Byte) : Nat → List Nat → List Nat
  | 0, ts => ts
  | n + 1, ts =>
    match bestMerge b 0 ts none with
    | none => ts
    | some (i, _, r) => mergeGo b n (ts.take i ++ [r] ++ ts.drop (i + 2))

/-- The tokens of a piece's bytes. -/
def pieceTokens (b : List Byte) (bs : List Byte) : List Nat :=
  mergeGo b bs.length (bs.map (fun x => leField b (tkOff b 6 + 4 * x.toNat) 4))

/-! ### An intake request (R207) -/

/-- What intake gives: the tokens, the repairs and insertions, and the offset of text refused under REFUSE. -/
structure Intake where
  toks : List Nat := []
  repairs : Nat := 0
  inserts : Nat := 0
  bad : Option Nat := none
  deriving DecidableEq, Repr

/-- Join the results of two stretches of text. -/
def Intake.join (x y : Intake) : Intake :=
  ⟨x.toks ++ y.toks, x.repairs + y.repairs, x.inserts + y.inserts, if x.bad.isSome then x.bad else y.bad⟩

/-- Steps 2 to 6 on text that begins at an offset of the request. -/
def intakeText (b : List Byte) (off : Nat) (bs : List Byte) : Intake :=
  let us := utfDecode bs.length off bs
  match us.find? (fun u => u.1.isNone), tkRefuse b with
  | some u, true => { bad := some u.2 }
  | _, _ =>
    let cps := us.map (fun u => u.1.getD 0xFFFD)
    let n := normalise b ((cps.map (premapOf b)).flatten)
    let pieces := ((splitGo b [] n.1).map (cutPiece [])).flatten
    { toks := (pieces.map (pieceTokens b)).flatten
      repairs := (us.filter (fun u => u.1.isNone)).length
      inserts := n.2 }

/-- The SPECIAL entry whose string is the longest that begins a byte list. -/
def specialAt (b : List Byte) (bs : List Byte) : Option Nat :=
  ((specialEntries b).filter (fun o => (specialString b o).isPrefixOf bs)).foldl (fun (m : Option Nat) o =>
    match m with
    | none => some o
    | some x => if leField b (x + 4) 1 < leField b (o + 4) 1 then some o else some x) none

/-- Special tokens and the text between them: the text so far in reverse with its offset, the offset reached, the rest. -/
def intakeGo (b : List Byte) : Nat → List Byte → Nat → Nat → List Byte → Intake
  | 0, cur, start, _, _ => intakeText b start cur.reverse
  | _, cur, start, _, [] => intakeText b start cur.reverse
  | n + 1, cur, start, o, x :: xs =>
    match specialAt b (x :: xs) with
    | some e =>
      let k := leField b (e + 4) 1
      (intakeText b start cur.reverse).join (({ toks := [leField b e 4] } : Intake).join
        (intakeGo b n [] (o + k) (o + k) ((x :: xs).drop k)))
    | none => intakeGo b n (x :: cur) start (o + 1) xs

/-- Turn bytes into tokens under a tokeniser (R207). -/
def intake (b : List Byte) (special : Bool) (bs : List Byte) : Intake :=
  if special then intakeGo b bs.length [] 0 0 bs else intakeText b 0 bs

/-- Count a request's intake for a port: bytes, repairs and insertions. -/
def countIntake (p bytes : Nat) (x : Intake) (s : State) : State :=
  regAdd p 0x90028 x.inserts (regAdd p 0x90024 x.repairs (regAdd p 0x90008 bytes s))

/-- TXT_TOKENISE (R207, R210, R232, R233). -/
def execTxtTokenise (r : Req) (tokeniser : Nat) (special : Bool) (_src : DWord) (bytes : Nat) (dst : DWord)
    (capacity : Nat) (mem : Dma) (s : State) : Host.Outcome State Fault Refusal :=
  .next (onReq r 0x32 (if 15 < tokeniser then some 32 else if 16777216 < bytes then some 42 else none) (fun id s =>
    let p := fnPort id.fn
    match tableOf s p 1 tokeniser with
    | none => fail id 0x43 s
    | some t =>
      withMem id mem (fun bs s =>
        let x := intake t.bytes special (byteSlice bs 0 bytes)
        let s := countIntake p bytes x s
        match x.bad with
        | some o => complete id 0x44 none o s
        | none =>
          if capacity < x.toks.length then fail id 0x4A s
          else withOut id dst.toNat ((x.toks.map (natLe 4)).flatten) (complete id 0 (some 0) x.toks.length) s) s) s)

/-- TXT_DETOK (R224, R232, R233). -/
def execTxtDetok (r : Req) (tokeniser : Nat) (_src : DWord) (count : Nat) (dst : DWord) (capacity : Nat) (mem : Dma)
    (s : State) : Host.Outcome State Fault Refusal :=
  .next (onReq r 0x34 (if 15 < tokeniser then some 32 else none) (fun id s =>
    let p := fnPort id.fn
    match tableOf s p 1 tokeniser with
    | none => fail id 0x43 s
    | some t =>
      withMem id mem (fun bs s =>
        let out := ((List.range count).map (fun i => tokBytes t.bytes (leField bs (4 * i) 4))).flatten
        if capacity < out.length then fail id 0x4A s
        else withOut id dst.toNat out (complete id 0 (some 0) out.length) s) s) s)

end Sys2Proof.Machine
end

