-- ==== Sys2Proof/Machine/Sampler.lean ====
section
/-! DEFINITION. The sampler, grammars, stop strings and the end of a step (R214 to R231). A session's text state is the
bytes of its state tile. -/

namespace Sys2Proof.Machine

/-! ### The draw (R216, R217) -/

/-- One round of Philox-4×32 as published (PRESUMED, log 43): its multipliers are 0xD2511F53 and 0xCD9E8D57. -/
def philoxRound (k : Nat × Nat) (c : Nat × Nat × Nat × Nat) : Nat × Nat × Nat × Nat :=
  let p0 := 0xD2511F53 * c.1
  let p1 := 0xCD9E8D57 * c.2.2.1
  ((p1 / 2 ^ 32) ^^^ c.2.1 ^^^ k.1, p1 % 2 ^ 32, (p0 / 2 ^ 32) ^^^ c.2.2.2 ^^^ k.2, p0 % 2 ^ 32)

/-- Rounds of Philox, the key raised by 0x9E3779B9 and 0xBB67AE85 after each. -/
def philoxRounds : Nat → Nat × Nat → Nat × Nat × Nat × Nat → Nat × Nat × Nat × Nat
  | 0, _, c => c
  | n + 1, k, c =>
    philoxRounds n ((k.1 + 0x9E3779B9) % 2 ^ 32, (k.2 + 0xBB67AE85) % 2 ^ 32) (philoxRound k c)

/-- u of R217. -/
def drawU (key stream pos : Nat) : FVal :=
  .fin false ((philoxRounds 10 (key % 2 ^ 32, key / 2 ^ 32) (pos % 2 ^ 32, 0, stream, 0)).1 / 256) (-24)

/-- The FP32 number of a field. -/
def f32 (n : Nat) : FVal := fp32Val (BitVec.ofNat 32 n)

/-- Comparisons of R216: false for a NaN. -/
def fpLt (x y : FVal) : Bool := ! x.isNan && ! y.isNan && fpBelow x y
def fpGe (x y : FVal) : Bool := ! x.isNan && ! y.isNan && ! fpBelow x y

/-- Rounded FP32 products and sums. -/
def fMul (x y : FVal) : FVal := fp32Val (fpMul x y).val
def fAdd (x y : FVal) : FVal := fp32Val (fpAdd x y).val

/-- Weights and prefix sums of R216, in ascending order. -/
def prefixSums (inv x0 : FVal) : FVal → List FVal → List (FVal × FVal)
  | _, [] => []
  | s, l :: ls =>
    let w := fp32Val (fpExpSub (fMul l inv) x0).val
    let s' := fAdd s w
    (w, s') :: prefixSums inv x0 s' ls

/-- Sampler controls (R215). -/
structure Controls where
  temperature : Nat
  topP : Nat
  minP : Nat
  topK : Nat
  limit : Nat
  exclude : Bool
  key : Nat
  stream : Nat
  maxNew : Nat
  fallback : Nat
  ends : List Nat
  deriving DecidableEq, Repr

/-- The controls in 64 bytes. -/
def controlsOf (b : List Byte) : Controls :=
  { temperature := leField b 0 4, topP := leField b 4 4, minP := leField b 8 4, topK := leField b 12 1
    limit := leField b 13 1, exclude := bitOf (leField b 14 1) 0, key := leField b 16 8, stream := leField b 24 4
    maxNew := leField b 28 4, fallback := leField b 32 4, ends := (List.range 4).map (fun i => leField b (36 + 4 * i) 4) }

/-- Whether a token field holds a token, or bit 31 for none. -/
def tokFieldOk (n : Nat) : Bool := bits n 20 30 = 0

/-- Whether 64 bytes are controls in range (R215). -/
def controlsOk (b : List Byte) : Bool :=
  let c := controlsOf b
  let t := f32 c.temperature
  (t.isZero || (fpGe t (.fin false 1 (-8)) && fpGe (.fin false 1 16) t))
    && fpLt (.fin false 0 0) (f32 c.topP) && fpGe (.fin false 1 0) (f32 c.topP)
    && fpGe (f32 c.minP) (.fin false 0 0) && fpLt (f32 c.minP) (.fin false 1 0)
    && decide (c.topK ≤ 64) && decide (leField b 14 1 ≤ 1) && leField b 15 1 = 0
    && tokFieldOk c.fallback && c.ends.all tokFieldOk && leField b 52 12 = 0

/-- The token the sampler draws from the used candidates, in descending order (R216). -/
def sampleToken (c : Controls) (pos : Nat) (used : List (Nat × FVal)) : Option Nat :=
  match used with
  | [] => none
  | (t0, l0) :: _ =>
    let inv := fp32Val (fpRcp (f32 c.temperature)).val
    let x0 := fMul l0 inv
    if (f32 c.temperature).isZero ∨ l0 = .inf false ∨ x0 = .inf false then some t0
    else
      let k := min used.length (if c.topK = 0 then 64 else c.topK)
      let wp := prefixSums inv x0 (.fin false 0 0) ((used.take k).map (·.2))
      let total := (wp.getD (k - 1) (.nan, .nan)).2
      let cut := fMul (f32 c.topP) total
      let m1 := match wp.findIdx? (fun x => fpGe x.2 cut) with | none => k | some i => i + 1
      let m := match wp.findIdx? (fun x => fpLt x.1 (f32 c.minP)) with | none => m1 | some i => min m1 i
      let g := fMul (drawU c.key c.stream pos) (wp.getD (m - 1) (.nan, .nan)).2
      let i := ((wp.take m).findIdx? (fun x => fpLt g x.2)).getD (m - 1)
      some (used.getD i (t0, l0)).1

/-- The 64 entries of a candidate record of 512 bytes (R214): token and logit. -/
def candEntries (b : List Byte) : List (Nat × Word) :=
  (List.range 64).map (fun i => (leField b (8 * i + 4) 4 % 2 ^ 20, BitVec.ofNat 32 (leField b (8 * i) 4)))

/-- Whether an entry is used (R214): an unused one carries token 0xFFFFF with logit −∞, and one with a NaN counts as unused. -/
def candUsed (c : Nat × Word) : Bool := ! (c.1 = 0xFFFFF && c.2 = 0xFF800000) && ! (fp32Val c.2).isNan

/-- The used entries of a candidate record (R214); none where no record came. -/
def usedCands (b : List Byte) : List (Nat × FVal) :=
  ((if b = [] then [] else candEntries b).filter candUsed).map (fun c => (c.1, fp32Val c.2))

/-! ### Grammar states (R219, R220) -/

/-- A session's louver stack. -/
def Session.stack (x : Session) : List Nat := (List.range (x.get 0x5D 1)).map (fun i => x.get (0x80 + 4 * i) 4)

/-- A session at a grammar state and stack. -/
def Session.atState (x : Session) (st : Nat) (stack : List Nat) : Session :=
  ((x.set 0x60 4 st).set 0x5D 1 stack.length).put 0x80 ((List.range 64).map (fun i => natLe 4 (stack.getD i 0))).flatten

/-- The tables a session binds. -/
def bound (s : State) (key : Nat) (x : Session) (kind : Nat) : Option (List Byte) :=
  (tableOf s (sessPort key) kind (x.get (bindOff kind) 2)).map (·.bytes)

/-- The mask of a grammar state: its own, with PUSH at a full stack and POP at an empty one cleared (R219). -/
def louverMask (g : List Byte) (st depth vocab : Nat) : Nat :=
  let m := maskAt g (leField g 28 4 + maskBytes (grVocab g) * grMaskOf g st) vocab
  let gone := (grTrans g st).filter (fun o => (trAct g o = 1 && depth = 64) || (trAct g o = 2 && depth = 0))
  gone.foldl (fun m o => if bitOf m (trTok g o) then m - 2 ^ trTok g o else m) m

/-- The allow mask of a session's sampled column over a vocabulary (R213, R219). -/
def sessMask (s : State) (key : Nat) (x : Session) (vocab : Nat) : Nat :=
  let all := 2 ^ vocab - 1
  let m := match bound s key x 2 with | none => all | some g => louverMask g (x.get 0x60 4) (x.get 0x5D 1) vocab
  match bound s key x 3 with | none => m | some a => m &&& maskAt a 64 vocab

/-- The move of a grammar on a token (R220): none where it would overflow or underflow the stack. -/
def louverMove (g : List Byte) (st : Nat) (stack : List Nat) (t : Nat) : Option (Nat × List Nat) :=
  match (grTrans g st).find? (fun o => trTok g o = t) with
  | none => some (grDefault g st, stack)
  | some o =>
    if trAct g o = 0 then some (trNext g o, stack)
    else if trAct g o = 1 then if 64 ≤ stack.length then none else some (trNext g o, stack ++ [trRet g o])
    else if stack = [] then none else some (stack.getLastD 0, stack.dropLast)

/-! ### Stop strings (R225 to R228) -/

/-- A session's stop strings. -/
def Session.stops (x : Session) : List (List Byte) :=
  (List.range (x.get 0x240 1)).map (fun i => memRead x.tile (0x280 + 64 * i) (x.get (0x241 + i) 1))

/-- HELD and RESUME_HELD bytes. -/
def Session.heldBytes (x : Session) : List Byte := memRead x.tile 0x1C0 (x.get 0x180 1)
def Session.resumeBytes (x : Session) : List Byte := memRead x.tile 0x200 (x.get 0x188 1)

/-- Set HELD and RESUME_HELD. -/
def Session.setHeld (x : Session) (bs : List Byte) : Session := (x.set 0x180 1 bs.length).put 0x1C0 (byteSlice bs 0 64)
def Session.setResume (x : Session) (bs : List Byte) : Session := (x.set 0x188 1 bs.length).put 0x200 (byteSlice bs 0 64)

/-- The longest stop string that ends at a place of a byte list. -/
def stopEnding (stops : List (List Byte)) (buf : List Byte) (e : Nat) : Nat :=
  (stops.filter (fun x => decide (x ≠ []) && x.isSuffixOf (buf.take e))).foldl (fun m x => max m x.length) 0

/-- The first match that ends after `h`: earliest end, then longest (R226 step 1). -/
def firstMatch (stops : List (List Byte)) (buf : List Byte) (h : Nat) : Option (Nat × Nat) :=
  (firstFrom (fun e => decide (0 < stopEnding stops buf e)) (buf.length - h) (h + 1)).map (fun e =>
    (e - stopEnding stops buf e, e))

/-- Length of the longest suffix that is a proper prefix of a stop string. -/
def prefixTail (stops : List (List Byte)) (buf : List Byte) : Nat :=
  (List.range 64).foldl (fun m n =>
    if 0 < n ∧ n ≤ buf.length ∧ stops.any (fun x => decide (n < x.length) && x.take n = buf.drop (buf.length - n)) = true
    then n else m) 0

/-- Length of a trailing incomplete UTF-8 sequence of up to 3 bytes. -/
def utfTail (buf : List Byte) : Nat :=
  let starts (n : Nat) : Bool :=
    match buf.drop (buf.length - n) with
    | [] => false
    | b :: bs =>
      match utfLead b.toNat with
      | none => false
      | some (lo, hi, more) =>
        decide (bs.length < more + 1) && (match bs with
          | [] => true
          | c :: cs => decide (lo ≤ c.toNat) && decide (c.toNat ≤ hi) && decide (utfConts more cs = cs.length))
  if 3 ≤ buf.length ∧ starts 3 = true then 3 else if 2 ≤ buf.length ∧ starts 2 = true then 2
    else if 1 ≤ buf.length ∧ starts 1 = true then 1 else 0

/-- A token's bytes under a session's tokeniser, none when none is bound. -/
def sessTokBytes (tk : Option (List Byte)) (t : Nat) : List Byte := (tk.map (fun b => tokBytes b t)).getD []

/-- The bytes an emitted token delivers, and whether they complete a stop string (R226 to R228). What follows SKIP_TO in
the token of a stop stands as held bytes (DEDUCED, log 44). -/
def emitBytes (tk : Option (List Byte)) (t : Nat) (x : Session) : List Byte × Bool × Session :=
  let cut := x.get 0x181 1 = 1
  let old := sessTokBytes tk (x.get 0x184 4)
  let first := x.resumeBytes ++ (if cut then (old.take (x.get 0x183 1)).drop (x.get 0x182 1) else [])
  let held := if cut then old.drop (x.get 0x183 1) else x.heldBytes
  let buf := held ++ sessTokBytes tk t
  let h := held.length
  let x := (x.setResume []).set 0x181 1 0
  match firstMatch x.stops buf h with
  | none =>
    let keep := max (prefixTail x.stops buf) (utfTail buf)
    (first ++ buf.take (buf.length - keep), false, x.setHeld (buf.drop (buf.length - keep)))
  | some (a, e) =>
    let excl := (controlsOf (memRead x.tile 0 64)).exclude
    let cutAt := if excl then a else e
    let off := if excl then a - h else e - h
    (first ++ buf.take cutAt, true,
      ((((x.setHeld []).setResume ((buf.take h).drop cutAt)).set 0x181 1 1).set 0x182 1 off).set 0x183 1 (e - h)
        |>.set 0x184 4 t)

/-- A step that emits no token delivers RESUME_HELD and the stopping token's bytes before SKIP_TO (R228); those from SKIP_TO on
wait for the next token. -/
def deliverCut (tk : Option (List Byte)) (x : Session) : List Byte × Session :=
  let old := sessTokBytes tk (x.get 0x184 4)
  if x.get 0x181 1 = 1 then
    (x.resumeBytes ++ (old.take (x.get 0x183 1)).drop (x.get 0x182 1), (x.setResume []).set 0x182 1 (x.get 0x183 1))
  else (x.resumeBytes, x.setResume [])

/-- Deliver HELD but for an incomplete UTF-8 tail (R226). -/
def flushHeld (x : Session) : List Byte × Session :=
  let b := x.heldBytes
  let n := b.length - utfTail b
  (b.take n, x.setHeld (b.drop n))

/-- The model's output run ends: HELD goes to the head of the next output (R226). -/
def Session.endRun (x : Session) : Session := (x.setResume (x.resumeBytes ++ x.heldBytes)).setHeld []

/-! ### How a step ends (R222, R229, R230) -/

/-- The end of a sampled column's step: the session, status, detail, the token emitted and the bytes delivered. -/
structure StepEnd where
  sess : Session
  status : Nat
  detail : Nat
  token : Option Nat
  bytes : List Byte
  deriving DecidableEq, Repr

/-- Whether a token is an end token (R215). -/
def isEnd (c : Controls) (tk : Option (List Byte)) (t : Nat) : Bool :=
  c.ends.contains t || (match tk with | none => false | some b => bitOf (tokFlags b t) 1)

/-- Emit a token (R226, R229, R230). -/
def emitToken (tk : Option (List Byte)) (detail t : Nat) (fallback : Bool) (x : Session) : StepEnd :=
  let c := controlsOf (memRead x.tile 0 64)
  let new := x.get 0x54 4 + 1
  let x := (x.set 0x4C 4 (2 ^ 31 + t)).set 0x54 4 new
  let (out, stopped, x) := emitBytes tk t x
  let (more, flushed) := flushHeld x
  if isEnd c tk t then ⟨flushed, 2, detail, some t, out ++ more⟩
  else if stopped then ⟨x, 1, detail, some t, out⟩
  else if c.maxNew ≠ 0 ∧ c.maxNew ≤ new then ⟨flushed, 3, detail, some t, out ++ more⟩
  else ⟨x, if fallback then 5 else 0, detail, some t, out⟩

/-- Draw for a session's sampled column from its candidate record and end its step (R216, R219 to R222). -/
def stepEnd (s : State) (key vocab pos : Nat) (cs : List Byte) (x : Session) : StepEnd :=
  let c := controlsOf (memRead x.tile 0 64)
  let tk := bound s key x 1
  let mask := sessMask s key x vocab
  let one := bitOf (x.get 0x46 1) 0
  let y := if one then (x.set 0x44 2 0xFFFF).set 0x46 1 (x.get 0x46 1 - 1) else x
  match (if mask = 0 then none else sampleToken c pos (usedCands cs)) with
  | some t =>
    let y := y.set 0x5C 1 0
    let y := match (bound s key x 2).bind (fun g => louverMove g (x.get 0x60 4) x.stack t) with
      | none => y
      | some m => y.atState m.1 m.2
    emitToken tk 0 t false y
  | none =>
    let detail := if mask = 0 then 0 else 0x49
    if ! bitOf c.fallback 31 && decide (y.get 0x5C 1 < c.limit) then
      emitToken tk detail (c.fallback % 2 ^ 20) true (y.set 0x5C 1 (y.get 0x5C 1 + 1))
    else
      let d := deliverCut tk y
      ⟨d.2.set 0x4C 4 (d.2.get 0x4C 4 % 2 ^ 31), 4, detail, none, d.1⟩

/-- Count a step's end for a port. -/
def countEnd (p : Nat) (fallback : Bool) (e : StepEnd) (s : State) : State :=
  let s := if e.token.isSome then regAdd p 0x90010 1 s else s
  let s := if e.status = 4 then regAdd p 0x90018 1 s else s
  let s := if fallback then regAdd p 0x9001C 1 s else s
  if e.status = 1 then regAdd p 0x90020 1 s else s

/-! ### Columns of a step (R126, R223) -/

/-- The tokens of the prompt ring, oldest first. -/
def Session.prompt (x : Session) (n : Nat) : List Nat :=
  (List.range (min n (x.get 0x5A 2))).map (fun i => x.get (0x1000 + 3 * ((x.get 0x58 2 + i) % 4096)) 3)

/-- Whether a step has input (R222, R223). -/
def Session.hasInput (x : Session) : Bool :=
  bitOf (x.get 0x4C 4) 31 || decide (0 < x.get 0x5A 2) || (bitOf (x.get 0x46 1) 1 && decide (0 < x.length))

/-- The first position, the input tokens and whether the step samples, for a slot of some columns (R126, R223). -/
def Session.columns (x : Session) (width : Nat) : Nat × List Nat × Bool :=
  if bitOf (x.get 0x46 1) 1 && decide (0 < x.length) then (x.length - 1, [x.get 0x50 4], true)
  else
    let head := if bitOf (x.get 0x4C 4) 31 then [x.get 0x4C 4 % 2 ^ 20] else []
    let toks := (head ++ x.prompt width).take width
    (x.length, toks, decide (toks ≠ []) && decide (head.length + x.get 0x5A 2 ≤ width))

/-- The state tile at open (R215, R231): all else is zero. -/
def openTile (sid tokeniser : Nat) : Memory :=
  let t := memWrite [] 0 (natLe 4 0x3F800000 ++ natLe 4 0x3F800000 ++ natLe 8 0 ++ natLe 8 sid ++ natLe 8 0
    ++ natLe 4 (2 ^ 31) ++ (List.replicate 4 (natLe 4 (2 ^ 31))).flatten)
  memWrite t 0x40 (natLe 2 tokeniser ++ natLe 2 0xFFFF ++ natLe 2 0xFFFF)

end Sys2Proof.Machine
end

