-- ==== Sys2Proof/Machine/Gate.lean ====
section
/-! DEFINITION. The order of requests for one session (R27, R158, R232, R265, R350): which fetched requests wait, what
they wait for, and how a queued step gives way. -/

namespace Sys2Proof.Machine

/-- The object that holds a session's state. -/
def sessObj (key : Nat) (x : Session) : Nat := objKey (key / 2 ^ 64) x.object

/-- Change a session. -/
def onSess (key : Nat) (f : Session → Session) (s : State) : State := { s with sessions := madjust s.sessions key f }

/-- Whether a parked session's state tile is still to be written back to its lower tier (R211). -/
def stateOwed (s : State) (key : Nat) (x : Session) : Bool :=
  x.mapSlot.isNone && (objOf s (sessObj key x)).any (fun o => (o.tile (o.ntiles - 1)).owesWrite)

/-- Whether a request for a session is in effect (R27): a request that waits for the directory, the write-back of a text
request's change, or a tier request; a revive whose completion is posted holds only the requests of R158. -/
def sessBlocked (s : State) (key : Nat) (x : Session) (landing : Bool) : Bool :=
  x.busy.isSome || stateOwed s key x || (landing && hcTouches s (sessObj key x)) || (match mget? s.jobs (sessObj key x) with
    | none => false
    | some (.revive _ _ _ posted) => ! posted || landing
    | some _ => true)

/-- Whether an earlier request for the session waits. -/
def sessWaits (s : State) (key : Nat) : Bool := s.held.any (fun h => h.why = .order key || h.why = .boundary key)

/-- Whether a session is active: its run is going (R261). -/
def Session.active (x : Session) : Bool := match x.run with | none => false | some r => r.admitted

/-- Whether a frame of the session's pavilion is running; of a parked session, whether the step that a swap overtook is still to
complete (R274, R275). -/
def inFrame (s : State) (x : Session) : Bool :=
  match x.place with
  | .parked _ _ => x.active
  | _ => s.frames.any (fun f => f.2.pavs.contains x.pav)

/-- A queued step gives way to a later request of the session (R265, R350): it leaves its queue and waits again after
it. -/
def giveWay (key : Nat) (s : State) : State :=
  match mget? s.sessions key with
  | none => s
  | some x =>
    match x.run with
    | none => s
    | some r =>
      if r.admitted || ! s.pavs.any (fun p => p.2.queue.any (fun q => q.sess = key)) then onSess key (fun x => { x with run := some { r with ending := true } }) s
      else
        let s := { s with pavs := s.pavs.map (fun p => (p.1, { p.2 with queue := p.2.queue.filter (fun q => q.sess ≠ key) })) }
        holdReq r.id (.order key) r.cmd (onSess key (fun x => { x with run := none }) s)

/-- A request that names a session: it waits for earlier requests and for the session's run to end (R27, R350). `landing`
makes it wait for fetches too (R158). -/
def orderGateOn (key : Nat) (fresh landing : Bool) (cmd : Instr) (body : ReqId → State → State) (id : ReqId) (s : State) : State :=
  match mget? s.sessions key with
  | none => body id s
  | some x =>
    if fresh && (x.run.isSome || sessBlocked s key x landing || sessWaits s key) then
      giveWay key (holdReq id (.order key) cmd s)
    else body id s

/-- A request of nibble 0x1, TAG_EDIT aside, which names the session of its header. -/
def orderGate (fresh landing : Bool) (cmd : Instr) (body : ReqId → State → State) (id : ReqId) (s : State) : State :=
  orderGateOn (sessKey id.ident id.session) fresh landing cmd body id s

/-- A request that takes effect between frames and leaves a run going (R120, R232, R350). -/
def boundaryGate (fresh : Bool) (cmd : Instr) (body : ReqId → State → State) (id : ReqId) (s : State) : State :=
  let key := sessKey id.ident id.session
  match mget? s.sessions key with
  | none => body id s
  | some x =>
    if fresh && (sessBlocked s key x false || sessWaits s key || inFrame s x) then holdReq id (.boundary key) cmd s
    else body id s

/-- Whether a request for an object must wait: another is in effect for it, a query of it runs (R255), or a change of it has not
committed (R252). -/
def objBusy (s : State) (key : Nat) : Bool :=
  (mget? s.jobs key).isSome || s.queries.any (fun q => q.obj = key && (q.running || q.slot.isSome))
    || (mget? s.indices key).any (fun i => i.pend ≠ [])

/-- A request of nibble 0x5 that names an object: it waits while another is in effect for the object. -/
def objectGate (fresh : Bool) (cmd : Instr) (key : Nat) (body : ReqId → State → State) (id : ReqId) (s : State) : State :=
  if fresh && (objBusy s key || s.held.any (fun h => h.why = .object key)) then holdReq id (.object key) cmd s
  else body id s

/-- Whether a request being carried out is new, and not one released from waiting. -/
def fresh (s : State) : Bool := s.releasing.isNone

/-- Whether a request waits for earlier fetches to land (R158): PARK and MIGRATE. -/
def waitsLanding (i : Instr) : Bool :=
  match i with
  | .park .. => true
  | .migrate .. => true
  | _ => false

/-- Whether a session of a tenant runs in a frame in progress (R278). -/
def tenantRuns (s : State) (key : Nat) : Bool :=
  s.frames.any (fun f => f.2.runs.any (fun r => (mget? s.sessions r.2.sess).any (fun x =>
    r.2.sess / 2 ^ 64 / 64 * 4096 + x.tenant = key)))

/-- Whether a frame of a pavilion's frame group is running. -/
def groupBusy (s : State) (n : Nat) : Bool := s.frames.any (fun f => (mgetD s.pavs n {}).bays.any f.2.bays.contains)

/-- Whether a held request may run: what it waits for is over, and no earlier held request waits for the same. -/
def heldReady (s : State) (h : Held) : Bool :=
  match h.why with
  | .order key =>
    (match mget? s.sessions key with
      | none => true
      | some x => x.run.isNone && ! sessBlocked s key x (waitsLanding h.cmd))
  | .boundary key =>
    (match mget? s.sessions key with
      | none => true
      | some x => ! sessBlocked s key x false && ! inFrame s x)
  | .object key => ! objBusy s key
  | .ring => ! (ringOf s h.id.fn).fetched.any (fun x => decide (x.seq < h.id.seq))
  | .tenant key => ! tenantRuns s key
  | .group n => ! groupBusy s n

/-- Whether two held requests wait on one session, object or ring entry. -/
def HeldFor.same : HeldFor → HeldFor → Bool
  | .order a, .order b => a = b
  | .order a, .boundary b => a = b
  | .boundary a, .order b => a = b
  | .boundary a, .boundary b => a = b
  | .object a, .object b => a = b
  | .tenant a, .tenant b => a = b
  | .group a, .group b => a = b
  | _, _ => false

/-- The first held request that may run, with those before it and after it. -/
def nextHeld (s : State) : List Held → List Held → Option (Held × List Held)
  | _, [] => none
  | before, h :: hs =>
    if heldReady s h && ! before.any (fun b => b.why.same h.why) then some (h, before ++ hs)
    else nextHeld s (before ++ [h]) hs

/-- A request whose CHECK_GEN names another placement generation than the session's (R144). -/
def staleGen (x : Session) (check : Bool) (expect : Nat) : Bool := check && decide (x.gen ≠ expect)

/-- Complete with STALE_PLACEMENT. -/
def stale (id : ReqId) (s : State) : State := complete id 0 (some 0xA) 0 s

end Sys2Proof.Machine
end

