-- ==== Sys2Proof/Machine/Index.lean ====
section
/-! DEFINITION. Reading and writing the bytes of objects, and the layout of recall indexes: header, regions, item records,
and the lines of their sketch and tag blocks (R234 to R239, R243). -/

namespace Sys2Proof.Machine

/-! ### Bytes of an object -/

/-- A tile's plain bytes as its copies stand; zeros where it has none. -/
def tileNow (s : State) (key i : Nat) : List Byte := byteSlice ((tilePlain s key i).getD []) 0 16384

/-- `n` bytes of an object from byte `off` of its tile `i` on. -/
def objRead (s : State) (key i off n : Nat) : List Byte :=
  let first := i + off / 16384
  let tiles := (List.range ((off % 16384 + n + 16383) / 16384)).map (fun k => tileNow s key (first + k))
  byteSlice tiles.flatten (off % 16384) n

/-- The hub writes bytes of a tile's upper copy: in a far slot, or in whole lines of a near slot (R139, R290, R292). -/
def tileWrite (key i off : Nat) (bs : List Byte) (s : State) : State :=
  let t := tileOf s key i
  let plain := splice (tileNow s key i) off bs
  if t.upTier = 1 then
    let a := off / 64
    let n := (off + bs.length + 63) / 64 - a
    writeTile key i
      (nearStore (addrCore t.upAddr) (addrLine t.upAddr + a) (byteSlice plain (64 * a) (64 * n)) s)
  else if t.upTier = 2 then
    let s := cowKeep key i s
    writeTile key i { s with far := mput s.far t.upAddr {
      kd := t.kd, keyId := keyTag s t.kd, inst := kdInst s t.kd, object := key, tile := i, bytes := plain } }
  else s

/-! ### The header of an index (R235) -/

/-- The 128-byte header of a recall index (R235). -/
def indexHeader (s : State) (key : Nat) : List Byte := objRead s key 0 0 128

/-- Fields of a header. -/
def ixGraph (h : List Byte) : Bool := leField h 4 1 = 1
def ixBits (h : List Byte) : Nat := 256 * 2 ^ leField h 5 1
def ixFormat (h : List Byte) : Nat := leField h 6 1
def ixMetric (h : List Byte) : Nat := leField h 7 1
def ixCap (h : List Byte) : Nat := leField h 8 4
def ixDims (h : List Byte) : Nat := leField h 0xC 2
def ixDegree (h : List Byte) : Nat := leField h 0xE 1
def ixPav (h : List Byte) : Nat := leField h 0xF 1
def ixRecTile (h : List Byte) : Nat := leField h 0x28 4
def ixVecTile (h : List Byte) : Nat := leField h 0x2C 4
def ixSkTile (h : List Byte) : Nat := leField h 0x30 4
def ixTagTile (h : List Byte) : Nat := leField h 0x34 4

/-- Bytes of a vector element, of a vector, and of a record: 64 for a scan item, S of R243 for a graph node. -/
def ixWidth (h : List Byte) : Nat := if ixFormat h = 0 then 4 else if ixFormat h = 1 then 2 else 1
def ixVecBytes (h : List Byte) : Nat := ixDims h * ixWidth h
def ixRecBytes (h : List Byte) : Nat :=
  if ixGraph h then (if 64 + ixBits h / 8 + 4 * ixDegree h ≤ 256 then 256 else 512) else 64

/-- Items in a tile of each region (R234). -/
def ixRecPer (h : List Byte) : Nat := 16384 / ixRecBytes h
def ixVecPer (h : List Byte) : Nat := 16384 / ixVecBytes h
def ixSkPer (h : List Byte) : Nat := 16384 / (ixBits h / 8)

/-- Whether an edge names a node below CAPACITY, when it is valid (R243). -/
def edgeOk (h : List Byte) (e : Nat) : Bool := ! bitOf e 23 || decide (e % 2 ^ 23 < ixCap h)

/-- Whether the header of a new index is in range (R235). -/
def indexOk (h : List Byte) : Bool :=
  let deg := ixDegree h
  leField h 0 4 = 0x43525853 && decide (leField h 4 1 ≤ 1) && decide (leField h 5 1 ≤ 2) && decide (ixFormat h ≤ 2)
    && decide (ixMetric h ≤ 1) && ixCap h % 1024 = 0 && decide (1024 ≤ ixCap h) && decide (ixCap h ≤ 8388608)
    && ixDims h % 32 = 0 && decide (32 ≤ ixDims h) && decide (ixDims h ≤ 4096)
    && (if ixGraph h then (deg = 16 || deg = 32 || deg = 48 || deg = 64) && ixPav h = 0xFF
        else deg = 0 && decide (ixPav h < 80))
    && (! ixGraph h || (List.range 4).all (fun i => edgeOk h (leField h (0x10 + 4 * i) 4)))
    && leField h 0x38 72 = 0

/-- Tiles of each region of a new index, in the order records, vectors, sketches, tags. -/
def indexTiles (h : List Byte) : Nat × Nat × Nat × Nat :=
  let c := ixCap h
  (ceilDiv c (ixRecPer h), ceilDiv c (ixVecPer h), if ixGraph h then 0 else ceilDiv c (ixSkPer h),
    if ixGraph h then 0 else ceilDiv c 1024)

/-- The header as RCL_CREATE leaves it: the regions in the order of R234's table, EPOCH 0 (R252). -/
def indexFill (h : List Byte) : List Byte :=
  let n := indexTiles h
  let far := 1 + n.1 + n.2.1
  h.take 0x20 ++ natLe 8 0 ++ natLe 4 1 ++ natLe 4 (1 + n.1) ++ natLe 4 (if ixGraph h then 0 else far)
    ++ natLe 4 (if ixGraph h then 0 else far + n.2.2.1) ++ List.replicate 72 0

/-- Whether a tile of an index has its upper copy in the near tier: a sketch or tag tile (R234). -/
def ixNear (h : List Byte) (i : Nat) : Bool := ! ixGraph h && decide (ixSkTile h ≤ i)

/-! ### Records and vectors -/

/-- The place of an item's record: tile and byte. -/
def recPlace (h : List Byte) (n : Nat) : Nat × Nat := (ixRecTile h + n / ixRecPer h, n % ixRecPer h * ixRecBytes h)

/-- The place of an item's vector. -/
def vecPlace (h : List Byte) (n : Nat) : Nat × Nat := (ixVecTile h + n / ixVecPer h, n % ixVecPer h * ixVecBytes h)

/-- An item's record. -/
def recRead (s : State) (key : Nat) (h : List Byte) (n : Nat) : List Byte :=
  objRead s key (recPlace h n).1 (recPlace h n).2 (ixRecBytes h)

/-- Write bytes of an item's record. -/
def recWrite (key : Nat) (h : List Byte) (n off : Nat) (bs : List Byte) (s : State) : State :=
  tileWrite key (recPlace h n).1 ((recPlace h n).2 + off) bs s

/-- Fields of an item record (R236). -/
def itUser (r : List Byte) : Nat := leField r 0 8
def itIns (r : List Byte) : Nat := leField r 8 8
def itDel (r : List Byte) : Nat := leField r 16 8
def itGen (r : List Byte) : Nat := leField r 24 1
def itFree (r : List Byte) : Bool := bitOf (leField r 25 1) 0
def itTags (r : List Byte) : Nat := leField r 32 16

/-- All ones of an epoch. -/
def noEpoch : Nat := 2 ^ 64 - 1

/-- An empty record (R236). -/
def emptyRec (n : Nat) : List Byte :=
  natLe 8 0 ++ natLe 8 noEpoch ++ natLe 8 noEpoch ++ [0, 1] ++ List.replicate (n - 26) 0

/-- Whether an item is visible at an epoch (R249). -/
def itVisible (r : List Byte) (e : Nat) : Bool := decide (itIns r ≤ e) && decide (e < itDel r)

/-! ### Sketch and tag blocks of a scan index (R238) -/

/-- The recall descriptor of the program of an index's pavilion, when it names the index (R239). -/
def scanDesc (s : State) (key : Nat) (h : List Byte) : Option (Pav × List Byte) :=
  match mget? s.pavs (ixPav h) with
  | none => none
  | some p =>
    match p.prog with
    | none => none
    | some g =>
      if g.recallDesc ≠ [] ∧ objKey (g.object / 2 ^ 64) (leField g.recallDesc 0 8) = key then some (p, g.recallDesc) else none

/-- The core of an item, and its group in the core (R238). -/
def itCore (p : Pav) (h : List Byte) (n : Nat) : Nat × Nat :=
  let per := ixCap h / pavCores p
  (pavCore p (n / per), n % per / 32)

/-- The first line of an item's sketch block, and of its tag block. -/
def skLine (p : Pav) (d h : List Byte) (n : Nat) : Nat := leField d 16 4 + (itCore p h n).2 * (ixBits h / 16)
def tagLine (p : Pav) (d h : List Byte) (n : Nat) : Nat := leField d 20 4 + 8 * (itCore p h n).2

/-- Write bytes of a core's sliver from a line on, whole lines at a time. -/
def sliverPatch (k line off : Nat) (bs : List Byte) (s : State) : State :=
  let a := off / 64
  let n := (off + bs.length + 63) / 64 - a
  nearStore k (line + a) (splice (nearRead s k (line + a) n) (off % 64) bs) s

/-- The near address of a sketch or tag tile: that of its first item's block (R238). -/
def ixNearAddr (p : Pav) (d h : List Byte) (i : Nat) : Nat :=
  if i < ixTagTile h then
    let n := (i - ixSkTile h) * ixSkPer h
    nearAddr (itCore p h n).1 (skLine p d h n)
  else
    let n := (i - ixTagTile h) * 1024
    nearAddr (itCore p h n).1 (tagLine p d h n)

/-- Write an item's sketch and its tags, bit 127 clear, into its blocks. -/
def writeBlocks (p : Pav) (d h : List Byte) (n : Nat) (sketch tags : List Byte) (s : State) : State :=
  let k := (itCore p h n).1
  let s := (List.range (ixBits h / 128)).foldl (fun s c =>
    sliverPatch k (skLine p d h n) (512 * c + n % 32 * 16) (byteSlice sketch (16 * c) 16) s) s
  sliverPatch k (tagLine p d h n) (n % 32 * 16) tags s

/-- Set or clear bit 127 of an item's tag row (R248). -/
def markVisible (p : Pav) (d h : List Byte) (n : Nat) (on : Bool) (s : State) : State :=
  let k := (itCore p h n).1
  let line := tagLine p d h n
  let old := leNat (byteSlice (nearRead s k line 8) (n % 32 * 16 + 15) 1)
  sliverPatch k line (n % 32 * 16 + 15) [BitVec.ofNat 8 (old % 128 + 128 * b2n on)] s

/-! ### Placement (R234) -/

/-- Whether a tile stands in the upper tier of its region: CLEAN or DIRTY there, or ABSENT with its slot reserved, when
nothing of it has been written. -/
def ixTilePlaced (h : List Byte) (i : Nat) (t : Tile) : Bool :=
  (t.state = .clean || t.state = .dirty || t.state = .absent) && t.upTier = (if ixNear h i then 1 else 2)

/-- Whether every region of an index is CLEAN or DIRTY in its upper tier, as a query needs (R234): a tile that nothing has been
written to is neither (DEDUCED, log 105). -/
def indexWhole (s : State) (key : Nat) (h : List Byte) : Bool :=
  match objOf s key with
  | none => false
  | some o => (List.range o.ntiles).all (fun i =>
      ((o.tile i).state = .clean || (o.tile i).state = .dirty) && (o.tile i).upTier = (if ixNear h i then 1 else 2))

/-- Whether every region of an index is in its upper tier. -/
def indexPlaced (s : State) (key : Nat) (h : List Byte) : Bool :=
  match objOf s key with
  | none => false
  | some o => (List.range o.ntiles).all (fun i => ixTilePlaced h i (o.tile i))

/-- The state of an index. -/
def indexAt (s : State) (key : Nat) : IndexState := mgetD s.indices key {}

/-- Change the state of an index. -/
def onIndex (key : Nat) (f : IndexState → IndexState) (s : State) : State :=
  { s with indices := mput s.indices key (f (indexAt s key)) }

/-- Before an index is written back, its header takes the commit epoch (R235). -/
def noteEpoch (key : Nat) (s : State) : State :=
  match objOf s key with
  | none => s
  | some o =>
    let t := o.tile 0
    if o.kind = .index && t.upTier ≠ 0 && leField (indexHeader s key) 0x20 8 ≠ (indexAt s key).epoch then
      tileWrite key 0 0x20 (natLe 8 (indexAt s key).epoch) s
    else s

end Sys2Proof.Machine
end

