-- ==== Sys2Proof/Machine/TextRows.lean ====
section
/-! DEFINITION. Text requests that name a session (R211, R215, R221, R223, R225, R232). -/

namespace Sys2Proof.Machine

/-- The changed state tile of a parked session is to be written back to its lower tier (R211): into its record, or where its form
no longer fits into another. -/
def owePlain (obj i : Nat) (bs : List Byte) (s : State) : State :=
  match objOf s obj with
  | none => s
  | some o =>
    let t := o.tile i
    let c := tileCodec o t t.codec
    let len := ((reform (objPort obj) 0 c bs s).map (fun e => e.1.bytes.length)).getD 16384
    let place := if relTier t.loTier = 2 || decide (len + 32 ≤ 256 * t.loGran) then none
      else spotAlloc (obj / 2 ^ 64) (relTier t.loTier) t.loRegion len s
    let sp := (place.map (·.1)).getD t.lower
    onTile obj i (fun t => { t with
      changed := true, again := true, newTier := sp.tier, newRegion := sp.region, newAddr := sp.addr, newGran := sp.gran, newCodec := c
      out := some (0, bs), sent := false, retried := false, begun := false }) ((place.map (·.2)).getD s)

/-- Set a session whose state tile may have changed: a pending tile's content is kept first, and the tile's state follows
the write (R139, R290, R294). That of a parked session is written back to its lower tier and stays LOWER (R211). -/
def setSessTile (key : Nat) (y : Session) (s : State) : State :=
  match mget? s.sessions key with
  | none => s
  | some x =>
    let obj := sessObj key x
    let last := ((objOf s obj).map (fun o => o.ntiles - 1)).getD 0
    if y.tile = x.tile then onSess key (fun _ => y) s
    else
      let s := onSess key (fun _ => y) (cowKeep obj last s)
      match x.mapSlot with
      | none => if (tileOf s obj last).state = .lower then owePlain obj last (memRead y.tile 0 16384) s
          else onTile obj last Tile.touch s
      | some m => onTile obj last (fun t => { t.written with gen := x.gen, upTier := 2, upAddr := m }) s

/-- A text request (R27, R211, R232): it takes effect between frames, on the state tile wherever it lies. `body` answers
the session as it leaves it, or a refusal. -/
def textReq (r : Req) (op : Nat) (bad : Option Nat) (cmd : Instr)
    (body : ReqId → Nat → Session → State → (Session × State) ⊕ State) (s : State) : State :=
  let new := fresh s
  onReq r op bad (boundaryGate new cmd (fun id s =>
    withSession id (fun key x s =>
      match body id key x s with
      | .inl (y, s) => done id (setSessTile key y s)
      | .inr s => s) s)) s

/-- The plain bytes of a session's input: the buffer, or for a SEALED domain the record it holds (R327). An input that is
no fresh record of its domain is refused; a tag that fails is answered as a failed access (log 45). -/
def sessInput (s : State) (id : ReqId) (x : Session) (bs : List Byte) : (List Byte × Session) ⊕ Nat :=
  if ! kdSealed s x.kd then .inl (bs, x)
  else
    let n := bs.length - 32
    let counter := leField bs (n + 20) 8
    let key := byteSlice (kdOf s x.kd).keys 96 32
    if bs.length < 32 ∨ leField bs (n + 16) 4 ≠ 0xFFFFFFFF then .inr 0x94
    else if counter ≤ x.get 0x190 8 then .inr 0x88
    else
      match Config.gcmOpen key (byteSlice bs (n + 16) 12) (natLe 8 id.session) (bs.take (n + 16)) with
      | none => .inr 0x94
      | some p => .inl (p, x.set 0x190 8 counter)

/-- A session's output bytes as they cross the port: for a SEALED domain one sealed record (R327). -/
def sealOutput (key : Nat) (x : Session) (bytes : List Byte) (s : State) : List Byte × State :=
  if ! kdSealed s x.kd || bytes = [] then (bytes, s)
  else
    let k := kdOf s x.kd
    let nonce := natLe 4 k.inst ++ natLe 8 k.counter
    let ct := byteSlice (Config.gcmSeal (byteSlice k.keys 96 32) nonce (natLe 8 (key % 2 ^ 64)) bytes) 0 (bytes.length + 16)
    (ct ++ nonce ++ natLe 2 x.kd ++ [1, 0], bumpCounter x.kd s)

/-- TXT_APPEND (R207, R210, R211, R226, R230): the tokens go to the prompt ring and end the output run. -/
def execTxtAppend (r : Req) (src : DWord) (bytes : Nat) (special tokens : Bool) (mem : Dma) (s : State) :
    Host.Outcome State Fault Refusal :=
  .next (textReq r 0x33 (if 1048576 < bytes ∨ (tokens = true ∧ bytes % 3 = 1) then some 40 else none) (.txtAppend r src bytes special tokens mem) (fun id key x s =>
    match mem with
    | .fault => .inr (fail id 0x94 s)
    | .data bs =>
      match sessInput s id x (byteSlice bs 0 bytes) with
      | .inr d => .inr (fail id d s)
      | .inl (text, x) =>
       if tokens ∧ text.length % 3 ≠ 0 then .inr (badEntry id 40 s)
       else
        let p := fnPort id.fn
        let tk := bound s key x 1
        let got : Intake :=
          if tokens then { toks := (chunks 3 (text.length / 3) text).map leNat }
          else match tk with | none => {} | some b => intake b special text
        let s := if tokens ∨ tk.isNone then s else countIntake p text.length got s
        if ! tokens && tk.isNone then .inr (fail id 0x43 s)
        else
          match got.bad with
          | some o => .inr (complete id 0x44 none o s)
          | none =>
            let head := x.get 0x58 2
            let count := x.get 0x5A 2
            if 4096 < count + got.toks.length then .inr (defer id 0x45 s)
            else
              let put (a : Session × Nat) (t : Nat) : Session × Nat :=
                (a.1.set (0x1000 + 3 * ((head + a.2) % 4096)) 3 t, a.2 + 1)
              let y := ((got.toks.foldl put (x, count)).1.set 0x5A 2 (count + got.toks.length)).endRun
              .inl (if got.toks = [] then y else y.set 0x54 4 0, s)) s)

/-- TXT_SAMPLER_SET (R215, R230). -/
def execTxtSamplerSet (r : Req) (buf : DWord) (mem : Dma) (s : State) : Host.Outcome State Fault Refusal :=
  .next (textReq r 0x35 none (.txtSamplerSet r buf mem) (fun id _ x s =>
    match mem with
    | .fault => .inr (fail id 0x94 s)
    | .data bs =>
      let b := byteSlice bs 0 64
      if controlsOk b then .inl ((x.put 0 b).set 0x54 4 0, s) else .inr (fail id 0x46 s)) s)

/-- VOCAB of a pavilion's sampling descriptor, 0 when it has none (R212). -/
def pavVocab (s : State) (n : Nat) : Nat :=
  match (mget? s.pavs n).bind (·.prog) with
  | none => 0
  | some g => leField g.sample 0 4

/-- The detail a binding is refused with, none when it stands (R218, R232): a table not loaded, or of another VOCAB than
the pavilion's sampling descriptor (log 46). -/
def bindCheck (s : State) (p kind ident vocab : Nat) : Option Nat :=
  if ident = 0xFFFF then none
  else if 4095 < ident then some 0x43
  else
    match tableOf s p kind ident with
    | none => some 0x43
    | some t => if vocab ≠ 0 ∧ leField t.bytes 4 4 ≠ vocab then some 0x41 else none

/-- TXT_LOUVER_SET (R221, R232): a grammar bound anew, or RESET, stands at START with an empty stack. -/
def execTxtLouverSet (r : Req) (grammar allow : Nat) (oneShot reset keepGrammar keepAllow : Bool) (s : State) :
    Host.Outcome State Fault Refusal :=
  .next (textReq r 0x36 none (.txtLouverSet r grammar allow oneShot reset keepGrammar keepAllow) (fun id key x s =>
    let p := fnPort id.fn
    let vocab := pavVocab s x.pav
    let bad := match (if keepGrammar then none else bindCheck s p 2 grammar vocab) with
      | some d => some d
      | none => if keepAllow then none else bindCheck s p 3 allow vocab
    match bad with
    | some d => .inr (fail id d s)
    | none =>
      let changed := ! keepGrammar && decide (x.get 0x42 2 ≠ grammar)
      let x := if keepGrammar then x else x.set 0x42 2 grammar
      let x := if keepAllow then x
        else (x.set 0x44 2 allow).set 0x46 1 (x.get 0x46 1 / 2 * 2 + b2n oneShot)
      .inl (if reset ∨ changed then x.atState (((bound s key x 2).map grStart).getD 0) [] else x, s)) s)

/-- The stop strings of a buffer, none when it is malformed (R225). -/
def parseStops (b : List Byte) : Option (List (List Byte)) :=
  let n := leField b 0 1
  let lens := (List.range n).map (fun i => leField b (1 + i) 1)
  if 16 < n ∨ b.length < 1 + n + sumNat lens ∨ lens.any (fun l => l = 0 || decide (64 < l)) = true then none
  else some ((List.range n).map (fun i => byteSlice b (1 + n + sumNat (lens.take i)) (lens.getD i 0)))

/-- TXT_STOP_SET (R225, R232, R327): the strings, and EXCLUDE_STOP of the sampler controls. -/
def execTxtStopSet (r : Req) (buf : DWord) (excludeStop : Bool) (mem : Dma) (s : State) :
    Host.Outcome State Fault Refusal :=
  .next (textReq r 0x37 none (.txtStopSet r buf excludeStop mem) (fun id _ x s =>
    match mem with
    | .fault => .inr (fail id 0x94 s)
    | .data bs =>
     match sessInput s id x bs with
     | .inr d => .inr (fail id d s)
     | .inl (text, x) =>
      match parseStops text with
      | none => .inr (fail id 0x4B s)
      | some ss =>
        let lens := (List.range 16).map (fun i => BitVec.ofNat 8 (ss.getD i []).length)
        let strs := ((List.range 16).map (fun i => byteSlice (ss.getD i []) 0 64)).flatten
        .inl (((x.set 0x240 1 ss.length).put 0x241 lens |>.put 0x280 strs).set 0x0E 1 (b2n excludeStop), s)) s)

/-- RESAMPLE (R223): with no position committed there is nothing to run again (log 47). -/
def execResample (r : Req) (s : State) : Host.Outcome State Fault Refusal :=
  .next (textReq r 0x38 none (.resample r) (fun id _ x s =>
    if x.length = 0 then .inr (complete id 0x48 (some 4) 0 s)
    else .inl (x.set 0x46 1 (x.get 0x46 1 ||| 2), s)) s)

/-- INJECT (R220, R223, R226). -/
def execInject (r : Req) (token : Nat) (s : State) : Host.Outcome State Fault Refusal :=
  .next (textReq r 0x38 (if token < 2 ^ 20 then none else some 33) (.inject r token) (fun id key x s =>
    let move := match bound s key x 2 with
      | none => some (x.get 0x60 4, x.stack)
      | some g => louverMove g (x.get 0x60 4) x.stack token
    match move with
    | none => .inr (fail id 0x47 s)
    | some m => .inl (((x.atState m.1 m.2).set 0x4C 4 (2 ^ 31 + token)).endRun, s)) s)

/-- DROP_PENDING (R223): HELD, RESUME_HELD and the bytes of the stopping token before SKIP_TO are discarded. -/
def execDropPending (r : Req) (s : State) : Host.Outcome State Fault Refusal :=
  .next (textReq r 0x38 none (.dropPending r) (fun _ _ x s =>
    .inl (((x.setHeld []).setResume []).set 0x182 1 (x.get 0x183 1), s)) s)

/-- TXT_STATE_READ (R232, R327): bytes 0 to 0x67F of the state tile, for a SEALED domain in a sealed record. -/
def execTxtStateRead (r : Req) (buf : DWord) (s : State) : Host.Outcome State Fault Refusal :=
  .next (textReq r 0x39 none (.txtStateRead r buf) (fun id key x s =>
    let o := sealOutput key x (memRead x.tile 0 0x680) s
    if id.noWrite then .inr (fail id 0x94 s) else .inl (x, dmaWrite (fnPort id.fn) buf.toNat o.1 o.2)) s)

end Sys2Proof.Machine
end

