-- ==== Sys2Proof/Machine/Sched.lean ====
section
/-! DEFINITION. Admission and placement (R129, R148, R156, R257, R263 to R278): queues, priority and share order, victims,
and placing a session in a batch slot. -/

namespace Sys2Proof.Machine

/-- Change a pavilion that exists. -/
def onPav (n : Nat) (f : Pav → Pav) (s : State) : State := { s with pavs := madjust s.pavs n f }

/-- Whether some bay of a pavilion is fenced (R455). -/
def pavFenced (s : State) (p : Pav) : Bool := p.quarters.any (fun q => (bayAt s (q / 4)).fenced)

/-- Whether a function is assigned to a pavilion of its port (R256, R257). -/
def assigned (s : State) (n fn : Nat) : Bool :=
  match mget? s.pavs n with
  | none => false
  | some p => p.port = fnPort fn && bitOf (regGet s p.port (0x51010 + 0x20 * n)) (fn % 64)

/-- PAV_CTRL and PAV_LIMIT of a pavilion. -/
def pavCtrl (s : State) (n : Nat) : Nat := regGet s (pavAt s n).port (0x51000 + 0x20 * n)
def pavLimit (s : State) (n : Nat) : Nat := bits (regGet s (pavAt s n).port (0x51004 + 0x20 * n)) 0 15

/-- Whether a frame runs in which a pavilion takes part. -/
def pavInFrame (s : State) (n : Nat) : Bool := s.frames.any (fun f => f.2.pavs.contains n)

/-- Free batch slots of a kind. -/
def freeSlots (p : Pav) (kind : Nat) : List Nat :=
  (List.range p.nslots).filter (fun i => slotKindOf p.desc i = kind && (mget? p.slots i).isNone)

/-- A tenant's virtual time in a pavilion (R270). -/
def vtime (s : State) (p : Pav) (t : Nat) : Nat := mgetD p.charged t 0 * 65536 / max 1 (tenantOf s p.port t).weight

/-- Resident sessions of a tenant in a pavilion. -/
def residents (s : State) (p : Pav) (t : Nat) : Nat :=
  (p.slots.filter (fun u => (mget? s.sessions u.2.sess).any (fun x => x.tenant = t))).length

/-- Revives in progress into a pavilion. -/
def reviving (s : State) (n : Nat) : Nat :=
  (s.jobs.filter (fun j => (match j.2 with | .revive _ _ _ _ => true | _ => false)
    && (sessOfObj s j.1).any (fun x => x.2.pav = n))).length

/-! ### Victims (R273) -/

/-- What orders victims: not active first, then the greatest level or virtual time, then the latest placed, then the
lower slot. -/
structure VictimRank where
  slot : Nat
  sess : Nat
  idle : Bool
  rank : Nat
  placed : Nat
  deriving DecidableEq, Repr

/-- Whether one victim comes before another. -/
def VictimRank.before (a b : VictimRank) : Bool :=
  if a.idle ≠ b.idle then a.idle
  else if a.rank ≠ b.rank then decide (b.rank < a.rank)
  else if a.placed ≠ b.placed then decide (b.placed < a.placed)
  else decide (a.slot < b.slot)

/-- The sessions the policy may name for a queued request. -/
def victims (s : State) (n : Nat) (q : Queued) (kind : Nat) : List VictimRank :=
  let p := pavAt s n
  let policy := bits (pavCtrl s n) 4 5
  let mine := if p.share then vtime s p q.tenant else q.level
  p.slots.filterMap (fun u =>
    match mget? s.sessions u.2.sess with
    | none => none
    | some x =>
      let obj := sessObj u.2.sess x
      let rank := if p.share then vtime s p x.tenant else u.2.level.getD (tenantOf s p.port x.tenant).level
      let moving := ((objOf s obj).map (fun o => o.tiles.any (fun t =>
        t.2.state = .arriving || t.2.state = .departing))).getD false
      if ! u.2.reserved && slotKindOf p.desc u.1 = kind && decide (bits (pavCtrl s n) 8 15 ≤ u.2.stepsHere)
          && (mget? s.jobs obj).isNone && x.busy.isNone && ! moving && decide (mine < rank)
          && (policy = 2 || (policy = 1 && ! x.active)) then
        some ⟨u.1, u.2.sess, ! x.active, rank, u.2.placedAt⟩
      else none)

/-- The victim the policy names. -/
def victim (s : State) (n : Nat) (q : Queued) (kind : Nat) : Option VictimRank :=
  (victims s n q kind).foldl (fun (b : Option VictimRank) v =>
    match b with
    | none => some v
    | some w => if v.before w then some v else some w) none

/-! ### Eligibility and order (R264 to R271) -/

/-- The slot kind a queued request needs. -/
def Queued.kind (s : State) (q : Queued) : Nat := ((mget? s.sessions q.sess).map (·.slotKind)).getD 0

/-- The first condition a queued request has not met: SLOTS_FULL, TENANT_CAP, REVIVE_CAP (R264). -/
def unmet (s : State) (n : Nat) (q : Queued) : Option Nat :=
  let p := pavAt s n
  let cap := (tenantOf s p.port q.tenant).maxResident
  if freeSlots p (q.kind s) = [] ∧ victim s n q (q.kind s) = none then some 0x62
  else if cap ≠ 0 ∧ cap ≤ residents s p q.tenant then some 0x63
  else if pavLimit s n ≠ 0 ∧ pavLimit s n ≤ reviving s n then some 0x64
  else none

/-- Whether one queued request is selected before another (R266, R270). -/
def Queued.before (s : State) (p : Pav) (a b : Queued) : Bool :=
  if p.share then
    let va := vtime s p a.tenant
    let vb := vtime s p b.tenant
    if va ≠ vb then decide (va < vb)
    else if a.tenant ≠ b.tenant then decide (a.tenant < b.tenant)
    else decide (a.arrival < b.arrival)
  else if a.level ≠ b.level then decide (a.level < b.level)
  else decide (a.arrival < b.arrival)

/-- The eligible request that is selected next, of those a test admits. -/
def selectNext (s : State) (n : Nat) (ok : Queued → Bool) : Option Queued :=
  ((pavAt s n).queue.filter (fun q => ok q && (unmet s n q).isNone)).foldl (fun (b : Option Queued) q =>
    match b with
    | none => some q
    | some w => if q.before s (pavAt s n) w then some q else some w) none

/-- Take a request off its queue. -/
def dequeue (n : Nat) (q : Queued) (s : State) : State := onPav n (fun p => { p with queue := p.queue.filter (· ≠ q) }) s

/-- A queued request ends with ADMISSION_DEFERRED and a detail (R129). -/
def deferQueued (q : Queued) (detail : Nat) (s : State) : State :=
  let s := defer q.id detail s
  onSess q.sess (fun x => if q.revive.isSome then { x with busy := none } else { x with run := none }) s

/-- A placed request's effective level ends with its session's first step (R269). -/
def ownLevel (key : Nat) (s : State) : State :=
  match (mget? s.sessions key).map Session.place with
  | some (.resident n slot) => onPav n (fun p => { p with slots := madjust p.slots slot (fun u => { u with level := none }) }) s
  | _ => s

/-! ### Placement (R135, R148, R156) -/

/-- A session's tile as a placement in a batch slot leaves it: it has the slot's address, and a fetch is ordered for a
LOWER tile. A stream slot's full units stay in their lower tier (R127). -/
def placeTile (p : Pav) (d : List Byte) (lmax len slot last map i : Nat) (t : Tile) : Tile :=
  let a := sessTilePlace p d lmax slot i
  let t := if i = last then { t with upTier := 2, upAddr := map, layer := 0xFFFF }
    else { t with upTier := 1, upAddr := nearAddr a.1 a.2, layer := sessTileLayer d lmax i
                  tail := slotKindOf d slot = 2 && decide (i < kvTiles d lmax) && kvTail d lmax len i }
  if streamed d lmax len slot i then { t with upTier := 0, upAddr := 0 }
  else if t.state = .lower then { t with state := .arriving, landed := false, begun := false, retried := false } else t

/-- Whether a session is parked, and not merely opened. -/
def Session.parked (x : Session) : Bool := match x.place with | .parked t _ => decide (t ≠ 0) | _ => false

/-- Place a session in a batch slot; none when no map-region slot is free for its state tile (R135). A revive advances
the placement generation (R156); the first placement of an opened session is no revive. -/
def placeSess (key n slot : Nat) (level : Option Nat) (rev : Option (ReqId × Bool × Bool)) (s : State) : Option State :=
  match mget? s.sessions key with
  | none => some s
  | some x =>
    let obj := sessObj key x
    let p := pavAt s n
    let map := if x.mapSlot.isSome then x.mapSlot else mapPick s
    match map, objOf s obj with
    | some m, some o =>
      if x.mapSlot.isNone ∧ mapRoom s 1 = false then none
      else
        let gen := if x.parked then (x.gen + 1) % 65536 else x.gen
        let tiles := (List.range o.ntiles).map (fun i =>
          (i, placeTile p p.desc x.lmax x.length slot (o.ntiles - 1) m i (o.tile i)))
        let s := if x.mapSlot.isSome then s else drew s
        let s := { s with objects := mput s.objects obj { o with tiles := tiles } }
        let s := onSess key (fun x => { x with place := .resident n slot, gen := gen, mapSlot := some m, reviveAt := none }) s
        let s := onPav n (fun p => { p with
          slots := mput p.slots slot { sess := key, placedAt := p.placed, level := level }, placed := p.placed + 1 }) s
        let s := dirSetSession key (fun r => { r with
          state := 1, tier := 1, gen := gen, pav := n, slot := slot }) none s
        if tiles.any (fun t => t.2.state = .arriving) then
          let job : Job := match rev with
            | some (id, early, rel) => .revive (some id) early rel false
            | none => .revive none false false true
          some { s with jobs := mput s.jobs obj job }
        else
          match rev with
          | some (id, _, _) => some (done id (onSess key (fun x => { x with busy := none }) s))
          | none => some s
    | _, _ => none

/-- Whether a run has room for a step's output (R349), and its ring for a completion (R345). -/
def runRoom (s : State) (r : Run) : Bool :=
  decide (r.unconsumed + 352 ≤ r.outSize) && decide ((ringOf s r.id.fn).overflow.length < 1024)

/-- Whether the session of a batch slot takes part in frames as active (R261, R349). -/
def slotActive (s : State) (n : Nat) (u : Nat × SlotUse) : Bool :=
  ! u.2.reserved && (mget? s.sessions u.2.sess).any (fun x => x.place = .resident n u.1 &&
    x.run.any (fun r => r.admitted && runRoom s r))

/-- Whether a pavilion is ready (R261): a loaded program, and a session that is active or a query in a query slot. One with a
bay in hatch mode takes part in no frame (R357). -/
def pavReady (s : State) (n : Nat) : Bool :=
  let p := pavAt s n
  p.prog.isSome && p.bays.all (fun b => ! (bayAt s b).hatch)
    && (p.slots.any (slotActive s n) || s.queries.any (fun q => q.slot.any (fun x => x.1 = n)))

/-- The gathering time of pavilions that have become ready starts (R261). -/
def noteReadyAll (s : State) : State :=
  s.pavs.foldl (fun s p =>
    if p.2.readyAt.isNone && pavReady s p.1 && ! pavInFrame s p.1 then onPav p.1 (fun x => { x with readyAt := some s.time, gathered := false }) s
    else s) s

/-- A session of a pavilion became active: the gathering time starts, unless another session was active (R261). -/
def noteReady (n : Nat) (s : State) : State :=
  let more := decide (1 < ((pavAt s n).slots.filter (fun u => (mget? s.sessions u.2.sess).any Session.active)).length)
  onPav n (fun p => if p.readyAt.isNone || ! more then { p with readyAt := some s.time, gathered := false } else p) s

/-- Place a selected request in a slot (R264): a step request makes its session active. -/
def admitQueued (n slot : Nat) (q : Queued) (s : State) : State :=
  match q.revive with
  | some (early, rel) =>
    (placeSess q.sess n slot (some q.level) (some (q.id, early, rel)) s).getD (deferQueued q 0x21 s)
  | none =>
    match placeSess q.sess n slot (some q.level) none s with
    | none => deferQueued q 0x21 s
    | some s =>
      noteReady n (onSess q.sess (fun x => { x with run := x.run.map (fun r => { r with admitted := true }) }) s)

/-- Select one request: place it in a free slot of the part's choice, or name its victim (R129, R264, R273). -/
def selectOne (n : Nat) (q : Queued) (s : State) : State :=
  let s := dequeue n q s
  match choose (freeSlots (pavAt s n) (q.kind s)) s with
  | some slot => admitQueued n slot q (drew s)
  | none =>
    match victim s n q (q.kind s) with
    | none => deferQueued q 0x62 s
    | some v =>
      match mget? s.sessions v.sess with
      | none => s
      | some x => { s with jobs := mput s.jobs (sessObj v.sess x) (.swap q false) }

/-- Fill free slots from a pavilion's queue while no frame of it runs (R261 step 3). -/
def fillSlots (n : Nat) : Nat → State → State
  | 0, s => s
  | k + 1, s =>
    let p := pavAt s n
    if pavInFrame s n || p.prog.isNone || pavFenced s p then s
    else
      match selectNext s n (fun _ => true) with
      | none => s
      | some q => fillSlots n k (selectOne n q s)

/-- Fill free slots of a pavilion. -/
def fillPav (n : Nat) (s : State) : State := fillSlots n (pavAt s n).queue.length s

/-- Raise a tenant that comes to a share-mode pavilion after a time with neither queued requests nor resident sessions
(R271). -/
def bankTenant (n t : Nat) (s : State) : State :=
  let p := pavAt s n
  let others := dedupNat (p.queue.map (·.tenant) ++ p.slots.filterMap (fun u => (mget? s.sessions u.2.sess).map (·.tenant)))
  if ! p.share || others.contains t || others = [] then s
  else
    let low := (others.map (vtime s p)).foldl min (vtime s p (others.headD 0))
    let need := ceilDiv (low * (tenantOf s p.port t).weight) 65536
    onPav n (fun p => { p with charged := mput p.charged t (max (mgetD p.charged t 0) need) }) s

/-- R129 at a request's arrival (R264, R265): a request whose conditions hold takes a free slot or has its victim named, in a
frame of the pavilion too; any other ends with ADMISSION_DEFERRED. -/
def noWait (n : Nat) (q : Queued) (detail : Nat) (s : State) : State :=
  if (unmet s n q).isNone && (pavAt s n).prog.isSome && ! pavFenced s (pavAt s n) then selectOne n q s
  else deferQueued q detail (dequeue n q s)

/-- A request enters its pavilion's admission queue (R264 to R268): a full queue applies R129 at once, and a WAIT_LIMIT
of 0 lets it not wait. -/
def enqueue (n key : Nat) (id : ReqId) (revive : Option (Bool × Bool)) (s : State) : State :=
  match mget? s.sessions key with
  | none => s
  | some x =>
    let p := pavAt s n
    let t := tenantOf s p.port x.tenant
    let q : Queued := {
      sess := key, arrival := s.time, level := if x.expedite then 0 else t.level, levelAt := s.time
      expedited := x.expedite, tenant := x.tenant, id := id, revive := revive }
    let s := onSess key (fun x => { x with expedite := false }) (bankTenant n x.tenant s)
    if 1024 ≤ p.queue.length then noWait n q 0x65 s
    else
      let s := fillPav n (onPav n (fun p => { p with queue := p.queue ++ [q] }) s)
      if t.waitLimit = 0 ∧ (pavAt s n).queue.contains q = true then noWait n q ((unmet s n q).getD 0x62) s else s

/-- ADMISSION_WAIT_TIMEOUT (R264, R265): a request's wait reaches its tenant's WAIT_LIMIT. -/
def execAdmissionWaitTimeout (pav : Fin 80) (f : Fn) (session : DWord) (s : State) : Host.Outcome State Fault Refusal :=
  match (pavAt s pav).queue.find? (fun q => q.sess = sessKey f.key session.toNat) with
  | none => .next s
  | some q =>
    let limit := (tenantOf s (pavAt s pav).port q.tenant).waitLimit
    if limit = 0xFFFFFFFF ∨ s.time < q.arrival + 1000 * limit then .next s
    else .next (deferQueued q ((unmet s pav q).getD 0x62) (dequeue pav q s))

/-- A queued request past its level's ceiling, promoted by one level (R267). -/
def Queued.aged (s : State) (p : Pav) (q : Queued) : Queued :=
  let age := regGet s p.port 0x50000
  let ceil := if q.level = 3 then bits age 16 31 else if q.level = 2 then bits age 0 15 else 0
  if ceil ≠ 0 ∧ q.levelAt + 1000000 * ceil < s.time then { q with level := q.level - 1, levelAt := s.time } else q

/-- LEVEL_PROMOTION (R267, R270): every queued request past its level's ceiling rises one level. -/
def execLevelPromotion (s : State) : Host.Outcome State Fault Refusal :=
  let aged (p : Nat × Pav) : Nat × Pav :=
    (p.1, if p.2.share then p.2 else { p.2 with queue := p.2.queue.map (fun q => q.aged s p.2) })
  let s := { s with pavs := s.pavs.map aged }
  .next (s.pavs.foldl (fun s p => fillPav p.1 s) s)

/-- A change of MODE takes effect at a frame boundary (R272). -/
def applyMode (n : Nat) (s : State) : State :=
  let share := bitOf (pavCtrl s n) 0
  let p := pavAt s n
  if share = p.share then s
  else if share then onPav n (fun p => { p with share := true, charged := [] }) s
  else onPav n (fun p => { p with
    share := false, queue := p.queue.map (fun q =>
      { q with level := if q.expedited then 0 else (tenantOf s p.port q.tenant).level, levelAt := s.time }) }) s

/-- The budget a step of some columns reserves (R277): prompt columns at IN_COST, and OUT_COST when it samples. -/
def reserveOf (t : Tenant) (x : Session) (cols : Nat) (samples : Bool) : Nat :=
  let resample := bitOf (x.get 0x46 1) 1
  let prompt := if resample then 0 else cols - b2n (bitOf (x.get 0x4C 4) 31)
  prompt * t.inCost + b2n samples * t.outCost

/-- The first check of R263 a step request fails: its detail and status. -/
def stepCheck (s : State) (id : ReqId) (n : Nat) (needs : Bool) (x : Session) : Option (Nat × Option Nat) :=
  let p := pavAt s n
  let t := tenantOf s p.port x.tenant
  match p.prog with
  | none => some (0x60, none)
  | some g =>
    let c := x.columns (slotWidth p.desc x.slotKind)
    if needs && ! assigned s n id.ident then some (0x61, none)
    else if pavFenced s p then some (0xB0, some 8)
    else if t.stepLimit ≠ 0 ∧ t.stepLimit * 9000 < imgCycles g.image * 4 then some (0x66, some 7)
    else if t.unlimited = false ∧ t.budget < reserveOf t x c.2.1.length (c.2.2 && g.sample ≠ []) then some (0x67, some 6)
    else none

end Sys2Proof.Machine
end

