-- ==== Sys2Proof/Machine/Sessions.lean ====
section
/-! DEFINITION. OPEN, STEP, HALT, REVIVE and TAG_EDIT (R109, R120, R148, R263, R327, R347 to R350). -/

namespace Sys2Proof.Machine

/-! ### Output of a run (R327, R349) -/

/-- Write a step's output at OUT_BASE + (c mod OUT_SIZE), never across the buffer's end (R349): the offset, the count and
the run after it. Nothing is written to a buffer that cannot be written (R334). -/
def writeOut (key : Nat) (x : Session) (r : Run) (bytes : List Byte) (s : State) : Nat × Nat × Run × State :=
  let o := sealOutput key x bytes s
  let n := o.1.length
  let c := if r.outSize < r.written % r.outSize + n then (r.written / r.outSize + 1) * r.outSize else r.written
  if r.id.noWrite ∧ n ≠ 0 then (c % r.outSize, 0, r, o.2)
  else (c % r.outSize, n, { r with written := c + n, unconsumed := r.unconsumed + n },
    dmaWrite (fnPort r.id.fn) (r.outBase + c % r.outSize) o.1 o.2)

/-- Post a step completion of a run (R343, R349); the last one ends the run. A step whose bytes could not be written carries
DMA_FAULT (R351). -/
def postStep (key : Nat) (x : Session) (r : Run) (status detail : Nat) (token : Option Nat) (bytes : List Byte)
    (charge : Charge) (last : Bool) (s : State) : State :=
  let w := writeOut key x r bytes (ownLevel key s)
  let s := onSess key (fun x => { x with run := if last then none else some w.2.2.1 }) w.2.2.2
  let miss := r.id.noWrite && bytes ≠ []
  postCpl { id := r.id, status := status, detail := if miss then 0x94 else detail, error := miss, more := ! last
            token := match token with | none => 0 | some t => 2 ^ 31 + t
            outOffset := w.1, outBytes := w.2.1, gen := x.gen, sessKey := key, charge := some { charge with steps := 1 } } s

/-! ### OPEN (R348) -/

/-- The first entry byte of an OPEN operand out of range (R342, R347). -/
def openBad (kd pavilion slotKind lmax tokeniser : Nat) : Option Nat :=
  if 4095 < kd then some 40 else if 79 < pavilion then some 42 else if 2 < slotKind then some 43
  else if lmax = 0 ∨ 2097152 < lmax then some 48
  else if 15 < tokeniser ∧ tokeniser ≠ 0xFFFF then some 52 else none

/-- The detail and status OPEN is refused with, before the directory (R348 checks 1 to 6, R455). -/
def openCheck (s : State) (id : ReqId) (object kd n modelSlot ntiles tokeniser : Nat) : Option (Nat × Option Nat) :=
  let p := pavAt s n
  if (objOf s (objKey id.ident object)).isSome then some (0x93, none)
  else if ! kdUsable s id.ident kd then some (0x86, none)
  else if ! assigned s n id.ident then some (0x61, none)
  else if pavFenced s p then some (0xB0, some 8)
  else if (match p.prog with | none => true | some g => decide (g.modelSlot ≠ modelSlot)) then some (0x60, none)
  else if tokeniser ≠ 0xFFFF ∧ (tableOf s (fnPort id.fn) 1 tokeniser).isNone = true then some (0x43, none)
  else if ! mapRoom s (1 + ceilDiv (32 * ntiles) 16384) then some (0x21, some 7)
  else none

/-- OPEN (R26, R135, R181, R185, R231, R348): a session with every tile ABSENT but its state tile, which holds its defaults in a
map-region slot, and a directory entry. -/
def execOpenSession (r : Req) (object : DWord) (kd pavilion slotKind modelSlot lmax tokeniser : Nat) (s : State) :
    Host.Outcome State Fault Refusal :=
  let new := fresh s
  .next (onReq r 0x10 (openBad kd pavilion slotKind lmax tokeniser)
    (orderGate new false (.openSession r object kd pavilion slotKind modelSlot lmax tokeniser) (fun id s =>
      let s := searchNow false (sessDirKey id.ident id.session) (countSearch (fnPort id.fn) s)
      let d := (pavAt s pavilion).desc
      let ntiles := kvTiles d lmax + tagTiles lmax + 1
      let key := sessKey id.ident id.session
      let obj := objKey id.ident object.toNat
      if sessSearch s id = 0x34 then defer id 0x34 s
      else
        match openCheck s id object.toNat kd pavilion modelSlot ntiles tokeniser with
        | some (det, st) => complete id det st 0 s
        | none =>
          match dirAccept s (fnPort id.fn) false (sessDirKey id.ident id.session) (fullCare false) with
          | .inl det => if det = 0x30 then defer id det s else fail id det s
          | .inr row =>
            let ten := fnTenant s id.ident
            let rec0 : DirRec := { state := 1, tier := 1, kd := kd, tenant := ten, model := modelSlot, object := object.toNat }
            let e : DirRow := { key := sessDirKey id.ident id.session, care := fullCare false, data := rec0 }
            let x : Session := {
              busy := some id, object := object.toNat, home := pavilion, slotKind := slotKind, lmax := lmax
              modelSlot := modelSlot, kd := kd, tenant := ten, tile := openTile id.session tokeniser, mapSlot := mapPick s }
            let state : Tile := { state := .dirty, upTier := 2, upAddr := (mapPick s).getD 0, kd := kd }
            dirWrite { row := row, entry := e, insert := true, id := some id }
              { drew s with sessions := mput s.sessions key x
                            objects := mput s.objects obj { kind := .session, kd := kd, ntiles := ntiles, tiles := [(ntiles - 1, state)] } })) s)

/-! ### STEP (R263, R349, R350) -/

/-- A session's effective length limit (R109). -/
def lengthLimit (p : Pav) (x : Session) : Nat := min x.lmax (slotCap p.desc x.slotKind)

/-- A step request past its search and CHECK_GEN: the checks of R263, input (R222), the length limit (R109); then the
session is active, or waits for a slot. -/
def startRun (id : ReqId) (key : Nat) (x : Session) (run : Run) (s : State) : State :=
  let n := x.pav
  let needs := match x.place with | .parked _ _ => true | _ => false
  match stepCheck s id n needs x with
  | some (det, st) => complete id det st 0 s
  | none =>
    if ! x.hasInput then complete id 0x48 (some 4) 0 (regAdd (fnPort id.fn) 0x90018 1 s)
    else if lengthLimit (pavAt s n) x ≤ (x.columns 1).1 then
      let f := flushHeld x
      let s := setSessTile key f.2 s
      postStep key f.2 run 3 0 none f.1 { port := fnPort id.fn, tenant := x.tenant } true s
    else if needs then enqueue n key id none (onSess key (fun x => { x with run := some run }) s)
    else noteReady n (onSess key (fun x => { x with run := some { run with admitted := true } }) s)

/-- Whether a size is one STEP allows: a power of two from 4,096 to 2^30. -/
def outSizeOk (n : Nat) : Bool := isPow2 n && decide (4096 ≤ n) && decide (n ≤ 2 ^ 30)

/-- STEP (R28, R144, R263, R349, R350): with a run going it completes with RUN_ACTIVE. -/
def execStepSession (r : Req) (checkGen : Bool) (expectGen : Nat) (outBase : DWord) (outSize : Nat) (s : State) :
    Host.Outcome State Fault Refusal :=
  let new := fresh s
  let cmd := Instr.stepSession r checkGen expectGen outBase outSize
  .next (onReq r 0x11 (if outSizeOk outSize then none else some 48) (fun id s =>
    let run : Run := { id := id, outBase := outBase.toNat, outSize := outSize, cmd := cmd }
    if (sessOf s id).any (fun x => x.run.isSome) then withSession id (fun _ _ s => fail id 0x95 s) s
    else
      orderGate new false cmd (fun id s =>
        withSession id (fun key x s =>
          if staleGen x checkGen expectGen then stale id s else startRun id key x run s) s) id s) s)

/-- HALT (R350): it completes once the session's run has ended. -/
def execHaltSession (r : Req) (s : State) : Host.Outcome State Fault Refusal :=
  let new := fresh s
  .next (onReq r 0x16 none (orderGate new false (.haltSession r) (fun id s =>
    withSession id (fun _ _ s => done id s) s)) s)

/-- REVIVE (R148, R156, R257, R260): a session that holds a slot is revived already; a parked one waits for a slot in its
home pavilion's queue (R129, R264). -/
def execRevive (r : Req) (early releaseLower checkGen : Bool) (expectGen : Nat) (s : State) :
    Host.Outcome State Fault Refusal :=
  let new := fresh s
  .next (onReq r 0x14 none (orderGate new false (.revive r early releaseLower checkGen expectGen) (fun id s =>
    withSession id (fun key x s =>
      let p := pavAt s x.home
      if staleGen x checkGen expectGen then stale id s
      else
        match x.place with
        | .parked _ _ =>
          if p.prog.isNone then fail id 0x60 s
          else if ! assigned s x.home id.ident then fail id 0x61 s
          else if pavFenced s p then complete id 0xB0 (some 8) 0 s
          else enqueue x.home key id (some (early, releaseLower)) (onSess key (fun x => { x with busy := some id }) s)
        | _ => done id s) s)) s)

/-! ### TAG_EDIT (R120) -/

/-- Change the tags of positions `a` to `b − 1` in every group's holder (R120, R121): their tag tiles are copied first for a
pending snapshot, but for a commit beyond its cut (`keep`), and count as written (R139, R290 to R292). -/
def writeTags (keep : Bool) (key : Nat) (x : Session) (a b : Nat) (f : Nat → Nat) (s : State) : State :=
  let obj := sessObj key x
  let k := match objOf s obj with | none => 0 | some o => o.ntiles - 1 - tagTiles x.lmax
  let ms := if a < b then (List.range ((b - 1) / 8192 + 1 - a / 8192)).map (fun i => k + a / 8192 + i) else []
  let s := if keep then ms.foldl (fun s i => cowKeep obj i s) s else s
  let s := match (tagHomes s key x).head? with
    | none => s
    | some (p, slot) => (List.range (b - a)).foldl (fun s j => tagChange p slot (a + j) f s) s
  ms.foldl (fun s i => writeTile obj i s) s

/-- A TAG_EDIT: the entry byte at fault, then the edit between frames. Actions 3 and 4 ignore FIRST and COUNT. -/
def tagEdit (r : Req) (range : Option (Nat × Nat)) (segment : Nat) (cmd : Instr) (body : ReqId → Nat → Session → State → State)
    (s : State) : State :=
  let new := fresh s
  let bad := if range.any (fun x => decide (2 ^ 21 ≤ x.1)) then some 32
    else if range.any (fun x => decide (x.2 = 0 ∨ 2097152 < x.2)) then some 36
    else if 2 ^ 15 ≤ segment then some 41 else none
  onReq r 0x1C bad (boundaryGate new cmd (fun id s => withSession id (body id) s)) s

/-- Change the tags of a range of a resident session's positions; one that is not resident completes with NOT_READY. -/
def editTags (first count : Nat) (f : Nat → Nat) (id : ReqId) (key : Nat) (x : Session) (s : State) : State :=
  match x.place with
  | .resident _ _ =>
    let stop := min (first + count) x.length
    done id (writeTags true key x first stop f s)
  | _ => complete id 0 (some 0xB) 0 s

/-- TAG_EDIT action 0: clear V. -/
def execTagClearV (r : Req) (first count segment : Nat) (s : State) : Host.Outcome State Fault Refusal :=
  .next (tagEdit r (some (first, count)) segment (.tagClearV r first count segment) (editTags first count (fun t => t % 2 ^ 15)) s)

/-- TAG_EDIT action 1: set V. -/
def execTagSetV (r : Req) (first count segment : Nat) (s : State) : Host.Outcome State Fault Refusal :=
  .next (tagEdit r (some (first, count)) segment (.tagSetV r first count segment)
    (editTags first count (fun t => t % 2 ^ 15 + 2 ^ 15)) s)

/-- TAG_EDIT action 2: set the segment. -/
def execTagSetSegment (r : Req) (first count segment : Nat) (s : State) : Host.Outcome State Fault Refusal :=
  .next (tagEdit r (some (first, count)) segment (.tagSetSegment r first count segment)
    (editTags first count (fun t => t / 2 ^ 15 * 2 ^ 15 + segment)) s)

/-- TAG_EDIT action 3: set MASK_MODE in the state tile. -/
def execSetMaskMode (r : Req) (first count segment : Nat) (s : State) : Host.Outcome State Fault Refusal :=
  .next (tagEdit r none segment (.setMaskMode r first count segment) (fun id key x s =>
    done id (setSessTile key (x.set 0x47 1 (segment % 4)) s)) s)

/-- TAG_EDIT action 4: set the current segment in the state tile. -/
def execSetCurrentSegment (r : Req) (first count segment : Nat) (s : State) : Host.Outcome State Fault Refusal :=
  .next (tagEdit r none segment (.setCurrentSegment r first count segment) (fun id key x s =>
    done id (setSessTile key (x.set 0x64 2 segment) s)) s)

end Sys2Proof.Machine
end

