-- ==== Sys2Proof/Machine/Loads.lean ====
section
/-! DEFINITION. Loading and unloading step programs (R66, R74 to R76, R105, R212, R239, R259, R260, R455), and the
pavilion requests of tenants (R268, R276 to R278, R282, R283). -/

namespace Sys2Proof.Machine

/-! ### Bytes of an object -/

/-- Whether a tile is CLEAN in a near slot of some quarters. -/
def Tile.cleanIn (t : Tile) (quarters : List Nat) : Bool :=
  t.state = .clean && t.upTier = 1 && quarters.contains (coreQuarter (addrCore t.upAddr))

/-- Whether tiles `first` to `first + n − 1` of an object are CLEAN in the near tier of a pavilion. -/
def cleanNear (s : State) (key first n : Nat) (p : Pav) : Bool :=
  (List.range n).all (fun i => (tileOf s key (first + i)).cleanIn p.quarters)

/-! ### Frame groups (R66) -/

/-- Bays joined to some bays by pavilions that share them, directly or through a chain. -/
def joinBays (s : State) : Nat → List Nat → List Nat
  | 0, bs => bs
  | n + 1, bs =>
    let more := dedupNat (bs ++ ((s.pavs.filter (fun p => p.2.bays.any bs.contains)).map (fun p => p.2.bays)).flatten)
    if more.length = bs.length then bs else joinBays s n more

/-- The bays of the frame group of a bay. -/
def groupBays (s : State) (b : Nat) : List Nat := joinBays s 20 [b]

/-- The pavilions of a frame group. -/
def groupPavs (s : State) (bays : List Nat) : List Nat :=
  (s.pavs.filter (fun p => p.2.bays.any bays.contains)).map (·.1)

/-! ### Load checks -/

/-- An entry of a load: the pavilion, the model slot, the image's object and bytes, the descriptors (empty when absent),
and the rotary table to fill. -/
structure LoadItem where
  pav : Nat
  modelSlot : Nat
  object : Nat
  image : List Byte
  decode : List Byte := []
  sample : List Byte := []
  recallDesc : List Byte := []
  rope : Option (Nat × List Byte) := none
  deriving DecidableEq, Repr

/-- The cores of an item's pavilion, as its image names them. -/
def LoadItem.cores (x : LoadItem) : Nat := 128 * (imgQuarters x.image).length

/-- A decode descriptor against R104 and R105. -/
def decodeOk (x : LoadItem) : Bool :=
  let d := x.decode
  let slots := imgSlots x.image
  let rotary := dPosEnc d = 1
  let stream := decide (dStream d ≠ 0)
  let divides (h : Nat) : Bool := decide (1 ≤ h) && x.cores % h = 0
  d = [] || (decide (dKvFormat d ≤ 3) && decide (dPosEnc d ≤ 2) && decide (dRopePairs d ≤ 1) && decide (dRopeTable d ≤ 15)
    && decide (1 ≤ dLayers d) && decide (dLayers d ≤ 1024) && decide (1 ≤ dGroups d) && decide (dGroups d ≤ 64)
    && decide (1 ≤ dHeads d) && decide (dHeads d ≤ 64)
    && (if dWide d = 0 then dWidth d = 0 else decide (2 ≤ dWidth d) && decide (dWidth d ≤ 256))
    && (if rotary then dRopeDims d % 2 = 0 && decide (2 ≤ dRopeDims d) && decide (dRopeDims d ≤ 128) else dRopeDims d = 0)
    && dHidden d % 32 = 0 && decide (32 ≤ dHidden d) && decide (dHidden d ≤ 16384)
    && decide (1 ≤ dRun d) && (! stream || decide (1 ≤ dSRun d)) && dSlotIn d % 64 = 0 && leField d 0x36 2 = 0
    && decide (dWide d + dStream d ≤ slots) && decide (dWide d * dWidth d + (slots - dWide d) ≤ 4096)
    && divides (dHolders d) && (! stream || divides (dSHolders d))
    && decide (dHolders d * dRun d * unitPos d ≤ 2097152)
    && (! stream || decide (dSHolders d * dSRun d * unitPos d ≤ 2097152))
    && dKvBase d % 4 = 0 && dSBase d % 4 = 0 && dAuxBase d % 4 = 0)

/-- A sampling descriptor against R212. -/
def sampleOk (s : State) (x : LoadItem) : Bool :=
  let d := x.sample
  let vocab := leField d 0 4
  let blocks := leField d 4 2
  d = [] || (decide (1 ≤ vocab) && decide (vocab ≤ 1048576) && decide (1 ≤ blocks) && blocks % 16 = 0
    && leField d 6 2 = 0 && leField d 8 4 % 4 = 0 && leField d 12 4 = 0
    && decide (ceilDiv (ceilDiv vocab 32) blocks ≤ x.cores)
    && (match mget? (pavAt s x.pav).models x.modelSlot with | none => true | some m => m.outRows = vocab))

/-- A recall descriptor against R239. -/
def recallOk (s : State) (x : LoadItem) : Bool :=
  let d := x.recallDesc
  let cap := leField d 8 4
  let h := indexHeader s (objKey (x.object / 2 ^ 64) (leField d 0 8))
  d = [] || (leField d 13 3 = 0 && leField d 28 4 = 0 && leField d 16 4 % 4 = 0 && leField d 20 4 % 4 = 0
    && leField d 24 4 % 4 = 0 && leField h 0 4 = 0x43525853 && cap = leField h 8 4 && leField d 12 1 = leField h 5 1
    && decide (x.cores ≠ 0) && cap % x.cores = 0 && cap / x.cores % 32 = 0 && leField h 15 1 = x.pav)

/-- The power limits of the profile in force. -/
def powerLimits (s : State) : PowerLimits :=
  match s.trellis with
  | none => ⟨1024, 0, 0, 0⟩
  | some t => ⟨t.actWindow, t.actLimit, t.macLimit, jointBudget t.envelope t.actWindow⟩

/-- The image a pavilion outside the load runs, or is about to run. -/
def Pav.image (p : Pav) : Option (List Byte) := (p.next.or p.prog).map (·.image)

/-- Whether two pavilions are of one frame group: they share a bay, directly or through a chain of shared bays (R66). -/
def sameGroup (s : State) (n m : Nat) : Bool := (pavAt s m).bays.any (joinBays s 20 (pavAt s n).bays).contains

/-- Whether the images of two pavilions may stand together: in one frame group they have equal FRAME_CYCLES, and in a bay
they share the same slot records and transom windows (R66). -/
def imagesFit (s : State) (n m : Nat) (x y : List Byte) : Bool :=
  (! sameGroup s n m || imgCycles x = imgCycles y) && framesMatch x y

/-- Whether an item's image fits the frame groups of the load's other images and of partner images in force (R66). -/
def matchOk (s : State) (xs : List LoadItem) (x : LoadItem) : Bool :=
  xs.all (fun y => y.pav = x.pav || imagesFit s x.pav y.pav x.image y.image)
    && s.pavs.all (fun p => xs.any (fun y => y.pav = p.1) || (match p.2.image with
      | none => true
      | some b => imagesFit s x.pav p.1 x.image b))

/-- Whether every occupied slot keeps its kind and holds its session's length (R259). -/
def slotsKept (s : State) (x : LoadItem) : Bool :=
  let p := pavAt s x.pav
  p.slots.all (fun u => decide (u.1 < imgSlots x.image) && slotKindOf x.decode u.1 = slotKindOf p.desc u.1
    && (match mget? s.sessions u.2.sess with
      | none => true
      | some y => decide (y.length ≤ slotCap x.decode (slotKindOf x.decode u.1))))

/-- Whether a pavilion belongs to a port and has exactly the image's quarters (R259). -/
def ownedBy (s : State) (port : Nat) (x : LoadItem) : Bool :=
  match mget? s.pavs x.pav with
  | none => false
  | some p => p.port = port && imgQuarters x.image = (List.range 80).filter p.quarters.contains

/-- The checks of a load in their order, each with the code it refuses with (R75, R105, R212, R239, R259, R455). -/
def loadChecks (s : State) (port : Nat) (xs : List LoadItem) : List (Nat × (LoadItem → Bool)) :=
  let classes := match s.trellis with | none => 0 | some t => t.thermal
  let least := match s.trellis with | none => 1024 | some t => t.transomMin
  [(0x01, fun x => headerOk x.image), (0x02, fun x => sectionsOk x.image), (0x03, fun x => bundlesOk x.image),
   (0x04, fun x => panesOk x.image), (0x05, fun x => linksOk x.image), (0x06, fun x => insideOk x.image),
   (0x07, fun x => slotsOk classes x.image), (0x08, fun x => windowsOk least x.image),
   (0x09, fun x => powerOk (powerLimits s) x.image), (0x0A, matchOk s xs), (0x0B, fun x => latchesOk x.image),
   (0x0C, fun x => tagsOk x.image), (0x0D, fun x => decodeOk x && sampleOk s x && recallOk s x),
   (0x0B, fun x => layersOk (dLayers x.decode) x.image), (0x0E, slotsKept s), (0x0F, ownedBy s port),
   (0xB0, fun x => ! pavFenced s (pavAt s x.pav))]

/-- The first check a load fails: its code, and the lowest entry that fails it (R75). -/
def loadRefused (s : State) (port : Nat) (xs : List LoadItem) : Option (Nat × Nat) :=
  (loadChecks s port xs).findSome? (fun c => (xs.findIdx? (fun x => ! c.2 x)).map (fun i => (c.1, i)))

/-! ### Taking effect at a frame boundary (R74, R260) -/

/-- Post a load's or an unload's completion once no pavilion waits for it. -/
def loadDone (id : ReqId) (s : State) : State :=
  if s.pavs.any (fun p => p.2.nextId = some id || p.2.unload = some id) then s else done id s

/-- Every queued request of a pavilion without a program ends with NO_PROGRAM (R260). -/
def flushQueue (n : Nat) (s : State) : State :=
  let qs := (pavAt s n).queue
  qs.foldl (fun s q => onSess q.sess (fun x => if q.revive.isSome then { x with busy := none } else { x with run := none })
    (fail q.id 0x60 s)) (onPav n (fun p => { p with queue := [] }) s)

/-- The banks of a pavilion's quarters change over (R74). -/
def flipBanks (p : Pav) : NMap Nat := p.quarters.foldl (fun m q => mput m q (1 - mgetD m q 0)) p.banks

/-- A load or an unload that waits takes effect for a pavilion. -/
def applyPav (n : Nat) (s : State) : State :=
  let p := pavAt s n
  match p.next, p.unload with
  | some g, _ =>
    let s := match g.rope with | none => s | some r => { s with ropes := mput s.ropes r.1 r.2 }
    let s := onPav n (fun p => { p with
      prog := some g, next := none, nextId := none, banks := flipBanks p, inputs := [], masks := [] }) s
    match p.nextId with | none => s | some id => loadDone id s
  | none, some id =>
    loadDone id (flushQueue n (onPav n (fun p => { p with prog := none, unload := none, readyAt := none }) s))
  | none, none => s

/-- A pavilion's load or unload takes effect at once when no frame of its group runs. -/
def applyIdle (n : Nat) (s : State) : State := if groupBusy s n then s else applyPav n s

/-- Put an accepted image in a pavilion's inactive bank (R74). An earlier load or unload that has not taken effect gives
way and completes. -/
def stageItem (id : ReqId) (x : LoadItem) (s : State) : State :=
  let p := pavAt s x.pav
  let g : Prog := { object := x.object, modelSlot := x.modelSlot, image := imgOwn x.image, decode := x.decode,
                    sample := x.sample, recallDesc := x.recallDesc, rope := x.rope }
  let s := onPav x.pav (fun p => { p with next := some g, nextId := some id, unload := none }) s
  let s := match p.nextId with | some old => if old = id then s else loadDone old s | none => s
  match p.unload with | some old => loadDone old s | none => s

/-- Accept or refuse a load (R74, R75). -/
def loadAll (id : ReqId) (xs : List LoadItem) (s : State) : State :=
  match loadRefused s (fnPort id.fn) xs with
  | some (0xB0, i) => complete id 0xB0 (some 8) i s
  | some (c, i) => complete id c none i s
  | none => (xs.map (·.pav)).foldl (fun s n => applyIdle n s) (xs.foldl (fun s x => stageItem id x s) s)

/-! ### PAV_LOAD, PAV_UNLOAD -/

/-- The 256-byte load entry `i` of a buffer. -/
def loadEntry (b : List Byte) (i : Nat) : List Byte := byteSlice b (256 * i) 256

/-- Whether a load entry is well formed (R259). -/
def entryOk (e : List Byte) : Bool :=
  decide (leField e 0 1 < 80) && decide (leField e 1 1 < 16) && decide (leField e 3 1 < 16) && leField e 20 12 = 0
    && leField e 144 112 = 0

/-- Whether a load's entries are well formed and name different pavilions. -/
def entriesOk (es : List (List Byte)) : Bool := es.all entryOk && noRepeat (es.map (fun e => leField e 0 1))

/-- The item of a load entry. An image whose tiles are not all CLEAN in the pavilion's near tier is not readable: it
reads as empty, and fails the header check. Of an image for the other port's pavilion, which NOT_OWNER refuses in its turn
(R256, R259), only near tiles are asked for (DEDUCED, log 100). -/
def loadItem (s : State) (fn : Nat) (e : List Byte) : LoadItem :=
  let pav := leField e 0 1
  let key := objKey fn (leField e 4 8)
  let n := match objOf s key with | none => 0 | some o => o.ntiles
  let p := pavAt s pav
  let p := if p.port = fnPort fn then p else { p with quarters := List.range 80 }
  let part (bit off len : Nat) : List Byte := if bitOf (leField e 1 1) bit then byteSlice e off len else []
  { pav := pav, modelSlot := leField e 2 1, object := key
    image := if cleanNear s key 0 n p then objRead s key 0 0 (16384 * n) else []
    decode := part 0 32 64, sample := part 1 96 16, recallDesc := part 2 112 32
    rope := if bitOf (leField e 1 1) 3 then
      some (leField e 3 1, objRead s (objKey fn (leField e 12 8)) 0 0 196608) else none }

/-- PAV_LOAD (R74, R75, R259). -/
def execPavLoad (r : Req) (_buf : DWord) (count : Nat) (mem : Dma) (s : State) : Host.Outcome State Fault Refusal :=
  .next (onReq r 0x80 (if 1 ≤ count ∧ count ≤ 80 then none else some 40) (fun id s =>
    if ! r.fn.isPf then fail id 0x69 s
    else withMem id mem (fun bs s =>
      let es := (List.range count).map (loadEntry bs)
      if ! entriesOk es then badEntry id 32 s
      else loadAll id (es.map (loadItem s id.ident)) s) s) s)

/-- PAV_UNLOAD (R260): it needs the pavilion to hold no resident session. -/
def execPavUnload (r : Req) (pavilion : Nat) (s : State) : Host.Outcome State Fault Refusal :=
  .next (onReq r 0x81 (if pavilion < 80 then none else some 32) (fun id s =>
    if ! r.fn.isPf then fail id 0x69 s
    else
      match mget? s.pavs pavilion with
      | none => fail id 0x61 s
      | some p =>
        if p.port ≠ fnPort id.fn then fail id 0x61 s
        else if p.slots ≠ [] then fail id 0x0E s
        else if p.prog.isNone && p.next.isNone then fail id 0x60 s
        else
          let s := onPav pavilion (fun p => { p with next := none, nextId := none, unload := some id }) s
          let s := match p.nextId with | some old => loadDone old s | none => s
          let s := match p.unload with | some old => if old = id then s else loadDone old s | none => s
          applyIdle pavilion s) s)

/-! ### Tenants -/

/-- Whether a tenant record is in range (R283). -/
def tenantOk (b : List Byte) : Bool :=
  let flags := leField b 3 1
  decide (leField b 0 2 < 4096) && decide (leField b 2 1 ≤ 3) && decide (flags < 16) && decide (flags % 4 ≠ 3)
    && decide (1 ≤ leField b 4 2) && leField b 14 2 = 0 && leField b 18 2 = 0 && leField b 28 36 = 0

/-- A tenant as a record leaves it (R276, R280, R283). -/
def setTenant (b : List Byte) (t : Tenant) : Tenant :=
  let flags := leField b 3 1
  let amount := leField b 8 6
  let budget := if bitOf flags 0 then amount else if bitOf flags 1 then min (t.budget + amount) (2 ^ 48 - 1) else t.budget
  let t := { t with level := leField b 2 1, weight := leField b 4 2, inCost := leField b 6 1, outCost := leField b 7 1
                    unlimited := bitOf flags 2, budget := budget, maxResident := leField b 16 2
                    waitLimit := leField b 20 4, stepLimit := leField b 24 4 }
  if bitOf flags 3 then
    { t with tokensOut := 0, tokensIn := 0, cycles := 0, steps := 0, preempted := 0, deferred := 0 } else t

/-- PAV_TENANT_SET (R278, R283): one that sets or adds to a budget takes effect between frames. -/
def execPavTenantSet (r : Req) (buf : DWord) (mem : Dma) (s : State) : Host.Outcome State Fault Refusal :=
  let new := fresh s
  .next (onReq r 0x82 none (fun id s =>
    if ! r.fn.isPf then fail id 0x69 s
    else withMem id mem (fun bs s =>
      let b := byteSlice bs 0 64
      let key := fnPort id.fn * 4096 + leField b 0 2
      let waits := tenantRuns s key || s.held.any (fun h => h.why = .tenant key)
      if ! tenantOk b then fail id 0x68 s
      else if new && (bitOf (leField b 3 1) 0 || bitOf (leField b 3 1) 1) && waits then
        holdReq id (.tenant key) (.pavTenantSet r buf mem) s
      else done id (onTenant (fnPort id.fn) (leField b 0 2) (setTenant b) s)) s) s)

/-- PAV_FUNC_TENANT (R282, R329): the tenant charged for sessions the function opens from then on; a locked or running interface's
binding does not change. -/
def execPavFuncTenant (r : Req) (function tenant : Nat) (s : State) : Host.Outcome State Fault Refusal :=
  .next (onReq r 0x83 none (fun id s =>
    if ! r.fn.isPf then fail id 0x69 s
    else if 63 < function ∨ 4095 < tenant then fail id 0x68 s
    else
      let fn := fnPort id.fn * 64 + function
      maskChange (fnPort id.fn) (if fnTenant s fn = tenant then 0 else 2 ^ function) 0 (fail id 0x89)
        (fun s => done id { s with fnTenant := mput s.fnTenant fn tenant }) s) s)

/-- PAV_EXPEDITE (R268): the session's queued request goes to level 0 and keeps its arrival time; if none is queued, its
next request does. -/
def execPavExpedite (r : Req) (session : DWord) (s : State) : Host.Outcome State Fault Refusal :=
  .next (onReq r 0x84 none (fun id s =>
    let key := sessKey id.ident session.toNat
    match mget? s.sessions key with
    | none => fail id 0x90 s
    | some x =>
      let n := x.home
      if (pavAt s n).queue.any (fun q => q.sess = key) then
        let up (q : Queued) : Queued := if q.sess = key then { q with level := 0, levelAt := s.time, expedited := true } else q
        done id (fillPav n (onPav n (fun p => { p with queue := p.queue.map up }) s))
      else done id (onSess key (fun x => { x with expedite := true }) s)) s)

end Sys2Proof.Machine
end

