-- ==== Sys2Proof/Machine/CelayLink.lean ====
section
/-! DEFINITION. The Celay link layer (R366 to R376): cells and flits, credits, time gates, token buckets, the queues of
messages to send and the messages received. -/

namespace Sys2Proof.Machine

/-- Add to a counter of a Celay port's block. -/
def clyAdd (p off n : Nat) (s : State) : State := regAdd 0 (0xD0000 + 0x1000 * p + off) n s

/-- Whether a port's link is up. -/
def clyUp (s : State) (p : Nat) : Bool := (clyAt s p).state = 2

/-! ### Cells and messages -/

/-- The 256 bytes of a cell (R369). -/
def Cell.bytes (c : Cell) : List Byte :=
  natLe 1 c.kind ++ natLe 1 (c.tc % 8 + 64 * b2n c.first + 128 * b2n c.last) ++ natLe 2 c.payload.length
    ++ natLe 4 c.dest ++ natLe 4 c.src ++ natLe 2 c.tag ++ natLe 2 c.gen ++ byteSlice c.payload 0 240

/-- The cell in a place of 256 bytes. -/
def cellOf (b : List Byte) : Cell :=
  { kind := leField b 0 1, tc := leField b 1 1 % 8, first := bitOf (leField b 1 1) 6, last := bitOf (leField b 1 1) 7
    dest := leField b 4 4, src := leField b 8 4, tag := leField b 12 2, gen := leField b 14 2
    payload := byteSlice b 16 (min 240 (leField b 2 2)) }

/-- A message of the port's types (R374). -/
def msgListed (kind : Nat) : Bool :=
  (1 ≤ kind && kind ≤ 6) || (8 ≤ kind && kind ≤ 0x0E) || (0x10 ≤ kind && kind ≤ 0x14)

/-- A received message: its first cell's header with the payload of all its cells. -/
def sameMsg (a b : Cell) : Bool := a.kind = b.kind && a.src = b.src && a.tag = b.tag && a.tc = b.tc

/-- The cells of a message, up to its last cell; none while that has not arrived. -/
def wholeMsg (h : Cell) : List Cell → Option (List Cell)
  | [] => none
  | c :: cs => if sameMsg h c then (if c.last then some [c] else (wholeMsg h cs).map (c :: ·)) else wholeMsg h cs

/-- Received cells without a message's, which are the first of their kind, sender, tag and class. -/
def withoutMsg (h : Cell) : Nat → List Cell → List Cell
  | 0, cs => cs
  | _, [] => []
  | n + 1, c :: cs => if sameMsg h c then withoutMsg h n cs else c :: withoutMsg h (n + 1) cs

/-- The oldest complete message of a type that a port has received. -/
def nextMsg (rx : List Cell) (kind : Nat) : Option (Cell × Nat) :=
  ((rx.filter (fun c => c.kind = kind && c.first)).findSome? (fun h => (wholeMsg h rx).map (fun cs =>
    ({ h with last := true, payload := (cs.map (·.payload)).flatten }, cs.length))))

/-- Take a message out of the receive buffer; its cells' credits are owed to the sender (R370). -/
def takeMsg (p kind : Nat) (s : State) : Option (Cell × State) :=
  match nextMsg (clyAt s p).rx kind with
  | none => none
  | some (m, n) =>
    some (m, onCly p (fun x => { x with
      rx := withoutMsg m n x.rx, owed := malter x.owed m.tc 0 (· + n) }) s)

/-! ### Shaping (R372, R373) -/

/-- The charge of a class's cell in bytes. -/
def cellCharge (s : State) (p t : Nat) : Nat := 256 + bits (clyReg s p (0x44 + 8 * t)) 24 31

/-- The tokens of a class now, with 16 fractional bits. -/
def tokensNow (s : State) (p t : Nat) : Nat :=
  let x := clyAt s p
  let burst := max (bits (clyReg s p (0x44 + 8 * t)) 0 23) (cellCharge s p t)
  let gain := bits (clyReg s p (0x40 + 8 * t)) 0 16 * 65536 / 1500
  min (burst * 65536) (mgetD x.tokens t 0 + gain * (s.hclk - x.tokensAt))

/-- Whether a class's bucket covers a cell. -/
def covered (s : State) (p t : Nat) : Bool :=
  bits (clyReg s p (0x40 + 8 * t)) 0 16 = 0 || decide (cellCharge s p t * 65536 ≤ tokensNow s p t)

/-- The gate entries in use: each open mask with its duration in ns. -/
def gateEntries (s : State) (p : Nat) : List (Nat × Nat) :=
  (List.range (bits (clyReg s p 0x20) 16 19 + 1)).map (fun i =>
    let e := clyReg s p (0x80 + 4 * i)
    (e / 2 ^ 24, max 1 (e % 2 ^ 24)))

/-- The entry a place in the gate cycle falls in, with the time left in it. -/
def gateFind : Nat → Nat → List (Nat × Nat) → Nat × Nat
  | i, _, [] => (i, 0)
  | i, pos, e :: es => if pos < e.2 then (i, e.2 - pos) else gateFind (i + 1) (pos - e.2) es

/-- The gate entry of now and the time left in it; none before the first cycle. -/
def gateNow (s : State) (p : Nat) : Option (Nat × Nat) :=
  let base := clyReg s p 0x28
  let es := gateEntries s p
  if s.time < base then none else some (gateFind 0 ((s.time - base) % sumNat (es.map (·.2))) es)

/-- The time until the next entry that clears a class's bit, from entry `i` on; none when no entry does. -/
def closesIn (es : List (Nat × Nat)) (t : Nat) : Nat → Nat → Option Nat
  | 0, _ => none
  | n + 1, i =>
    match es[i % es.length]? with
    | none => none
    | some e => if bitOf e.1 t then (closesIn es t n (i + 1)).map (· + e.2) else some 0

/-- Whether a class's time gate lets a cell start: the entry of now is the one the port has stepped to and is open, and no
closing is nearer than GUARD_NS. -/
def gateOpen (s : State) (p t : Nat) : Bool :=
  let es := gateEntries s p
  let x := clyAt s p
  ! bitOf (clyReg s p 0) 1 || (match gateNow s p with
    | none => true
    | some (i, left) =>
      x.gate = i && bitOf (es.getD i (0, 0)).1 t && (match closesIn es t es.length (i + 1) with
        | none => true
        | some d => decide (bits (clyReg s p 0x20) 0 15 ≤ left + d)))

/-- Whether a class may send a cell (R371). -/
def mayStart (s : State) (p t : Nat) : Bool :=
  mgetD (clyAt s p).queues t [] ≠ [] && decide (0 < mgetD (clyAt s p).credits t 0) && gateOpen s p t && covered s p t

/-- The cell for the next cell place, of the lowest-numbered class that may send one (R371). -/
def nextCell (p : Nat) (s : State) : Option Cell × State :=
  if clyNode s p = 0xFFFFFFFF then (none, s)
  else
    match firstBelow 8 (mayStart s p) with
    | none => (none, s)
    | some t =>
      match mgetD (clyAt s p).queues t [] with
      | [] => (none, s)
      | c :: cs =>
        let left := tokensNow s p t - cellCharge s p t * 65536
        (some c, onCly p (fun x => { x with
          queues := if cs = [] then mdel x.queues t else mput x.queues t cs
          credits := malter x.credits t 0 (· - 1)
          tokens := mput x.tokens t left }) s)

/-- Bring every bucket of a port up to now. -/
def fillBuckets (p : Nat) (s : State) : State :=
  let ts := (List.range 8).map (fun t => (t, tokensNow s p t))
  onCly p (fun x => { x with tokens := ts.filter (fun t => decide (t.2 ≠ 0)), tokensAt := s.hclk }) s

/-- Fill a number of cell places. -/
def fillPlaces (p : Nat) : Nat → State → List (Option Cell) × State
  | 0, s => ([], s)
  | n + 1, s =>
    let r := nextCell p s
    let q := fillPlaces p n r.2
    (r.1 :: q.1, q.2)

/-! ### Flits (R366 to R368) -/

/-- The bytes of a flit before its parity: header and cell places (R366, R367). -/
def flitBytes (seq ack : Nat) (nak swap : Bool) (credit : Option (Nat × Nat)) (places : List (Option Cell)) : List Byte :=
  let valid := sumNat (places.zipIdx.map (fun c => if c.1.isSome then 2 ^ c.2 else 0))
  let head := natLe 2 seq ++ natLe 2 (ack + 32768 * b2n nak)
    ++ natLe 1 (match credit with | none => 0 | some c => 128 + c.1) ++ natLe 1 (b2n swap)
    ++ natLe 2 (match credit with | none => 0 | some c => c.2) ++ natLe 1 valid ++ natLe 3 0
  let body := (places.map (fun c => match c with | none => List.replicate 256 0 | some c => c.bytes)).flatten
  head ++ natLe 4 (crc32c (head ++ body)) ++ body

/-- FLIT_TRANSMIT (R366 to R373, R389): a flit to be replayed goes first; otherwise a new one with the cells its places take,
the acknowledgement of what was received, and a credit return. At most 512 flits await acknowledgement. The flit that carries
LANE_SWAP goes before a replay, and every unacknowledged flit after it. -/
def execFlitTransmit (cport : Fin 4) (s : State) : Host.Outcome State Fault Refusal :=
  let x := clyAt s cport
  if x.state ≠ 2 then .next s
  else
    match (if x.swap && decide (x.replay.length < 512) then [] else x.resend) with
    | _ :: fs => .next (clyAdd cport 0x108 1 (onCly cport (fun x => { x with resend := fs }) s))
    | [] =>
      if 512 ≤ x.replay.length then .next s
      else
        let r := fillPlaces cport 4 (fillBuckets cport s)
        let y := clyAt r.2 cport
        let credit := (y.owed.find? (fun c => decide (0 < c.2))).map (fun c => (c.1, min c.2 4096))
        let b := flitBytes y.txSeq y.rxSeq y.nak y.swap credit r.1
        let s := clyAdd cport 0x110 (r.1.filter (·.isSome)).length r.2
        .next (onCly cport (fun z => { z with
          replay := z.replay ++ [⟨y.txSeq, b⟩], txSeq := (y.txSeq + 1) % 4096, nak := false, swap := false
          resend := if y.swap then z.replay ++ [⟨y.txSeq, b⟩] else z.resend
          owed := match credit with | none => z.owed | some c => malter z.owed c.1 0 (· - c.2) }) s)

/-- GATE_ENTRY_ADVANCE (R373): the entry of now applies. -/
def execGateEntryAdvance (cport : Fin 4) (s : State) : Host.Outcome State Fault Refusal :=
  if ! bitOf (clyReg s cport 0) 1 then .next s
  else
    match gateNow s cport with
    | none => .next s
    | some (i, _) => .next (onCly cport (fun x => { x with gate := i }) s)

/-- Flits still to be acknowledged after an ACK of `seq` (R368). -/
def ackFlits (seq : Nat) (fs : List Flit) : List Flit :=
  if fs.any (fun f => f.seq = seq) then (fs.dropWhile (fun f => decide (f.seq ≠ seq))).drop 1 else fs

/-- Whether a received flit is good (R368): its codewords correct, its CRC matches, and SEQ is the next. -/
def flitGood (x : CelayPort) (b : List Byte) : Bool :=
  leField b 12 4 = crc32c (b.take 12 ++ (b.drop 16).take 1024) && leField b 0 2 = (x.rxSeq + 1) % 4096

/-- Take one cell place of an accepted flit (R369, R374); a port without an identifier is no cell's destination (R376). -/
def takeCell (p : Nat) (c : Cell) (s : State) : State :=
  let s := clyAdd p 0x118 1 s
  if msgListed c.kind && c.dest = clyNode s p && c.dest ≠ 0xFFFFFFFF then onCly p (fun x => { x with rx := x.rx ++ [c] }) s
  else clyAdd p 0x120 1 (onCly p (fun x => { x with owed := malter x.owed c.tc 0 (· + 1) }) s)

/-- An accepted flit: its acknowledgement, NAK, credits and cells. A NAK that comes before any flit has been sent again
tells of no failed replay. -/
def takeFlit (p : Nat) (b : List Byte) (s : State) : State :=
  let x := clyAt s p
  let kept := ackFlits (leField b 2 2 % 4096) x.replay
  let nak := bitOf (leField b 2 2) 15
  let credit := leField b 4 1
  let s := onCly p (fun x => { x with
    rxSeq := leField b 0 2, replay := kept
    resend := if nak then kept else x.resend
    fails := if ! nak then 0 else if kept.length ≠ x.replay.length then 1
      else if x.fails ≠ 0 ∧ x.resend = kept then x.fails else x.fails + 1
    credits := if bitOf credit 7 then malter x.credits (credit % 8) 0 (· + leField b 6 2) else x.credits }) s
  ((List.range 4).filter (fun i => bitOf (leField b 8 1) i)).foldl (fun s i =>
    takeCell p (cellOf ((b.drop (16 + 256 * i)).take 256)) s) s

end Sys2Proof.Machine
end

