-- ==== Sys2Proof/Machine/Transfer.lean ====
section
/-! DEFINITION. Moving tiles (R133 to R151, R168 to R173, R325, R326, R387): fetches, write-backs, their failure, and the
commands the shutter engines carry out. -/

namespace Sys2Proof.Machine

/-! ### Sources and forms -/

/-- Whether a shutter engine is in service: not the spare, not out of service (R20, R457). -/
def engineOk (s : State) (e : Nat) : Bool := decide (e ≠ s.spares.shutter) && ! s.spares.out.contains (3, e)

/-- The form a tile's current copy stands in: a CODEC byte with its bytes (R137, R172). A resident session's tag and state
tiles are plain. -/
def tileForm (s : State) (key i : Nat) : Option (Nat × List Byte) :=
  match objOf s key with
  | none => none
  | some o =>
    let t := o.tile i
    let part := (sessOfObj s key).bind (fun x => sessPart o x.2 i)
    if part.isSome && t.state ≠ .lower && t.state ≠ .arriving then (tilePlain s key i).map (fun b => (0, b))
    else if t.upTier ≠ 0 && t.tail then (tilePlain s key i).map (fun b => (0, b))
    else if t.upTier = 1 then if slotDamaged s t then none else some (formAt s (addrCore t.upAddr) (addrLine t.upAddr), slotBytes s t)
    else
      let x := if t.upTier = 2 then mget? s.far t.upAddr else spotRead s (key / 2 ^ 64) t.lower
      x.bind (fun x => if x.intact && x.keyId = keyTag s x.kd then some (x.codec, x.bytes) else none)

/-- The CODEC byte and length a tile's copy would be stored with. -/
def storedLen (s : State) (key i codec : Nat) : Nat :=
  let c := match objOf s key with | none => codec | some o => tileCodec o (o.tile i) codec
  match tileForm s key i with
  | none => 16384
  | some (f, b) => ((reform (objPort key) f c b s).map (fun e => e.1.bytes.length)).getD 16384

/-! ### Orders -/

/-- Order the fetch of a LOWER tile into an upper place (R139). -/
def orderFetch (key i upTier upAddr : Nat) (s : State) : State :=
  onTile key i (fun t => { t with
    state := .arriving, upTier := upTier, upAddr := upAddr, landed := false, begun := false, retried := false }) s

/-- Queue a tile's departure read on its bay's bond interface (R83, R142): 82 bond cycles. -/
def queueDepart (key i : Nat) (s : State) : State :=
  let k := addrCore (tileOf s key i).upAddr
  onBay (coreBay k) (fun b => { b with bond := b.bond ++ [⟨k, 82, false, .depart key i⟩] }) s

/-- Order the write of a tile to a lower place (R139, R146): its place is taken now; none when there is no room. -/
def orderWrite (key tier region codec i : Nat) (s : State) : Option State :=
  match objOf s key with
  | none => none
  | some o =>
    let c := tileCodec o (o.tile i) codec
    match spotAlloc (key / 2 ^ 64) tier region (storedLen s key i codec) s with
    | none => none
    | some (sp, s) =>
      let s := onTile key i (fun t => { t with
        state := if t.state = .dirty then .departing else t.state, newTier := tier, newRegion := region, newAddr := sp.addr
        newGran := sp.gran, newCodec := c, out := none, sent := false, retried := false, begun := false }) s
      some (if (o.tile i).upTier = 1 then queueDepart key i s else s)

/-- Order the writes of several tiles; none, and nothing done, when one has no room. -/
def orderWrites (key tier region codec : Nat) : List Nat → State → Option State
  | [], s => some s
  | i :: is, s =>
    match orderWrite key tier region codec i s with
    | none => none
    | some t => orderWrites key tier region codec is t

/-- Order the writes that park an object, each tile in the form its entry names (R497). -/
def orderOwn (key tier region : Nat) : List Nat → State → Option State
  | [], s => some s
  | i :: is, s =>
    match orderWrite key tier region (tileOf s key i).codec i s with
    | none => none
    | some t => orderOwn key tier region is t

/-- The detail of a request whose writes have no room (R145). -/
def noRoom (tier : Nat) : Nat := if tier = 2 then 0x21 else 0x20

/-! ### Failure (R140) -/

/-- The engine that took a tile's last command. -/
def engineOf (s : State) (key i : Nat) : Nat :=
  ((s.engines.find? (fun e => e.2.object = key % 2 ^ 64 && e.2.tile = i)).map (·.1)).getD 0

/-- The TILE_INTEGRITY record of a tile (R442). -/
def tileErr (s : State) (key i cause : Nat) : ErrRec :=
  let t := tileOf s key i
  { source := srcId 3 (engineOf s key i), cls := 2, code := 7, port := objPort key, func := key / 2 ^ 64 % 64
    ref := key % 2 ^ 64, tile := i, gen := t.gen, kd := t.kd, detail := cause }

/-- A transfer of a tile fails (R140): it is retried once, counted in TIR_RETRY_COUNT; the second failure makes the tile
FAILED and raises TILE_INTEGRITY. -/
def failTransfer (key i cause : Nat) (s : State) : State :=
  let t := tileOf s key i
  if ! t.retried then
    let s := regAdd (objPort key) 0xB0018 1 s
    let s := onTile key i (fun t => { t with
      retried := true, sent := false, begun := if t.state = .arriving then false else t.begun }) s
    if t.owesWrite && t.upTier = 1 && t.out.isNone then queueDepart key i s else s
  else
    let s := raiseErr (tileErr s key i cause) s
    let s := if t.owesWrite then spotFree (key / 2 ^ 64) t.target s else s
    onTile key i (fun t => { t with state := .failed, newTier := 0, out := none, sent := false, begun := false }) s

/-! ### Arrivals -/

/-- Lay a session's tag or state tile (R135): tags are scattered to every group's holders, and the state is kept with the
session (log 32). -/
def layPart (key : Nat) (part : Option Nat) (bs : List Byte) (s : State) : State :=
  match part with
  | none => onSess key (fun x => { x with tile := memWrite [] 0 bs }) s
  | some m =>
    match (mget? s.sessions key).bind (fun x => ((tagHomes s key x).head?).map (fun h => (x, h))) with
    | none => s
    | some (x, p, slot) => tagScatter p slot x.lmax m bs s

/-- Lay a plain tile into a near slot (R141, R172, R447): the slot's dirty bit and form clear. -/
def layNear (k line : Nat) (bs : List Byte) (s : State) : State :=
  clearDirty k line (setForm k 0 [line] (undamage k line 256 (nearPoke k line bs s)))

/-- Lay a tile's bytes at its upper place; it has landed. -/
def landTile (key i : Nat) (bs : List Byte) (s : State) : State :=
  match objOf s key with
  | none => s
  | some o =>
    let t := o.tile i
    let s := match (sessOfObj s key).bind (fun x => (sessPart o x.2 i).map (fun p => (x.1, p))) with
      | some (sk, p) => layPart sk p bs s
      | none =>
        if t.tail then { s with tails := mput s.tails (cowKey key i) bs }
        else if t.upTier = 1 then layNear (addrCore t.upAddr) (addrLine t.upAddr) bs s
        else { s with far := mput s.far t.upAddr { kd := t.kd, keyId := keyTag s t.kd, inst := kdInst s t.kd, object := key, tile := i, bytes := bs } }
    onTile key i (fun t => { t with landed := true, gen := objGen s key }) s

/-- A fetched tile's plain bytes reach the hub: one for a near slot goes into the transom queue in class T2, one for a far
slot is laid at once (R80, R135). -/
def fetchOut (key i : Nat) (bs : List Byte) (s : State) : State :=
  let t := tileOf s key i
  if t.upTier = 1 then
    onBay (coreBay (addrCore t.upAddr)) (fun b => { b with transom := b.transom ++ [⟨2, true, 32, .arrive key i (objGen s key) bs⟩] }) s
  else landTile key i bs s

/-- An arriving tile reaches its slot (R157): applied only under the generation it was fetched under, while the tile is
ARRIVING, else dropped and counted in TIR_STALE_COUNT. -/
def arriveTile (key i gen : Nat) (bs : List Byte) (s : State) : State :=
  let t := tileOf s key i
  if gen = objGen s key && t.state = .arriving && t.begun && ! t.landed then landTile key i bs s
  else regAdd (objPort key) 0xB0010 1 s

/-! ### Pool transactions (R387) -/

/-! ### Shutter commands (R150) -/

/-- The address of a place as a shutter command writes it. -/
def Spot.code (sp : Spot) (p : Nat) : Nat := absTier p sp.tier

/-- Whether a tile is a session's tag tile (R135). -/
def isTag (s : State) (key i : Nat) : Bool :=
  match objOf s key, sessOfObj s key with
  | some o, some (_, x) => (sessPart o x i).any Option.isSome
  | _, _ => false

/-- Whether no tile of an object but one satisfies a test: that one's command is the last of its request (R150). -/
def lastTile (s : State) (key i : Nat) (owed : Tile → Bool) : Bool :=
  match objOf s key with
  | none => true
  | some o => o.tiles.all (fun t => t.1 = i || ! owed t.2)

/-- Record the last command an engine took (R150): `last` says that it is the last of its request. -/
def noteEngine (e op src dst codec srcAddr dstAddr key i gran : Nat) (last : Bool) (s : State) : State :=
  let t := tileOf s key i
  { s with engines := mput s.engines e {
      op := op, srcTier := src, dstTier := dst, codec := codec, gen := objGen s key, kd := t.kd, srcAddr := srcAddr
      dstAddr := dstAddr, tile := i, granules := gran, flags := b2n last + 2 * b2n (isTag s key i), object := key % 2 ^ 64 } }

/-- The 48 bytes of a shutter command, as the debug window of TIR_ shows an engine's last (R150). -/
def ShutterCmd.bytes (c : ShutterCmd) : List Byte :=
  natLe 1 c.op ++ natLe 1 c.srcTier ++ natLe 1 c.dstTier ++ natLe 1 c.codec ++ natLe 2 c.gen ++ natLe 2 (c.kd % 4096)
    ++ natLe 8 c.srcAddr ++ natLe 8 c.dstAddr ++ natLe 4 c.tile ++ natLe 2 c.granules ++ natLe 2 c.flags ++ natLe 8 c.object
    ++ List.replicate 8 0

/-- A refusal of a form by a shutter engine is counted in CMP_DECODE_FAIL (R169). -/
def countRefusal (key : Nat) (s : State) : State := regAdd (objPort key) 0xC0010 1 s
/-- The layer by which fetches are ordered: tag and state tiles go with layer 0 (R148). -/
def Tile.order (t : Tile) : Nat := if t.layer = 0xFFFF then 0 else t.layer

/-- Whether a fetch of an earlier layer of the object has still to be issued (R148). -/
def earlierFetch (s : State) (key : Nat) (t : Tile) : Bool :=
  match objOf s key with
  | none => false
  | some o => o.tiles.any (fun u => u.2.state = .arriving && ! u.2.begun && decide (u.2.order < t.order))

/-- The stored length of a tile's lower copy (R152). -/
def storedAt (s : State) (key : Nat) (t : Tile) : Nat :=
  match spotRead s (key / 2 ^ 64) t.lower with
  | none => t.fetched
  | some x => x.bytes.length

/-- The first fetch of a session's revive is issued (R152). -/
def firstFetch (key : Nat) (s : State) : State :=
  match sessOfObj s key with
  | none => s
  | some (sk, _) => onSess sk (fun x => { x with reviveAt := x.reviveAt.or (some s.time) }) s

/-- SHUTTER_FETCH (R139, R148, R150, R169, R171, R172, R325, R326): the tile's lower form is opened as it was read and laid plain,
or its pool record is asked for. -/
def execShutterFetch (engine : Fin 33) (obj : ObjRef) (tile : Nat) (read : TierRead) (s : State) : Host.Outcome State Fault Refusal :=
  let key := refKey obj
  let t := tileOf s key tile
  if ! engineOk s engine || t.state ≠ .arriving || t.begun || earlierFetch s key t
      || (t.loTier = 5 && poolFull s (objPort key)) then .next s
  else
    let last := lastTile s key tile (fun t => t.state = .arriving && ! t.begun)
    let s' := noteEngine engine 1 t.loTier t.upTier t.codec t.loAddr t.upAddr key tile t.loGran last
      (onTile key tile (fun t => { t with begun := true, fetched := storedAt s key t })
        (firstFetch key (if t.loTier = 2 then farAccess t.loAddr s else s)))
    if t.loTier = 5 then .next ((poolSend key tile false t.retried t.lower [] s').getD (failTransfer key tile 4 s'))
    else
      match spotRead s (key / 2 ^ 64) t.lower with
      | none => .next (failTransfer key tile 3 s')
      | some x =>
        match openRead s t.lower x read with
        | .inl c => .next (failTransfer key tile c (if c = 5 then countRefusal key s' else s'))
        | .inr bs => .next (fetchOut key tile bs s')

/-- SHUTTER_WRITE (R139, R168, R170, R173, R326): the tile's form, re-encoded if it differs from the request's, is sealed
and written to its place; a record that grew takes another place. -/
def execShutterWrite (engine : Fin 33) (obj : ObjRef) (tile : Nat) (s : State) : Host.Outcome State Fault Refusal :=
  let key := refKey obj
  let t := tileOf s key tile
  let fn := key / 2 ^ 64
  let src := if t.upTier = 1 then t.out else t.out.or (tileForm s key tile)
  if ! engineOk s engine || ! t.owesWrite || t.sent || (t.upTier = 1 && t.out.isNone)
      || (t.newTier = 5 && poolFull s (objPort key)) then .next s
  else
    let s := noteEngine engine 2 (if t.upTier = 0 then t.loTier else t.upTier) (absTier (objPort key) t.newTier) t.newCodec
      (if t.upTier = 0 then t.loAddr else t.upAddr) t.newAddr key tile t.newGran
      (lastTile s key tile (fun t => t.owesWrite && ! t.sent)) s
    match src.bind (fun f => reform (objPort key) f.1 t.newCodec f.2 s) with
    | none => .next (failTransfer key tile (if src.isSome then 5 else 2) (if src.isSome then countRefusal key s else s))
    | some (e, s) =>
      let fits := t.newTier = 2 || decide (e.bytes.length + 32 ≤ 256 * t.newGran)
      let place := if fits then some (t.target, s) else
        spotAlloc fn t.newTier t.newRegion e.bytes.length (spotFree fn t.target s)
      match place with
      | none => .next (failTransfer key tile 3 s)
      | some (sp, s) =>
        let s := onTile key tile (fun t => { t with
          newAddr := sp.addr, newGran := sp.gran, newCodec := e.codec, sent := true, begun := true }) s
        let record := if sp.tier = 5 then sealRecord s t.kd tile e.codec e.bytes (kdOf s t.kd).counter else []
        let w := spotWrite key tile t.kd sp e (if sp.tier = 2 then farAccess sp.addr s else s)
        if sp.tier = 5 then .next ((poolSend key tile true t.retried sp record w).getD (failTransfer key tile 4 w))
        else .next w

/-- What a migration within this part makes of a tile: its near address, whether it joins a stream slot's tail units, and
whether it has no place of its own there (R113, R127, R159). -/
structure MovePlace where
  addr : Nat
  tail : Bool
  streamed : Bool
  deriving DecidableEq, Repr

/-- The place of a tile in the destination slot of a migration under way. -/
def migratePlace (s : State) (key i : Nat) : Option MovePlace :=
  match mget? s.jobs key, sessOfObj s key with
  | some (.migrate _ n slot _ _ _ true _), some (_, x) =>
    let p := pavAt s n
    let a := sessTilePlace p p.desc x.lmax slot i
    some { addr := nearAddr a.1 a.2, streamed := streamed p.desc x.lmax x.length slot i
           tail := slotKindOf p.desc slot = 2 && decide (i < kvTiles p.desc x.lmax) && kvTail p.desc x.lmax x.length i }
  | _, _ => none

/-- Whether a migrating session's tile has reached its place: it has no near copy, or one there. -/
def Tile.moved (t : Tile) (m : MovePlace) : Bool := t.upTier ≠ 1 || (! m.streamed && t.upAddr = m.addr && t.tail = m.tail)

/-- The content of a migrating session's tile as a COPY reads it (R135, R170): tags are gathered, a tail unit's tile and a
slot are read plain. None when it cannot be read. -/
def copyPlain (s : State) (key i : Nat) : Option (List Byte) :=
  let t := tileOf s key i
  if isTag s key i then tilePlain s key i else if t.tail then mget? s.tails (cowKey key i) else slotPlain s t

/-- Lay a copied tile at its place in the destination slot (R135, R159). -/
def copyLay (key i : Nat) (m : MovePlace) (bs : List Byte) (s : State) : State :=
  let t := tileOf s key i
  let s := if t.tail then { s with tails := mdel s.tails (cowKey key i) } else s
  let s := if m.tail then { s with tails := mput s.tails (cowKey key i) bs }
    else match isTag s key i, mget? s.jobs key, sessOfObj s key with
      | true, some (.migrate _ n slot _ _ _ _ _), some (_, x) =>
        let p := pavAt s n
        tagScatter p slot x.lmax (i - kvTiles p.desc x.lmax) bs s
      | _, _, _ => layNear (addrCore m.addr) (addrLine m.addr) bs s
  onTile key i (fun t => { t with upAddr := m.addr, tail := m.tail, gen := objGen s key }) s

/-- SHUTTER_COPY (R127, R139, R140, R150, R159): a migrating session's tile goes plainly from its near slot to the
destination's. A tile that has no place of its own in a stream slot leaves its slot instead: a DIRTY one is written back to a
far slot first, and waits while none is free. -/
def execShutterCopy (engine : Fin 33) (obj : ObjRef) (tile : Nat) (s : State) : Host.Outcome State Fault Refusal :=
  let key := refKey obj
  let t := tileOf s key tile
  match migratePlace s key tile with
  | none => .next s
  | some m =>
    if ! engineOk s engine || t.moved m || t.owesWrite then .next s
    else
      let last := lastTile s key tile (fun u => u.upTier = 1 && decide (u.upAddr ≠ m.addr))
      let s := noteEngine engine 3 1 1 0 t.upAddr m.addr key tile 0 last (snapKeep key tile s)
      let content := (objOf s key).any (fun o => hasSlot o t || t.tail || isTag s key tile) && t.state ≠ .absent && t.state ≠ .failed
      if ! content then .next (onTile key tile (fun t => { t with upAddr := m.addr, tail := m.tail }) s)
      else if m.streamed then
        .next (if t.state = .clean then releaseUpper key tile s else (orderWrite key 2 0 0 tile s).getD s)
      else
        match copyPlain s key tile with
        | none =>
          let whole := ! isTag s key tile && ! t.tail && ! slotDamaged s t && ! (bayAt s (coreBay (addrCore t.upAddr))).fenced
          .next (failTransfer key tile (if whole then 5 else 2) (if whole then countRefusal key s else s))
        | some bs => .next (copyLay key tile m bs s)

/-! ### Ends of transfers -/

/-- Whether an object has a tile on its way. -/
def moving (s : State) (key : Nat) : Bool :=
  match objOf s key with
  | none => false
  | some o => o.tiles.any (fun t => t.2.state = .arriving || t.2.state = .departing || t.2.state = .redirtied || t.2.owesWrite)

/-- Whether an object has a FAILED tile. -/
def hasFailed (s : State) (key : Nat) : Bool :=
  match objOf s key with
  | none => false
  | some o => o.tiles.any (fun t => t.2.state = .failed)

/-- Release every upper copy of an object (R139, R146). -/
def releaseAll (key : Nat) (s : State) : State :=
  match objOf s key with
  | none => s
  | some o => o.tiles.foldl (fun s t => if t.2.state = .failed then s else releaseUpper key t.1 s) s

/-- The job of an object is over. -/
def endJob (key : Nat) (s : State) : State := { s with jobs := mdel s.jobs key }

/-- The indices of an object's tiles that satisfy a test. -/
def tilesWhere (s : State) (key : Nat) (p : Tile → Bool) : List Nat :=
  match objOf s key with
  | none => []
  | some o => (o.tiles.filter (fun t => p t.2)).map (·.1)

/-- A PLACE in a lower tier whose writes are over (R138, R497): a tile written since is written again; then every upper slot is
released. -/
def placeDown (key : Nat) (id : ReqId) (tier region : Nat) (s : State) : State :=
  match tilesWhere s key (fun t => t.state = .dirty) with
  | [] => done id (releaseAll key (endJob key s))
  | i :: is => (orderOwn key tier region (i :: is) s).getD (complete id (noRoom tier) (some 7) 0 (endJob key s))

/-- A PLACE or WRITE_BACK completes when nothing of its object is on its way: DONE, or TILE_FAILED (R145, R497). -/
def settle (key : Nat) (s : State) : State :=
  if moving s key then s
  else
    match mget? s.jobs key with
    | some (.place id tier region _) =>
      if hasFailed s key then complete id 0x24 (some 8) 0 (endJob key s)
      else if tier = 1 ∨ tier = 2 then done id (endJob key s) else placeDown key id tier region s
    | some (.writeBack id _ _) =>
      let s := endJob key s
      if hasFailed s key then complete id 0x24 (some 8) 0 s else done id s
    | some .unload => endJob key s
    | _ => s

/-- Whether the job in effect frees lower copies once tiles have landed (R139). -/
def freesLower (s : State) (key : Nat) : Bool :=
  match mget? s.jobs key with
  | some (.revive _ _ rel _) => rel
  | some (.place _ tier _ keep) => ! keep && (tier = 1 || tier = 2)
  | _ => false

/-- The dirty bit of a slot, which a write set while its tile was ARRIVING, is folded (R139, R141). -/
def foldSlot (k line : Nat) (s : State) : State :=
  if mgetD s.slotDirty (slotKey k line) false then
    (slotOwners s (slotKey k line)).foldl (fun s q => writeTile q.1 q.2 s) (clearDirty k line s)
  else s

/-- TILE_ARRIVAL (R139): a fetched tile becomes CLEAN, or DIRTY when its lower copy is freed; a pushed one DIRTY. -/
def execTileArrival (obj : ObjRef) (tile : Nat) (s : State) : Host.Outcome State Fault Refusal :=
  let key := refKey obj
  let t := tileOf s key tile
  if ! t.landed then .next s
  else if t.state = .arriving then
    let n := ((spotRead s (key / 2 ^ 64) t.lower).map (fun x => x.bytes.length)).getD 0
    let s := tierBytes key t.loTier 1 n (onTile key tile (fun t => { t with state := .clean, landed := false, begun := false }) s)
    let s := if t.upTier = 2 then tierBytes key 2 0 16384 s else tierBytes key 1 0 16384 s
    let s := if freesLower s key then
      onTile key tile (fun t => { t.touch with state := .dirty }) (releaseLower key tile s) else s
    .next (settle key (if t.upTier = 1 then foldSlot (addrCore t.upAddr) (addrLine t.upAddr) s else s))
  else .next (onTile key tile (fun t => { t with landed := false }) (writeTile key tile s))

/-- A write reached its lower tier (R139): the old lower copy elsewhere is freed, DEPARTING becomes CLEAN and REDIRTIED
DIRTY. -/
def ackWrite (key i : Nat) (s : State) : State :=
  let t := tileOf s key i
  if ! t.owesWrite || ! t.sent then s
  else
    let fn := key / 2 ^ 64
    let s := if t.state = .lower ∨ t.state = .arriving then snapKeep key i s else s
    let s := if t.loTier ≠ 0 ∧ t.lower ≠ t.target then spotFree fn t.lower s else s
    let n := ((spotRead s fn t.target).map (fun x => x.bytes.length)).getD 0
    let s := tierBytes key (absTier (objPort key) t.newTier) 0 n s
    let s := onTile key i (fun t => { t with
      loTier := absTier (objPort key) t.newTier, loRegion := t.newRegion, loAddr := t.newAddr, loGran := t.newGran
      codec := t.newCodec, newTier := 0, sent := false, out := none, begun := false
      changed := t.changed || decide (t.state = .redirtied), again := t.again || decide (t.state = .redirtied)
      state := if t.state = .departing then .clean else if t.state = .redirtied then .dirty else t.state }) s
    settle key s

/-- A port's snapshot writes to the pool are acknowledged there (R387). -/
def snapInPool (s : State) (p : Nat) : Bool := ((snapAt s p).run).any (fun r => r.tier = 5)

/-- TILE_WRITE_ACK (R139, R298): the far controller has committed the slot, or the read of the host record's last granule has
returned. -/
def execTileWriteAck (w : TierWrite) (s : State) : Host.Outcome State Fault Refusal :=
  match w with
  | .tile obj tile => if (tileOf s (refKey obj) tile).newTier = 5 then .next s else .next (ackWrite (refKey obj) tile s)
  | .snap port part => if snapInPool s port.idx then .next s else .next (snapAck port.idx part s)

/-- A far line that a fetch finds uncorrectable counts in FAR_UNCORRECTABLE (R489). -/
def farLost (t : Tile) (cause : Nat) (s : State) : State :=
  if cause = 2 ∧ t.loTier = 2 ∧ (t.state = .arriving ∨ t.state = .lower) then regAdd 0 0xE0010 1 s else s

/-- A transfer of a tile fails (R140, R455, R489): every transfer of a tile whose near slot lies in a fenced bay fails. `cause` is 1
tag, 2 ECC, 3 PCI Express, 4 Celay, 5 decode. -/
def tileMiss (key tile cause : Nat) (s : State) : State :=
  let t := tileOf s key tile
  let fenced := t.upTier = 1 && (bayAt s (coreBay (addrCore t.upAddr))).fenced
  let going := (t.state = .arriving && (t.begun || fenced) && ! t.landed)
    || (t.owesWrite && (t.sent || t.begun || t.out.isSome || fenced))
  if going || (t.state = .lower && ! t.owesWrite) then
    settle key (failTransfer key tile cause (farLost t cause s))
  else s

/-- TILE_TRANSFER_FAILURE (R140, R299, R455, R489): a transfer of a tile, or a write of a port's snapshot, fails. -/
def execTileTransferFailure (w : TierWrite) (cause : Fin 6) (s : State) : Host.Outcome State Fault Refusal :=
  match w with
  | .tile obj tile => .next (tileMiss (refKey obj) tile cause s)
  | .snap port part => if snapInPool s port.idx then .next s else .next (snapMiss port.idx part s)

end Sys2Proof.Machine
end

