-- ==== Sys2Proof/Machine/Hatch.lean ====
section
/-! DEFINITION. The hatch window (R143, R292, R323, R353 to R357, R364): where an offset lands, reads, writes, the writes a port
holds, and hatch mode. -/

namespace Sys2Proof.Machine

/-! ### Windows (R353) -/

/-- HAT_WINDOWn of a port. -/
def hatWindow (s : State) (p n : Nat) : Nat := regGet s p (0x100010 + 4 * n)

/-- The quarter that a BAR2 offset's window shows, when the window is enabled. -/
def winQuarter (s : State) (p off : Nat) : Option Nat :=
  let v := hatWindow s p (off / 2 ^ 33 % 8)
  if bitOf v 31 then some (bits v 0 6) else none

/-- The window offset of a BAR2 offset. -/
def winOff (off : Nat) : Nat := off % 2 ^ 33

/-- Bytes of a window that reach the near tier, and where the command area begins and ends. -/
def winNear : Nat := 0x180000000
def winArea (a : Nat) : Bool := decide (winNear ≤ a) && decide (a < winNear + 0x20000)

/-- The core and sliver line of a window offset of a quarter (R353). -/
def hatchPlace (q a : Nat) : Nat × Nat :=
  let t := a / 2 ^ 14
  (128 * q + ((t % 128) ^^^ (t / 128 % 128) ^^^ (t / 16384 % 32)), t / 128 * 256 + a / 64 % 256)

/-- The parts of an access to a quarter, one for each line it meets. -/
def hatchParts (q a : Nat) (data : List Byte) : List HatchPart :=
  ((List.range ((a % 64 + data.length + 63) / 64)).map (fun i =>
    let lo := if i = 0 then a else a / 64 * 64 + 64 * i
    let pl := hatchPlace q lo
    { core := pl.1, line := pl.2, off := lo % 64, bytes := (data.drop (lo - a)).take (64 - lo % 64), addr := lo / 64 })).filter
    (fun x => decide (x.bytes ≠ []))

/-- The HATCH_DISCARD record (R442): what was wrong in DETAIL. -/
def hatchDiscard (p addr detail : Nat) : ErrRec :=
  { source := srcId 5 p, cls := 1, code := 0x21, port := p, func := 0, addr := addr, detail := detail }

/-- The HATCH_UNCORRECTABLE record of a line (R354, R362). -/
def hatchLost (s : State) (p k line : Nat) : ErrRec := { bayErr s k 2 0x23 with port := p, func := 0, addr := line }

/-- A hatch access keeps its bay from dozing, and wakes it when it is not in run (R408, R411). -/
def hatchTouch (b : Nat) (s : State) : State :=
  onBay b (fun x => { x with
    idleSince := s.time
    wake := match x.power with
      | .doze => some true
      | .rest => some true
      | .resting _ => some true
      | .waking .. => some true
      | _ => x.wake }) s

/-! ### What becomes of a write (R143, R323, R354, R355, R364) -/

/-- The fate of a write to a line: discarded with a DETAIL, held, or applied. -/
inductive HatchFate where
  | discard (detail : Nat)
  | hold (arrive : Option (Nat × Nat))
  | apply
  deriving DecidableEq, Repr

/-- Whether a session's state is being parked or swapped out (R143, R404). -/
def parkRuns (s : State) (key : Nat) : Bool :=
  (sessOfObj s key).isSome && (match mget? s.jobs key with
    | some (.park ..) => true
    | some (.swap ..) => true
    | _ => false)

/-- Whether a running frame uses an object (R355): a session of its pavilions, their models or their programs. -/
def frameUses (s : State) (key : Nat) : Bool :=
  s.frames.any (fun f => f.2.pavs.any (fun n =>
    let p := pavAt s n
    p.models.any (fun m => m.2.object = key) || p.prog.any (fun g => g.object = key)
      || (sessOfObj s key).any (fun x => match x.2.place with | .parked _ _ => false | _ => decide (x.2.pav = n))))

/-- The fate of a write to a line of a core. -/
def hatchFate (s : State) (k line : Nat) : HatchFate :=
  let tiles := lineTiles s k line 1
  if tiles.any (fun t => parkRuns s t.1) then .discard 1
  else if tiles.any (fun t => kdSealed s (tileOf s t.1 t.2).kd) then .discard 2
  else
    match tiles.find? (fun t => (tileOf s t.1 t.2).state = .arriving) with
    | some t => .hold (some t)
    | none => if tiles.any (fun t => frameUses s t.1) || hcWrites s k line then .hold none else .apply

/-- Apply a write to a line (R141, R292, R354): merged into the stored line unless it is whole; a part of a line that cannot
be read is discarded. `bad` says that the merge found an uncorrectable error. -/
def hatchApply (p : Nat) (x : HatchPart) (bad : Bool) (s : State) : State :=
  let whole := decide (x.bytes.length = 64)
  if ! whole && (bad || isDamaged s x.core x.line) then
    regAdd p 0x100038 1 (raiseErr (hatchLost s p x.core x.line) s)
  else
    let s := nearStore x.core x.line (splice (nearRead s x.core x.line 1) x.off x.bytes) s
    let b := coreBay x.core
    if (frameOf s b).isNone || (bayAt s b).hatch then foldDirty [b] s else s

/-- Discard a write (R143, R323). -/
def hatchDrop (p : Nat) (x : HatchPart) (detail : Nat) (s : State) : State :=
  regAdd p 0x100038 1 (raiseErr (hatchDiscard p x.addr detail) s)

/-- Whether the port holds an earlier write to a line, which a later one follows. -/
def heldBefore (s : State) (p : Nat) (x : HatchPart) : Bool :=
  s.hatchHeld.any (fun h => h.port = p && h.core = x.core && h.line = x.line)

/-- Hold a write; those of R355 and R364 are counted in HAT_HELD. -/
def hatchHold (p : Nat) (x : HatchPart) (arrive : Option (Nat × Nat)) (s : State) : State :=
  let s := { s with hatchHeld := s.hatchHeld ++ [⟨p, x.core, x.line, x.off, x.bytes, x.addr, arrive⟩] }
  if arrive.isNone then regAdd p 0x100030 1 s else s

/-- One line of a write. -/
def hatchPart (p : Nat) (bad : Bool) (x : HatchPart) (s : State) : State :=
  if (bayAt s (coreBay x.core)).fenced then s
  else
    match hatchFate s x.core x.line with
    | .discard d => hatchDrop p x d s
    | .hold a => hatchHold p x a s
    | .apply => if heldBefore s p x then hatchHold p x none s else hatchApply p x bad s

/-! ### Hatch data in the transom queues (R24, R80, R354) -/

/-- Whether an item is hatch data. -/
def HubItem.isHatch : HubItem → Bool
  | .hatchWrite .. => true
  | .hatchRead .. => true
  | .hatchDone _ => true
  | .hatchReply _ => true
  | _ => false

/-- Whether a bay's hatch data goes by the transom queues: while a frame binds its traffic, and while earlier hatch data still
waits there (R24, R81). -/
def hatchQueues (s : State) (b : Nat) : Bool :=
  (boundFrame s b).isSome || (bayAt s b).transom.any (fun x => x.item.isHatch) || (bayAt s b).bond.any (fun x => x.item.isHatch)

/-- Queue hatch data for a bay in class T4 (R80). -/
def queueHatch (b beats : Nat) (toBay : Bool) (x : HubItem) (s : State) : State :=
  onBay b (fun y => { y with transom := y.transom ++ [⟨4, toBay, max 1 beats, x⟩] }) s

/-- The lines of a hatch write: they take effect in the bay at once, or join its transom queue. -/
def hatchLines (p b : Nat) (parts : List HatchPart) (bad : Bool) (s : State) : State :=
  if hatchQueues s b then
    (parts.filter (fun x => ! (bayAt s (coreBay x.core)).fenced)).foldl (fun s x => queueHatch b 1 true (.hatchWrite p x bad) s) s
  else parts.foldl (fun s x => hatchPart p bad x s) s

/-- HATCH_WRITE (R24, R80, R141, R143, R292, R323, R353 to R356, R364). An offset that no window maps is recorded; registers of the
command area that are read-only keep their values. -/
def execHatchWrite (port : Port) (off : Nat) (data : List Byte) (bad : Bool) (s : State) :
    Host.Outcome State Fault Refusal :=
  let a := winOff off
  match winQuarter s port.idx off with
  | none => .next (raiseErr (hatchDiscard port.idx (a / 64) 3) s)
  | some q =>
    let s := hatchTouch (q / 4) s
    if a < winNear then .next (hatchLines port.idx (q / 4) (hatchParts q a data) bad s)
    else if winArea a then .next s
    else .next (raiseErr (hatchDiscard port.idx (a / 64) 3) s)

/-- Take a port's held writes in their order (R143, R355, R364): each is applied once nothing holds it, or discarded. -/
def releaseHeld (p : Nat) : List HeldWrite → State → State
  | [], s => s
  | h :: hs, s =>
    let x : HatchPart := ⟨h.core, h.line, h.off, h.bytes, h.addr⟩
    if h.port ≠ p ∨ heldBefore s p x = true then releaseHeld p hs { s with hatchHeld := s.hatchHeld ++ [h] }
    else if h.arrive.any (fun t => (tileOf s t.1 t.2).state = .failed) then releaseHeld p hs (hatchDrop p x 4 s)
    else
      match hatchFate s h.core h.line with
      | .discard d => releaseHeld p hs (hatchDrop p x d s)
      | .hold _ => releaseHeld p hs { s with hatchHeld := s.hatchHeld ++ [h] }
      | .apply => releaseHeld p hs (hatchApply p x false s)

/-- Take the held writes of a port. -/
def releaseHatch (p : Nat) (s : State) : State := releaseHeld p s.hatchHeld { s with hatchHeld := [] }

/-- HELD_HATCH_WRITE_APPLY (R143): writes held on an arrival apply once the tile is CLEAN, which leaves it DIRTY, and are
discarded if it FAILED. -/
def execHeldHatchWriteApply (port : Port) (s : State) : Host.Outcome State Fault Refusal := .next (releaseHatch port.idx s)

/-! ### Reads (R353, R354, R356) -/

/-- A register of a bay's command area, from its offset there (Hatch commands). -/
def hcRegs (b : Bay) (a : Nat) : Nat :=
  if a = 0x40 then b.hcDone else if a = 0x44 then b.hcSubmitted else if a = 0x48 then b.hcErrSeq
  else if a = 0x4C then b.hcErrCause else if a = 0x50 then b.hcFull else 0

/-- A byte of a bay's command area. -/
def hcByte (b : Bay) (a : Nat) : Byte :=
  if 0x1000 ≤ a ∧ a < 0x2000 then memByte b.hcStore (a - 0x1000) else BitVec.ofNat 8 (hcRegs b (a / 4 * 4) / 2 ^ (8 * (a % 4)))

/-- A line as a hatch read returns it: zeros for a SEALED domain's tile (R323). -/
def hatchLine (s : State) (k line : Nat) : List Byte :=
  if (lineTiles s k line 1).any (fun t => kdSealed s (tileOf s t.1 t.2).kd) then List.replicate 64 0 else nearRead s k line 1

/-- Whether a line a hatch read meets belongs to a SEALED domain. -/
def hatchSealed (s : State) (x : HatchPart) : Bool :=
  (lineTiles s x.core x.line 1).any (fun t => kdSealed s (tileOf s t.1 t.2).kd)

/-- What a hatch read of lines of the near tier returns, with its error records (R323, R354, R356). -/
def hatchData (p : Nat) (parts : List HatchPart) (bad : Bool) (s : State) : Reply × State :=
  let s := match parts.find? (hatchSealed s) with
    | some x => raiseErr (hatchDiscard p x.addr 2) s
    | none => s
  match parts.find? (fun x => ! hatchSealed s x && (bad || isDamaged s x.core x.line)) with
  | some x => (.abort, raiseErr (hatchLost s p x.core x.line) s)
  | none => (.bytes ((parts.map (fun x => byteSlice (hatchLine s x.core x.line) x.off x.bytes.length)).flatten), s)

/-- HATCH_READ (R24, R80, R323, R353, R354, R356): stored bytes as they are; `bad` says that a line is uncorrectable. An offset that no
window maps is an Unsupported Request, an uncorrectable line a Completer Abort. While a frame binds the bay's traffic the read
joins its transom queue, and its data comes with a later window. -/
def execHatchRead (port : Port) (off len : Nat) (bad : Bool) (s : State) : Host.Outcome State Fault Refusal :=
  let a := winOff off
  let unmapped := { raiseErr (hatchDiscard port.idx (a / 64) 3) s with reply := .unsupported }
  match winQuarter s port.idx off with
  | none => .next unmapped
  | some q =>
    let s := hatchTouch (q / 4) s
    if a < winNear then
      let parts := hatchParts q a (List.replicate len 0)
      if parts.any (fun x => (bayAt s (coreBay x.core)).fenced) then .next { s with reply := .abort }
      else if hatchQueues s (q / 4) then .next (queueHatch (q / 4) 1 true (.hatchRead port.idx parts bad) { s with reply := .none })
      else
        let r := hatchData port.idx parts bad s
        .next { r.2 with reply := r.1 }
    else if winArea a then
      .next { s with reply := .bytes ((List.range len).map (fun i => hcByte (bayAt s (q / 4)) (a - winNear + i))) }
    else .next unmapped

/-- HC_DONE_READ (R364): it returns only after every earlier hatch write of the port to the bay has been applied or held, so it
follows those that wait in the transom queue. -/
def execHcDoneRead (port : Port) (off : Nat) (s : State) : Host.Outcome State Fault Refusal :=
  match winQuarter s port.idx off with
  | none => .next { raiseErr (hatchDiscard port.idx (winOff off / 64) 3) s with reply := .unsupported }
  | some q =>
    if hatchQueues s (q / 4) then .next (queueHatch (q / 4) 1 true (.hatchDone port.idx) { hatchTouch (q / 4) s with reply := .none })
    else .next { hatchTouch (q / 4) s with reply := .bytes (natLe 4 (bayAt s (q / 4)).hcDone) }

/-! ### Registers and hatch mode (R353, R357) -/

/-- The HATCH_REFUSED record. -/
def hatchRefused (p detail : Nat) : ErrRec :=
  { source := srcId 5 p, cls := 1, code := 0x22, port := p, func := 0, detail := detail }

/-- HAT_WINDOW_WRITE (R353): a quarter of no pavilion of the port leaves the register at 0. -/
def execHatWindowWrite (port : Port) (n : Fin 8) (v : Word) (s : State) : Host.Outcome State Fault Refusal :=
  let p := port.idx
  let mine := s.pavs.any (fun x => x.2.port = p && x.2.quarters.contains (bits v.toNat 0 6))
  if ! responds s 0x100010 then .next s
  else if mine then .next (regSet p (0x100010 + 4 * n) (v.toNat &&& 0x8000007F) s)
  else .next (raiseErr (hatchRefused p 2) (regSet p (0x100010 + 4 * n) 0 s))

/-- Whether a port requests hatch mode for a bay. -/
def hatchWanted (s : State) (b : Nat) : Bool := bitOf (regGet s 0 0x100000) b || bitOf (regGet s 1 0x100000) b

/-- A bay with a request enters hatch mode at a frame boundary of its group: the registers of its command area start at 0
(R357, R491). -/
def enterHatch (b : Nat) (s : State) : State :=
  if ! hatchWanted s b || (bayAt s b).hatch || (bayAt s b).fenced then s
  else onBay b (fun x => { x with
    hatch := true, hatchExit := false, hcDone := 0, hcSubmitted := 0, hcErrSeq := 0, hcErrCause := 0
    hcFull := 0 }) s

/-- HATCH_MODE_REQUEST (R357): refused when a quarter of the bay belongs to a pavilion of the other port. -/
def execHatchModeRequest (port : Port) (bay : Fin 20) (s : State) : Host.Outcome State Fault Refusal :=
  let p := port.idx
  let other := s.pavs.any (fun x => x.2.port ≠ p && x.2.bays.contains bay.val)
  if ! responds s 0x100000 then .next s
  else if other then .next (raiseErr (hatchRefused p 1) s)
  else
    let s := onBay bay (fun x => { x with hatchExit := false }) (regOr p 0x100000 (2 ^ bay.val) s)
    .next (if (frameOf s bay).isSome then s else enterHatch bay s)

/-- HATCH_EXIT_REQUEST (R357): the exit takes effect by HATCH_MODE_EXIT. -/
def execHatchExitRequest (port : Port) (bay : Fin 20) (s : State) : Host.Outcome State Fault Refusal :=
  if ! responds s 0x100000 then .next s
  else
    let s := regClear port.idx 0x100000 (2 ^ bay.val) s
    .next (if (bayAt s bay).hatch && ! hatchWanted s bay then onBay bay (fun x => { x with hatchExit := true }) s else s)

/-- HATCH_MODE_EXIT (R357): with its command queue empty the bay leaves hatch mode. -/
def execHatchModeExit (bay : Fin 20) (s : State) : Host.Outcome State Fault Refusal :=
  let b := bayAt s bay
  if b.hatch && b.hatchExit && b.hcQueue = [] && b.hcRun.isNone then
    .next (noteReadyAll (onBay bay (fun x => { x with hatch := false, hatchExit := false }) s))
  else .next s

/-- HC_SUBMIT_HELD_WRITE (R358): bytes 0 to 62 of HC_SUBMIT are held until byte 63 is written. -/
def execHcSubmitHeldWrite (port : Port) (off : Nat) (data : List Byte) (s : State) : Host.Outcome State Fault Refusal :=
  match winQuarter s port.idx off with
  | none => .next (raiseErr (hatchDiscard port.idx (winOff off / 64) 3) s)
  | some q =>
    let a := winOff off - winNear
    if 63 ≤ a ∨ ! winArea (winOff off) then .next s
    else
      .next (hatchTouch (q / 4) <| onBay (q / 4) (fun b => { b with
        hcHeld := ((data.take (63 - a)).zipIdx).foldl (fun m x => mput m (a + x.2) x.1) b.hcHeld }) s)

/-- HC_STORE_WRITE (R363): a write to the micro-program store; one that meets a RUN is applied after it. -/
def execHcStoreWrite (port : Port) (off : Nat) (data : List Byte) (s : State) : Host.Outcome State Fault Refusal :=
  match winQuarter s port.idx off with
  | none => .next (raiseErr (hatchDiscard port.idx (winOff off / 64) 3) s)
  | some q =>
    let a := winOff off - winNear
    if a < 0x1000 ∨ 0x2000 ≤ a then .next s
    else
      let data := data.take (0x2000 - a)
      let running := (bayAt s (q / 4)).hcRun.any (fun r => r.1.op = 0x20)
      .next (onBay (q / 4) (fun b =>
        if running then { b with storeHeld := b.storeHeld ++ [(a - 0x1000, data)] }
        else { b with hcStore := memWrite b.hcStore (a - 0x1000) data }) s)

end Sys2Proof.Machine
end

