-- ==== Sys2Proof/Machine/HubMoves.lean ====
section
/-! DEFINITION. Hub traffic to and from bays (R80 to R84, R131, R141, R142, R275): the transom queues, bond cycles, and
what moves in windows and HUB_BOND slots and between frames. -/

namespace Sys2Proof.Machine

/-! ### Slots of a running frame -/

/-- The slot records that hold in a bay: those of a loaded program of the bay (R66, R67). -/
def baySlots (s : State) (bay : Nat) : List SlotRec :=
  match s.pavs.find? (fun p => p.2.bays.contains bay && p.2.prog.isSome) with
  | none => []
  | some p => match p.2.prog with | none => [] | some g => imgSlotRecs g.image

/-- The key of a planned event of a bay in a frame: what it is, 1 to 3 for bay-wide slots and 4 to 7 for the transom
windows of a port and direction. -/
def planKey (bay what : Nat) : Nat := bay * 16 + what

/-- Whether a frame may do a planned event of a bay now: it is not frozen or stopped, the cycle is not past, and the event
is later than the last of its kind (R65, R96). -/
def planned (f : Frame) (bay what cyc : Nat) : Bool :=
  f.hold.isNone && ! f.stopped && decide (f.cycle ≤ cyc) && decide (cyc < f.length)
    && f.requests.all (fun r => decide (cyc < r.freezeAt))
    && (match mget? f.done (planKey bay what) with | none => true | some c => decide (c < cyc))

/-- Mark a planned event done. -/
def markPlan (key : Nat) (f : Frame) (bay what cyc : Nat) (s : State) : State :=
  setFrame key { f with cycle := cyc, done := mput f.done (planKey bay what) cyc } s

/-! ### Bond cycles (R83, R142) -/

/-- Whether an arrival must wait for the frame's end (R275): its session stands in a slot whose victim was masked, and
the address is in a live range of a latch point decided in the frame. -/
def liveWait (s : State) (key i : Nat) : Bool :=
  match sessOfObj s key with
  | none => false
  | some (sk, x) =>
    match x.place with
    | .resident n slot =>
      let t := tileOf s key i
      let region := if t.layer = 0xFFFF || t.tail then 1 else 0
      s.frames.any (fun f => (mget? f.2.masked (n * 1024 + slot)).isSome
        && (mget? f.2.runs (n * 1024 + slot)).any (fun r => decide (r.sess ≠ sk)) &&
        (match (pavAt s n).prog with
          | none => false
          | some g => (imgLatchRecs g.image).zipIdx.any (fun l => f.2.latched.contains (n, l.2) &&
              (imgLive g.image l.1).any (fun r => r.region = region && (t.layer = 0xFFFF ||
                (decide (r.first ≤ t.layer) && (r.last = 0xFFFF || decide (t.layer ≤ r.last))))))))
    | _ => false

/-- A bond item begins (R141, R142): a departure read clears its slot's dirty bit, to see the writes that meet it. -/
def beginBond (x : BondItem) (s : State) : State :=
  match x.item with
  | .depart key i =>
    let t := tileOf s key i
    clearDirty (addrCore t.upAddr) (addrLine t.upAddr) (onTile key i (fun t => { t with begun := true, hit := false }) s)
  | _ => s

/-- A departure read ends (R140, R142, R446): a write that met it makes it start again; a damaged line fails it; otherwise
the tile's form goes into the transom queue in class T3. -/
def endDepart (key i : Nat) (s : State) : State :=
  let t := tileOf s key i
  let k := addrCore t.upAddr
  let isSlot := (objOf s key).any (fun o => hasSlot o t)
  if ! t.owesWrite then s
  else if t.hit || isSlot && mgetD s.slotDirty (slotKey k (addrLine t.upAddr)) false then
    queueDepart key i (regAdd (objPort key) 0xB0018 1 (onTile key i (fun t => { t with begun := false, hit := false }) s))
  else if isSlot && slotDamaged s t then settle key (failTransfer key i 2 s)
  else
    match tileForm s key i with
    | none => settle key (failTransfer key i 2 s)
    | some (form, bs) =>
      onBay (coreBay k) (fun b => { b with transom := b.transom ++ [⟨3, false, 32, .departed key i form bs⟩] }) s

/-! ### Tiles of a stream (R379, R385) -/

/-- The stream of a session that still takes a tile. -/
def streamFor (s : State) (sk i : Nat) : Option Stream :=
  s.streams.find? (fun y => y.sess = sk && ! y.aborted && ! y.landed.contains i)

/-- Change a stream. -/
def onStream (y : Stream) (f : Stream → Stream) (s : State) : State :=
  { s with streams := s.streams.map (fun z => if z = y then f z else z) }

/-- The tiles a stream must lay for layer `k`: for a push the key and value tiles that hold a pushed position (R379), for a
hand-over those the session needs (R136). -/
def streamTiles (s : State) (y : Stream) (x : Session) (k : Nat) : List Nat :=
  let d := (pavAt s x.pav).desc
  if y.hand then neededTiles d x.lmax x.length k
  else (neededTiles d x.lmax (y.first + y.count) k).filter (fun i => tileHolds d x.lmax i y.first y.count)

/-- A stream's tile has been laid: T0 is when layer 0 is whole (R380), and a hand-over whose tiles have all landed is
answered with HAND_DONE (R385). -/
def noteLanded (sk i : Nat) (s : State) : State :=
  match streamFor s sk i, mget? s.sessions sk with
  | some y, some x =>
    let l := y.landed ++ [i]
    let whole := (streamTiles s y x 0).all l.contains
    if y.hand && decide (y.tiles ≤ l.length) then
      sendMsg y.cport 0 0x0D y.node y.tag y.gen [] { s with streams := s.streams.filter (· ≠ y) }
    else onStream y (fun y => { y with landed := l, t0 := if whole && y.t0.isNone then some s.time else y.t0 }) s
  | _, _ => s

/-- A stream's tile reaches its slot (R157, R379): the unit that holds FIRST keeps its earlier rows. One whose generation is no
longer the session's is dropped and counted in TIR_STALE_COUNT. -/
def layPush (key i gen : Nat) (bs : List Byte) (s : State) : State :=
  let stale := regAdd (objPort key) 0xB0010 1 s
  match sessOfObj s key with
  | none => stale
  | some (sk, x) =>
    match if gen = x.gen then streamFor s sk i else none with
    | none => stale
    | some y =>
      let d := (pavAt s x.pav).desc
      let t := tileOf s key i
      let lo := (tileSpan d x.lmax i).1
      let s := cowKeep key i s
      let old := if t.tail then mgetD s.tails (cowKey key i) [] else slotBytes s t
      let plain := if ! y.hand && lo < y.first && unitTiles d = 1
        then takeAt (byteSlice old 0 16384) bs (rowsFrom d (y.first - lo)) else bs
      let s := if t.tail then { s with tails := mput s.tails (cowKey key i) plain }
        else layNear (addrCore t.upAddr) (addrLine t.upAddr) plain s
      noteLanded sk i (onTile key i (fun t => { t with landed := true }) s)

/-- A bond item ends. -/
def endBond (x : BondItem) (s : State) : State :=
  match x.item with
  | .arrive key i gen bs => arriveTile key i gen bs s
  | .push key i gen bs => layPush key i gen bs s
  | .depart key i => endDepart key i s
  | .departed _ _ _ _ => s
  | .input k line bs => nearStore k line bs s
  | .hatchWrite p part bad => hatchPart p bad part s
  | .hatchRead p parts bad =>
    let r := hatchData p parts bad s
    queueHatch (coreBay x.core) (ceilDiv (sumNat (parts.map (fun y => y.bytes.length))) 512) false (.hatchReply r.1) r.2
  | .hatchDone _ => queueHatch (coreBay x.core) 1 false (.hatchReply (.bytes (natLe 4 (bayAt s (coreBay x.core)).hcDone))) s
  | .hatchReply _ => s

/-- Whether a bond item must wait. A hatch read follows the hatch data of its cores that still waits, and a read of HC_DONE all
of the bay's (R364). -/
def bondWaits (s : State) (x : BondItem) : Bool :=
  let earlier := (bayAt s (coreBay x.core)).bond
  match x.item with
  | .arrive key i _ _ => liveWait s key i
  | .push key i _ _ => liveWait s key i || (tileOf s key i).state = .arriving
  | .hatchRead _ parts _ => parts.any (fun p => earlier.any (fun y => y.core = p.core && y.item.isHatch))
  | .hatchDone _ => earlier.any (fun y => y.item.isHatch)
  | _ => false

/-- Spend bond cycles on a bay's items in their order, `per` cycles on each core. `used` is what each core has spent. -/
def bondItems (bay per : Nat) : List BondItem → NMap Nat → State → State
  | [], _, s => s
  | x :: xs, used, s =>
    let left := per - mgetD used x.core 0
    if left = 0 || bondWaits s x then
      bondItems bay per xs used (onBay bay (fun b => { b with bond := b.bond ++ [x] }) s)
    else
      let s := if x.begun then s else beginBond x s
      let spend := min left x.need
      let used := mput used x.core (mgetD used x.core 0 + spend)
      if spend = x.need then bondItems bay per xs used (endBond x s)
      else bondItems bay per xs used (onBay bay (fun b => { b with
        bond := b.bond ++ [{ x with need := x.need - spend, begun := true }] }) s)

/-- Spend `per` bond cycles on each core of a bay. -/
def bondWork (bay per : Nat) (s : State) : State :=
  bondItems bay per (bayAt s bay).bond [] (onBay bay (fun b => { b with bond := [] }) s)

/-! ### Transom queues (R80, R81, R84) -/

/-- The bond cycles an item's data takes: 200 bytes each (R62). -/
def bondNeed (n : Nat) : Nat := max 1 (ceilDiv n 200)

/-- An item leaves the transom queues: to the bay, it waits for bond cycles; from the bay, it reaches the hub. -/
def deliverHub (bay : Nat) (x : HubItem) (s : State) : State :=
  let wait (k n : Nat) : State := onBay bay (fun b => { b with bond := b.bond ++ [⟨k, bondNeed n, false, x⟩] }) s
  match x with
  | .arrive key i _ bs => wait (addrCore (tileOf s key i).upAddr) bs.length
  | .push key i _ bs => wait (addrCore (tileOf s key i).upAddr) bs.length
  | .depart _ _ => s
  | .departed key i form bs => onTile key i (fun t => if t.owesWrite then { t with out := some (form, bs) } else t) s
  | .input k _ bs => wait k bs.length
  | .hatchWrite _ part _ => wait part.core part.bytes.length
  | .hatchRead _ parts _ => wait (((parts.head?).map (·.core)).getD (512 * bay)) (sumNat (parts.map (fun y => y.bytes.length)))
  | .hatchDone _ => wait (512 * bay) 4
  | .hatchReply r => { s with reply := r }

/-- The class a beat serves: the window's primary class, else the first of T1 to T5 with an item for the direction. -/
def beatClass (q : List HubQueued) (toBay : Bool) (primary : Nat) : Option Nat :=
  ([primary, 1, 2, 3, 4, 5] : List Nat).find? (fun c => q.any (fun x => x.cls = c && x.toBay = toBay))

/-- The oldest item of a class and direction, with the queue before and after it. -/
def splitQueue (cls : Nat) (toBay : Bool) : List HubQueued → List HubQueued → Option (List HubQueued × HubQueued × List HubQueued)
  | _, [] => none
  | pre, x :: xs => if x.cls = cls && x.toBay = toBay then some (pre, x, xs) else splitQueue cls toBay (pre ++ [x]) xs

/-- Move a number of beats of the oldest item that a direction and a primary class serve. -/
def moveBeats (bay : Nat) (toBay : Bool) (primary beats : Nat) (s : State) : State :=
  let q := (bayAt s bay).transom
  match (beatClass q toBay primary).bind (fun c => splitQueue c toBay [] q) with
  | none => s
  | some (pre, x, post) =>
    if x.left ≤ beats then deliverHub bay x.item (onBay bay (fun b => { b with transom := pre ++ post }) s)
    else onBay bay (fun b => { b with transom := pre ++ { x with left := x.left - beats } :: post }) s

/-- HUB_BOND_SLOT (R83, R141, R142): the slot's cycles on every core serve arrivals and departures. -/
def execHubBondSlot (bay : Fin 20) (start : Nat) (s : State) : Host.Outcome State Fault Refusal :=
  match boundFrame s bay, (baySlots s bay).find? (fun r => r.kind = 3 && r.start = start) with
  | some (key, f), some r =>
    if planned f bay 3 start then .next (bondWork bay r.len (markPlan key f bay 3 start s)) else .next s
  | _, _ => .next s

/-- TRANSOM_WINDOW_BEAT (R80, R81): one beat of 512 bytes in one CCLK of a window. -/
def execTransomWindowBeat (bay : Fin 20) (cport : Fin 2) (toBay : Bool) (cyc : Nat) (s : State) :
    Host.Outcome State Fault Refusal :=
  let dir := 1 - b2n toBay
  match boundFrame s bay, (baySlots s bay).find? (fun r => r.kind = 4 && r.port = cport.val && r.dir = dir
      && decide (r.start ≤ cyc) && decide (cyc < r.start + r.len)) with
  | some (key, f), some r =>
    if cyc % 2 = 0 && planned f bay (4 + 2 * cport + dir) cyc then
      .next (moveBeats bay toBay r.cls 1 (markPlan key f bay (4 + 2 * cport + dir) cyc s))
    else .next s
  | _, _ => .next s

/-- Whether a bay moves hub traffic in any cycle (R84): no frame binds it, and it is at run; one in doze or rest is woken for it
first (R411). -/
def freeBay (s : State) (bay : Nat) : Bool :=
  (boundFrame s bay).isNone && (bayAt s bay).power = .run && ! (bayAt s bay).fenced

/-- BETWEEN_FRAME_HUB_TRANSFER (R84): the next queued item of each direction moves, in the order of the classes, and
waiting slot writes and reads take the bond cycles they need. -/
def execBetweenFrameHubTransfer (bay : Fin 20) (s : State) : Host.Outcome State Fault Refusal :=
  if ! freeBay s bay then .next s
  else
    let n := sumNat ((bayAt s bay).transom.map (·.left))
    let s := bondWork bay 16384 (moveBeats bay true 1 n s)
    let s := moveBeats bay false 1 (sumNat ((bayAt s bay).transom.map (·.left))) s
    .next (onBay bay (fun b => { b with idleSince := s.time }) s)

end Sys2Proof.Machine
end

