-- ==== Sys2Proof/Machine/Regions.lean ====
section
/-! DEFINITION. Regions that go (R149, R299, R335): withdrawal, the port reset that withdraws a port's host regions, and the
snapshot attempts that fail with them. -/

namespace Sys2Proof.Machine

/-- Whether a manifest is found in a tier and region of a port (R302): in the far tier, in the port's own memory at the region's
base, or at the region's pool node. -/
def Manifest.found (m : Manifest) (s : State) (p tier region : Nat) : Bool :=
  m.tier = tier && (tier = 2 || (match regionOf s (64 * p) tier region with
    | none => false
    | some r => m.region = region && (if tier = 3 then r.base = m.base else r.node = m.node)))

/-- The manifests that can be found in a tier and region of a port: its own, and in the pool either port's. -/
def foundIn (s : State) (p tier region : Nat) : List Manifest :=
  ((snapAt s p).manifests ++ (if tier = 5 then (snapAt s (1 - p)).manifests else [])).filter (fun m => m.found s p tier region)

/-- The shards of manifests found in a region just granted stay allocated (R296, R301). -/
def adoptShards (p tier region : Nat) (s : State) : State :=
  match regionOf s (64 * p) tier region with
  | none => s
  | some r =>
    let ms := foundIn s p tier region
    let places := (ms.map (fun m => (m.shards.map (fun h => h.places)).flatten)).flatten
    let records := places.foldl (fun (n : NMap Nat) a => mput n (Spot.granule ⟨tier, region, a.1, a.2.1⟩ r.base) a.2.1)
      (if ms = [] then [] else [(0, 2048)])
    { s with regions := mput s.regions (regionKey (64 * p) tier region) { r with records := records } }

/-! ### Regions (R144, R149) -/

/-- Whether a region holds a lower copy, or a record is being written to it. -/
def regionBusy (s : State) (fn tier region : Nat) : Bool :=
  s.objects.any (fun o => o.1 / 2 ^ 64 = fn && o.2.tiles.any (fun t =>
    (t.2.loTier ≠ 0 && tier ≠ 2 && relTier t.2.loTier = tier && t.2.loRegion = region)
      || (t.2.owesWrite && t.2.newTier = tier && t.2.newRegion = region)))

/-- Withdraw a region with every record in it (R149). -/
def dropRegion (fn tier region : Nat) (s : State) : State :=
  let k := regionKey fn tier region
  { s with regions := mdel s.regions k, records := s.records.filter (fun r => decide (r.1 / 2 ^ 32 ≠ k)) }

/-- The attempts that write to a region fail (R299). -/
def lostRegion (fn tier region : Nat) (s : State) : State :=
  let p := fnPort fn
  if fn = 64 * p && (snapAt s p).run.any (fun r => r.tier = tier && r.region = region) then snapFail p s else s

/-- REGION_WITHDRAW (R144, R147, R149). -/
def execRegionWithdraw (r : Req) (tier region : Nat) (s : State) : Host.Outcome State Fault Refusal :=
  .next (onReq r 0x54 (if 1023 < region then some 33 else none) (fun id s =>
    if (tier ≠ 3 ∧ tier ≠ 5) ∨ regionOf s id.ident tier region = none then fail id 0x22 s
    else if regionBusy s id.ident tier region then fail id 0x23 s
    else done id (dropRegion id.ident tier region (lostRegion id.ident tier region s))) s)

/-- The lower copies that lay in a port's host-tier regions lie in no region any more (R149): each becomes FAILED at its next
fetch, whatever is granted under the number later. -/
def orphan (p : Nat) (o : Nat × Obj) : Nat × Obj :=
  let lost (t : Tile) : Tile := if relTier t.loTier = 3 then { t with loRegion := 0xFFFF } else t
  if objPort o.1 = p then (o.1, { o.2 with tiles := o.2.tiles.map (fun t => (t.1, lost t.2)) }) else o

/-- A port is reset (R149, R299, R335): its rings stop, its runs end, and its host-tier regions are withdrawn. -/
def portReset (p : Nat) (s : State) : State :=
  let s := (List.range 64).foldl (fun s i => stopRings (p * 64 + i) none s) s
  let gone := (s.regions.filter (fun r => hostRegionOf p r.1)).map (·.1)
  let s := gone.foldl (fun s k => lostRegion (k / 2 ^ 20) 3 (k % 2 ^ 12) s) s
  { s with objects := s.objects.map (orphan p), regions := s.regions.filter (fun r => ! hostRegionOf p r.1)
           records := s.records.filter (fun r => ! hostRegionOf p (r.1 / 2 ^ 32)) }

/-- PORT_RESET (R335). -/
def execPortReset (port : Port) (cause : PortResetCause) (s : State) : Host.Outcome State Fault Refusal :=
  match cause with
  | .perst | .hotReset | .linkDown | .pfFlr => .next (portReset port.idx s)

end Sys2Proof.Machine
end

