-- ==== Sys2Proof/Machine/Streams.lean ====
section
/-! DEFINITION. Streams over Celay (R374 to R387): state pushes, hand-overs from a peer and to one, and pool
transactions. A row takes the oldest complete message of its type that the port has received. -/

namespace Sys2Proof.Machine

/-! ### Accept entries and streams -/

/-- The accept entry of a host port that governs a sender's stream (R377): its function and pavilion. `bit` is 30 for
pushes, 29 for hand-overs. -/
def acceptEntry (s : State) (p sender bit : Nat) : Option (Nat × Nat) :=
  (List.range 16).findSome? (fun n =>
    let node := regGet s p (0xD8000 + 8 * n)
    let cfg := regGet s p (0xD8004 + 8 * n)
    if bitOf cfg 31 && bitOf cfg bit && (node = 0xFFFFFFFF || node = sender) then
      some (p * 64 + cfg % 64, bits cfg 8 14) else none)

/-- The stream a message belongs to. An aborted hand-over is over. -/
def findStream (s : State) (hand : Bool) (cport : Nat) (m : Cell) : Option Stream :=
  s.streams.find? (fun y => y.hand = hand && y.cport = cport && y.node = m.src && y.tag = m.tag && ! (hand && y.aborted))

/-- A stream is over. -/
def closeStream (y : Stream) (s : State) : State := { s with streams := s.streams.filter (· ≠ y) }

/-- The cells of a message. -/
def Cell.count (m : Cell) : Nat := max 1 (ceilDiv m.payload.length 240)

/-- A stream's idle limit in ns, of a host port. -/
def streamIdle (s : State) (p : Nat) : Nat := 1000 * max 1 (bits (regGet s p 0xD8300) 16 31)

/-- Whether a message's generation is not its session's current one (R157). -/
def staleMsg (s : State) (y : Stream) (m : Cell) : Bool :=
  match mget? s.sessions y.sess with
  | none => true
  | some x => decide (x.gen ≠ m.gen)

/-- Cells of a stream that are dropped (R157, R382): an old generation's are stale, the others are drops. -/
def dropCells (y : Stream) (m : Cell) (s : State) : State :=
  regAdd (sessPort y.sess) (if staleMsg s y m then 0xB0010 else 0xD8318) m.count s

/-- The record of an aborted push (R382, R442). -/
def pushErr (s : State) (y : Stream) (reason : Nat) : ErrRec :=
  { source := srcId 6 y.cport, cls := 4, code := 0x28, sess := true, port := sessPort y.sess, func := y.sess / 2 ^ 64 % 64
    unit := y.cport, ref := y.sess % 2 ^ 64, detail := reason, gen := ((mget? s.sessions y.sess).map (·.gen)).getD y.gen
    kd := ((mget? s.sessions y.sess).map (·.kd)).getD 0xFFFF }

/-- A push's open is undone (R382): LENGTH and NEXT_INPUT return to their values before it. -/
def unopen (y : Stream) (s : State) : State :=
  match mget? s.sessions y.sess with
  | none => s
  | some x => if y.opened then setSessTile y.sess ((x.set 0x48 4 y.oldLen).set 0x4C 4 y.oldNext) s else s

/-- Abort a stream (R382, R383): nothing is charged, the sender hears of it unless it said so or the link is down, and a
push leaves an error record. -/
def abortStream (y : Stream) (reason : Nat) (tell : Bool) (s : State) : State :=
  let s := if tell then sendMsg y.cport 0 (if y.hand then 0x0E else 6) y.node y.tag y.gen (natLe 1 reason) s else s
  let t := onStream y (fun y => { y with aborted := true, opened := false }) (unopen y s)
  if y.hand then t else regAdd (sessPort y.sess) 0xD8314 1 (raiseErr (pushErr s y reason) t)

/-- Abort a session's open pushes because it moves (R382). -/
def movedPushes (sk : Nat) (s : State) : State :=
  (s.streams.filter (fun y => y.sess = sk && ! y.hand && ! y.aborted)).foldl (fun s y => abortStream y 18 true s) s

/-! ### Records in tile messages (R375) -/

/-- The plain tile of a tile message sealed in a domain (R162, R169, R326): none when its seal fails or its CODEC byte is none of
R162, and an inner none when its form is refused. -/
def openTileMsg (s : State) (kd : Nat) (m : Cell) : Option (Option (List Byte)) :=
  let b := m.payload
  let len := leField b 4 2
  let aad := natLe 2 kd ++ b.take 4 ++ natLe 1 (leField b 6 1) ++ natLe 2 len
  if b.length < 48 + len || ! codecValid (leField b 6 1) then none
  else (Config.gcmOpen (byteSlice (kdOf s kd).keys 64 32) (byteSlice b (32 + len) 12) aad (byteSlice b 16 (len + 16))).map
    (decodeTile (leField b 6 1))

/-- A stream's plain tile starts on its way: a tag or state tile is laid at once, another goes by its bay's transom queue
in class T2 (R80, R135). -/
def streamTile (key i : Nat) (bs : List Byte) (s : State) : State :=
  match objOf s key, sessOfObj s key with
  | some o, some (sk, x) =>
    match sessPart o x i with
    | some p => noteLanded sk i (onTile key i (fun t => { t with landed := true }) (layPart sk p bs (cowKeep key i s)))
    | none =>
      if (o.tile i).upTier = 1 then
        onBay (coreBay (addrCore (o.tile i).upAddr)) (fun b => { b with transom := b.transom ++ [⟨2, true, 32, .push key i (objGen s key) bs⟩] }) s
      else s
  | _, _ => s

/-- A tile message of a stream is opened and its tile sent to its slot; one that cannot be aborts the stream, and a refused form
is counted (R169, R379, R385). -/
def takeTile (y : Stream) (key kd : Nat) (m : Cell) (s : State) : State :=
  match openTileMsg s kd m with
  | none => abortStream y 8 true s
  | some none => abortStream y 8 true (countRefusal key s)
  | some (some bs) => streamTile key (leField m.payload 0 4) bs s

/-! ### State pushes (R378 to R382) -/

/-- What a PUSH_OPEN names: function, first position, count. -/
def pushFn (m : Cell) : Nat := leField m.payload 8 1 * 64 + leField m.payload 9 1
def pushFirst (m : Cell) : Nat := leField m.payload 12 4
def pushCount (m : Cell) : Nat := leField m.payload 16 4

/-- The REASON a PUSH_OPEN is refused with (R378). -/
def pushRefused (s : State) (m : Cell) : Option Nat :=
  let b := m.payload
  let fn := pushFn m
  let sk := sessKey fn (leField b 0 8)
  let id : ReqId := ⟨fn, 0, 0, 0, 0, leField b 0 8, fn, false⟩
  let first := pushFirst m
  let count := pushCount m
  let entry := if leField b 8 1 ≤ 1 ∧ leField b 9 1 ≤ 63 then acceptEntry s (leField b 8 1) m.src 30 else none
  if (entry.map (·.1)) ≠ some fn then some 1
  else
    match (if sessSearch s id = 0 then mget? s.sessions sk else none) with
    | none => some 2
    | some x =>
      let d := (pavAt s x.pav).desc
      let cap := match x.place with | .resident n slot => slotCap d (slotKindOf (pavAt s n).desc slot) | _ => 0
      let t := tenantOf s (fnPort fn) x.tenant
      if x.gen ≠ m.gen then some 3
      else if (match x.place with | .resident _ _ => false | _ => true) then some 4
      else if s.streams.any (fun y => y.sess = sk && ! (y.hand && y.aborted)) || sessBlocked s sk x false then some 5
      else if first ≠ x.length ∨ count = 0 ∨ x.lmax ≤ first + count - 1 ∨ cap ≤ first + count - 1
          ∨ (dKvFormat d = 3 ∧ (first % 2048 ≠ 0 ∨ count % 32 ≠ 0)) then some 6
      else if ! t.unlimited && decide (t.budget < count * t.inCost) then some 7
      else none

/-- The tiles of a stream slot that will hold pushed positions join its tail units (R127). -/
def tailPushed (y : Stream) (x : Session) (s : State) : State :=
  match x.place with
  | .resident n slot =>
    let p := pavAt s n
    if slotKindOf p.desc slot ≠ 2 then s
    else
      ((List.range (kvTiles p.desc x.lmax)).filter (fun i => tileHolds p.desc x.lmax i y.first y.count)).foldl (fun s i =>
        let a := sessTilePlace p p.desc x.lmax slot i
        onTile (sessObj y.sess x) i (fun t => if t.upTier = 0 && t.state = .absent then
          { t with upTier := 1, upAddr := nearAddr a.1 a.2, tail := true } else t) s) s
  | _ => s

/-- An accepted open takes effect between frames (R378). -/
def openPush (y : Stream) (s : State) : State :=
  match mget? s.sessions y.sess with
  | none => s
  | some x =>
    let stop := y.first + y.count
    let s := onStream y (fun y => { y with opened := true, oldLen := x.length, oldNext := x.get 0x4C 4 }) (tailPushed y x s)
    let s := writeTags true y.sess x y.first stop (fun _ => 2 ^ 15 + y.segment) s
    match mget? s.sessions y.sess with
    | none => s
    | some x => setSessTile y.sess (((x.set 0x48 4 stop).set 0x4C 4 (2 ^ 31 + y.input)).set 0x64 2 y.segment) s

/-- Opens that wait take effect for sessions that no frame runs (R378). -/
def openPushes (s : State) : State :=
  (s.streams.filter (fun y => ! y.hand && ! y.opened && ! y.aborted
    && ! (mget? s.sessions y.sess).any (inFrame s))).foldl (fun s y => openPush y s) s

/-- PUSH_OPEN (R157, R378): one search decides; the stream opens, or is refused. -/
def execPushOpen (cport : Fin 4) (s : State) : Host.Outcome State Fault Refusal :=
  match takeMsg cport 1 s with
  | none => .next s
  | some (m, s) =>
    let b := m.payload
    let p := leField b 8 1 % 2
    let s := searchNow false (sessDirKey (pushFn m) (leField b 0 8)) (countSearch p s)
    match pushRefused s m with
    | some r =>
      let s := if r = 3 then regAdd p 0xB0010 m.count s else s
      .next (sendMsg cport 0 3 m.src m.tag m.gen (natLe 1 r) s)
    | none =>
      let y : Stream := {
        hand := false, cport := cport, node := m.src, tag := m.tag, gen := m.gen, sess := sessKey (pushFn m) (leField b 0 8)
        first := pushFirst m, count := pushCount m, input := leField b 20 4 % 2 ^ 20, segment := leField b 24 2 % 2 ^ 15
        lead := bitOf (leField b 26 1) 0, layerNs := leField b 28 4, lastAt := s.time }
      .next (openPushes (sendMsg cport 0 2 m.src m.tag m.gen [] { s with streams := s.streams ++ [y] }))

/-- Cells of no open stream: counted for the host port that controls the Celay port. -/
def strayCells (cport : Nat) (m : Cell) (s : State) : State := regAdd (celayCtl s cport) 0xD8318 m.count s

/-- A cell of a stream arrived. -/
def touchStream (y : Stream) (s : State) : Stream × State :=
  ({ y with lastAt := s.time }, onStream y (fun y => { y with lastAt := s.time }) s)

/-- PUSH_DATA (R157, R379, R382): the tile is checked against the stream, opened and sent to its slot. -/
def execPushData (cport : Fin 4) (s : State) : Host.Outcome State Fault Refusal :=
  match takeMsg cport 4 s with
  | none => .next s
  | some (m, s) =>
    match findStream s false cport m with
    | none => .next (strayCells cport m s)
    | some y0 =>
      let (y, s) := touchStream y0 s
      if y.aborted || staleMsg s y m then .next (dropCells y m s)
      else
        match mget? s.sessions y.sess with
        | none => .next (dropCells y m s)
        | some x =>
          let i := leField m.payload 0 4
          if ! tileHolds (pavAt s x.pav).desc x.lmax i y.first y.count then .next (abortStream y 6 true s)
          else .next (takeTile y (sessObj y.sess x) x.kd m s)

/-- Whether every needed tile of every layer of a push has landed (R381). -/
def pushWhole (s : State) (y : Stream) (x : Session) : Bool :=
  (List.range (dLayers (pavAt s x.pav).desc)).all (fun k => (streamTiles s y x k).all y.landed.contains)

/-- PUSH_END (R276, R280, R381): a whole push is charged and closed; one with a tile missing is aborted. -/
def execPushEnd (cport : Fin 4) (s : State) : Host.Outcome State Fault Refusal :=
  match takeMsg cport 5 s with
  | none => .next s
  | some (m, s) =>
    match findStream s false cport m with
    | none => .next (strayCells cport m s)
    | some y =>
      if y.aborted || staleMsg s y m then .next (closeStream y (dropCells y m s))
      else
        match mget? s.sessions y.sess with
        | none => .next (closeStream y (dropCells y m s))
        | some x =>
          let p := sessPort y.sess
          if pushWhole s y x then
            let cost := y.count * (tenantOf s p x.tenant).inCost
            .next (regAdd p 0xD8310 1 (closeStream y (applyCharge (some {
              port := p, tenant := x.tenant, tokensIn := y.count, cost := cost }) s)))
          else .next (abortStream y 9 true (closeStream y s))

/-- PUSH_ABORT (R382, R383): the sender's reason is recorded as received. -/
def execPushAbort (cport : Fin 4) (s : State) : Host.Outcome State Fault Refusal :=
  match takeMsg cport 6 s with
  | none => .next s
  | some (m, s) =>
    match findStream s false cport m with
    | none => .next (strayCells cport m s)
    | some y =>
      if y.aborted then .next (closeStream y (dropCells y m s))
      else .next (abortStream y (leField m.payload 0 1) false (closeStream y s))

/-! ### Leaving a batch slot, leaving the part -/

/-- Free a batch slot; a queued request may take it (R261, R264). -/
def freeBatchSlot (n slot : Nat) (s : State) : State := fillPav n (onPav n (fun p => { p with slots := mdel p.slots slot }) s)

/-- A session's slot is freed, wherever its placement names one. -/
def freeSlotOf (x : Session) (s : State) : State :=
  match x.place with
  | .parked _ _ => s
  | .resident n slot => freeBatchSlot n slot s
  | .migrating n slot => freeBatchSlot n slot s

/-- A session leaves this part: its object closes, its slot is freed and its directory entry deleted. -/
def dropSession (sk : Nat) (x : Session) (id : Option ReqId) (s : State) : State :=
  let s := closeObject (sessObj sk x) s
  let s := { s with sessions := mdel s.sessions sk, streams := s.streams.filter (fun y => ! (y.hand && y.sess = sk)) }
  dirDropSession sk id (freeSlotOf x s)

/-! ### Hand-over to a peer, at the source (R384, R386) -/

/-- The hand-over a message answers: its object. -/
def handJob (s : State) (cport : Nat) (m : Cell) : Option (Nat × Job) :=
  s.jobs.find? (fun j => match j.2 with
    | .handOver _ c node tag _ _ _ _ => c = cport && node = m.src && tag = m.tag
    | _ => false)

/-- A hand-over ends before the peer took the session: nothing has changed (R386). -/
def handFail (key : Nat) (id : ReqId) (detail : Nat) (status : Option Nat) (info : Nat) (s : State) : State :=
  complete id detail status info (endJob key s)

/-- A hand-over is over: the old placement is released, and the completion posted (R159 stage 5, R386). -/
def handOver (key : Nat) (id : ReqId) (detail : Nat) (status : Option Nat) (s : State) : State :=
  match sessOfObj s key with
  | none => endJob key s
  | some (sk, x) => dropSession sk x none (complete id detail status 0 (endJob key s))

/-- Whether a session's tile goes to the peer: one with a copy (R384). -/
def sendable (t : Tile) : Bool := t.state ≠ .absent && t.state ≠ .failed

/-- HAND_ACCEPT (R156, R159, R384): stage 2 begins: the generation advances, the directory entry is marked migrating, and
the session leaves its batch. -/
def execHandAccept (cport : Fin 4) (s : State) : Host.Outcome State Fault Refusal :=
  match takeMsg cport 9 s with
  | none => .next s
  | some (m, s) =>
    match handJob s cport m with
    | some (key, .handOver id c node tag fence since false posted) =>
      match sessOfObj s key with
      | none => .next s
      | some (sk, x) =>
        let gen := (x.gen + 1) % 65536
        let s := movedPushes sk s
        let s := onSess sk (fun x => { x with gen := gen, place := match x.place with | .resident n k => .migrating n k | p => p }) s
        let s := { s with jobs := mput s.jobs key (.handOver id c node tag (s.time + fence) since true posted) }
        .next (dirSetSession sk (fun r => { r with state := 3, tier := 0, gen := gen }) none s)
    | _ => .next s

/-- HAND_REFUSE (R386): 13 gives NO_SLOT, 14 LENGTH_EXCEEDS, and any other reason PEER_REFUSED. -/
def execHandRefuse (cport : Fin 4) (s : State) : Host.Outcome State Fault Refusal :=
  match takeMsg cport 0x0A s with
  | none => .next s
  | some (m, s) =>
    match handJob s cport m with
    | some (key, .handOver id _ _ _ _ _ false _) =>
      let r := leField m.payload 0 1
      if r = 13 then .next (handFail key id 0x21 (some 7) 0 s)
      else if r = 14 then .next (handFail key id 0x27 none 0 s)
      else .next (handFail key id 0xA0 none 0 s)
    | _ => .next s

/-- HAND_DONE (R384): the peer holds every tile; the old placement drains once no push of the old generation is open. -/
def execHandDone (cport : Fin 4) (s : State) : Host.Outcome State Fault Refusal :=
  match takeMsg cport 0x0D s with
  | none => .next s
  | some (m, s) =>
    match handJob s cport m with
    | some (key, .handOver id c node tag fence since true _) =>
      .next { s with jobs := mput s.jobs key (.handOver id c node tag fence since true true) }
    | _ => .next s

/-- A hand-over's link is lost or the peer aborts it (R386). -/
def handCut (key : Nat) (j : Job) (s : State) : State :=
  match j with
  | .handOver id _ _ _ _ _ true _ => handOver key id 0xA2 (some 8) s
  | .handOver id _ _ _ _ _ false _ => handFail key id 0xA1 none 0 s
  | _ => s

/-- HAND_ABORT (R382, R385, R386): at the source, HANDOVER_CUT; at the receiver, tiles that have not landed are lost. -/
def execHandAbort (cport : Fin 4) (s : State) : Host.Outcome State Fault Refusal :=
  match takeMsg cport 0x0E s with
  | none => .next s
  | some (m, s) =>
    match findStream s true cport m, handJob s cport m with
    | some y, _ => .next (abortStream y (leField m.payload 0 1) false s)
    | none, some (key, j) => .next (handCut key j s)
    | none, none => .next s

/-! ### Hand-over from a peer, at the receiver (R385) -/

/-- The host port, function and pavilion that accept a sender's hand-overs: port A's entries first. -/
def handEntry (s : State) (sender : Nat) : Option (Nat × Nat) :=
  ([0, 1] : List Nat).findSome? (fun p => acceptEntry s p sender 29)

/-- The model slot of a pavilion that holds a model of a digest. -/
def modelOf (p : Pav) (digest : List Byte) : Option Nat := (p.models.find? (fun m => m.2.digest = digest)).map (·.1)

/-- The REASON an offer is refused with (R385). Its fields name no table: `tables` says that a table the state tile will
name is not loaded. -/
def handRefused (s : State) (m : Cell) (tables : Bool) : Option Nat :=
  let b := m.payload
  match handEntry s m.src with
  | none => some 1
  | some (fn, n) =>
    let p := pavAt s n
    let kind := leField b 10 1
    if ! kdUsable s fn (leField b 8 2) then some 10
    else if p.port ≠ fnPort fn ∨ modelOf p (byteSlice b 24 32) = none then some 11
    else if tables then some 12
    else if freeSlots p kind = [] ∨ mapRoom s 1 = false ∨ mapPick s = none then some 13
    else if slotCap p.desc kind < leField b 16 4 then some 14
    else
      match dirAccept s (fnPort fn) false (sessDirKey fn (leField b 0 8)) (fullCare false) with
      | .inl _ => some 15
      | .inr _ => none

/-- An object number not in use under a function: the part's choice. -/
def newObject (s : State) (fn : Nat) : Nat :=
  let pick (i : Nat) : Nat := (Config.freeChoice s.free + i) % 2 ^ 64
  pick (((List.range (s.objects.length + 1)).find? (fun i => (objOf s (objKey fn (pick i))).isNone)).getD 0)

/-- Accept an offer (R385): the session is resident in a slot of the part's choice, each tile ABSENT with its slot
reserved. -/
def handTake (cport : Nat) (m : Cell) (s : State) : State :=
  let b := m.payload
  match handEntry s m.src with
  | none => s
  | some (fn, n) =>
    let p := pavAt s n
    match choose (freeSlots p (leField b 10 1)) s, mapPick s,
        dirAccept s (fnPort fn) false (sessDirKey fn (leField b 0 8)) (fullCare false) with
    | some slot, some map, .inr row =>
      let sk := sessKey fn (leField b 0 8)
      let lmax := leField b 12 4
      let num := newObject s fn
      let kd := leField b 8 2
      let ten := fnTenant s fn
      let model := (modelOf p (byteSlice b 24 32)).getD 0
      let ntiles := kvTiles p.desc lmax + tagTiles lmax + 1
      let len := leField b 16 4
      let tiles := (List.range ntiles).map (fun i =>
        (i, placeTile p p.desc lmax len slot (ntiles - 1) map i { kd := kd }))
      let x : Session := {
        object := num, home := n, slotKind := leField b 10 1, lmax := lmax, modelSlot := model, kd := kd, tenant := ten
        gen := m.gen, place := .resident n slot, mapSlot := some map, reviveAt := some s.time }
      let x := Session.set { x with tile := openTile (leField b 0 8) 0xFFFF } 0x48 4 len
      let d : DirRec := { state := 1, tier := 1, gen := m.gen, kd := kd, tenant := ten, pav := n, model := model, slot := slot, object := num }
      let y : Stream := { hand := true, cport := cport, node := m.src, tag := m.tag, gen := m.gen, sess := sk
                          tiles := leField b 20 4, lastAt := s.time }
      let s := { drew s with sessions := mput s.sessions sk x, streams := s.streams ++ [y]
                             objects := mput s.objects (objKey fn num) { kind := .session, kd := kd, ntiles := ntiles, tiles := tiles } }
      let s := onPav n (fun p => { p with
        slots := mput p.slots slot { sess := sk, placedAt := p.placed }, placed := p.placed + 1 }) (bankTenant n ten s)
      dirWrite { row := row, entry := { key := sessDirKey fn (leField b 0 8), care := fullCare false, data := d }, insert := true } s
    | _, _, _ => s

/-- HAND_OFFER (R377, R385). -/
def execHandOffer (cport : Fin 4) (tables : Bool) (s : State) : Host.Outcome State Fault Refusal :=
  match takeMsg cport 8 s with
  | none => .next s
  | some (m, s) =>
    match handRefused s m tables with
    | some r => .next (sendMsg cport 0 0x0A m.src m.tag m.gen (natLe 1 r) s)
    | none =>
      let p := match handEntry s m.src with | none => 0 | some e => fnPort e.1
      .next (sendMsg cport 0 9 m.src m.tag m.gen [] (regAdd p 0xD831C 1 (handTake cport m s)))

/-- HAND_DATA (R375, R385): the tile is opened and sent to its slot. -/
def execHandData (cport : Fin 4) (s : State) : Host.Outcome State Fault Refusal :=
  match takeMsg cport 0x0B s with
  | none => .next s
  | some (m, s) =>
    match findStream s true cport m with
    | none => .next (strayCells cport m s)
    | some y0 =>
      let (y, s) := touchStream y0 s
      match mget? s.sessions y.sess with
      | none => .next (strayCells cport m s)
      | some x =>
        if staleMsg s y m then .next (dropCells y m s)
        else .next (takeTile y (sessObj y.sess x) x.kd m s)

/-- HAND_END (R384): the sender has sent every tile. -/
def execHandEnd (cport : Fin 4) (s : State) : Host.Outcome State Fault Refusal :=
  match takeMsg cport 0x0C s with
  | none => .next s
  | some (m, s) =>
    match findStream s true cport m with
    | none => .next (strayCells cport m s)
    | some y => .next (onStream y (fun y => { y with ended := true, lastAt := s.time }) s)

/-- STREAM_IDLE_TIMEOUT (R382, R386): no cell of a stream has come for its port's idle limit, or no answer to an offer. -/
def execStreamIdleTimeout (cport : Fin 4) (tag : Nat) (s : State) : Host.Outcome State Fault Refusal :=
  match s.streams.find? (fun y => y.cport = cport.val && y.tag = tag && ! (y.hand && y.aborted)
      && decide (y.lastAt + streamIdle s (sessPort y.sess) ≤ s.time)) with
  | some y =>
    if y.aborted then .next (closeStream y s)
    else if y.hand then .next (abortStream y 16 true s)
    else .next (abortStream y 16 true (closeStream y s))
  | none =>
    match s.jobs.find? (fun j => match j.2 with
      | .handOver _ c _ t _ since false _ => c = cport.val && t = tag && decide (since + streamIdle s (objPort j.1) ≤ s.time)
      | _ => false) with
    | some (key, j) => .next (handCut key j s)
    | none => .next s

/-! ### Pool transactions (R387) -/

/-- The transaction a message answers. -/
def poolOf (s : State) (cport : Nat) (tag : Nat) : Option PoolTx := s.pools.find? (fun x => x.cport = cport && x.tag = tag)

/-- A transaction that waited and cannot be opened any more fails (R140, R299). -/
def poolLost (w : PoolWait) (s : State) : State :=
  match w.snap with
  | some _ => snapFail (fnPort w.fn) s
  | none => settle w.key (failTransfer w.key w.tile 4 s)

/-- A transaction is over, and the next that waits for its host port is opened (R387). -/
def endPool (x : PoolTx) (s : State) : State :=
  let s := { s with pools := s.pools.filter (· ≠ x) }
  match s.poolWait.find? (fun w => fnPort w.fn = x.port) with
  | none => s
  | some w =>
    let s := { s with poolWait := s.poolWait.erase w }
    (poolOpen w s).getD (poolLost w s)

/-- A record that a restore wrote to the pool is sent again (R140, R387). -/
def resendPool (x : PoolTx) (t : Tile) (y : Stored) (s : State) : State :=
  let s := onTile x.obj x.tile (fun t => { t with retried := true }) (regAdd x.port 0xD8320 1 s)
  (poolSend x.obj x.tile true true t.lower (sealUnder s y.inst y.kd y.tile y.codec y.bytes y.counter) s).getD
    (settle x.obj (failTransfer x.obj x.tile 4 s))

/-- A transaction fails (R140, R387): its one retry goes by the next port, counted in CLY_POOL_RETRIES. -/
def failPool (x : PoolTx) (s : State) : State :=
  match x.snap with
  | some part => snapMiss x.port part (endPool x s)
  | none =>
    let t := tileOf s x.obj x.tile
    match if x.write && ! x.retried && ! t.owesWrite && t.loTier = 5 then spotRead s (x.obj / 2 ^ 64) t.lower else none with
    | some y => resendPool x t y (endPool x s)
    | none =>
      let s := if t.retried then s else regAdd x.port 0xD8320 1 s
      settle x.obj (failTransfer x.obj x.tile 4 (endPool x s))

/-- POOL_WRITE_ACK (R139, R387): the record is held in the pool's memory. -/
def execPoolWriteAck (cport : Fin 4) (s : State) : Host.Outcome State Fault Refusal :=
  match takeMsg cport 0x11 s with
  | none => .next s
  | some (m, s) =>
    match poolOf s cport m.tag with
    | some x =>
      match x.snap with
      | some part => .next (snapAck x.port part (endPool x s))
      | none => if x.write then .next (ackWrite x.obj x.tile (endPool x s)) else .next s
    | none => .next s

/-- POOL_READ_DATA (R326, R387): the record's granules, opened; short data fails, and so does a seal or a form that does. -/
def execPoolReadData (cport : Fin 4) (s : State) : Host.Outcome State Fault Refusal :=
  match takeMsg cport 0x13 s with
  | none => .next s
  | some (m, s) =>
    match poolOf s cport m.tag with
    | none => .next s
    | some x =>
      let t := tileOf s x.obj x.tile
      if x.write then .next s
      else if m.payload.length < 256 * x.gran then .next (failPool x s)
      else
        match (spotRead s (x.obj / 2 ^ 64) t.lower).map (fun y => openRecord s y (m.payload.take (256 * x.gran))) with
        | none => .next (settle x.obj (failTransfer x.obj x.tile 4 (endPool x s)))
        | some (.inl c) =>
          .next (settle x.obj (failTransfer x.obj x.tile c (endPool x (if c = 5 then countRefusal x.obj s else s))))
        | some (.inr bs) => .next (fetchOut x.obj x.tile bs (endPool x s))

/-- POOL_ERROR (R387). -/
def execPoolError (cport : Fin 4) (s : State) : Host.Outcome State Fault Refusal :=
  match takeMsg cport 0x14 s with
  | none => .next s
  | some (m, s) =>
    match poolOf s cport m.tag with
    | none => .next s
    | some x => .next (failPool x s)

/-- POOL_TIMEOUT (R387): no answer within POOL_TIMEOUT_US. -/
def execPoolTimeout (tag : Nat) (s : State) : Host.Outcome State Fault Refusal :=
  match s.pools.find? (fun x => x.tag = tag && decide (x.since + 1000 * max 1 (regGet s x.port 0xD8300 % 65536) ≤ s.time)) with
  | none => .next s
  | some x => .next (failPool x s)

end Sys2Proof.Machine
end

