-- ==== Sys2Proof/Machine/CelayPort.lean ====
section
/-! DEFINITION. Celay ports as links (R368, R388 to R391): receiving flits, bring-up, the spare lane, and going down. -/

namespace Sys2Proof.Machine

/-- Whether a host port controls a Celay port and its function is the physical one (R391). -/
def clyController (s : State) (f : Fn) (p : Nat) : Bool := f.isPf && celayCtl s p = f.port.idx

/-- The first data offset of a Celay port's block. -/
def clyOff (p off : Nat) : Nat := 0xD0000 + 0x1000 * p + off

/-- A port goes down (R382, R386, R387, R390): its pushes abort, its hand-overs end, its pool transactions fail, and its
queued cells are discarded. `lane` is the lane named in the record, 0xFF for none. -/
def portDown (p state lane : Nat) (s : State) : State :=
  let s := raiseErr { source := srcId 6 p, cls := 4, code := 0x29, unit := lane } s
  let s := onCly p (fun x => { x with
    state := state, downAt := s.time, nak := false, swap := false, txSeq := 0, rxSeq := 4095, replay := [], resend := [], fails := 0
    credits := [], owed := [], queues := [] }) s
  let s := (s.streams.filter (fun y => y.cport = p && ! y.aborted)).foldl (fun s y => abortStream y 17 false s) s
  let hands := s.jobs.filter (fun j => match j.2 with | .handOver _ c _ _ _ _ _ _ => c = p | _ => false)
  let s := hands.foldl (fun s j => handCut j.1 j.2 s) s
  let s := (s.pools.filter (fun x => x.cport = p)).foldl (fun s x => failPool x s) s
  onCly p (fun x => { x with queues := [] }) s

/-- A port is disabled (R388, R390): one that is up goes down. -/
def clyDisable (p : Nat) (s : State) : State :=
  if clyUp s p then portDown p 0 0xFF s else onCly p (fun x => { x with state := 0 }) s

/-- FLIT_RECEIVE (R368, R369, R374): a flit whose codewords correct (`flit`, none when one does not), whose CRC matches
and whose SEQ is next is accepted; any other is answered with a NAK. Eight failed replays of one flit take the port down. -/
def execFlitReceive (cport : Fin 4) (flit : Option (List Byte)) (corrected : Nat) (s : State) :
    Host.Outcome State Fault Refusal :=
  if ! clyUp s cport then .next s
  else
    let s := clyAdd cport 0x100 corrected s
    match flit with
    | none => .next (onCly cport (fun x => { x with nak := true }) s)
    | some b =>
      if ! flitGood (clyAt s cport) b then .next (onCly cport (fun x => { x with nak := true }) s)
      else
        let s := takeFlit cport b s
        let s := if bitOf (leField b 5 1) 0 then onCly cport (fun x => { x with resend := x.replay }) s else s
        .next (if 9 ≤ (clyAt s cport).fails then portDown cport 3 0xFF s else s)

/-- CELAY_ENABLE (R388, R391): ENABLE written 1 while it is 0: bring-up begins. -/
def execCelayEnable (f : Fn) (cport : Fin 4) (v : Word) (s : State) : Host.Outcome State Fault Refusal :=
  if clyController s f cport && responds s (clyOff cport 0) && bitOf v.toNat 0 && ! bitOf (clyReg s cport 0) 0 then
    .next (onCly cport (fun x => { x with state := 1 })
      (regOr 0 (clyOff cport 0) 1 (setFields f.port.idx (clyOff cport 0) v.toNat s)))
  else .next s

/-- CELAY_DISABLE (R390, R391): ENABLE written 0 while it is 1: a port that is up goes down, and it stays disabled. -/
def execCelayDisable (f : Fn) (cport : Fin 4) (v : Word) (s : State) : Host.Outcome State Fault Refusal :=
  if clyController s f cport && responds s (clyOff cport 0) && ! bitOf v.toNat 0 && bitOf (clyReg s cport 0) 0 then
    .next (clyDisable cport (regClear 0 (clyOff cport 0) 1 (setFields f.port.idx (clyOff cport 0) v.toNat s)))
  else .next s

/-- The receive share of a class in cells (R370, CLY_RX_SHARE): a total above 32 acts as the reset value. -/
def rxShare (s : State) (p t : Nat) : Nat :=
  let v := clyReg s p 0xC
  let total := sumNat ((List.range 8).map (fun i => v / 16 ^ i % 16))
  128 * (if 32 < total then 4 else v / 16 ^ t % 16)

/-- The lane the spare stands for when the lowest eight lanes that pass are in service: 15 for none. -/
def spareFor (lanes : Nat) : Nat := (firstBelow 8 (fun l => ! bitOf lanes l)).getD 15

/-- CELAY_LINK_UP (R370, R388): a port in training takes the lowest eight of the lanes that passed and comes up,
advertising its receive share; with fewer than eight it is down. -/
def execCelayLinkUp (cport : Fin 4) (lanes : BitVec 9) (s : State) : Host.Outcome State Fault Refusal :=
  let n := ((List.range 9).filter (fun l => bitOf lanes.toNat l)).length
  if (clyAt s cport).state ≠ 1 then .next s
  else if n < 8 then
    .next (onCly cport (fun x => { x with state := 3, lanesOk := lanes.toNat, downAt := s.time }) s)
  else
    .next (onCly cport (fun x => { x with
      state := 2, lanesOk := lanes.toNat, outLane := spareFor lanes.toNat, rxSeq := 4095, txSeq := 0, nak := false
      swap := false, replay := [], resend := [], fails := 0, credits := [], rx := []
      owed := ((List.range 8).map (fun t => (t, rxShare s cport t))).filter (fun c => decide (c.2 ≠ 0)) }) s)

/-- CELAY_BRINGUP_RETRY (R388): a port that is down tries again every 100 ms while ENABLE is 1. -/
def execCelayBringupRetry (cport : Fin 4) (s : State) : Host.Outcome State Fault Refusal :=
  let x := clyAt s cport
  if x.state = 3 && bitOf (clyReg s cport 0) 0 && decide (x.downAt + 100000000 ≤ s.time) then
    .next (onCly cport (fun x => { x with state := 1 }) s)
  else .next s

/-- Whether a lane carries traffic. -/
def laneUsed (x : CelayPort) (l : Nat) : Bool := if x.outLane = 15 then decide (l < 8) else decide (l ≠ x.outLane)

/-- LANE_SWAP (R389): a lane in service loses lock or exceeds LANE_LIMIT: its traffic moves to the spare and every
unacknowledged flit is replayed; with the spare in service or bad, the port goes down. -/
def execLaneSwap (cport : Fin 4) (lane : Fin 9) (s : State) : Host.Outcome State Fault Refusal :=
  let x := clyAt s cport
  if x.state ≠ 2 || ! laneUsed x lane then .next s
  else if x.outLane ≠ 15 || ! bitOf x.lanesOk 8 then .next (portDown cport 3 lane s)
  else .next (clyAdd cport 0x10C 1 (onCly cport (fun x => { x with outLane := lane, swap := true, resend := x.replay }) s))

end Sys2Proof.Machine
end

