-- ==== Sys2Proof/Machine/Contain.lean ====
section
/-! DEFINITION. Containment (R18, R443 to R445, R452 to R457): fenced bays, withdrawn sites, engines and their spares, the
module fault, the error log's places, storms and mutes, and the scrubbers. -/

namespace Sys2Proof.Machine

/-! ### Engines (R20, R457) -/

/-- The engine type of an error source kind, as the table of R439 numbers it. -/
def engineKind : EngineKind → Nat
  | .shutter => 3
  | .intake => 7
  | .louver => 8
  | .crypto => 9

/-- Physical engines of a type. -/
def engineCount (kind : Nat) : Nat := if kind = 3 then 33 else if kind = 7 then 17 else 9

/-- The value of a type's spare field once no spare is left (R495). -/
def noSpare (kind : Nat) : Nat := if kind = 3 then 0x3F else if kind = 7 then 0x1F else 0xF

/-- The physical engine of a type held as spare. -/
def Spares.of (x : Spares) (kind : Nat) : Nat :=
  if kind = 3 then x.shutter else if kind = 7 then x.intake else if kind = 8 then x.louver else x.crypto

/-- A type's spare is taken into service. -/
def Spares.take (x : Spares) (kind : Nat) : Spares :=
  if kind = 3 then { x with shutter := noSpare 3 } else if kind = 7 then { x with intake := noSpare 7 }
  else if kind = 8 then { x with louver := noSpare 8 } else { x with crypto := noSpare 9 }

/-- Whether a physical engine is in service. -/
def engineUsed (s : State) (kind e : Nat) : Bool :=
  decide (e < engineCount kind) && decide (e ≠ s.spares.of kind) && ! s.spares.out.contains (kind, e)

/-- The in-service count of an engine type. -/
def engineService (s : State) (kind : Nat) : Nat := ((List.range (engineCount kind)).filter (engineUsed s kind)).length

/-- An engine leaves service (R457): the spare takes its place, or the in-service count falls. -/
def engineOut (kind e : Nat) (s : State) : State :=
  if ! engineUsed s kind e then s
  else
    let sp := s.spares.of kind
    let out := s.spares.out ++ [(kind, e)]
    if sp = noSpare kind then
      raiseErr { source := srcId kind e, cls := 3, code := 0x17 } { s with spares := { s.spares with out := out } }
    else
      raiseErr { source := srcId kind e, cls := 3, code := 0x16, spare := sp }
        { s with spares := { s.spares.take kind with out := out } }

/-- ENGINE_SPARE_SWITCH (R457): an engine fails, and at its next command boundary the spare takes its place; the command in
progress is retried elsewhere with the same result. -/
def execEngineSpareSwitch (kind : EngineKind) (engine : Nat) (s : State) : Host.Outcome State Fault Refusal :=
  .next (engineOut (engineKind kind) engine s)

/-! ### Bays (R407, R455) -/

/-- A bay's cores lose their pane stores, registers and accumulators (R407): their contents are free values. -/
def loseCores (b : Nat) (s : State) : State :=
  let n := s.free + 1
  { s with free := n, cores := (List.range 512).foldl (fun m j => mput m (512 * b + j) { lost := n }) s.cores }

/-- The repair list entry of a fenced bay (R18, R459): the core whose errors fenced it, when that core's column can still be
repaired, and otherwise the bay. -/
def fenceRepair (pbay core : Nat) (s : State) : State :=
  let free := match s.trellis with | none => false | some t => t.coreMap.getD (32 * pbay + core % 32) 0xFF = 0xFF
  if core ≠ 0xFFFF ∧ free = true then addRepair pbay 7 core (core / 32) 0xFFFF s else addRepair pbay 8 0 pbay 0xFFFF s

/-- A bay is fenced (R455): the frame of its group stops, and the bay is held in rest. `core` is the core whose errors fence it,
0xFFFF for none. -/
def fenceBay (pbay core : Nat) (s : State) : State :=
  match (List.range 20).find? (fun b => physBay s b = pbay && ! (bayAt s b).fenced) with
  | none => s
  | some b =>
    let s := match frameOf s b with | none => s | some (key, f) => setFrame key { f with stopped := true } s
    let s := loseCores b (onBay b (fun x => { x with fenced := true, power := .rest, hatch := false }) s)
    raiseErr { source := srcId 1 pbay, cls := 3, code := 0x19, pbay := pbay, lbay := b } (fenceRepair pbay core s)

/-! ### Sites and the hub -/

/-- A far site is withdrawn (R454): it allocates nothing more, and what its slots hold can no longer be read. -/
def withdrawSite (site : Nat) (s : State) : State :=
  if s.farOut.contains site then s
  else { s with farOut := s.farOut ++ [site],
                far := s.far.map (fun x => if x.1 % farSites s = site then (x.1, { x.2 with intact := false }) else x) }

/-- A module fault (R456): the ports fetch and post nothing more, every bay is held in reset, and ERR_FATAL names the source
and code. -/
def moduleFault (src code : Nat) (s : State) : State :=
  let held (b : Nat × Bay) : Nat × Bay := (b.1, { b.2 with power := if b.2.power = .off then .off else .rest, hatch := false })
  let s := { s with hub := { s.hub with stopped := true }, frames := [], bays := s.bays.map held }
  regSet 0 0x20030 (2 ^ 31 + src * 256 + code) s

/-- An error that stops the module (R440, R456). -/
def hubFault (detail : Nat) (s : State) : State :=
  moduleFault (srcId 0xB 0) 0x38 (raiseErr { source := srcId 0xB 0, cls := 6, code := 0x38, detail := detail } s)

/-! ### The error log (R443, R444) -/

/-- The containment action of an escalated source (R444). -/
def contain (src : Nat) (s : State) : State :=
  let inst := src % 256
  match src / 256 with
  | 1 => fenceBay inst ((errSource s src).service.elim 0xFFFF (·.core)) s
  | 2 => withdrawSite inst s
  | 3 => engineOut 3 inst s
  | 4 => match (List.range 64).find? (fun b => physBlock s b = inst) with | none => s | some b => blockFails b s
  | 6 => portDown inst 3 0xFF s
  | 7 => engineOut 7 inst s
  | 8 => engineOut 8 inst s
  | 9 => engineOut 9 inst s
  | 0xB => moduleFault src ((errSource s src).service.elim 0x38 (·.code)) s
  | _ => s

/-- Whether the event that a record stays in service for is still to come (R443). The entries of a failed directory block move
as it fails, so a record of one lost waits for nothing. -/
def recordWaits (s : State) (r : ErrRec) : Bool :=
  if r.code = 0x14 then s.dir.spareCopy.isSome
  else if r.code = 0x19 then s.frames.any (fun f => f.2.bays.contains r.lbay)
  else r.cls = 2 && decide (r.code ≠ 0x15) && s.frames.any (fun f => decide (f.2.start ≤ r.time) && (r.lbay = 0xFF || f.2.bays.contains r.lbay))

/-- ERROR_RECORD_RETIRE (R443, R444): 200 ns after its detection and the event it waits for, the record in service leaves,
the pending one takes its place and is delivered, and an escalation's action is taken. -/
def execErrorRecordRetire (source : Nat) (s : State) : Host.Outcome State Fault Refusal :=
  let x := errSource s source
  match x.service with
  | none => .next s
  | some r =>
    if s.time < r.time + 200 || (! x.escalate && recordWaits s r) then .next s
    else
      let t := setErrSource source { x with service := x.pending, pending := none, escalate := false } s
      let t := match x.pending with | none => t | some p => deliverErr p t
      .next (if x.escalate then contain source t else t)

/-- ERROR_MUTE_END (R444): 100 ms after the last overflow a muted source is heard again. -/
def execErrorMuteEnd (source : Nat) (s : State) : Host.Outcome State Fault Refusal :=
  let x := errSource s source
  match x.mutedSince with
  | none => .next s
  | some t => .next (if s.time < t + 100000000 then s else setErrSource source { x with mutedSince := none } s)

/-- ERR_POP (R445): the record shown leaves the port's queue. A write that sets POP while the region does not respond has no
effect (R401). -/
def execErrPop (port : Port) (s : State) : Host.Outcome State Fault Refusal :=
  let q := errQueue s port.idx
  .next (if responds s 0x20008 then setErrQueue port.idx { q with recs := q.recs.drop 1 } s else s)

/-! ### Clocks (R438) -/

/-- HUB_CLOCK_FAULT (R438): the PLL off by more than 500 ppm or unlocked is a module fault; ACLK off by more than 1,000 ppm
writes a record and sets ACLK_SUSPECT. -/
def execHubClockFault (fault : HubClock) (s : State) : Host.Outcome State Fault Refusal :=
  match fault with
  | .pll ppm => .next (if 500 < ppm then hubFault 1 s else s)
  | .pllLost => .next (hubFault 1 s)
  | .aclk ppm =>
    .next (if 1000 < ppm then
      raiseErr { source := srcId 0xA 0, cls := 5, code := 0x32, detail := ppm % 2 ^ 32 } (regOr 0 0xF0000 (2 ^ 31) s)
      else s)

/-! ### Scrubbing (R452 to R454) -/

/-- The far channel of a line: slots are striped over the sites, and a slot's lines over its site's channels (R134). -/
def farChannel (s : State) (slot line : Nat) : Nat := slot % farSites s * 4 + line % 4

/-- CORRECTED_LINE_REWRITE (R452, R458, R459, R489): the scrubber rewrites a line that was corrected and raises its record; a
far line counts in FAR_CORRECTED. A line that errs again names a weak element for repair. -/
def execCorrectedLineRewrite (place : LinePlace) (corrected : Nat) (again : Option RepairElem) (s : State) :
    Host.Outcome State Fault Refusal :=
  match place with
  | .near k line =>
    let e := bayErr s k 3 0x12
    let s := raiseErr { bayErr s k 0 1 with addr := line, detail := corrected } s
    match again with
    | none => .next s
    | some x =>
      .next (addRepair e.pbay x.kind e.core x.element 0xFFFF
        (raiseErr { e with hint := true, element := x.element, detail := x.kind } s))
  | .far slot line =>
    let e : ErrRec := { source := srcId 2 (slot % farSites s), cls := 0, code := 3, unit := farChannel s slot line,
                        addr := slot, detail := line }
    let s := raiseErr e (regAdd 0 0xE0008 1 s)
    match again with
    | none => .next s
    | some x => .next (raiseErr { e with cls := 3, code := 0x12, hint := true, element := x.element, detail := x.kind } s)

/-- NEAR_SCRUB_READ (R446, R447, R453): the patrol reads the bay's next line, in the last HUB_BOND cycle of a span of a frame
or in a free bond cycle. `bad` is what it found: a corrected line is queued for rewriting, an uncorrectable one is lost. -/
def execNearScrubRead (bay : Fin 20) (bad : Option LineRead) (s : State) : Host.Outcome State Fault Refusal :=
  let x := bayAt s bay
  if x.fenced || (x.power ≠ .run && x.power ≠ .doze) then .next s
  else
    let n := x.scrub
    let s := onBay bay (fun x => { x with scrub := (n + 1) % (512 * sliverLines) }) s
    let k := 512 * bay + n / sliverLines
    .next (if bad = some .uncorrectable then lineLost k (n % sliverLines) s else s)

/-- A line of a far slot is found uncorrectable (R454, R489): it counts in FAR_UNCORRECTABLE and takes a free slot out of the pool
until the next module reset; in an allocated slot its contents are lost. -/
def farSlotLost (n line : Nat) (s : State) : State :=
  match mget? s.far n with
  | none => if farPool s ≤ n then { s with farGone := s.farGone ++ [n] } else s
  | some x =>
    let e : ErrRec := {
      source := srcId 2 (n % farSites s), cls := 2, code := 4, unit := farChannel s n line, addr := n
      ref := x.object % 2 ^ 64, tile := x.tile, kd := x.kd, detail := line }
    raiseErr e { s with far := mput s.far n { x with intact := false } }

/-- FAR_SCRUB_READ (R454): the far patrol reads the next slot; `bad` is what it found in a line. -/
def execFarScrubRead (bad : Option LineRead) (line : Fin 256) (s : State) : Host.Outcome State Fault Refusal :=
  if farTotal s = 0 then .next s
  else
    let n := s.farScrub % farTotal s
    let s := farAccess n { s with farScrub := (n + 1) % farTotal s }
    .next (if bad = some .uncorrectable then farSlotLost n line (regAdd 0 0xE0010 1 s) else s)

end Sys2Proof.Machine
end

