-- ==== Sys2Proof/Machine/Holds.lean ====
section
/-! DEFINITION. What a hold does (R95 to R99, R437): the refreshes it serves, the clocks it switches, and a hold that falls between
two frames. -/

namespace Sys2Proof.Machine

/-- A register of a bay's BAY_ region. -/
def bayReg (s : State) (b off : Nat) : Nat := 0x1000000 + physBay s b * 0x100000 + off

/-- One refresh is served (R95). -/
def serveRefresh (b : Nat) (s : State) : State := onBay b (fun x => { x with owed := x.owed - 1 }) s

/-- A bay switches to its other clock generator (R437, R495). -/
def switchClock (bay : Nat) (s : State) : State :=
  let pb := physBay s bay
  let gen := b2n (bitOf s.spares.clocks pb)
  let s := { s with spares := { s.spares with clocks := setBits s.spares.clocks pb pb (1 - gen) } }
  let s := onBay bay (fun b => { b with clockBad := false, clockOut := b.clockOut ++ [gen] }) s
  regAdd 0 0xF0030 1 (raiseErr { source := srcId 1 pb, cls := 3, code := 0x18, pbay := pb, lbay := bay, detail := 1 - gen } s)

/-- The freeze of the hold that is due (R96 to R98): its length is its longest request's; owed refreshes are served and clocks
switched inside it. -/
def beginHold (key : Nat) (f : Frame) (s : State) : State :=
  match f.requests with
  | [] => s
  | r :: rs =>
    let len := (r :: rs).foldl (fun m x => max m x.length) 0
    let s := setFrame key { f with
      cycle := r.freezeAt, requests := [], serving := r :: rs, hold := some { r with length := len } } s
    let s := (r :: rs).foldl (fun s x => regSet 0 (bayReg s x.bay 0x90010) (r.freezeAt % 2 ^ 32) s) s
    let s := if (r :: rs).any (fun x => x.cause = 1) then f.bays.foldl (fun s b => serveRefresh b s) s else s
    ((r :: rs).filter (fun x => x.cause = 4)).foldl (fun s x => if (bayAt s x.bay).clockBad then switchClock x.bay s else s) s

/-- Whether the holds a frame's bays have requested would freeze it after its last bundle: they fall between frames (R96, R99). -/
def Frame.lateHolds (f : Frame) : Bool := f.requests ≠ [] && f.requests.all (fun r => decide (f.length ≤ r.freezeAt))

/-- The holds that fall between frames, as the frame ends (R95, R98 to R100): they lengthen nothing and are no slip. -/
def endHolds (f : Frame) (s : State) : State :=
  if ! f.lateHolds then s
  else
    let len := f.requests.foldl (fun m x => max m x.length) 0
    let s := f.bays.foldl (fun s b => regAdd 0 (bayReg s b 0x90018) len s) s
    let s := if f.requests.any (fun x => x.cause = 1) then f.bays.foldl (fun s b => serveRefresh b s) s else s
    (f.requests.filter (fun x => x.cause = 4)).foldl (fun s x => if (bayAt s x.bay).clockBad then switchClock x.bay s else s) s

end Sys2Proof.Machine
end

