-- ==== Sys2Proof/Machine/TierRows.lean ====
section
/-! DEFINITION. Requests that move sessions and objects between tiers (R130, R131, R144 to R149, R156 to R160, R347,
R384, R497), and the ends of their work. -/

namespace Sys2Proof.Machine

/-- Queue a change of a session's directory record with the completion of a request; a session with no entry left
completes at once. -/
def dirSetDone (sk : Nat) (f : DirRec → DirRec) (id : ReqId) (s : State) : State :=
  if (dirExact s false (sessDirKey (sk / 2 ^ 64) (sk % 2 ^ 64))).isNone then done id s else dirSetSession sk f (some id) s

/-- Whether a physical function acts for a virtual function whose interface is locked, running or in error (R329). -/
def lockedFor (s : State) (r : Req) (id : ReqId) : Bool := r.admin && id.ident ≠ r.fn.key && tdiOf s id.ident ≠ .unlocked

/-- Whether a lower tier may take a function's records: the far tier, or a granted region; a pool node needs a route
(R145, R147, R376). -/
def tierOk (s : State) (fn tier region : Nat) : Bool :=
  tier = 2 || ((tier = 3 || tier = 5) && (match regionOf s fn tier region with
    | none => false
    | some r => tier = 3 || poolPorts s (fnPort fn) r.node ≠ []))

/-- Whether a tile's lower copy lies in a tier, and for a host or pool tier in a region. -/
def Tile.liesIn (t : Tile) (tier region : Nat) : Bool := relTier t.loTier = tier && (tier = 2 || t.loRegion = region)

/-! ### PARK (R146) -/

/-- The tiles a park writes: DIRTY ones and CLEAN ones whose lower copy lies in another tier; of a session that is already
parked, the LOWER ones that lie elsewhere. -/
def parkTiles (s : State) (key tier region : Nat) (repark : Bool) : List Nat :=
  tilesWhere s key (fun t => t.state = .dirty || (t.state = .clean && relTier t.loTier ≠ tier)
    || (repark && t.state = .lower && ! t.liesIn tier region))

/-- A park past its checks. -/
def startPark (id : ReqId) (key : Nat) (x : Session) (target region codec : Nat) (keep : Bool) (s : State) : State :=
  let obj := sessObj key x
  let t := movedPushes key s
  match orderWrites obj target region codec (parkTiles t obj target region x.parked) t with
  | none => complete id (noRoom target) (some 7) 0 s
  | some t => { t with jobs := mput t.jobs obj (.park id target region codec keep x.parked) }

/-- PARK (R144 to R147, R158, R162, R329). -/
def execPark (r : Req) (target : Nat) (keep checkGen : Bool) (expectGen region codec : Nat) (s : State) :
    Host.Outcome State Fault Refusal :=
  let new := fresh s
  .next (onReq r 0x13 none (orderGate new true (.park r target keep checkGen expectGen region codec) (fun id s =>
    withSession id (fun key x s =>
      if staleGen x checkGen expectGen then stale id s
      else if lockedFor s r id then fail id 0x89 s
      else if ! tierOk s id.ident target region || ! codecValid codec then fail id 0x22 s
      else startPark id key x target region codec keep s) s)) s)

/-- A park whose writes are acknowledged releases the slots: the entry names the tier, the generation advances and the
batch slot is freed (R135, R146, R156). -/
def parkDone (id : ReqId) (sk obj : Nat) (x : Session) (target region : Nat) (keep repark : Bool) (s : State) : State :=
  let s := endJob obj s
  if repark then
    dirSetDone sk (fun r => { r with tier := absTier (sessPort sk) target }) id
      (onSess sk (fun x => { x with place := .parked target region }) s)
  else if keep then done id s
  else
    let gen := (x.gen + 1) % 65536
    let s := onSess sk (fun x => { x with gen := gen, place := .parked target region, mapSlot := none }) (releaseAll obj s)
    freeSlotOf x (dirSetDone sk (fun r => { r with
      state := 2, tier := absTier (sessPort sk) target, gen := gen, pav := 0xFF, slot := 0xFFFF }) id s)

/-- PARK_RELEASE (R146): the park's writes are over. A tile written since is written again; a FAILED one fails the park. -/
def execParkRelease (f : Fn) (session : DWord) (s : State) : Host.Outcome State Fault Refusal :=
  let sk := sessKey f.key session.toNat
  match mget? s.sessions sk with
  | none => .next s
  | some x =>
    let obj := sessObj sk x
    match mget? s.jobs obj with
    | some (.park id target region codec keep repark) =>
      if moving s obj then .next s
      else if hasFailed s obj then .next (complete id 0x24 (some 8) 0 (endJob obj s))
      else if parkTiles s obj target region repark = [] then .next (parkDone id sk obj x target region keep repark s)
      else
        match orderWrites obj target region codec (parkTiles s obj target region repark) s with
        | none => .next (complete id (noRoom target) (some 7) 0 (endJob obj s))
        | some s => .next s
    | _ => .next s

/-! ### REVIVE's end (R148) -/

/-- Whether every tile of layer 0, tags and state has landed. -/
def firstLanded (s : State) (obj : Nat) : Bool := tilesWhere s obj (fun t => t.state = .arriving && t.order = 0) = []

/-- REVIVE_COMPLETE (R145, R148): with EARLY once layer 0 has landed, else once every tile has, and with TILE_FAILED when one of
those is FAILED; the job ends when nothing is on its way. -/
def execReviveComplete (f : Fn) (session : DWord) (s : State) : Host.Outcome State Fault Refusal :=
  let sk := sessKey f.key session.toNat
  match mget? s.sessions sk with
  | none => .next s
  | some x =>
    let obj := sessObj sk x
    let idle (s : State) : State := onSess sk (fun x => { x with busy := none }) s
    match mget? s.jobs obj with
    | some (.revive id early rel posted) =>
      if ! moving s obj then
        match id, posted with
        | some id, false =>
          let s := idle (endJob obj s)
          .next (if hasFailed s obj then complete id 0x24 (some 8) 0 s else done id s)
        | _, _ => .next (endJob obj s)
      else if early && ! posted && firstLanded s obj then
        match id with
        | some id =>
          let s := idle { s with jobs := mput s.jobs obj (.revive (some id) early rel true) }
          .next (if tilesWhere s obj (fun t => t.state = .failed && t.order = 0) = [] then done id s else complete id 0x24 (some 8) 0 s)
        | none => .next s
      else .next s
    | _ => .next s

/-! ### MIGRATE (R159, R160, R384) -/

/-- The entry byte of a MIGRATE operand out of range (R144). -/
def migrateBad (dest pavilion celayPort kind : Nat) : Option Nat :=
  if 1 < dest then some 32 else if dest = 0 ∧ 79 < pavilion then some 36 else if dest = 1 ∧ 3 < celayPort then some 37
  else if bits kind 2 6 ≠ 0 ∨ 255 < kind ∨ (bitOf kind 7 = true ∧ (dest = 1 ∨ kind % 4 = 3)) then some 38 else none

/-- The detail and status a destination on this part is refused with (R145, R159, R160, R257, R455). -/
def migrateCheck (s : State) (id : ReqId) (x : Session) (n kind : Nat) : Option (Nat × Option Nat) :=
  let p := pavAt s n
  if (mget? s.pavs n).isSome && p.port ≠ fnPort id.ident then some (0x22, none)
  else if ! assigned s n id.ident then some (0x61, none)
  else if p.prog.isNone then some (0x60, none)
  else if pavFenced s p then some (0xB0, some 8)
  else if freeSlots p kind = [] then some (0x21, some 7)
  else if slotCap p.desc kind < x.length then some (0x27, none)
  else none

/-- The tiles of a migrating session that hold nothing take their reserved places at once (R138). -/
def moveEmpty (obj : Nat) (s : State) : State :=
  (tilesWhere s obj (fun t => t.state = .absent && t.upTier = 1)).foldl (fun s i =>
    match migratePlace s obj i with
    | none => s
    | some m => onTile obj i (fun t => if m.streamed then { t with upTier := 0, upAddr := 0, tail := false }
        else { t with upAddr := m.addr, tail := m.tail }) s) s

/-- Stages 1 and 2 on this part (R159, R185): the slot is reserved, the generation advances, the entry names the destination and
is marked migrating, and the session leaves its batch. A parked session's tiles stay in their lower tier. -/
def startMigrate (id : ReqId) (key : Nat) (x : Session) (n kind fence : Nat) (s : State) : State :=
  let obj := sessObj key x
  let gen := (x.gen + 1) % 65536
  match choose (freeSlots (pavAt s n) kind) s with
  | none => complete id 0x21 (some 7) 0 s
  | some slot =>
    let s := bankTenant n x.tenant (movedPushes key (drew s))
    let s := onPav n (fun p => { p with slots := mput p.slots slot { sess := key, reserved := true, placedAt := p.placed }
                                        placed := p.placed + 1 }) s
    let s := dirSetSession key (fun r => { r with state := 3, tier := 0, gen := gen, pav := n, slot := slot }) none s
    match x.place with
    | .parked _ _ =>
      onSess key (fun x => { x with gen := gen }) { s with jobs := mput s.jobs obj (.migrate id n slot 0 0 (s.time + fence) false kind) }
    | .resident old oldSlot | .migrating old oldSlot =>
      let s := onSess key (fun x => { x with gen := gen, place := .migrating n slot }) s
      moveEmpty obj { s with jobs := mput s.jobs obj (.migrate id n slot old oldSlot (s.time + fence) true kind) }

/-- The digest of a session's model image (R315). -/
def modelDigest (s : State) (x : Session) : List Byte :=
  ((mget? (pavAt s x.home).models x.modelSlot).map (·.digest)).getD []

/-- Stage 1 toward a peer: HAND_OFFER with the generation that stage 2 will set (R384). -/
def startHandOver (id : ReqId) (key : Nat) (x : Session) (cport node fence : Nat) (s : State) : State :=
  let obj := sessObj key x
  let tag := s.poolTag % 65536
  let body := natLe 8 (key % 2 ^ 64) ++ natLe 2 x.kd ++ natLe 1 x.slotKind ++ natLe 1 0 ++ natLe 4 x.lmax
    ++ natLe 4 x.length ++ natLe 4 (tilesWhere s obj sendable).length ++ byteSlice (modelDigest s x) 0 32
  sendMsg cport 0 8 node tag ((x.gen + 1) % 65536) body { s with
    poolTag := s.poolTag + 1, jobs := mput s.jobs obj (.handOver id cport node tag fence s.time false false) }

/-- Whether the CODEC byte that a port names for its SENDs is one of R162 (R176). -/
def sendCodecOk (s : State) (p : Nat) : Bool :=
  let c := regGet s p 0xC0000
  ! bitOf c 16 || codecValid (c % 256)

/-- MIGRATE (R144, R158 to R160, R329, R384). -/
def execMigrate (r : Req) (dest : Nat) (checkGen : Bool) (expectGen pavilion celayPort kind peerNode fenceUs : Nat) (s : State) :
    Host.Outcome State Fault Refusal :=
  let new := fresh s
  let cmd := Instr.migrate r dest checkGen expectGen pavilion celayPort kind peerNode fenceUs
  .next (onReq r 0x15 (migrateBad dest pavilion celayPort kind) (orderGate new true cmd (fun id s =>
    withSession id (fun key x s =>
      let us := if fenceUs = 0 then bits (regGet s (fnPort id.ident) 0xB0000) 12 31 else fenceUs
      let k := if bitOf kind 7 then kind % 4 else x.slotKind
      if staleGen x checkGen expectGen then stale id s
      else if lockedFor s r id then fail id 0x89 s
      else if dest = 0 then
        match migrateCheck s id x pavilion k with
        | some (d, st) => complete id d st 0 s
        | none => startMigrate id key x pavilion k (1000 * us) s
      else if ! sendCodecOk s (fnPort id.ident) then fail id 0x22 s
      else if ! clyUp s celayPort then fail id 0xA1 s
      else startHandOver id key x celayPort peerNode (1000 * us) s) s)) s)

/-- Whether stage 3 of a migration on this part is over: every tile is at its new place. -/
def allMoved (s : State) (obj : Nat) : Bool :=
  match objOf s obj with
  | none => true
  | some o => o.tiles.all (fun t => match migratePlace s obj t.1 with | none => true | some m => t.2.moved m)

/-- Whether every tile that goes to a peer has been sent. -/
def allSent (s : State) (obj : Nat) : Bool := tilesWhere s obj (fun t => sendable t && ! t.sent) = []

/-- Whether a push stream of the session's old generation is still open (R159 stage 4). -/
def oldPush (s : State) (sk : Nat) : Bool := s.streams.any (fun y => y.sess = sk && ! y.hand)

/-- Fetch what a session that left a stream slot lacks: a LOWER tile with a place of its own. -/
def fetchRest (sk obj n slot : Nat) (x : Session) (s : State) : State :=
  let p := pavAt s n
  let want := (tilesWhere s obj (fun t => t.state = .lower)).filter (fun i => ! streamed p.desc x.lmax x.length slot i)
  if want = [] then s
  else
    let s := want.foldl (fun s i =>
      let a := sessTilePlace p p.desc x.lmax slot i
      orderFetch obj i 1 (nearAddr a.1 a.2) s) s
    onSess sk (fun x => { x with reviveAt := none }) { s with jobs := mput s.jobs obj (.revive none false false true) }

/-- Stage 5 of a parked session's migration on this part: the destination has taken its tiles over where they lie. The session
stays parked, so the batch slot reserved for it is freed (log 101). -/
def migrateParked (sk obj n slot kind : Nat) (s : State) : State :=
  freeBatchSlot n slot (onSess sk (fun x => { x with home := n, slotKind := kind }) (endJob obj s))

/-- The fields that stage 5 of a migration writes in a parked session's entry (R185). -/
def migratedRec (sk : Nat) (x : Session) (r : DirRec) : DirRec :=
  { r with state := 2, tier := (match x.place with | .parked t _ => absTier (sessPort sk) t | _ => r.tier), pav := 0xFF, slot := 0xFFFF }

/-- Stage 5 of a migration on this part: the session is resident in the destination slot and the old slot is freed. -/
def migrateDone (sk obj n slot old oldSlot kind : Nat) (x : Session) (s : State) : State :=
  let s := onSess sk (fun x => { x with place := .resident n slot, home := n, slotKind := kind }) (endJob obj s)
  let s := onPav n (fun p => { p with slots := madjust p.slots slot (fun u => { u with reserved := false }) }) s
  freeBatchSlot old oldSlot (fetchRest sk obj n slot x s)

/-- MIGRATION_DRAINED (R159 stages 4 and 5): the state has moved and nothing of the old generation is open. -/
def execMigrationDrained (f : Fn) (session : DWord) (s : State) : Host.Outcome State Fault Refusal :=
  let sk := sessKey f.key session.toNat
  match mget? s.sessions sk with
  | none => .next s
  | some x =>
    let obj := sessObj sk x
    match mget? s.jobs obj with
    | some (.migrate id n slot _ _ _ false kind) =>
      if oldPush s sk then .next s else .next (migrateParked sk obj n slot kind (dirSetDone sk (migratedRec sk x) id s))
    | some (.migrate id n slot old oldSlot _ true kind) =>
      if ! allMoved s obj || oldPush s sk then .next s
      else .next (migrateDone sk obj n slot old oldSlot kind x
        (dirSetDone sk (fun r => { r with state := 1, tier := 1, pav := n, slot := slot }) id s))
    | some (.handOver id _ _ _ _ _ true true) =>
      if oldPush s sk then .next s else .next (handOver obj id 0 (some 0) s)
    | _ => .next s

/-- MIGRATION_FENCE_TIMEOUT (R145, R159): the state has moved and the fence has expired: the old slots are released all the
same. -/
def execMigrationFenceTimeout (f : Fn) (session : DWord) (s : State) : Host.Outcome State Fault Refusal :=
  let sk := sessKey f.key session.toNat
  match mget? s.sessions sk with
  | none => .next s
  | some x =>
    let obj := sessObj sk x
    match mget? s.jobs obj with
    | some (.migrate id n slot _ _ fence false kind) =>
      if s.time < fence then .next s
      else .next (migrateParked sk obj n slot kind (complete id 0x25 (some 0) 0 (dirSetSession sk (migratedRec sk x) none s)))
    | some (.migrate id n slot old oldSlot fence true kind) =>
      if ! allMoved s obj || s.time < fence then .next s
      else .next (migrateDone sk obj n slot old oldSlot kind x (complete id 0x25 (some 0) 0
        (dirSetSession sk (fun r => { r with state := 1, tier := 1, pav := n, slot := slot }) none s)))
    | some (.handOver id _ _ _ fence _ true _) =>
      if ! allSent s obj || s.time < fence then .next s else .next (handOver obj id 0x25 (some 0) s)
    | _ => .next s

/-- The CODEC byte a SEND carries a tile under (R173, R176). -/
def sendCodec (s : State) (key i form : Nat) : Nat :=
  let c := regGet s (objPort key) 0xC0000
  let codec := if bitOf c 16 then c % 256 else form
  match objOf s key with | none => codec | some o => tileCodec o (o.tile i) codec

/-- SHUTTER_SEND (R150, R176, R375, R384): a tile goes to the peer, layer by layer; HAND_END follows the last. -/
def execShutterSend (engine : Fin 33) (obj : ObjRef) (tile : Nat) (s : State) : Host.Outcome State Fault Refusal :=
  let key := refKey obj
  let t := tileOf s key tile
  match mget? s.jobs key with
  | some (.handOver _ cport node tag _ _ true false) =>
    if ! engineOk s engine || ! sendable t || t.sent || tilesWhere s key (fun u => sendable u && ! u.sent && decide (u.order < t.order)) ≠ []
    then .next s
    else
      let src := if t.upTier = 0 then t.loTier else t.upTier
      let last := lastTile s key tile (fun u => sendable u && ! u.sent)
      let s := noteEngine engine 4 src 6 t.codec (if t.upTier = 0 then t.loAddr else t.upAddr) 0 key tile t.loGran last s
      let form := tileForm s key tile
      match form.bind (fun f => reform (objPort key) f.1 (sendCodec s key tile f.1) f.2 s) with
      | none => .next (failTransfer key tile (if form.isSome then 5 else 2) (if form.isSome then countRefusal key s else s))
      | some (e, s) =>
        let gen := ((sessOfObj s key).map (fun x => x.2.gen)).getD 0
        let record := (sealRecord s t.kd tile e.codec e.bytes (kdOf s t.kd).counter).take (e.bytes.length + 32)
        let head := natLe 4 tile ++ natLe 2 e.bytes.length ++ natLe 1 e.codec ++ natLe 9 0
        let s := bumpCounter t.kd (onTile key tile (fun t => { t with sent := true }) s)
        let s := tierBytes key src 1 e.bytes.length (sendMsg cport (clyReg s cport 0x10 % 8) 0x0B node tag gen (head ++ record) s)
        .next (if allSent s key then sendMsg cport 0 0x0C node tag gen [] s else s)
  | _ => .next s

/-! ### Objects (R497) -/

/-- A tile's upper copy is copied plainly to another upper place, which then holds it (R497). Without KEEP_LOWER its lower copy
is freed. A copy that cannot be read fails with its retry (R140). -/
def copyUpper (key tier addr : Nat) (keep : Bool) (i : Nat) (s : State) : State :=
  match tilePlain s key i with
  | none => failTransfer key i 2 (failTransfer key i 2 (onTile key i (fun t => { t with retried := false }) s))
  | some bs =>
    let t := tileOf s key i
    let s := snapKeep key i s
    let s := if t.upTier = 2 then { s with far := mdel s.far t.upAddr } else s
    let s := landTile key i bs (onTile key i (fun t => { t with upTier := tier, upAddr := addr }) s)
    let s := onTile key i (fun t => { t with landed := false }) s
    if keep ∨ t.loTier = 0 then s
    else onTile key i (fun t => { t.touch with state := .dirty }) (releaseLower key i s)

/-- Give a tile an upper place (R497): a LOWER tile is fetched, one with a copy in the other upper tier copied, an ABSENT
one has its slot reserved. -/
def placeUpper (key tier addr : Nat) (keep : Bool) (i : Nat) (s : State) : State :=
  let t := tileOf s key i
  match t.state with
  | .absent => onTile key i (fun t => { t with upTier := tier, upAddr := addr }) s
  | .lower => orderFetch key i tier addr s
  | .failed => s
  | _ => if t.upTier = tier then s else copyUpper key tier addr keep i s

/-- Whether a tile needs a far slot to be placed in the far tier. -/
def needsFar (t : Tile) : Bool := t.state ≠ .failed && t.upTier ≠ 2

/-- Place tiles in far slots; none when one has no free slot. -/
def placeFar (key : Nat) (keep : Bool) : List Nat → State → Option State
  | [], s => some s
  | i :: is, s =>
    match farAlloc s with
    | none => none
    | some (n, t) => placeFar key keep is (placeUpper key 2 n keep i t)

/-- The near address of tile `i` dealt over pavilion cores from a base (R155, R497). -/
def dealAddr (p : Pav) (base cores i : Nat) : Nat :=
  let j := (List.range (pavCores p)).findIdx (fun j => pavCore p j = base % 2 ^ 14)
  nearAddr (pavCore p (j + i % cores)) (base / 2 ^ 14 * 4 + 256 * (i / cores))

/-- The pavilion whose cores hold a core. -/
def corePav (s : State) (k : Nat) : Option (Nat × Pav) := s.pavs.find? (fun p => p.2.quarters.contains (k / 128))

/-- Whether cores from a base on lie in its pavilion, and the last tile in the sliver. -/
def dealFits (p : Pav) (base cores ntiles : Nat) : Bool :=
  let j := (List.range (pavCores p)).findIdx (fun j => pavCore p j = base % 2 ^ 14)
  decide (1 ≤ cores) && decide (j + cores ≤ pavCores p)
    && decide (base / 2 ^ 14 * 4 + 256 * ((ntiles - 1) / cores) + 256 ≤ sliverLines)

/-- The entry byte of a PLACE operand at fault (R497). -/
def placeBad (s : State) (id : ReqId) (target nearBase cores ntiles : Nat) : Option Nat :=
  if target ≠ 1 then (if nearBase ≠ 0 then some 44 else if cores ≠ 0 then some 48 else none)
  else if cores = 0 then some 48
  else
    match corePav s (nearBase % 2 ^ 14) with
    | none => some 44
    | some (n, p) =>
      let j := (List.range (pavCores p)).findIdx (fun j => pavCore p j = nearBase % 2 ^ 14)
      if ! assigned s n id.ident then some 44
      else if pavCores p < j + cores then some 48
      else if dealFits p nearBase cores ntiles then none else some 44

/-- Place a recall index: every region in its own upper tier (R234), sketch and tag tiles where R238 lays their items'
blocks, or as R497 deals them while no program of the recall pavilion names the index. -/
def placeIndex (key : Nat) (o : Obj) (target : Nat) (keep : Bool) (nearBase cores : Nat) (s : State) : Option State :=
  let h := indexHeader s key
  let far := (List.range o.ntiles).filter (fun i => ! ixNear h i && needsFar (o.tile i))
  let near := (List.range o.ntiles).filter (ixNear h)
  let p := ((corePav s (nearBase % 2 ^ 14)).map (·.2)).getD {}
  (placeFar key keep far s).map (fun s => near.foldl (fun s i =>
    match scanDesc s key h with
    | some (q, d) => placeUpper key 1 (ixNearAddr q d h i) keep i s
    | none => if target = 1 then placeUpper key 1 (dealAddr p nearBase cores i) keep i s else s) s)

/-- Whether an index has near regions that have no place yet: no program of the recall pavilion names the index, and a PLACE in the
far tier names none (R234, R238; log 105: such a PLACE has no slot). -/
def indexNeedsProg (s : State) (key : Nat) : Bool :=
  let h := indexHeader s key
  (scanDesc s key h).isNone && (objOf s key).any (fun o => (List.range o.ntiles).any (fun i => ixNear h i && (o.tile i).upTier ≠ 1))

/-- PLACE (R144, R145, R255, R497). -/
def execPlace (r : Req) (object : DWord) (target : Nat) (keepLower : Bool) (region nearBase cores : Nat) (s : State) :
    Host.Outcome State Fault Refusal :=
  let new := fresh s
  .next (onReq r 0x50 none (fun id s =>
    let key := objKey id.ident object.toNat
    objectGate new (.place r object target keepLower region nearBase cores) key (fun id s =>
      match objOf s key with
      | none => fail id 0x26 s
      | some o =>
        if o.kind = .session ∨ (target ≠ 1 ∧ tierOk s id.ident target region = false) then fail id 0x22 s
        else
          match placeBad s id target nearBase cores o.ntiles with
          | some b => badEntry id b s
          | none =>
            if ! mapRoom s 0 then complete id 0x21 (some 7) 0 s else
            let job (s : State) : State := settle key { s with jobs := mput s.jobs key (.place id target region keepLower) }
            if o.kind = .index ∧ (target = 1 ∨ target = 2) then
              if target = 2 ∧ indexNeedsProg s key then complete id 0x21 (some 7) 0 s else
              match placeIndex key o target keepLower nearBase cores s with
              | none => complete id 0x21 (some 7) 0 s
              | some t => job t
            else if target = 1 then
              let p := ((corePav s (nearBase % 2 ^ 14)).map (·.2)).getD {}
              job ((List.range o.ntiles).foldl (fun s i => placeUpper key 1 (dealAddr p nearBase cores i) keepLower i s) s)
            else if target = 2 then
              match placeFar key keepLower ((List.range o.ntiles).filter (fun i => needsFar (o.tile i))) s with
              | none => complete id 0x21 (some 7) 0 s
              | some t => job t
            else
              let s := noteEpoch key s
              let is := tilesWhere s key (fun t => t.state = .dirty
                || ((t.state = .clean || t.state = .lower) && ! t.liesIn target region))
              match orderOwn key target region is s with
              | none => complete id (noRoom target) (some 7) 0 s
              | some t => job t) id s) s)

/-- WRITE_BACK (R144): every DIRTY tile of the range, or with COUNT 0 of the object, that has a lower copy is written
back to where that lies, in its form. -/
def execWriteBack (r : Req) (object : DWord) (first count : Nat) (s : State) : Host.Outcome State Fault Refusal :=
  let new := fresh s
  .next (onReq r 0x52 none (fun id s =>
    let key := objKey id.ident object.toNat
    objectGate new (.writeBack r object first count) key (fun id s =>
      match objOf s key with
      | none => fail id 0x26 s
      | some o =>
        let lo := if count = 0 then 0 else first
        let n := if count = 0 then o.ntiles else count
        if count ≠ 0 ∧ o.ntiles ≤ first then badEntry id 40 s
        else if o.ntiles < lo + n then badEntry id 44 s
        else
          let s := noteEpoch key s
          let is := (tilesWhere s key (fun t => t.state = .dirty && t.loTier ≠ 0)).filter (fun i =>
            decide (lo ≤ i) && decide (i < lo + n))
          let order (a : Option State) (i : Nat) : Option State :=
            a.bind (fun s => orderWrite key (relTier (tileOf s key i).loTier) (tileOf s key i).loRegion (tileOf s key i).codec i s)
          match is.foldl order (some s) with
          | none => complete id 0x20 (some 7) 0 s
          | some t => settle key { t with jobs := mput t.jobs key (.writeBack id lo n) }) id s) s)

/-! ### Regions (R144, R149) -/

/-- REGION_GRANT (R144, R147, R149). -/
def execRegionGrant (r : Req) (tier region : Nat) (base : DWord) (granules poolNode : Nat) (s : State) :
    Host.Outcome State Fault Refusal :=
  .next (onReq r 0x53 (if 1023 < region then some 33 else if granules = 0 ∨ 2 ^ 32 ≤ granules then some 48 else none) (fun id s =>
    if tier ≠ 3 ∧ tier ≠ 5 then fail id 0x22 s
    else if (regionOf s id.ident tier region).isSome && regionBusy s id.ident tier region then fail id 0x23 s
    else
      let s := dropRegion id.ident tier region (lostRegion id.ident tier region s)
      let g : Region := { base := base.toNat, granules := granules, node := poolNode }
      let s := { s with regions := mput s.regions (regionKey id.ident tier region) g }
      let p := fnPort id.ident
      done id (if id.ident = 64 * p then adoptShards p tier region s else s)) s)

/-- MAP_READ (R137, R144): the 32-byte entry of a tile. -/
def Tile.bytes (t : Tile) : List Byte :=
  let code : Nat := match t.state with
    | .absent => 0 | .lower => 1 | .arriving => 2 | .clean => 3 | .dirty => 4 | .departing => 5 | .redirtied => 6 | .failed => 7
  natLe 1 code ++ natLe 1 t.upTier ++ natLe 1 t.loTier ++ natLe 1 t.codec ++ natLe 4 t.upAddr ++ natLe 8 t.loAddr
    ++ natLe 2 t.loGran ++ natLe 2 t.gen ++ natLe 2 t.kd ++ natLe 2 t.layer ++ natLe 8 0

/-- A tile's map entry as MAP_READ shows it: a key or value tile of a session names its layer before the session is first placed
(R135, R137). -/
def mapEntry (s : State) (key : Nat) (o : Obj) (i : Nat) : Tile :=
  let t := o.tile i
  match sessOfObj s key with
  | some (_, x) =>
    let d := (pavAt s x.pav).desc
    if t.layer = 0xFFFF && d ≠ [] then { t with layer := sessTileLayer d x.lmax i } else t
  | none => t

/-- MAP_READ (R144). -/
def execMapRead (r : Req) (object : DWord) (tile : Nat) (buf : DWord) (s : State) : Host.Outcome State Fault Refusal :=
  .next (onReq r 0x55 none (fun id s =>
    match objOf s (objKey id.ident object.toNat) with
    | none => fail id 0x26 s
    | some o =>
      if o.ntiles ≤ tile then badEntry id 40 s
      else withOut id buf.toNat (mapEntry s (objKey id.ident object.toNat) o tile).bytes (done id) s) s)

/-! ### CLOSE (R139, R185, R347) -/

/-- CLOSE: the session's object, slot and directory entry go; it completes when the delete commits. -/
def execCloseSession (r : Req) (checkGen : Bool) (expectGen : Nat) (s : State) : Host.Outcome State Fault Refusal :=
  let new := fresh s
  .next (onReq r 0x12 none (orderGate new false (.closeSession r checkGen expectGen) (fun id s =>
    withSession id (fun key x s =>
      if staleGen x checkGen expectGen then stale id s else dropSession key x (some id) (movedPushes key s)) s)) s)

/-! ### Pre-emption swap (R130, R131, R274) -/

/-- The regions of a victim's function that a swap may write to, as (tier, region): those of the host tier, or of the pool tier
when the run-time has granted it no host region, which names the pool tier (R130; DESIGN CHOICE, log 102). -/
def spillRegions (s : State) (fn : Nat) : List (Nat × Nat) :=
  let of (tier : Nat) : List (Nat × Nat) :=
    ((List.range 1024).filter (fun n => tierOk s fn tier n)).map (fun n => (tier, n))
  if of 3 = [] then of 5 else of 3

/-- A swap's writes are ordered in the lowest-numbered region that has room for them, compressed in a form of the part's choice
(R130; log 102). -/
def spillWrites (s : State) (obj : Nat) : Option ((Nat × Nat) × State) :=
  let codec := 1 + Config.freeChoice s.free % 7
  (spillRegions s (obj / 2 ^ 64)).findSome? (fun r =>
    (orderWrites obj r.1 r.2 codec (tilesWhere s obj (fun t => t.state = .dirty)) (drew s)).map (fun t => (r, t)))

/-- A swap that fails (R131): the victim stays, and the request that waits is deferred. -/
def swapFail (sk : Nat) (obj : Nat) (q : Queued) (s : State) : State :=
  let e : ErrRec := { source := srcId 0xB 0, cls := 2, code := 8, sess := true, port := sessPort sk
                      func := sk / 2 ^ 64 % 64, ref := sk % 2 ^ 64 }
  deferQueued q 0x62 (raiseErr e (endJob obj s))

/-- The victim's tiles have left (R130, R156): its slots are released, and the request that waits takes its batch slot. An
idle run of the victim ends PREEMPTED; one that a frame still carries, masked, ends with the frame (R274, R275). -/
def swapDone (sk obj n slot : Nat) (x : Session) (q : Queued) (ran : Bool) (s : State) : State :=
  let s := endJob obj s
  let gen := (x.gen + 1) % 65536
  let places := (tilesWhere s obj (fun t => t.loTier = 5 || relTier t.loTier = 3)).map (fun i =>
    (relTier (tileOf s obj i).loTier, (tileOf s obj i).loRegion))
  let spill := places.headD (3, 0)
  let s := onSess sk (fun x => { x with gen := gen, place := .parked spill.1 spill.2, mapSlot := none }) (releaseAll obj s)
  let s := dirSetSession sk (fun r => { r with
    state := 2, tier := absTier (sessPort sk) spill.1, gen := gen, pav := 0xFF, slot := 0xFFFF }) none s
  let s := onPav n (fun p => { p with slots := mdel p.slots slot }) s
  let s := match if ran then none else x.run with
    | some r => postStep sk x r 9 0 none [] { port := sessPort sk, tenant := x.tenant, preempted := 1 } true s
    | none => s
  admitQueued n slot q s

/-- PREEMPTION_SWAP (R129 to R131, R274): the victim's dirty tiles are ordered to the spill tier; when they have left, the
waiting request takes the slot. In a frame only a victim that is masked there is taken; any other is taken between frames. -/
def execPreemptionSwap (pav : Fin 80) (slot : Nat) (s : State) : Host.Outcome State Fault Refusal :=
  match mget? (pavAt s pav).slots slot with
  | none => .next s
  | some u =>
    match mget? s.sessions u.sess with
    | none => .next s
    | some x =>
      let obj := sessObj u.sess x
      let ran := s.frames.any (fun f => (mget? f.2.runs (pav.val * 1024 + slot)).any (·.sess = u.sess)
        && (mget? f.2.masked (pav.val * 1024 + slot)).isSome)
      match mget? s.jobs obj with
      | some (.swap q ordered) =>
        if pavInFrame s pav && ! ran then .next s
        else if ! ordered then
          match spillWrites s obj with
          | none => .next (swapFail u.sess obj q s)
          | some (_, t) => .next { t with jobs := mput t.jobs obj (.swap q true) }
        else if moving s obj then .next s
        else if hasFailed s obj then .next (swapFail u.sess obj q s)
        else .next (swapDone u.sess obj pav slot x q ran s)
      | _ => .next s

/-! ### Stream slots (R127, R128) -/

/-- Whether the latch point of the layer before a layer has passed (R127): layer 0 follows the last layer of the step before, so
between frames it may be fetched, and in a frame once the last layer's latch point has passed. -/
def layerPassed (s : State) (pav layer : Nat) : Bool :=
  let p := pavAt s pav
  let before := if layer = 0 then dLayers p.desc - 1 else layer - 1
  match s.frames.find? (fun f => f.2.pavs.contains pav), p.prog with
  | some f, some g => (imgLatchRecs g.image).zipIdx.any (fun l => l.1.layer = before && f.2.latched.contains (pav, l.2))
  | _, _ => layer = 0

/-- STREAM_LAYER_FETCH (R127): once the latch point of the layer before has passed, the layer's full units are fetched into
buffer `layer mod 2`, whose units of layer − 2 give way. -/
def execStreamLayerFetch (pav : Fin 80) (slot layer : Nat) (s : State) : Host.Outcome State Fault Refusal :=
  let p := pavAt s pav
  let d := p.desc
  match (mget? p.slots slot).bind (fun u => (mget? s.sessions u.sess).map (fun x => (u.sess, x))) with
  | none => .next s
  | some (sk, x) =>
    let obj := sessObj sk x
    if slotKindOf d slot ≠ 2 || dLayers d ≤ layer || ! layerPassed s pav layer || (match x.place with | .resident _ _ => false | _ => true) then .next s
    else
      let other := tilesWhere s obj (fun t => t.upTier = 1 && ! t.tail && t.state = .clean && t.layer ≠ 0xFFFF
        && decide (t.layer ≠ layer) && t.layer % 2 = layer % 2)
      let s := other.foldl (fun s i => releaseUpper obj i s) s
      let want := (neededTiles d x.lmax x.length layer).filter (fun i =>
        streamed d x.lmax x.length slot i && (tileOf s obj i).state = .lower)
      .next (want.foldl (fun s i =>
        let a := sessTilePlace p d x.lmax slot i
        orderFetch obj i 1 (nearAddr a.1 a.2) s) s)

/-- TAIL_UNIT_WRITE_BACK (R128): a tail unit that has filled is written to the far tier as a dirty tile. -/
def execTailUnitWriteBack (pav : Fin 80) (slot layer group : Nat) (s : State) : Host.Outcome State Fault Refusal :=
  let p := pavAt s pav
  let d := p.desc
  match (mget? p.slots slot).bind (fun u => (mget? s.sessions u.sess).map (fun x => (u.sess, x))) with
  | none => .next s
  | some (sk, x) =>
    let obj := sessObj sk x
    let full := (tilesWhere s obj (fun t => t.tail)).filter (fun i =>
      (kvOf d x.lmax i).1 = layer && (kvOf d x.lmax i).2.1 = group && ! kvTail d x.lmax x.length i)
    let dirty := full.filter (fun i => (tileOf s obj i).state = .dirty)
    let clean := full.filter (fun i => (tileOf s obj i).state = .clean)
    let s := clean.foldl (fun s i => releaseUpper obj i s) s
    .next ((orderWrites obj 2 0 0 dirty s).getD s)

end Sys2Proof.Machine
end

