-- ==== Sys2Proof/Machine/Recall.lean ====
section
/-! DEFINITION. Recall (R234 to R255): changes to an index and their commit, graph walks, scans on sliver cores, and
re-ranking. -/

namespace Sys2Proof.Machine

/-! ### Changes (R248 to R253) -/

/-- A request that names an index of the acting function: it waits for earlier requests of the index (R252), and with `gate` for
a tier request in effect. -/
def withIndex (object : DWord) (cmd : Instr) (gate : Bool) (isNew : Bool)
    (body : ReqId → Nat → List Byte → State → State) (id : ReqId) (s : State) : State :=
  let key := objKey id.ident object.toNat
  let run (id : ReqId) (s : State) : State :=
    match objOf s key with
    | none => fail id 0x26 s
    | some o => if o.kind = .index then body id key (indexHeader s key) s else fail id 0x26 s
  if isNew && (if (mget? s.jobs key).isSome then gate else s.held.any (fun h => h.why = .object key)) then
    holdReq id (.object key) cmd s
  else run id s

/-- Complete with BAD_INDEX, ITEM_BUSY, NO_ITEM and NOT_PLACED (R254). -/
def badIndex (id : ReqId) (s : State) : State := fail id 0x50 s
def itemBusy (id : ReqId) (s : State) : State := fail id 0x52 s
def noItem (id : ReqId) (s : State) : State := fail id 0x53 s
def notPlaced (id : ReqId) (s : State) : State := complete id 0x54 (some 0xB) 0 s

/-- Whether an index may be used: its regions are in their upper tiers, and a scan index's pavilion has a program loaded
that names it (R234, R239, R254). -/
def indexReady (s : State) (key : Nat) (h : List Byte) : Bool :=
  indexPlaced s key h && (ixGraph h || (scanDesc s key h).isSome)

/-- Whether a query of an index may run (R234, R254). -/
def queryReady (s : State) (key : Nat) (h : List Byte) : Bool :=
  indexWhole s key h && (ixGraph h || (scanDesc s key h).isSome)

/-- The epoch of the newest change accepted. -/
def lastEpoch (s : State) (key : Nat) : Nat := (indexAt s key).epoch + (indexAt s key).pend.length

/-- Commit every change of a scan index that waits (R248). -/
def commitIndex (key : Nat) (s : State) : State :=
  let h := indexHeader s key
  let mark (s : State) (m : Nat × Bool) : State :=
    match scanDesc s key h with
    | none => s
    | some (p, d) => writeTile key (ixTagTile h + m.1 / 1024) (markVisible p d h m.1 m.2 s)
  (indexAt s key).pend.foldl (fun s x =>
    done x.1 (onIndex key (fun i => { i with epoch := i.epoch + 1, pend := i.pend.drop 1 }) (x.2.foldl mark s))) s

/-- A change is written: a graph index commits at once, a scan index at the next boundary between frames of its pavilion
(R248). -/
def commitChange (key : Nat) (h : List Byte) (id : ReqId) (marks : List (Nat × Bool)) (s : State) : State :=
  if ixGraph h then done id (onIndex key (fun i => { i with epoch := i.epoch + 1 }) s)
  else
    let s := onIndex key (fun i => { i with pend := i.pend ++ [(id, marks)] }) s
    if pavInFrame s (ixPav h) then s else commitIndex key s

/-- The key domains a function may use (R320). -/
def kdsOf (s : State) (fn : Nat) : List Nat := (s.sec.domains.map (·.1)).filter (kdUsable s fn)

/-- RCL_CREATE (R235, R236, R252, R320): a new index with its header and every record written, far, and the rest ABSENT. The
request names no key domain: it takes one that the function may use, which one is free (log 105), and without one it is
refused. -/
def execRclCreate (r : Req) (object buf : DWord) (mem : Dma) (s : State) : Host.Outcome State Fault Refusal :=
  let _ := buf
  .next (onReq r 0x40 none (fun id s =>
    let key := objKey id.ident object.toNat
    withMem id mem (fun bs s =>
      let h0 := byteSlice bs 0 128
      let kds := kdsOf s id.ident
      if (objOf s key).isSome then fail id 0x93 s
      else if kds = [] then fail id 0x86 s
      else if ! indexOk h0 then badIndex id s
      else
        let h := indexFill h0
        let n := indexTiles h0
        let ntiles := 1 + n.1 + n.2.1 + n.2.2.1 + n.2.2.2
        if ! mapRoom s (ceilDiv (32 * ntiles) 16384) then complete id 0x21 (some 7) 0 s
        else
          let kd := kds.getD (Config.freeChoice s.free % kds.length) 0
          let t := { drew s with objects := mput s.objects key { kind := .index, ntiles := ntiles, kd := kd } }
          match placeFar key true (List.range (1 + n.1)) t with
          | none => complete id 0x21 (some 7) 0 s
          | some t =>
            let recs := (List.replicate (ixRecPer h) (emptyRec (ixRecBytes h))).flatten
            let t := tileWrite key 0 0 h t
            let t := (List.range n.1).foldl (fun t i => tileWrite key (1 + i) 0 recs t) t
            done id { t with indices := mput t.indices key {} }) s) s)

/-- The entry byte of a COUNT out of range (R252). -/
def countBad (count : Nat) : Option Nat := if 1 ≤ count ∧ count ≤ 256 then none else some 48

/-- The parts of an RCL_INSERT entry (R253): item, USER, TAGS, sketch, edges and vector. -/
structure InsEntry where
  item : Nat
  user : Nat
  tags : List Byte
  sketch : List Byte
  edges : List Nat
  vector : List Byte
  deriving DecidableEq, Repr

/-- A length rounded up to 64 bytes. -/
def pad64 (n : Nat) : Nat := ceilDiv n 64 * 64

/-- The bytes of an insert entry. -/
def insBytes (h : List Byte) : Nat :=
  64 + pad64 (ixBits h / 8) + (if ixGraph h then pad64 (4 * ixDegree h) else 0) + pad64 (ixVecBytes h)

/-- Edges of 4 bytes each from a byte on. -/
def edgesAt (b : List Byte) (o n : Nat) : List Nat := (List.range n).map (fun i => leField b (o + 4 * i) 4)

/-- Read an insert entry. Tag bit 127 is the hub's (R237). -/
def insEntry (h b : List Byte) : InsEntry :=
  let o := 64 + pad64 (ixBits h / 8)
  let e := if ixGraph h then pad64 (4 * ixDegree h) else 0
  { item := leField b 0 4, user := leField b 8 8, tags := natLe 16 (leField b 16 16 % 2 ^ 127)
    sketch := byteSlice b 64 (ixBits h / 8), edges := if ixGraph h then edgesAt b o (ixDegree h) else []
    vector := byteSlice b (o + e) (ixVecBytes h) }

/-- The entries of a buffer. -/
def insEntries (h bs : List Byte) (count : Nat) : List InsEntry :=
  (List.range count).map (fun i => insEntry h (byteSlice bs (insBytes h * i) (insBytes h)))

/-- Whether a query that runs precedes the purge of an item (R250). -/
def purgeSeen (s : State) (key n : Nat) : Bool :=
  match mget? (indexAt s key).purged n with
  | none => false
  | some e => s.queries.any (fun q => q.obj = key && q.running && decide (q.epoch < e))

/-- Whether an insert of an item is refused with ITEM_BUSY (R250). -/
def insBusy (s : State) (key : Nat) (h : List Byte) (n : Nat) : Bool :=
  ! itFree (recRead s key h n) || purgeSeen s key n

/-- Write an inserted item's record, vector and, in a scan index, its sketch and tag blocks (R238, R243, R250). -/
def insertItem (key : Nat) (h : List Byte) (e : Nat) (x : InsEntry) (s : State) : State :=
  let gen := (itGen (recRead s key h x.item) + 1) % 256
  let head := natLe 8 x.user ++ natLe 8 e ++ natLe 8 noEpoch ++ natLe 1 gen ++ List.replicate 7 0 ++ x.tags
    ++ List.replicate 16 0
  let body := if ixGraph h then head ++ x.sketch ++ (x.edges.map (natLe 4)).flatten else head
  let s := recWrite key h x.item 0 (byteSlice body 0 (ixRecBytes h)) s
  let s := tileWrite key (vecPlace h x.item).1 (vecPlace h x.item).2 x.vector s
  match (if ixGraph h then none else scanDesc s key h) with
  | none => s
  | some (p, d) =>
    writeTile key (ixSkTile h + x.item / ixSkPer h)
      (writeTile key (ixTagTile h + x.item / 1024) (writeBlocks p d h x.item x.sketch x.tags s))

/-- RCL_INSERT (R248, R250, R253). -/
def execRclInsert (r : Req) (object buf : DWord) (count : Nat) (mem : Dma) (s : State) : Host.Outcome State Fault Refusal :=
  .next (onReq r 0x41 (countBad count) (withIndex object (.rclInsert r object buf count mem) true (fresh s)
    (fun id key h s => withMem id mem (fun bs s =>
      let es := insEntries h bs count
      if es.any (fun x => decide (ixCap h ≤ x.item) || x.edges.any (fun e => ! edgeOk h e)) then badIndex id s
      else if ! indexReady s key h then notPlaced id s
      else if es.any (fun x => insBusy s key h x.item) || ! distinctNat (es.map (·.item)) then itemBusy id s
      else
        let e := lastEpoch s key + 1
        commitChange key h id (es.map (fun x => (x.item, true))) (es.foldl (fun s x => insertItem key h e x s) s)) s)) s)

/-- The item numbers of a buffer. -/
def itemList (bs : List Byte) (count : Nat) : List Nat := edgesAt bs 0 count

/-- RCL_DELETE (R248 to R250): each item visible at the current epoch. -/
def execRclDelete (r : Req) (object buf : DWord) (count : Nat) (mem : Dma) (s : State) : Host.Outcome State Fault Refusal :=
  .next (onReq r 0x42 (countBad count) (withIndex object (.rclDelete r object buf count mem) true (fresh s)
    (fun id key h s => withMem id mem (fun bs s =>
      let ns := itemList bs count
      let e := lastEpoch s key + 1
      if ! indexReady s key h then notPlaced id s
      else if ns.any (fun n => decide (ixCap h ≤ n) || ! itVisible (recRead s key h n) (lastEpoch s key)) || ! distinctNat ns then
        noItem id s
      else commitChange key h id (ns.map (fun n => (n, false))) (ns.foldl (fun s n => recWrite key h n 16 (natLe 8 e) s) s)) s)) s)

/-- RCL_PURGE (R250): FREE is set for items that were deleted. -/
def execRclPurge (r : Req) (object buf : DWord) (count : Nat) (mem : Dma) (s : State) : Host.Outcome State Fault Refusal :=
  .next (onReq r 0x43 (countBad count) (withIndex object (.rclPurge r object buf count mem) true (fresh s)
    (fun id key h s => withMem id mem (fun bs s =>
      let ns := itemList bs count
      let e := lastEpoch s key + 1
      if ! indexReady s key h then notPlaced id s
      else if ns.any (fun n => decide (ixCap h ≤ n) || decide (itDel (recRead s key h n) = noEpoch)) then noItem id s
      else commitChange key h id [] (ns.foldl (fun s n =>
        onIndex key (fun i => { i with purged := mput i.purged n e }) (recWrite key h n 25 [1] s)) s)) s)) s)

/-- RCL_EDGES (R251, R252): each entry holds an item number and DEGREE edges. -/
def execRclEdges (r : Req) (object buf : DWord) (count : Nat) (mem : Dma) (s : State) : Host.Outcome State Fault Refusal :=
  .next (onReq r 0x44 (countBad count) (withIndex object (.rclEdges r object buf count mem) true (fresh s)
    (fun id key h s => withMem id mem (fun bs s =>
      let size := 4 + 4 * ixDegree h
      let es := (List.range count).map (fun i => (leField bs (size * i) 4, edgesAt bs (size * i + 4) (ixDegree h)))
      if ! ixGraph h || es.any (fun x => x.2.any (fun e => ! edgeOk h e)) then badIndex id s
      else if ! indexReady s key h then notPlaced id s
      else if es.any (fun x => decide (ixCap h ≤ x.1) || decide (itIns (recRead s key h x.1) = noEpoch)) then noItem id s
      else commitChange key h id [] (es.foldl (fun s x =>
        recWrite key h x.1 (64 + ixBits h / 8) (x.2.map (natLe 4)).flatten s) s)) s)) s)

/-- RCL_ENTRY (R235, R252): the four entry edges. -/
def execRclEntry (r : Req) (object : DWord) (entries : List Word) (s : State) : Host.Outcome State Fault Refusal :=
  .next (onReq r 0x45 none (withIndex object (.rclEntry r object entries) true (fresh s) (fun id key h s =>
    let es := (List.range 4).map (fun i => (entries.getD i 0).toNat)
    if ! ixGraph h || es.any (fun e => ! edgeOk h e) then badIndex id s
    else if ! indexReady s key h then notPlaced id s
    else commitChange key h id [] (tileWrite key 0 0x10 (es.map (natLe 4)).flatten s))) s)

/-! ### Queries (R237, R244 to R249, R252, R253) -/

/-- The masks of a QBUF. -/
def qRequired (q : List Byte) : Nat := leField q 0x80 16
def qForbidden (q : List Byte) : Nat := leField q 0x90 16

/-- Whether a query's masks and parameters are in range (R237, R252). -/
def queryOk (h qbuf : List Byte) (k pick l maxExpand : Nat) : Bool :=
  ! bitOf (qRequired qbuf) 127 && ! bitOf (qForbidden qbuf) 127 && qRequired qbuf &&& qForbidden qbuf = 0
    && decide (1 ≤ k) && decide (k ≤ 256)
    && (if ixGraph h then decide (k ≤ pick) && decide (pick ≤ 1024) && decide (16 ≤ l) && decide (l ≤ 1024)
          && decide (1 ≤ maxExpand) && decide (maxExpand ≤ 65535)
        else decide (1 ≤ pick) && decide (pick ≤ 256))

/-- RCL_QUERY (R237, R252, R254, R255): the query waits for the front end, or for a frame of its recall pavilion. -/
def execRclQuery (r : Req) (object qbuf rbuf : DWord) (k pick l maxExpand : Nat) (mem : Dma) (s : State) :
    Host.Outcome State Fault Refusal :=
  .next (onReq r 0x46 none (withIndex object (.rclQuery r object qbuf rbuf k pick l maxExpand mem) false (fresh s)
    (fun id key h s => withMem id mem (fun bs s =>
      let q := byteSlice bs 0 (0x100 + 4 * ixDims h)
      if ! queryOk h q k pick l maxExpand then fail id 0x51 s
      else if ! queryReady s key h || (mget? s.jobs key).isSome then notPlaced id s
      else if 1024 ≤ s.queries.length then defer id 0x56 s
      else { s with queries := s.queries ++ [{
        id := id, obj := key, graph := ixGraph h, qbuf := q, rbuf := rbuf.toNat, k := k, pick := pick, l := l
        maxExpand := maxExpand }] }) s)) s)

/-- Whether a query is under way: a frame runs it, or it holds a query slot. -/
def Query.busy (q : Query) : Bool := q.running || q.slot.isSome

/-- RCL_DROP (R252): the index closes; a query that still waits finds no object. -/
def execRclDrop (r : Req) (object : DWord) (s : State) : Host.Outcome State Fault Refusal :=
  .next (onReq r 0x47 none (withIndex object (.rclDrop r object) true (fresh s) (fun id key _ s =>
    if s.queries.any (fun q => q.obj = key && q.busy) then itemBusy id s
    else
      let waiting := s.queries.filter (fun q => q.obj = key)
      let s := waiting.foldl (fun s q => fail q.id 0x26 s) { s with queries := s.queries.filter (fun q => decide (q.obj ≠ key)) }
      let s := (indexAt s key).pend.foldl (fun s x => done x.1 s) s
      let s := closeObject key s
      done id { s with indices := mdel s.indices key })) s)

/-- Hamming distance of two sketches. -/
def hamming (a b : List Byte) : Nat :=
  let x := leNat a ^^^ leNat b
  ((List.range (8 * a.length)).filter (fun i => bitOf x i)).length

/-- Whether an item's tags pass a query's predicate (R237). -/
def tagsPass (q r : List Byte) : Bool := qRequired q &&& itTags r = qRequired q && qForbidden q &&& itTags r = 0

/-- A walk under way (R244): the nodes visited, the navigation list with its expanded marks, the eligible pool, and the
edges ignored for a generation mismatch. -/
structure Walk where
  seen : List Nat := []
  nav : List (Nat × Nat × Bool) := []
  pool : List (Nat × Nat) := []
  stale : Nat := 0
  deriving DecidableEq, Repr

/-- Insert into the navigation list in ascending (key, node) order. -/
def navPut (k y : Nat) : List (Nat × Nat × Bool) → List (Nat × Nat × Bool)
  | [] => [(k, y, false)]
  | x :: xs => if k < x.1 ∨ (k = x.1 ∧ y < x.2.1) then (k, y, false) :: x :: xs else x :: navPut k y xs

/-- Insert into the pool in ascending (key, node) order. -/
def poolPut (k y : Nat) : List (Nat × Nat) → List (Nat × Nat)
  | [] => [(k, y)]
  | x :: xs => if k < x.1 ∨ (k = x.1 ∧ y < x.2) then (k, y) :: x :: xs else x :: poolPut k y xs

/-- Visit a node by an edge (R244). -/
def visitNode (s : State) (key : Nat) (h : List Byte) (q : Query) (e edge : Nat) (w : Walk) : Walk :=
  let y := edge % 2 ^ 23
  if ! bitOf edge 23 || w.seen.contains y then w
  else
    let r := recRead s key h y
    if itGen r ≠ edge / 2 ^ 24 then { w with stale := w.stale + 1 }
    else if e < itIns r then w
    else
      let k := hamming (byteSlice q.qbuf 0 (ixBits h / 8)) (byteSlice r 64 (ixBits h / 8))
      let w := { w with seen := y :: w.seen, nav := (navPut k y w.nav).take q.l }
      if e < itDel r ∧ tagsPass q.qbuf r = true then { w with pool := (poolPut k y w.pool).take q.pick } else w

/-- Mark the first unexpanded entry expanded: its node and the list after it. -/
def navNext : List (Nat × Nat × Bool) → Option (Nat × List (Nat × Nat × Bool))
  | [] => none
  | x :: xs =>
    if x.2.2 then (navNext xs).map (fun p => (p.1, x :: p.2)) else some (x.2.1, (x.1, x.2.1, true) :: xs)

/-- Expand up to a number of nodes (R244). -/
def walkGo (s : State) (key : Nat) (h : List Byte) (q : Query) (e : Nat) : Nat → Walk → Walk
  | 0, w => w
  | n + 1, w =>
    if 65536 ≤ w.seen.length then w
    else
      match navNext w.nav with
      | none => w
      | some (x, nav) =>
        let edges := edgesAt (recRead s key h x) (64 + ixBits h / 8) (ixDegree h)
        walkGo s key h q e n (edges.foldl (fun w d => visitNode s key h q e d w) { w with nav := nav })

/-- A graph walk (R244). -/
def walkIndex (s : State) (key : Nat) (h : List Byte) (q : Query) (e : Nat) : Walk :=
  walkGo s key h q e q.maxExpand (((List.range 4).map (fun i => leField h (0x10 + 4 * i) 4)).foldl
    (fun w d => visitNode s key h q e d w) {})

/-- Element `d` of an item's vector, exactly as FP32 (R247). -/
def vecElem (h x : List Byte) (d : Nat) : FVal :=
  if ixFormat h = 0 then f32 (leField x (4 * d) 4)
  else if ixFormat h = 1 then bf16Val (leField x (2 * d) 2) else e4m3Val (leField x d 1)

/-- The distance of an item (R247). -/
def itDistance (h qbuf x : List Byte) : FVal :=
  let fma (a b c : FVal) : FVal := fp32Val (fpFma a b c).val
  let qd (d : Nat) : FVal := f32 (leField qbuf (0x100 + 4 * d) 4)
  if ixMetric h = 0 then (List.range (ixDims h)).foldl (fun acc d =>
    let t := fAdd (qd d) (vecElem h x d).flip
    fma t t acc) (f32 0)
  else ((List.range (ixDims h)).foldl (fun acc d => fma (qd d) (vecElem h x d) acc) (f32 0)).flip

/-- Insert a candidate in ascending distance, ties to the lower item number. -/
def rankPut (v : FVal) (n : Nat) : List (FVal × Nat) → List (FVal × Nat)
  | [] => [(v, n)]
  | x :: xs => if fpLt v x.1 || (! fpLt x.1 v && decide (n < x.2)) then (v, n) :: x :: xs else x :: rankPut v n xs

/-- Re-rank a query's candidates, write its RBUF and complete it (R246, R247, R253). -/
def finishQuery (q : Query) (h : List Byte) (e : Nat) (items : List Nat) (visited stale : Nat) (cut : Bool) (s : State) : State :=
  let p := fnPort q.id.fn
  let all := items.map (fun n => (itDistance h q.qbuf (objRead s q.obj (vecPlace h n).1 (vecPlace h n).2 (ixVecBytes h)), n))
  let good := all.filter (fun x => ! x.1.isNan)
  let best := (good.foldl (fun l x => rankPut x.1 x.2 l) []).take q.k
  let entry (x : FVal × Nat) : List Byte :=
    let r := recRead s q.obj h x.2
    natLe 8 (itUser r) ++ natLe 4 (fp32OfVal x.1).toNat ++ natLe 3 x.2 ++ natLe 1 (itGen r)
  let out := natLe 8 e ++ natLe 4 best.length ++ natLe 4 items.length ++ natLe 4 visited ++ natLe 1 (b2n cut)
    ++ List.replicate 43 0 ++ byteSlice (best.map entry).flatten 0 (16 * q.k)
  let s := { s with queries := s.queries.filter (fun y => decide (y ≠ q)) }
  let s := regAdd p 0xA0008 1 (regAdd p 0xA0010 stale (regAdd p 0xA0018 (all.length - good.length)
    (regAdd p 0xA0020 items.length s)))
  withOut q.id q.rbuf out (fun s => if cut then complete q.id 0x55 (some 0) 0 (regAdd p 0xA0014 1 s) else done q.id s) s

/-- End a query that cannot run. -/
def endQuery (q : Query) (detail : Nat) (status : Option Nat) (s : State) : State :=
  complete q.id detail status 0 { s with queries := s.queries.filter (fun y => decide (y ≠ q)) }

/-- RCL_GRAPH_WALK (R244 to R247, R249): the oldest graph query of a port is walked and re-ranked at the current epoch. -/
def execRclGraphWalk (port : Port) (s : State) : Host.Outcome State Fault Refusal :=
  match s.queries.find? (fun q => q.graph && fnPort q.id.fn = port.idx) with
  | none => .next s
  | some q =>
    let h := indexHeader s q.obj
    if ! queryReady s q.obj h then .next (endQuery q 0x54 (some 0xB) s)
    else
      let e := (indexAt s q.obj).epoch
      let w := walkIndex s q.obj h q e
      .next (finishQuery q h e (w.pool.map (·.2)) w.seen.length w.stale (navNext w.nav).isSome s)

/-! ### Scans (R240 to R242) -/

/-- The tags a query cares about, bit 127 added to REQUIRED (R240). -/
def careBits (q : List Byte) : Nat := (qRequired q ||| qForbidden q) % 2 ^ 127 + 2 ^ 127

/-- The query block of R240. -/
def queryBlock (h q : List Byte) : List Byte :=
  let hs := ixBits h / 128
  let sk := leField q 0 (ixBits h / 8)
  let elem (c j k : Nat) : Byte :=
    let b := 4 * k + j
    if c < hs then (if bitOf sk (128 * c + b) then 0x38 else 0xB8)
    else if b = 127 || bitOf (qRequired q) b then 0x38 else if bitOf (qForbidden q) b then 0xB8 else 0
  let planes := ((List.range (hs + 1)).map (fun c => ((List.range 4).map (fun j => (List.range 32).map (elem c j))).flatten)).flatten
  let num (n : Nat) : List Byte := natLe 4 (fp32OfDy false ⟨n, 0⟩).bits.toNat
  let care := ((List.range 128).filter (fun i => bitOf (careBits q) i)).length
  let b := planes ++ num (ixBits h) ++ num care
  byteSlice b 0 (pad64 b.length)

/-- The query in a query slot of a pavilion. -/
def slotQuery (s : State) (n slot : Nat) : Option Query := s.queries.find? (fun q => q.slot = some (n, slot))

/-- Give the oldest query that waits for a pavilion's scan a query slot, and queue its block for every core of the pavilion
in class T5 (R80, R240). A query whose index has left its place ends with NOT_PLACED. -/
def placeQuery (n slot : Nat) (s : State) : State :=
  let p := pavAt s n
  match p.prog with
  | none => s
  | some g =>
    let key := objKey (g.object / 2 ^ 64) (leField g.recallDesc 0 8)
    if g.recallDesc = [] ∨ p.nslots ≤ slot ∨ (mget? p.slots slot).isSome ∨ (slotQuery s n slot).isSome then s
    else
      match s.queries.find? (fun q => q.obj = key && ! q.graph && q.slot = none) with
      | none => s
      | some q =>
        let h := indexHeader s key
        if ! indexReady s key h then endQuery q 0x54 (some 0xB) s
        else
          let block := queryBlock h q.qbuf
          let line := leField g.recallDesc 24 4 + slot * (block.length / 64)
          let s := { s with queries := s.queries.map (fun y => if y = q then { y with slot := some (n, slot) } else y) }
          (List.range (pavCores p)).foldl (fun s j =>
            let k := pavCore p j
            onBay (coreBay k) (fun b => { b with transom := b.transom ++ [⟨5, true, ceilDiv block.length 512, .input k line block⟩] }) s) s

/-- Insert a group in ascending (P, group) order. -/
def minPut (x : Nat × Nat) : List (Nat × Nat) → List (Nat × Nat)
  | [] => [x]
  | y :: ys => if x.1 < y.1 ∨ (x.1 = y.1 ∧ x.2 < y.2) then x :: y :: ys else y :: minPut x ys

/-- The groups a query's minima select (R242). -/
def pickGroups (minima : List Nat) (pick : Nat) : List Nat :=
  let ok := (minima.zipIdx).filter (fun x => decide (x.1 < 131072))
  ((ok.foldl (fun l x => minPut x l) []).take pick).map (·.2)

/-- The end of a scan (R242, R249): the candidates of the picked groups are re-ranked. -/
def endScan (q : Query) (minima : List Nat) (s : State) : State :=
  let h := indexHeader s q.obj
  let items := ((pickGroups minima q.pick).map (fun g => (List.range 32).map (fun i => 32 * g + i))).flatten
  let good := items.filter (fun n => decide (n < ixCap h) &&
    (let r := recRead s q.obj h n; itVisible r q.epoch && tagsPass q.qbuf r))
  finishQuery q h q.epoch good 0 0 false s

/-- A frame of a pavilion takes its query slots: each query's epoch is the index's of now (R249). -/
def startScans (n : Nat) (s : State) : List Nat × State :=
  let mine := s.queries.filter (fun q => q.slot.any (fun x => x.1 = n) && ! q.running)
  (mine.map (fun q => n * 1024 + (q.slot.getD (0, 0)).2),
    { s with queries := s.queries.map (fun q => if mine.contains q then
        { q with running := true, epoch := (indexAt s q.obj).epoch } else q) })

end Sys2Proof.Machine
end

