-- ==== Sys2Proof/Machine/Steps.lean ====
section
/-! DEFINITION. Steps up to their latch points (R68, R87 to R89, R106, R107, R124, R126, R129, R152, R153, R213, R240, R261,
R262, R275, R277, R380): column inputs, masks, the start of a frame, and latch decisions. -/

namespace Sys2Proof.Machine

/-! ### Sessions in slots -/

/-- Whether a pavilion's program samples, and the fields of its sampling descriptor (R212). -/
def Pav.sample (p : Pav) : List Byte := match p.prog with | none => [] | some g => g.sample
def spVocab (d : List Byte) : Nat := leField d 0 4
def spShard (d : List Byte) : Nat := leField d 4 2
def spBase (d : List Byte) : Nat := leField d 8 4

/-- The first position, the tokens and whether a session's next step in a batch slot samples (R126, R223). -/
def slotColumns (p : Pav) (slot : Nat) (x : Session) : Nat × List Nat × Bool :=
  let c := x.columns (slotWidth p.desc (slotKindOf p.desc slot))
  (c.1, c.2.1, c.2.2 && decide (p.sample ≠ []))

/-! ### Column inputs (R107, R124) -/

/-- Queue lines that the hub writes to a core between frames (R84). -/
def queueLines (cls k line : Nat) (bs : List Byte) (s : State) : State :=
  onBay (coreBay k) (fun b => { b with
    transom := b.transom ++ [⟨cls, true, ceilDiv bs.length 512, .input k line bs⟩] }) s

/-- An entry of a rotary table: its cosine and sine (R124). -/
def ropeEntry (tab : List Byte) (v x i : Nat) : Word × Word :=
  let o := ((v * 128 + x) * 64 + i) * 8
  (BitVec.ofNat 32 (leField tab o 4), BitVec.ofNat 32 (leField tab (o + 4) 4))

/-- The product of two rotary entries (R124). -/
def ropeMul (a b : Word × Word) : Word × Word :=
  let c1 := fp32Val a.1
  let s1 := fp32Val a.2
  let c2 := fp32Val b.1
  let s2 := fp32Val b.2
  ((fpFma c1 c2 (fMul s1 s2).flip).val, (fpFma s1 c2 (fMul c1 s2)).val)

/-- The rotary factors of a position: cosine and sine of each pair (R107, R124). -/
def ropeFactors (tab : List Byte) (dims p : Nat) : List Byte :=
  ((List.range (dims / 2)).map (fun i =>
    let r := ropeMul (ropeMul (ropeEntry tab 0 (p % 128) i) (ropeEntry tab 1 (p / 128 % 128) i)) (ropeEntry tab 2 (p / 16384) i)
    natLe 4 r.1.toNat ++ natLe 4 r.2.toNat)).flatten

/-- A row of the input embedding (R107): none beyond the object's rows or where it cannot be read. -/
def embedRow (s : State) (key hidden t : Nat) : Option (List Byte) :=
  let n := match objOf s key with | none => 0 | some o => o.ntiles
  let tiles := (List.range (2 * hidden * (t + 1) / 16384 + 1)).filter (fun i =>
    decide (2 * hidden * t < 16384 * (i + 1)) && decide (16384 * i < 2 * hidden * (t + 1)))
  if n * 16384 / (2 * hidden) ≤ t ∨ tiles.any (fun i => (tilePlain s key i).isNone) = true then none
  else some (objRead s key 0 (2 * hidden * t) (2 * hidden))

/-- The input block of a column, padded to whole lines (R107). -/
def columnBlock (s : State) (g : Prog) (p t : Nat) : Option (List Byte) :=
  (embedRow s (objKey (g.object / 2 ^ 64) (dEmbed g.decode)) (dHidden g.decode) t).map (fun row =>
    let b := row ++ ropeFactors (mgetD s.ropes (dRopeTable g.decode) []) (dRopeDims g.decode) p
    b ++ List.replicate (pad64 b.length - b.length) 0)

/-- End a session's run outside a frame's commits. -/
def endStep (key : Nat) (x : Session) (r : Run) (port status detail : Nat) (s : State) : State :=
  let f := if status = 3 then flushHeld x else ([], x)
  let s := if status = 3 then setSessTile key f.2 s else s
  let s := if status = 4 then regAdd port 0x90018 1 s else s
  postStep key f.2 r status detail none f.1 { port := port, tenant := x.tenant } true s

/-- The blocks of a slot's columns go to the bays in class T1, and the slot's input is noted; a token without a readable row
fails the step, with a record that names the object (R107). -/
def putInputs (n slot key : Nat) (x : Session) (r : Run) (g : Prog) (s : State) : State :=
  let p := pavAt s n
  let c := slotColumns p slot x
  match (c.2.1.zipIdx).mapM (fun t => columnBlock s g (c.1 + t.2) t.1) with
  | none =>
    let e : ErrRec := {
      source := srcId 0xB 0, cls := 2, code := Config.embedErrCode.toNat, port := p.port, ref := dEmbed g.decode }
    endStep key x r p.port 8 0 (raiseErr e s)
  | some blocks =>
    let s := (blocks.zipIdx).foldl (fun s b =>
      let col := slotCol p.desc slot + b.2
      queueLines 1 (pavCore p (col % pavCores p)) (dInBase g.decode + col / pavCores p * (b.1.length / 64)) b.1 s) s
    onPav n (fun p => { p with inputs := mput p.inputs slot (c.1, c.2.1) }) s

/-- COLUMN_INPUT_WRITE (R84, R107, R240): between frames the hub writes the column inputs of an active session's next step; in
a recall pavilion it takes a query into a query slot and writes its block. -/
def execColumnInputWrite (pav : Fin 80) (slot : Nat) (s : State) : Host.Outcome State Fault Refusal :=
  let p := pavAt s pav
  if groupBusy s pav then .next s
  else
    match p.prog, (mget? p.slots slot) with
    | some _, none => .next (placeQuery pav slot s)
    | some g, some u =>
      if ! slotActive s pav (slot, u) || g.decode = [] then .next s
      else
        match mget? s.sessions u.sess with
        | none => .next s
        | some x =>
          match x.run with
          | none => .next s
          | some r =>
            if ! x.hasInput || decide (lengthLimit p x ≤ (slotColumns p slot x).1) then .next s
            else .next (putInputs pav slot u.sess x r g s)
    | none, _ => .next s

/-- MASK_WRITE (R84, R213, R219): between frames the hub writes the allow mask of a step's sampled column to the mask
holders. -/
def execMaskWrite (pav : Fin 80) (slot : Nat) (s : State) : Host.Outcome State Fault Refusal :=
  let p := pavAt s pav
  let d := p.sample
  match mget? p.slots slot with
  | none => .next s
  | some u =>
    match mget? s.sessions u.sess with
    | none => .next s
    | some x =>
      let c := slotColumns p slot x
      if groupBusy s pav || ! slotActive s pav (slot, u) || ! c.2.2 then .next s
      else
        let m := sessMask s u.sess x (spVocab d)
        let col := slotCol p.desc slot + (c.2.1.length - 1)
        let holders := ceilDiv (ceilDiv (spVocab d) 32) (spShard d)
        let s := (List.range holders).foldl (fun s j =>
          queueLines 1 (pavCore p j) (spBase d + col * (spShard d / 16)) (natLe (4 * spShard d) (m / 2 ^ (32 * j * spShard d))) s) s
        .next (onPav pav (fun p => { p with masks := mput p.masks slot m }) s)

/-! ### Whether a session joins a frame (R152, R262, R380) -/

/-- The tiles of a layer that a session in a slot needs landed: not those a stream slot fetches in the step (R127, R136). -/
def slotNeeds (p : Pav) (x : Session) (slot k : Nat) : List Nat :=
  (neededTiles p.desc x.lmax x.length k).filter (fun i => ! streamed p.desc x.lmax x.length slot i)

/-- Whether a tile of a session is still on its way: lower, arriving, or promised by an open stream. -/
def tileOwed (s : State) (obj : Nat) (y : Option Stream) (i : Nat) : Bool :=
  let t := tileOf s obj i
  t.state = .lower || t.state = .arriving ||
    (match y with | none => false | some y => (t.state = .absent || ! y.hand) && ! y.landed.contains i)

/-- The frame cycle of a layer's arrival check. -/
def latchOf (p : Pav) (k : Nat) : Option Nat :=
  match p.prog with
  | none => none
  | some g => ((imgLatchRecs g.image).find? (fun l => l.layer = k && bitOf l.flags 0)).map (·.cycle)

/-- Stored bytes of some tiles of a session (R152): of a tile whose lower copy has been freed, those it was fetched as. -/
def storedBytes (s : State) (obj : Nat) (is : List Nat) : Nat := sumNat (is.map (fun i => storedAt s obj (tileOf s obj i)))

/-- Whether a tile is on its way from or to a tier. -/
def Tile.movesIn (tier : Nat) (p : Nat) (t : Tile) : Bool :=
  (t.state = .arriving && t.loTier = tier) || (t.owesWrite && absTier p t.newTier = tier)

/-- N of R152: the transfers that move tiles on a tier. -/
def tierTransfers (s : State) (tier : Nat) : Nat :=
  let jobs := s.jobs.filter (fun j => (objOf s j.1).any (fun o => o.tiles.any (fun t => t.2.movesIn tier (objPort j.1))))
  let snaps := s.snaps.filter (fun x => x.2.run.any (fun r => absTier x.1 r.tier = tier))
  let streams := if tier = 2 then sumNat (s.pavs.map (fun p =>
    (p.2.slots.filter (fun u => ! u.2.reserved && slotKindOf p.2.desc u.1 = 2)).length)) else 0
  jobs.length + snaps.length + streams

/-- Whether an interval overlaps a retraining window of the far tier (R430, R433): the one in progress, or one of the
calendar. -/
def retrains (s : State) (first stop : Nat) : Bool :=
  let c := s.farCal
  let period := 25000000 / max 1 (farSites s)
  c.windowAt.any (fun t => decide (first < t + 256000))
    || c.start.any (fun t =>
      let next := t + c.window * period
      decide (next < stop) && (decide (first < next + 256000) || decide (next + period < stop) || decide ((first - t) % period < 256000)))

/-- The rate of a revive from a tier as R152 takes it, as a fraction: the rate of R151, divided by N, and for the far tier
multiplied by 1 − 0.096 ÷ S when the step overlaps a retraining window (R433). -/
def reviveRate (s : State) (tier rate length : Nat) : Nat × Nat :=
  let n := max 1 (tierTransfers s tier)
  let sites := max 1 (farSites s)
  if tier = 2 && retrains s s.time (s.time + 4 * length / 9) then (rate * (1000 * sites - 96), n * (1000 * sites)) else (rate, n)

/-- The source tier of a session's revive: where the lower copy of a tile that is still on its way lies. -/
def reviveTier (s : State) (obj : Nat) : Nat :=
  ((objOf s obj).bind (fun o => (o.tiles.find? (fun t => t.2.state = .arriving || t.2.state = .lower)).map (·.2.loTier))).getD 0

/-- Whether a session whose tiles are still landing joins the step that starts now (R152, R380): layer 0 has landed, and
every later layer is projected to land before its latch decision. `rate` is the rate of R151 in bytes a µs; a layer with no
arrival check must have landed. -/
def leadOk (s : State) (p : Pav) (obj slot : Nat) (x : Session) (y : Option Stream) (rate : Nat) : Bool :=
  let owed (k : Nat) : Bool := (slotNeeds p x slot k).any (tileOwed s obj y)
  let margin := bits (regGet s p.port 0xB0004) 0 15
  let length := match p.prog with | none => 0 | some g => imgCycles g.image
  let r := if (y.map (·.hand)) = some true then (rate, 1) else reviveRate s (reviveTier s obj) rate length
  let lands (bytes c : Nat) : Bool :=
    x.reviveAt.any (fun a => decide (0 < r.1) &&
      decide (9 * r.1 * a + 9000 * bytes * r.2 + 4 * r.1 * margin ≤ 9 * r.1 * s.time + 4 * r.1 * (c - 64)))
  let layer (k : Nat) : Bool :=
    match latchOf p k with
    | none => ! owed k
    | some c =>
      match y with
      | some y =>
        if y.hand then lands (16384 * sumNat ((List.range (k + 1)).map (fun j => (slotNeeds p x slot j).length))) c
        else y.t0.any (fun t => decide (9 * (t + k * y.layerNs) + 4 * margin ≤ 9 * s.time + 4 * (c - 64)))
      | none => lands (sumNat ((List.range (k + 1)).map (fun j => storedBytes s obj (slotNeeds p x slot j)))) c
  bitOf (regGet s p.port 0xB0000) 0 && ! owed 0 && (List.range (dLayers p.desc - 1)).all (fun k => layer (k + 1))

/-- What becomes of an occupied slot when a frame starts. -/
inductive Fate where
  | idle
  | ends (status detail : Nat)
  | runs (r : SlotRun)
  deriving DecidableEq, Repr

/-- Whether a request in effect for an object keeps its session out of frames (R158): every one but a revive and a
write-back. -/
def jobHolds (s : State) (obj : Nat) : Bool :=
  match mget? s.jobs obj with
  | none => false
  | some (.revive ..) => false
  | some (.writeBack ..) => false
  | some _ => true

/-- The fate of a slot before its budget is looked at (R109, R152, R222, R262, R349, R380). -/
def slotFate (s : State) (rates : List LeadRate) (n slot : Nat) (u : SlotUse) : Fate :=
  let p := pavAt s n
  match mget? s.sessions u.sess with
  | none => .idle
  | some x =>
    let obj := sessObj u.sess x
    let y := s.streams.find? (fun y => y.sess = u.sess && ! y.aborted)
    let cut := s.streams.any (fun y => y.sess = u.sess && y.aborted && y.hand)
    let needs := ((List.range (dLayers p.desc)).map (slotNeeds p x slot)).flatten
    let rate := ((rates.find? (fun r => r.pav.val = n && r.slot = slot)).map (·.rate)).getD 0
    let late := needs.any (tileOwed s obj y) && ! leadOk s p obj slot x y rate
    if ! slotActive s n (slot, u) || jobHolds s obj || (y.any (fun y => ! y.hand && ! y.lead)) || late then .idle
    else if needs.any (fun i => let t := (tileOf s obj i).state; t = .failed || (cut && t = .absent)) then .ends 8 0x24
    else if ! x.hasInput then .ends 4 0x48
    else
      let c := slotColumns p slot x
      let again := bitOf (x.get 0x46 1) 1 && decide (0 < x.length)
      let head := b2n (bitOf (x.get 0x4C 4) 31)
      if lengthLimit p x ≤ c.1 then .ends 3 0
      else .runs {
        sess := u.sess, toks := c.2.1, p0 := c.1, samples := c.2.2
        reserve := reserveOf (tenantOf s p.port x.tenant) x c.2.1.length c.2.2
        gen := x.gen, seg := x.get 0x64 2, prompt := if again then 0 else c.2.1.length - head, again := again }

/-- Whether a slot that would run has its column inputs and its mask written (R107, R213). -/
def inputReady (s : State) (n slot : Nat) (r : SlotRun) : Bool :=
  let p := pavAt s n
  (p.desc = [] || mget? p.inputs slot = some (r.p0, r.toks))
    && (! r.samples || (mget? s.sessions r.sess).any (fun x =>
      mget? p.masks slot = some (sessMask s r.sess x (spVocab p.sample))))

/-- Reserve budgets in order (R277): a slot whose tenant cannot cover it ends with BUDGET_EXHAUSTED. `taken` is what the
frame has reserved of each tenant. -/
def reserveAll (s : State) : List (Nat × Fate) → NMap Nat → List (Nat × Fate)
  | [], _ => []
  | (k, .runs r) :: fs, taken =>
    let port := (pavAt s (k / 1024)).port
    let ten := ((mget? s.sessions r.sess).map (·.tenant)).getD 0
    let t := tenantOf s port ten
    let used := mgetD taken (port * 4096 + ten) 0
    if t.unlimited = false ∧ t.budget < used + r.reserve then (k, .ends 6 0x67) :: reserveAll s fs taken
    else (k, .runs r) :: reserveAll s fs (mput taken (port * 4096 + ten) (used + r.reserve))
  | x :: fs, taken => x :: reserveAll s fs taken

/-! ### FRAME_START (R261) -/

/-- Whether a ready pavilion has gathered (R261). -/
def pavGathered (s : State) (n : Nat) : Bool :=
  let p := pavAt s n
  p.slots.all (slotActive s n) || bits (pavCtrl s n) 16 31 = 0 || p.gathered

/-- Whether an item in the hub's queues is a column input, mask or query block. -/
def HubItem.isInput (x : HubItem) : Bool := match x with | .input .. => true | _ => false

/-- Whether every block written to a bay has landed (R107). -/
def bayLanded (s : State) (b : Nat) : Bool :=
  (bayAt s b).transom.all (fun x => ! x.item.isInput) && (bayAt s b).bond.all (fun x => ! x.item.isInput)

/-- Whether a port's snapshot holds its frames back for a cut (R288). -/
def cutWaits (s : State) (p : Nat) : Bool := ((mgetD s.snaps p {}).run).any (fun r => r.cutAt.isNone)

/-- Whether a request that takes effect between frames is still to be applied for some pavilions (R261 step 2, R278). -/
def boundaryOwed (s : State) (pavs : List Nat) : Bool :=
  s.held.any (fun h => heldReady s h && (match h.why with
    | .boundary key => (mget? s.sessions key).any (fun x => pavs.contains x.pav)
    | .tenant _ => true
    | .group n => pavs.contains n
    | _ => false))

/-- Whether a frame of a group may start (R261, R288, R411, R455): every bay in run, none fenced, none moving in or out of
hatch mode, no request still to be applied between frames, and no snapshot waiting for its cut. -/
def frameMay (s : State) (bays pavs : List Nat) : Bool :=
  hubServes s && ! boundaryOwed s pavs && bays.all (fun b => ! s.frames.any (fun f => f.2.bays.contains b))
    && bays.all (fun b => ((bayAt s b).power = .run || (bayAt s b).hatch) && ! (bayAt s b).fenced && bayLanded s b)
    && pavs.all (fun n => ! cutWaits s (pavAt s n).port)
    && pavs.any (fun n => pavReady s n && pavGathered s n)

/-- A slot record's fields (R106). -/
def recordBytes (occupied : Bool) (mode active p0 seg : Nat) : List Byte :=
  natLe 1 (b2n occupied) ++ natLe 1 (mode % 4) ++ natLe 2 active ++ natLe 4 p0 ++ natLe 2 (seg % 2 ^ 15) ++ List.replicate 6 0

/-- The slot record of a batch slot (R106, R262): one whose session does not run has FLAGS bit 0 clear and the session's fields
all the same, with the columns its next step would take. -/
def slotRecord (s : State) (n slot : Nat) (r : Option SlotRun) : List Byte :=
  let p := pavAt s n
  let x := ((mget? p.slots slot).filter (fun u => ! u.reserved)).bind (fun u => mget? s.sessions u.sess)
  match r, x with
  | some r, x => recordBytes true ((x.map (fun x => x.get 0x47 1)).getD 0) r.toks.length r.p0 r.seg
  | none, some x =>
    let c := slotColumns p slot x
    recordBytes false (x.get 0x47 1) (max 1 c.2.1.length) c.1 (x.get 0x64 2)
  | none, none => List.replicate 16 0

/-- The slot records of a pavilion. -/
def slotRecords (s : State) (n : Nat) (runs : NMap SlotRun) : List Byte :=
  ((List.range (pavAt s n).nslots).map (fun i => slotRecord s n i (mget? runs (n * 1024 + i)))).flatten

/-- A verdict vector (R87): bit `i` for batch slot `i`. -/
def verdictBytes (on : Nat → Bool) : List Byte :=
  (List.range 128).map (fun j => BitVec.ofNat 8 (sumNat ((List.range 8).map (fun b => b2n (on (8 * j + b)) * 2 ^ b))))

/-- A core at frame cycle 0 (R68, R73): S0 to S15 set and every loop counter cleared. -/
def presetCore (g : Prog) (k step : Nat) (c : Core) : Core :=
  let word (i : Nat) : Nat :=
    if i = 0 then k else if i = 1 then step else if i < 8 then 0 else imgConst g.image (k / 128) (k % 128) (i - 8)
  { c with sr := (List.range 16).map (fun i => (i, BitVec.ofNat 64 (word i))), loops := [] }

/-- Set up every core of a pavilion for a frame (R68, R87, R106). -/
def presetPav (n : Nat) (f : Frame) (s : State) : State :=
  let p := pavAt s n
  match p.prog with
  | none => s
  | some g =>
    let recs := if g.decode = [] then [] else slotRecords s n f.runs
    let ver := verdictBytes (fun i => (mget? f.runs (n * 1024 + i)).isSome || f.scans.contains (n * 1024 + i))
    (List.range (pavCores p)).foldl (fun s j =>
      let k := pavCore p j
      setCore k (((presetCore g k p.step (coreAt s k)).paneWrite (dSlotIn g.decode) recs).paneWrite (imgVerdict g.image) ver) s) s

/-- The slots of some pavilions with what becomes of them. -/
def frameFates (s : State) (rates : List LeadRate) (pavs : List Nat) : List (Nat × Fate) :=
  reserveAll s ((pavs.map (fun n => (pavAt s n).slots.map (fun u => (n * 1024 + u.1, slotFate s rates n u.1 u.2)))).flatten) []

/-- The end of a run that a frame's start brings. -/
def applyFate (x : Nat × Fate) (s : State) : State :=
  match x.2 with
  | .ends status detail =>
    let port := (pavAt s (x.1 / 1024)).port
    match mget? (pavAt s (x.1 / 1024)).slots (x.1 % 1024) with
    | none => s
    | some u =>
      match mget? s.sessions u.sess with
      | none => s
      | some y => match y.run with | none => s | some r => endStep u.sess y r port status detail s
  | _ => s

/-- FRAME_START (R65 to R68, R87, R106, R152, R261, R262, R272, R277, R288): the frame group of a bay starts a frame. `rates` are
the rates of R151 and R152 for sessions still landing. -/
def execFrameStart (bay : Fin 20) (rates : List LeadRate) (s : State) : Host.Outcome State Fault Refusal :=
  let bays := groupBays s bay
  let all := groupPavs s bays
  let pavs := all.filter (pavReady s)
  let fates := frameFates s rates pavs
  let ready := fates.all (fun x => match x.2 with | .runs r => inputReady s (x.1 / 1024) (x.1 % 1024) r | _ => true)
  match (pavs.head?).bind (fun n => (pavAt s n).prog) with
  | none => .next s
  | some g =>
    if ! frameMay s bays all || ! ready then .next s
    else
      let runs : NMap SlotRun := fates.foldl (fun m x => match x.2 with | .runs r => mput m x.1 r | _ => m) []
      let holders : NMap Nat := (pavs.map (fun n => (pavAt s n).slots.filterMap (fun u =>
        if u.2.reserved then none else (mget? s.sessions u.2.sess).map (fun x => (n * 1024 + u.1, x.tenant))))).flatten
      let s := fates.foldl (fun s x => applyFate x s) s
      let sc := pavs.foldl (fun (a : List Nat × State) n => let b := startScans n a.2; (a.1 ++ b.1, b.2)) ([], s)
      let f : Frame := {
        bays := bays, pavs := pavs, quarters := (pavs.map (fun n => (pavAt s n).quarters)).flatten
        length := imgCycles g.image, start := s.time, runs := runs, scans := sc.1, holders := holders }
      let s := pavs.foldl (fun s n => presetPav n f s) sc.2
      let s := pavs.foldl (fun s n => onPav n (fun p => { p with inputs := [], masks := [] }) s) s
      let ports := ([0, 1] : List Nat).filter (fun q => pavs.any (fun n => (pavAt s n).port = q))
      let s := ports.foldl (fun s q => onSnap q (fun y => { y with frames := y.frames + 1 }) s) s
      .next (setFrame (bays.foldl min bay) f (all.foldl (fun s n => applyMode n s) s))

/-- GATHER_EXPIRY (R261): GATHER_NS have passed since the pavilion became ready or its group's last frame ended. -/
def execGatherExpiry (pav : Fin 80) (s : State) : Host.Outcome State Fault Refusal :=
  let s := noteReadyAll s
  match (pavAt s pav).readyAt with
  | none => .next s
  | some t =>
    if s.time < t + bits (pavCtrl s pav) 16 31 then .next s
    else .next (onPav pav (fun p => { p with gathered := true }) s)

/-! ### LATCH_DECISION (R87 to R89, R129, R274) -/

/-- Whether a tile has been delivered by the transom switch into its bay (R88): landed, or waiting for bond cycles. -/
def tileDelivered (s : State) (obj : Nat) (y : Option Stream) (i : Nat) : Bool :=
  let t := tileOf s obj i
  let inBond := (bayAt s (coreBay (addrCore t.upAddr))).bond.any (fun b => match b.item with
    | .arrive key j _ _ => key = obj && j = i
    | .push key j _ _ => key = obj && j = i
    | _ => false)
  let stillOwed := match y with
    | none => false
    | some y => (t.state = .absent || ! y.hand) && ! y.landed.contains i
  if t.state = .arriving || stillOwed then t.landed || inBond else t.state ≠ .lower

/-- The arrival check of a layer for a running slot (R88, R127): masked with NOT_READY when a needed tile has not been
delivered, failed when one has FAILED. -/
def arrivalCheck (n layer : Nat) (r : Nat × SlotRun) (s : State) (f : Frame) : Frame :=
  let p := pavAt s n
  match mget? s.sessions r.2.sess with
  | none => f
  | some x =>
    let obj := sessObj r.2.sess x
    let y := s.streams.find? (fun y => y.sess = r.2.sess && ! y.aborted)
    let is := neededTiles p.desc x.lmax x.length layer
    let f := if is.any (fun i => (tileOf s obj i).state = .failed) then
      { f with damagedSess := f.damagedSess ++ [r.2.sess] } else f
    if (mget? f.masked r.1).isNone && ! is.all (tileDelivered s obj y) then { f with masked := mput f.masked r.1 0xB } else f

/-- The victims of queued requests are named (R129, R274): each selected request with no free slot names its victim and leaves
the queue. An inactive victim is then taken between frames. -/
def nameVictims (n : Nat) : Nat → State → State
  | 0, s => s
  | k + 1, s =>
    match selectNext s n (fun q => freeSlots (pavAt s n) (q.kind s) = []) with
    | none => s
    | some q => nameVictims n k (selectOne n q s)

/-- Whether a batch slot holds a named victim whose swap has not begun. -/
def swapNamed (s : State) (n slot : Nat) : Bool :=
  (mget? (pavAt s n).slots slot).any (fun u => (mget? s.sessions u.sess).any (fun x =>
    match mget? s.jobs (sessObj u.sess x) with | some (.swap _ false) => true | _ => false))

/-- Take active victims at a pre-emption latch point (R129, R274): every named victim that runs in the frame is masked. -/
def preemptAt (n key : Nat) (s : State) : State :=
  let s := nameVictims n (pavAt s n).queue.length s
  match mget? s.frames key with
  | none => s
  | some f =>
    let hit := f.runs.filter (fun r => r.1 / 1024 = n && (mget? f.masked r.1).isNone && swapNamed s n (r.1 % 1024))
    setFrame key { f with masked := hit.foldl (fun m r => mput m r.1 9) f.masked } s

/-- Send a pavilion's verdict vector (R87): it lies in every core's pane store by frame cycle `c`. -/
def sendVerdict (n key c : Nat) (s : State) : State :=
  let p := pavAt s n
  match mget? s.frames key, p.prog with
  | some f, some g =>
    let bs := verdictBytes (fun i => ((mget? f.runs (n * 1024 + i)).isSome || f.scans.contains (n * 1024 + i))
      && (mget? f.masked (n * 1024 + i)).isNone)
    (List.range (pavCores p)).foldl (fun s j =>
      let k := pavCore p j
      setCore k (fly c (.pane (imgVerdict g.image) bs) (coreAt s k)) s) s
  | _, _ => s

/-- LATCH_DECISION (R87 to R89, R129, R153, R274): a pavilion's latch record is decided at 64 cycles before its latch point. -/
def execLatchDecision (pav : Fin 80) (index : Nat) (s : State) : Host.Outcome State Fault Refusal :=
  let p := pavAt s pav
  match s.frames.find? (fun f => f.2.pavs.contains pav), p.prog with
  | some (key, f), some g =>
    match (imgLatchRecs g.image)[index]? with
    | none => .next s
    | some l =>
      if f.hold.isSome || f.stopped || f.latched.contains (pav.val, index) || decide (l.cycle < 64)
          || decide (l.cycle - 64 < f.cycle) || f.requests.any (fun r => decide (r.freezeAt ≤ l.cycle - 64)) then .next s
      else
        let mine := f.runs.filter (fun r => r.1 / 1024 = pav.val)
        let f := { f with cycle := l.cycle - 64, latched := f.latched ++ [(pav.val, index)] }
        let f := if bitOf l.flags 0 then mine.foldl (fun f r => arrivalCheck pav l.layer r s f) f else f
        let s := setFrame key f s
        let s := if bitOf l.flags 1 && bits (pavCtrl s pav) 4 5 = 2 then preemptAt pav key s else s
        .next (sendVerdict pav key l.cycle s)
  | _, _ => .next s

end Sys2Proof.Machine
end

