-- ==== Sys2Proof/Machine/Calibrate.lean ====
section
/-! DEFINITION. Refresh, deskew and holds (R91 to R100, R426 to R429, R437, R457, R458), and the far calendar (R430 to
R432). -/

namespace Sys2Proof.Machine

/-! ### Temperatures and power as the rules here use them (R92, R416, R418) -/

/-- Whether a sensor stands at a level. -/
def sensorAt (s : State) (id level : Nat) : Bool := (mgetD (mgetD s.gate.sensors id {}).levels level {}).on

/-- A pin. -/
def pinAt (s : State) (n : Nat) : Pin := mgetD s.gate.pins n {}

/-- Whether an active-low pin acts (R420, R422). -/
def pinActs (s : State) (n : Nat) : Bool := (pinAt s n).acted = 0 && ! (pinAt s n).stuck

/-- Whether a bay is treated as at THROTTLE (R418, R420). -/
def bayThrottled (s : State) (b : Nat) : Bool := sensorAt s (10 + b) 3 || sensorAt s (40 + b) 3 || pinActs s 5

/-- THERMAL_CLASS of the program loaded in a bay (R92); class 0 where none is. -/
def bayClass (s : State) (b : Nat) : Nat :=
  match (s.pavs.find? (fun p => p.2.bays.contains b && p.2.prog.isSome)).bind (·.2.prog) with
  | none => 0
  | some g => imgThermal g.image

/-- RATE_DOUBLED (R100, R434): the hottest DRAM die stands at the level of the compiled class. -/
def rateDoubled (s : State) (b : Nat) : Bool := sensorAt s (40 + b) (min 1 (bayClass s b))

/-- The refresh interval in force in core cycles (R92). -/
def refreshInterval (s : State) (b : Nat) : Nat :=
  if bayClass s b = 0 then (if rateDoubled s b then 4387 else 8775) else if rateDoubled s b then 2193 else 4387

/-- The effective joint budget of a bay (R416). -/
def bayBudget (s : State) (b : Nat) : Nat :=
  let j := jointBudget s.gate.effective (match s.trellis with | none => 0 | some t => t.actWindow)
  if bayThrottled s b then j / 2 else j

/-- The joint quanta that the programs of a frame need in a bay (R415). -/
def bayNeed (s : State) (f : Frame) (b : Nat) : Nat :=
  let w := match s.trellis with | none => 0 | some t => t.actWindow
  sumNat (f.pavs.map (fun n => match (pavAt s n).prog with
    | none => 0
    | some g => windowMax (imgCycles g.image) w (quantaSpans g.image b)))

/-! ### Bond lines (R427 to R429, R457) -/

/-- The key of a bond line in its bay. -/
def lineKey (core line : Nat) : Nat := core % 512 * 2048 + line

/-- The spare lines of a core that are free: not failed, and used neither live nor by the foundation (R396, R457). -/
def freeSpares (s : State) (core : Nat) : List Nat :=
  let ls := (bayAt s (coreBay core)).lines
  let e := bayErr s core 3 0x10
  let fixed := (match s.trellis with | none => [] | some t => t.repairs).filter (fun r =>
    r % 256 = e.pbay && bits r 8 15 = 1 && bits r 16 31 = e.core)
  (List.range 48).filter (fun j => ! (mgetD ls (lineKey core (1600 + j)) {}).failed
    && ! ls.any (fun l => l.1 / 2048 = core % 512 && l.2.spare = some j) && ! fixed.any (fun r => bits r 48 63 = j))

/-- An error moved towards zero by at most `n` steps; the element keeps within its 64 steps. -/
def passStep (n : Nat) (l : BondLine) (err : Int) : BondLine :=
  let want : Int := max (-(n : Int)) (min (n : Int) err)
  let step := max 0 (min 63 ((l.step : Int) + want))
  { l with step := step.toNat, err := err - (step - (l.step : Int)) }

/-- Whether a line fails after a pass (R429). -/
def lineFails (hold : Bool) (l : BondLine) : Bool :=
  ((l.step = 0 || l.step = 63) && decide (16 < l.err.natAbs)) || (hold && decide (24 < l.err.natAbs))

/-- A line is failed (R429): its record, which asks for repair when the core has no spare line left (R457, R459). -/
def failLine (core line err : Nat) (s : State) : State :=
  let hint := freeSpares s core = []
  let e := { bayErr s core 3 0x10 with element := line, detail := err, hint := hint }
  let s := regAdd 0 0xF0024 1 (raiseErr e s)
  if hint then addRepair e.pbay 1 e.core line 0xFFFF s else s

/-- One line of a deskew pass: `n` steps at most, in a hold or not. -/
def passLine (bay n : Nat) (hold : Bool) (x : LinePass) (s : State) : State :=
  if x.core.val / 512 ≠ bay then s
  else
    let key := lineKey x.core x.line
    let old := mgetD (bayAt s bay).lines key {}
    let l := passStep n old x.error
    let fails := ! old.failed && lineFails hold l
    let s := onBay bay (fun b => { b with lines := mput b.lines key { l with failed := old.failed || fails } }) s
    if fails then failLine x.core x.line l.err.natAbs s else s

/-- A deskew pass over a bay's lines. -/
def deskewPass (bay n : Nat) (hold : Bool) (xs : List LinePass) (s : State) : State :=
  xs.foldl (fun s x => passLine bay n hold x s) s

/-- Failed data lines move to free spares of their cores (R457). -/
def spareLines (bay : Nat) (s : State) : State :=
  ((bayAt s bay).lines.filter (fun l => l.2.failed && l.2.spare.isNone && decide (l.1 % 2048 < 1600))).foldl (fun s l =>
    let core := bay * 512 + l.1 / 2048
    match freeSpares s core with
    | [] => s
    | j :: _ =>
      raiseErr { bayErr s core 3 0x11 with element := l.1 % 2048, spare := j }
        (onBay bay (fun b => { b with lines := mput b.lines l.1 { l.2 with spare := some j } }) s)) s

/-- A pass on the bay controller's plan: failed lines move first, then each element moves one step at most. -/
def trackBay (bay : Nat) (xs : List LinePass) (s : State) : State := deskewPass bay 1 false xs (spareLines bay s)

/-! ### Slots and the bay's own schedule (R84, R91 to R95) -/

/-- REFRESH_SLOT (R91, R95). -/
def execRefreshSlot (bay : Fin 20) (start : Nat) (s : State) : Host.Outcome State Fault Refusal :=
  match boundFrame s bay, (baySlots s bay).find? (fun r => r.kind = 1 && r.start = start) with
  | some (key, f), some _ =>
    if planned f bay 1 start then .next (serveRefresh bay (markPlan key f bay 1 start s)) else .next s
  | _, _ => .next s

/-- DESKEW_SLOT (R91, R427, R429, R457). -/
def execDeskewSlot (bay : Fin 20) (start : Nat) (passes : List LinePass) (s : State) : Host.Outcome State Fault Refusal :=
  match boundFrame s bay, (baySlots s bay).find? (fun r => r.kind = 2 && r.start = start) with
  | some (key, f), some _ =>
    if planned f bay 2 start then .next (trackBay bay passes (markPlan key f bay 2 start s)) else .next s
  | _, _ => .next s

/-- Whether a bay's controller is awake (R407): at run or doze and not fenced. -/
def bayAwake (s : State) (b : Nat) : Bool :=
  ((bayAt s b).power = .run || (bayAt s b).power = .doze) && ! (bayAt s b).fenced

/-- BAY_IDLE_REFRESH (R84, R93, R427): outside frames that the bay takes part in, its controller serves a refresh and a
tracking pass on its own schedule. -/
def execBayIdleRefresh (bay : Fin 20) (passes : List LinePass) (s : State) : Host.Outcome State Fault Refusal :=
  if (boundFrame s bay).isSome || ! bayAwake s bay then .next s else .next (trackBay bay passes (serveRefresh bay s))

/-- REFRESH_INTERVAL_ELAPSE (R95): an interval has passed since the last one ended. -/
def execRefreshIntervalElapse (bay : Fin 20) (s : State) : Host.Outcome State Fault Refusal :=
  let b := bayAt s bay
  let stop := b.refreshAt + 4 * refreshInterval s bay
  if ! bayAwake s bay || decide (9 * s.time < stop) then .next s
  else .next (onBay bay (fun x => { x with owed := x.owed + 1, refreshAt := stop }) s)

/-! ### Holds (R96 to R99) -/

/-- The step number of the first pavilion of a port in a bay, in QUARTERS order (R17): low 16 bits. -/
def firstStep (s : State) (p bay : Nat) : Nat :=
  match s.pavs.filter (fun x => x.2.port = p && x.2.bays.contains bay) with
  | [] => 0
  | y :: ys =>
    let low (x : Pav) : Nat := (x.quarters.filter (fun q => q / 4 = bay)).foldl min 80
    (ys.foldl (fun m q => if low q.2 < low m.2 then q else m) y).2.step % 65536

/-- A bay requests a hold at a frame cycle (R96, R97, R100): it joins the freeze that is due, or follows the hold in
effect. -/
def requestHold (bay cause len cyc : Nat) (s : State) : State :=
  match boundFrame s bay with
  | none => s
  | some (key, f) =>
    let late := f.hold.isNone && (decide (cyc < f.cycle) || decide (f.length ≤ cyc)
      || f.requests.any (fun r => decide (r.freezeAt ≤ cyc)))
    if f.stopped || late || f.requests.any (fun r => r.bay = bay && r.cause = cause) then s
    else
      let at_ := if f.hold.isSome then f.cycle else match f.requests with | r :: _ => r.freezeAt | [] => (cyc + 49) / 2 * 2
      let s := setFrame key { f with cycle := if f.hold.isSome then f.cycle else cyc
                                     requests := f.requests ++ [⟨bay, cause, at_, len⟩] } s
      regAdd 0 (bayReg s bay 0x90008) 1 (onBay bay (fun b => { b with
        slipValid := true, slipStepA := firstStep s 0 bay, slipStepB := firstStep s 1 bay, slipLastCause := cause }) s)

/-- The core cycles from a frame cycle to the bay's next DESKEW slot, counted cyclically; none without such slots. -/
def nextDeskew (s : State) (f : Frame) (bay cyc : Nat) : Option Nat :=
  let starts := ((baySlots s bay).filter (fun r => r.kind = 2)).map (·.start)
  (starts.map (fun a => if cyc ≤ a then a - cyc else f.length - cyc + a)).min?

/-- Whether a bay may request a CALIBRATION hold at a frame cycle (R428): a line is off by more than 16 steps, the next slot is
far, and none was requested in the last millisecond. -/
def calDue (s : State) (f : Frame) (bay cyc : Nat) : Bool :=
  (bayAt s bay).lines.any (fun l => ! l.2.failed && decide (16 < l.2.err.natAbs))
    && (match nextDeskew s f bay cyc with | none => true | some n => decide (65536 < n))
    && (match (bayAt s bay).calHoldAt with | none => true | some t => decide (t + 1000000 ≤ s.time))

/-- Request a CALIBRATION hold, counted in CAL_DESKEW_HOLDS. -/
def requestCal (bay cyc : Nat) (s : State) : State :=
  let n := regGet s 0 (bayReg s bay 0x90008)
  let s := requestHold bay 2 128 cyc s
  if regGet s 0 (bayReg s bay 0x90008) = n then s
  else regAdd 0 0xF0020 1 (onBay bay (fun b => { b with calHoldAt := some s.time }) s)

/-- HOLD_REQUEST (R95 to R98, R417, R428, R437). One for a refresh comes at a bundle boundary at which no BLD or BST of the bay is
in progress. -/
def execHoldRequest (bay : Fin 20) (cause : HoldCause) (cyc : Nat) (s : State) : Host.Outcome State Fault Refusal :=
  match boundFrame s bay with
  | none => .next s
  | some (_, f) =>
    match cause with
    | .refresh => .next (if decide (4 ≤ (bayAt s bay).owed) && ! bondBusy s bay cyc then requestHold bay 1 192 cyc s else s)
    | .calibration => .next (if calDue s f bay cyc then requestCal bay cyc s else s)
    | .governor delay => .next (if bayBudget s bay < bayNeed s f bay then requestHold bay 3 ((delay + 1) / 2 * 2) cyc s else s)
    | .clock => .next (if (bayAt s bay).clockBad then requestHold bay 4 4096 cyc s else s)

/-- HOLD_FREEZE (R96). A freeze that would fall after the frame's last bundle is none (R99). -/
def execHoldFreeze (bay : Fin 20) (s : State) : Host.Outcome State Fault Refusal :=
  match frameOf s bay with
  | none => .next s
  | some (key, f) => .next (if f.hold.isSome || f.stopped || f.lateHolds then s else beginHold key f s)

/-- HOLD_END (R96 to R100, R427 to R429): the frame goes on where it froze, or the next hold begins. A CALIBRATION hold has
run two recovery passes. -/
def execHoldEnd (bay : Fin 20) (passes : List LinePass) (s : State) : Host.Outcome State Fault Refusal :=
  match frameOf s bay with
  | none => .next s
  | some (key, f) =>
    match f.hold with
    | none => .next s
    | some h =>
      let cals := (f.serving.filter (fun x => x.cause = 2)).map (·.bay)
      let s := cals.foldl (fun s b => deskewPass b 8 true passes s) s
      let s := f.bays.foldl (fun s b => regAdd 0 (bayReg s b 0x90018) h.length s) s
      let g := { f with hold := none, serving := [], held := f.held + h.length, slipped := true }
      .next (beginHold key g (setFrame key g s))

/-- DESKEW_PHASE_ALARM (R428): a line's edge monitor reports more than 16 steps. -/
def execDeskewPhaseAlarm (core : Fin 10240) (line : Fin 1648) (error : Int) (cyc : Nat) (s : State) :
    Host.Outcome State Fault Refusal :=
  let bay := coreBay core
  if error.natAbs ≤ 16 || ! bayAwake s bay then .next s
  else
    let key := lineKey core line
    let s := onBay bay (fun b => { b with lines := mput b.lines key { mgetD b.lines key {} with err := error } }) s
    match boundFrame s bay with
    | none => .next s
    | some (_, f) => .next (if calDue s f bay cyc then requestCal bay cyc s else s)

/-- CLOCK_MONITOR_WINDOW (R437, R457): a generator that is off by more than 500 ppm or unlocked is switched, in a CLOCK hold
during a frame and at once between frames, also when its frame ended before the hold could begin; a bay whose spare has failed
too is fenced. -/
def execClockMonitorWindow (bay : Fin 20) (ppm : Nat) (lockLost : Bool) (cyc : Nat) (s : State) :
    Host.Outcome State Fault Refusal :=
  let b := bayAt s bay
  let pb := physBay s bay
  let other := 1 - b2n (bitOf s.spares.clocks pb)
  if (ppm ≤ 500 && ! lockLost && ! b.clockBad) || b.fenced || b.power = .off || (b.clockBad && (boundFrame s bay).isSome) then .next s
  else if b.clockOut.contains other then
    let s := fenceBay pb 0xFFFF s
    .next (if (List.range 20).all (fun i => (bayAt s i).fenced) then hubFault 3 s else s)
  else if (boundFrame s bay).isSome then
    .next (requestHold bay 4 4096 cyc (onBay bay (fun x => { x with clockBad := true }) s))
  else .next (switchClock bay s)

/-! ### The far calendar (R430 to R432) -/

/-- Change the calendar. -/
def onCal (f : FarCal → FarCal) (s : State) : State := { s with farCal := f s.farCal }

/-- The time between windows in ns: 100 ms ÷ 4S. -/
def farPeriod (s : State) : Nat := 25000000 / max 1 (farSites s)

/-- The start of the next window. -/
def farNextAt (s : State) : Nat := match s.farCal.start with | none => 0 | some t => t + s.farCal.window * farPeriod s

/-- The channel of a place of the calendar. -/
def calChannel (s : State) (k : Nat) : Nat := k % max 1 (farSites s) * 4 + k / max 1 (farSites s) % 4

/-- The channel of the next window: a device that asked goes first (R432). -/
def farNextCh (s : State) : Nat :=
  match s.farCal.early with
  | c :: _ => c
  | [] => if s.farCal.start.isNone then 0 else calChannel s s.farCal.place

/-- FAR_RETRAIN_WINDOW (R430, R432). -/
def execFarRetrainWindow (s : State) : Host.Outcome State Fault Refusal :=
  let c := s.farCal
  if c.start.isNone || c.windowAt.isSome || decide (s.time < farNextAt s) then .next s
  else
    let ch := farNextCh s
    let at_ := farNextAt s
    .next (onCal (fun c => { c with
      channel := ch, windowAt := some at_, bursts := 0, window := c.window + 1, early := c.early.drop 1
      place := if c.early = [] then c.place + 1 else c.place }) s)

/-- FAR_RETRAIN_BURST (R430, R431): a burst starts at each 1,000 ns of the window once the site is free. -/
def execFarRetrainBurst (s : State) : Host.Outcome State Fault Refusal :=
  match s.farCal.windowAt with
  | none => .next s
  | some t =>
    if s.farCal.burstAt.isSome || decide (256 ≤ s.farCal.bursts) || decide (s.time < t + 1000 * s.farCal.bursts) then .next s
    else .next (onCal (fun c => { c with burstAt := some s.time, bursts := c.bursts + 1 }) s)

/-- FAR_BURST_END (R430, R431): 96 ns after it began; the 256th ends the window, counted in CAL_FAR_WINDOWS. -/
def execFarBurstEnd (s : State) : Host.Outcome State Fault Refusal :=
  match s.farCal.burstAt with
  | none => .next s
  | some t =>
    if s.time < t + 96 then .next s
    else
      let s := onCal (fun c => { c with burstAt := none }) s
      .next (if 256 ≤ s.farCal.bursts then regAdd 0 0xF0028 1 (onCal (fun c => { c with windowAt := none }) s) else s)

/-- FAR_DEVICE_TEMP_CHANGE (R432): the channel takes the next window, counted in CAL_FAR_EARLY. -/
def execFarDeviceTempChange (channel : Fin 64) (s : State) : Host.Outcome State Fault Refusal :=
  if s.farCal.start.isNone || decide (4 * farSites s ≤ channel) || s.farCal.early.contains channel.val
      || farNextCh s = channel then .next s
  else .next (regAdd 0 0xF002C 1 (onCal (fun c => { c with early := c.early ++ [channel.val] }) s))

end Sys2Proof.Machine
end

