-- ==== Sys2Proof/Machine/FrameEnd.lean ====
section
/-! DEFINITION. The end of a frame (R14, R89, R90, R99, R121, R122, R222, R223, R242, R261, R269, R277 to R280, R291, R446 to
R450, R455): how each slot's step ends, the rows it commits, its charges, and what happens between two frames. -/

namespace Sys2Proof.Machine

/-! ### Commit of key and value rows (R121, R122, R172, R291) -/

/-- Write bytes at places of a near slot or tail tile. `keep` says that a pending tile is copied first (R292). Nothing but the
arrival is written to a tile that is still to be laid (R143). -/
def commitBytes (key i : Nat) (a : Nat × Nat) (places : List Nat) (bs : List Byte) (keep : Bool) (s : State) : State :=
  let t := tileOf s key i
  if t.state = .arriving && ! t.landed then s
  else if t.tail then
    let s := if keep then cowKeep key i s else s
    writeTile key i { s with
      tails := mput s.tails (cowKey key i) (putAt (byteSlice (mgetD s.tails (cowKey key i) []) 0 16384) places bs) }
  else
    let s := if keep then cowKeep key i s else s
    let base := nearKey a.1 (64 * a.2)
    let s := { s with near := (places.zip bs).foldl (fun m x => memPut m (base + x.1) x.2) s.near }
    let whole := (dedupNat (places.map (· / 64))).filter (fun l => (places.filter (fun x => x / 64 = l)).length = 64)
    setDirty a.1 [a.2] (setForm a.1 0 [a.2] (whole.foldl (fun s l => undamage a.1 (a.2 + l) 1 s) s))

/-- The recent tile of a session's layer and group: 32 rows of 128 bytes (R122). -/
def recentKey (key l g : Nat) : Nat := key * 2 ^ 32 + l * 256 + g

/-- Put a V row in the recent tile; the first position of a block clears the other 31 rows (R122). -/
def commitRecent (key l g pos : Nat) (row : List Byte) (s : State) : State :=
  let k := recentKey key l g
  let old := if pos % 32 = 0 then List.replicate 4096 0 else byteSlice (mgetD s.recents k []) 0 4096
  { s with recents := mput s.recents k (splice old (pos % 32 * 128) (byteSlice row 0 128)) }

/-- Commit one row of a slot's column: position `pos` of the session whose state is object `key`. -/
def commitRow (p : Pav) (slot lmax key cut pos : Nat) (w : KvRow) (s : State) : State :=
  let d := p.desc
  let n := pos / unitPos d
  let a := unitPlace p d p.nslots w.layer w.group slot n
  let tile (t : Nat) : Nat := kvIndex d lmax w.layer w.group n t
  if dKvFormat d = 3 then
    let i := pos % unitPos d / 128
    let t := pos % 128
    let keep := decide (pos / 32 * 32 < cut)
    let s := commitBytes key (tile i) (a.1, a.2 + 256 * i) (kPlaces d t ++ k4VPlaces t)
      (byteSlice w.k 0 64 ++ byteSlice w.v 0 2048) keep s
    let s := commitBytes key (tile 16) (a.1, a.2 + 256 * 16) (k4KScales i t ++ k4VScales i t) (byteSlice w.scales 0 132) keep s
    commitRecent key w.layer w.group pos w.recent s
  else
    let t := pos % unitPos d
    let e := if dKvFormat d = 2 then 256 else 128
    commitBytes key (tile 0) a (kPlaces d t ++ vPlaces d t) (byteSlice w.k 0 e ++ byteSlice w.v 0 e) (decide (pos < cut)) s

/-- Commit the rows of a run's active columns, its positions' tags, and its state (R120, R121, R223, R231). -/
def commitRun (n slot : Nat) (r : SlotRun) (x : Session) (rows : List KvRow) (s : State) : State :=
  let p := pavAt s n
  let d := p.desc
  let cut := mgetD s.cutLen r.sess 0
  let count := r.toks.length
  let good := rows.filter (fun w => decide (w.col < count) && decide (w.layer < dLayers d) && decide (w.group < dGroups d))
  let s := if d = [] then s else good.foldl (fun s w => commitRow p slot x.lmax (sessObj r.sess x) cut (r.p0 + w.col) w s) s
  let s := writeTags (decide (r.p0 < cut)) r.sess x r.p0 (r.p0 + count) (fun _ => 2 ^ 15 + r.seg % 2 ^ 15) s
  match mget? s.sessions r.sess with
  | none => s
  | some y =>
    let z := if r.again then y.set 0x46 1 (y.get 0x46 1 % 2)
      else
        let z := ((y.set 0x48 4 (r.p0 + count)).set 0x50 4 (r.toks.getLastD 0)).set 0x4C 4 (y.get 0x4C 4 % 2 ^ 31)
        (z.set 0x58 2 ((y.get 0x58 2 + r.prompt) % 4096)).set 0x5A 2 (y.get 0x5A 2 - r.prompt)
    setSessTile r.sess z s

/-! ### How a slot's step ends -/

/-- The status and detail that a slot's step ends with before anything is committed (R89, R157, R446, R448, R449, R455);
none when it commits. -/
def runFate (s : State) (f : Frame) (k : Nat) (r : SlotRun) (lost : Bool) (x : Session) : Option (Nat × Nat) :=
  if f.stopped then some (8, 0xB0)
  else
    match mget? f.masked k with
    | some st => some (st, 0)
    | none =>
      if f.damagedSess.contains r.sess || f.damagedPavs.contains (k / 1024) || lost || pavFenced s (pavAt s (k / 1024)) then
        some (8, 0)
      else if x.gen ≠ r.gen then some (0xA, 0) else none

/-- The cycles a slot of a pavilion is charged (R279). -/
def slotShare (p : Pav) (len slot : Nat) : Nat :=
  let w (i : Nat) : Nat := slotWidth p.desc (slotKindOf p.desc i)
  len * pavCores p * w slot / max 1 (sumNat ((List.range p.nslots).map w))

/-- Count a status in its register: NOT_READY (R153) and STALE_PLACEMENT (R157). -/
def countStatus (port status : Nat) (s : State) : State :=
  if status = 0xB then regAdd port 0xB001C 1 s else if status = 0xA then regAdd port 0xB0010 1 s else s

/-- Whether a step of a status leaves the run going (R350). -/
def goesOn (status : Nat) : Bool := status = 0 || status = 5 || status = 0xC

/-- The step of a slot ends: its rows are committed, its token drawn, its completion posted with its charges. -/
def endRun (f : Frame) (len : Nat) (res : List SlotResult) (k : Nat) (r : SlotRun) (s : State) : State :=
  let n := k / 1024
  let slot := k % 1024
  let p := pavAt s n
  let y := res.find? (fun q => q.pav.val = n && q.slot = slot)
  let gone := applyCharge ((mget? f.holders k).map (fun t => { port := p.port, tenant := t, cycles := slotShare p len slot })) s
  match mget? s.sessions r.sess with
  | none => gone
  | some x =>
    match x.run with
    | none => gone
    | some run =>
      let t := tenantOf s p.port x.tenant
      let base : Charge := { port := p.port, tenant := x.tenant, cycles := slotShare p len slot }
      match runFate s f k r (y.any (·.lost)) x with
      | some (st, det) =>
        let c := if st = 9 then { base with cycles := 0, preempted := 1 } else base
        postStep r.sess x run st det none [] c true (countStatus p.port st s)
      | none =>
        let s := commitRun n slot r x ((y.map (·.rows)).getD []) s
        let x := (mget? s.sessions r.sess).getD x
        let e := if r.samples then
            stepEnd s r.sess (spVocab p.sample) (r.p0 + r.toks.length - 1) ((y.map (·.cands)).getD []) x
          else
            let d := deliverCut (bound s r.sess x 1) x
            ⟨d.2, 0, 0, none, d.1⟩
        let fell := e.token.isSome && decide (e.sess.get 0x5C 1 ≠ 0)
        let s := setSessTile r.sess e.sess s
        let s := if r.samples then countEnd p.port fell e s else s
        let st := if e.status = 0 ∧ f.slipped = true then 0xC else e.status
        let out := b2n e.token.isSome
        let c := { base with tokensOut := out, tokensIn := r.prompt, cost := r.prompt * t.inCost + out * t.outCost }
        postStep r.sess e.sess run st e.detail e.token e.bytes c (! goesOn st || run.ending) s

/-! ### Charges of a pavilion (R270, R279) -/

/-- What a frame charges a pavilion's slots: to the holder's tenant, or none where it goes to the overhead. -/
def slotCharges (s : State) (f : Frame) (len n : Nat) : List (Nat × Option Nat) :=
  (List.range (pavAt s n).nslots).map (fun i =>
    (slotShare (pavAt s n) len i,
      if mget? f.masked (n * 1024 + i) = some 9 && ! f.stopped then none else mget? f.holders (n * 1024 + i)))

/-- Charge a pavilion's frame: the slots that ran were charged with their completions, the idle ones now, and the rest goes
to ACC_OVERHEAD. -/
def chargePav (f : Frame) (len n : Nat) (s : State) : State :=
  let p := pavAt s n
  let cs := slotCharges s f len n
  let idle := (cs.zipIdx).filter (fun c => (mget? f.runs (n * 1024 + c.2)).isNone)
  let s := idle.foldl (fun s c => match c.1.2 with
    | none => s
    | some t => applyCharge (some { port := p.port, tenant := t, cycles := c.1.1 }) s) s
  let paid := cs.foldl (fun a c => if c.2.isSome then a + c.1 else a) 0
  let s := regAdd p.port (0x61000 + 8 * n) (len * pavCores p - paid) s
  onPav n (fun p => { p with
    charged := cs.foldl (fun m c => match c.2 with | none => m | some t => mput m t (mgetD m t 0 + c.1)) p.charged
    step := p.step + 1
    slots := p.slots.map (fun u => if (mget? f.runs (n * 1024 + u.1)).any (·.sess = u.2.sess)
      then (u.1, { u.2 with stepsHere := u.2.stepsHere + 1 }) else u) }) s

/-! ### Scans and the time between frames -/

/-- The end of a query slot's scan (R242, R448, R455). -/
def endScanSlot (f : Frame) (minima : List ScanResult) (k : Nat) (s : State) : State :=
  match s.queries.find? (fun q => q.running && q.slot = some (k / 1024, k % 1024)) with
  | none => s
  | some q =>
    if f.stopped then endQuery q 0xB0 (some 8) s
    else if f.damagedPavs.contains (k / 1024) then endQuery q 0 (some 8) s
    else endScan q (((minima.find? (fun m => m.pav.val = k / 1024 && m.slot = k % 1024)).map (·.minima)).getD []) s

/-- The cores of a frame stand still: results and bond transfers on their way have ended (DESIGN CHOICE, log 99), no loop, open
row or message of the frame goes on. -/
def settleCores (f : Frame) (s : State) : State :=
  let mine (k : Nat) : Bool := f.quarters.contains (coreQuarter k)
  let ks := dedupNat ((s.cores.map (·.1) ++ s.colonnade.map (·.dst)).filter mine)
  let s := ks.foldl (fun s k => advance k (lastDue s k) s) s
  { s with
    cores := s.cores.map (fun c => if mine c.1 then (c.1, { c.2 with loops := [], row := none, bondEnd := 0 }) else c)
    lattice := s.lattice.filter (fun m => ! mine m.dst)
    colonnade := s.colonnade.filter (fun m => ! mine m.dst) }

/-- A program whose bundle store failed is unloaded (R448). -/
def unloadLost (n : Nat) (s : State) : State := flushQueue n (onPav n (fun p => { p with prog := none, readyAt := none }) s)

/-- A pavilion's gathering starts again when a frame of its group ends (R261). -/
def restartGather (n : Nat) (s : State) : State :=
  let ready := pavReady s n
  onPav n (fun p => { p with readyAt := if ready then some s.time else none, gathered := false }) s

/-- Free batch slots are filled once every request that takes effect between frames has been applied (R261 steps 2, 3). -/
def fillAll (pavs : List Nat) (s : State) : State :=
  if boundaryOwed s pavs then s else pavs.foldl (fun s n => fillPav n s) s

/-- What follows the commits of a frame: loads and modes that waited, hatch mode, held writes, pushes and free slots. -/
def betweenFrames (key : Nat) (f : Frame) (s : State) : State :=
  let group := groupPavs s f.bays
  let s := foldDirty f.bays { s with frames := mdel s.frames key }
  let ixs := (s.indices.map (·.1)).filter (fun i => f.pavs.contains (ixPav (indexHeader s i)))
  let s := ixs.foldl (fun s i => commitIndex i s) s
  let s := group.foldl (fun s n => applyPav n (applyMode n s)) s
  let s := f.lostProgs.foldl (fun s n => unloadLost n s) s
  let s := f.bays.foldl (fun s b => onBay b (fun x => { x with idleSince := s.time }) s) s
  let s := openPushes s
  let s := releaseHatch 1 (releaseHatch 0 (f.bays.foldl (fun s b => enterHatch b s) s))
  fillAll group (group.foldl (fun s n => restartGather n s) s)

/-- Whether the frame's last bundle has been issued (R103): its length and its holds have passed at 0.444 ns a core cycle. -/
def frameOver (s : State) (f : Frame) : Bool := decide (4 * (f.length + f.held) ≤ 9 * (s.time - f.start))

/-- The hub's part of a frame's end: its cores stand still, and the arrivals and departures whose bond cycles remain are spent
them before any row is committed (R84, R143). -/
def quietBays (f : Frame) (s : State) : State :=
  f.bays.foldl (fun s b => if (bayAt s b).fenced then s else bondWork b 16384 s) (endHolds f (settleCores f s))

/-- Whether every latch point of a frame has been decided. -/
def allLatched (s : State) (f : Frame) : Bool :=
  f.pavs.all (fun n => match (pavAt s n).prog with
    | none => true
    | some g => (List.range (imgLatchRecs g.image).length).all (fun i => f.latched.contains (n, i)))

/-- FRAME_END (R103, R121, R261, R279, R455): the frame of a bay's group ends after its last bundle, or at the bundle where a
fence stopped it. -/
def execFrameEnd (bay : Fin 20) (results : List SlotResult) (minima : List ScanResult) (s : State) :
    Host.Outcome State Fault Refusal :=
  match frameOf s bay with
  | none => .next s
  | some (key, f) =>
    if f.hold.isSome || (! f.stopped && (! frameOver s f || (f.requests ≠ [] && ! f.lateHolds) || ! allLatched s f)) then .next s
    else
      let len := (if f.stopped then f.cycle else f.length) + f.held
      let s := quietBays f s
      let s := f.runs.foldl (fun s r => endRun f len results r.1 r.2 s) s
      let s := f.scans.foldl (fun s k => endScanSlot f minima k s) s
      let s := f.pavs.foldl (fun s n => chargePav f len n s) s
      .next (betweenFrames key f s)

end Sys2Proof.Machine
end

