-- ==== Sys2Proof/Machine/Snapshots.lean ====
section
/-! DEFINITION. Snapshots (R285 to R301, R306, R307): triggers, the cut, tile records, shards and manifests, the commit of an
epoch, and retiring epochs. -/

namespace Sys2Proof.Machine

/-! ### Starting an attempt (R286, R287) -/

/-- The target SNP_CTRL names (R295, R307): none when ENABLE is 0 or it is no tier and granted region. -/
def snapTarget (s : State) (p : Nat) : Option (Nat × Nat) :=
  let c := regGet s p 0x70000
  let tier := bits c 4 6
  if bitOf c 0 && tierOk s (64 * p) tier (bits c 16 25) then some (tier, if tier = 2 then 0 else bits c 16 25) else none

/-- An attempt starts under a number one above the last (R287); it waits for its cut. -/
def startSnap (p : Nat) (id : Option ReqId) (full : Bool) (target : Nat × Nat) (s : State) : State :=
  let e := (snapAt s p).last + 1
  regSet p 0x70020 e (onSnap p (fun x => { x with
    last := e, run := some { epoch := e, id := id, full := full, since := s.time, tier := target.1, region := target.2 } }) s)

/-- SNP_TAKE (R286, R306, R307). -/
def execSnpTake (r : Req) (full : Bool) (s : State) : Host.Outcome State Fault Refusal :=
  .next (onReq r 0x60 none (fun id s =>
    let p := fnPort id.fn
    if ! r.fn.isPf then fail id 0x69 s
    else if (snapAt s p).run.isSome then defer id 0x70 s
    else
      match snapTarget s p with
      | none => fail id 0x74 s
      | some t => startSnap p (some id) full t s) s)

/-- A trigger fires (R286): dropped and counted while an attempt runs. -/
def fireTrigger (p : Nat) (s : State) : State :=
  if (snapAt s p).run.isSome then regAdd p 0x70040 1 s
  else
    match snapTarget s p with
    | none => s
    | some t => startSnap p none false t s

/-- SNP_TIMER in ns: 1 to 86,400 s; other values act as 86,400. -/
def snapPeriod (s : State) (p : Nat) : Nat :=
  let v := bits (regGet s p 0x70008) 0 16
  (if v = 0 ∨ 86400 < v then 86400 else v) * 1000000000

/-- SNP_TIMER_FIRE (R286): the firing restarts the timer. -/
def execSnpTimerFire (port : Port) (s : State) : Host.Outcome State Fault Refusal :=
  let p := port.idx
  let c := regGet s p 0x70000
  if bitOf c 0 && bitOf c 1 && decide ((snapAt s p).timerFrom + snapPeriod s p ≤ s.time) then
    .next (fireTrigger p (onSnap p (fun x => { x with timerFrom := s.time }) s))
  else .next s

/-- SNP_STEP_TRIGGER (R286): SNP_STEPS frames have started, 0 acting as 1; the firing restarts the count. -/
def execSnpStepTrigger (port : Port) (s : State) : Host.Outcome State Fault Refusal :=
  let p := port.idx
  let c := regGet s p 0x70000
  if bitOf c 0 && bitOf c 2 && decide (max 1 (regGet s p 0x7000C) ≤ (snapAt s p).frames) then
    .next (fireTrigger p (onSnap p (fun x => { x with frames := 0 }) s))
  else .next s

/-- Take 32 far slots; none when fewer are free. -/
def takeSlots : Nat → List Nat → State → Option (List Nat × State)
  | 0, acc, s => some (acc, s)
  | n + 1, acc, s =>
    match farAlloc s with
    | none => none
    | some (k, t) => takeSlots n (acc ++ [k]) t

/-- The manifest slots of a target (R296): 32 far slots, or the first 512 KiB of the region; none when they are not to be had. -/
def takeManifests (p tier region : Nat) (s : State) : Option State :=
  if tier = 2 then
    if (snapAt s p).slots ≠ [] then some s
    else (takeSlots 32 [] s).map (fun x => onSnap p (fun y => { y with slots := x.1 }) x.2)
  else
    match regionOf s (64 * p) tier region with
    | none => none
    | some r =>
      if mget? r.records 0 = some 2048 then some s
      else if r.granules < 2048 ∨ granFree r.records 0 2048 = false then none
      else some { s with
        regions := mput s.regions (regionKey (64 * p) tier region) { r with records := mput r.records 0 2048 } }

/-- SNAPSHOT_TARGET_SET (R286, R296): a write of SNP_CTRL; a far target takes its manifest slots, and setting ENABLE restarts
both triggers. -/
def execSnapshotTargetSet (f : Fn) (v : Word) (s : State) : Host.Outcome State Fault Refusal :=
  let p := f.port.idx
  if f.isPf && writeGate s f 0x70000 = .open then
    let old := regGet s p 0x70000
    let new := v.toNat &&& 0x3FF0077
    let s := regSet p 0x70000 new s
    let s := if bits new 4 6 = 2 then (takeManifests p 2 0 s).getD s else s
    .next (if bitOf new 0 && ! bitOf old 0 then onSnap p (fun x => { x with timerFrom := s.time, frames := 0 }) s else s)
  else .next s

/-- SNP_INCLUDE (R285, R306). -/
def execSnpInclude (r : Req) (object : DWord) (exclude : Bool) (s : State) : Host.Outcome State Fault Refusal :=
  .next (onReq r 0x61 none (fun id s =>
    let key := objKey id.ident object.toNat
    if ! r.fn.isPf then fail id 0x69 s
    else if (objOf s key).isNone then fail id 0x26 s
    else done id (onSnap (fnPort id.fn) (fun x => { x with
      scope := x.scope.filter (· ≠ key) ++ (if exclude then [] else [key]) }) s)) s)

/-! ### The cut (R288 to R290) -/

/-- Pavilions of a port. -/
def portPavs (s : State) (p : Nat) : List Nat := (s.pavs.filter (fun x => x.2.port = p)).map (·.1)

/-- Whether every frame group that holds a pavilion of a port stands between frames, with the requests that take effect there
applied (R288 steps 1 to 3). -/
def cutReady (s : State) (p : Nat) : Bool :=
  s.frames.all (fun f => (groupPavs s f.2.bays).all (fun n => decide ((pavAt s n).port ≠ p))) && ! boundaryOwed s (portPavs s p)

/-- The objects in an epoch's scope (R285): every session's, and those included. -/
def inScope (s : State) (p : Nat) : NMap Obj :=
  s.objects.filter (fun o => objPort o.1 = p && (o.2.kind = .session || (snapAt s p).scope.contains o.1))

/-- Whether a tile holds anything. -/
def Tile.holds (t : Tile) : Bool := t.state ≠ .absent && t.state ≠ .failed

/-- An object as an epoch records it (R288, R289). -/
def snapObj (s : State) (x : Nat × Obj) : SnapObj :=
  { obj := x.1, kind := x.2.kind, kd := x.2.kd, ntiles := x.2.ntiles, layers := x.2.tiles.map (fun t => (t.1, t.2.layer))
    index := mget? s.indices x.1, sess := sessOfObj s x.1
    damaged := x.2.kind = .session && x.2.tiles.any (fun t => t.2.state = .failed) }

/-- A tile as the cut takes it (R289): that of a session migrating within this part is taken from its source slot. -/
def cutTile (s : State) (key i : Nat) (t : Tile) : Tile :=
  match mget? s.jobs key, sessOfObj s key with
  | some (.migrate _ _ _ old oldSlot _ true _), some (_, x) =>
    let p := pavAt s old
    let last := kvTiles p.desc x.lmax + tagTiles x.lmax
    if t.upTier = 1 then { t with upAddr := (placeTile p p.desc x.lmax x.length oldSlot last 0 i t).upAddr } else t
  | _, _ => t

/-- The shard of a tile: its logical bay, or 21 when its current copy lies outside the near tier. -/
def Tile.shard (t : Tile) : Nat := if t.isNear then coreBay (addrCore t.upAddr) else 21

/-- A directory line with the DAMAGED flag, bit 3 of byte 124 (R289, log 107). -/
def markDamaged (line : List Byte) : List Byte := line.set 124 (line.getD 124 0 ||| 8)

/-- The directory shard (part 20): the port's lines at the cut's epoch, each followed by its object's tile map; the line of a
session with a FAILED tile has DAMAGED set (R289). -/
def dirShard (s : State) (p : Nat) (rows : NMap DirRow) : List Byte :=
  (rows.map (fun r =>
    let key := objKey (64 * p + bits r.2.key 64 69) r.2.data.object
    let o := if r.2.data.state ≠ 4 then objOf s key else none
    let line := dirLine r.1 (rowSuspect s r.1 r.2) r.2 r.2.data
    match o with
    | none => line
    | some o => (if (snapObj s (key, o)).damaged then markDamaged line else line)
        ++ ((List.range o.ntiles).map (fun i => (cutTile s key i (o.tile i)).bytes)).flatten)).flatten

/-- Distinct numbers of the shards that records lie in, epoch × 32 + shard. -/
def shardKeys (rs : List SnapRec) : List Nat := dedupNat (rs.map (fun r => r.epoch * 32 + r.shard))

/-- Mark the owed tiles pending; a change after this is one of the next epoch (R290, log 107). -/
def markPending (owed : List (Nat × Nat × Nat)) (s : State) : State :=
  owed.foldl (fun s o => onTile o.1 o.2.1 (fun t => { t with pending := true, again := false }) s) s

/-- The record of the version a tile has, in the epoch that last stored it (R297). -/
def versionRec (old : List SnapRec) (key i : Nat) (t : Tile) : Option SnapRec :=
  if t.changed then none else old.find? (fun x => x.obj = key && x.tile = i && x.epoch = t.epoch)

/-- The hub records the cut: what the epoch consists of, and the tiles that become pending (R288 to R290, R297). A tile whose
version no manifest of the target holds is owed too (log 107). -/
def recordCut (p : Nat) (r : SnapRun) (s : State) : State :=
  let scope := inScope s p
  let objs := scope.map (snapObj s)
  let ms := if r.full then [] else (snapAt s p).manifests.filter (fun m => m.found s p r.tier r.region)
  let old := ms.flatMap (·.recs)
  let whole := scope.filter (fun o => ! (snapObj s o).damaged)
  let held (o : Nat × Obj) : NMap Tile := o.2.tiles.filter (fun t => t.2.holds)
  let owe (full : Bool) : List (Nat × Nat × Nat) := whole.flatMap (fun o =>
    ((held o).filter (fun t => full || (versionRec old o.1 t.1 t.2).isNone)).map (fun t => (o.1, t.1, (cutTile s o.1 t.1 t.2).shard)))
  let kept := whole.flatMap (fun o => (held o).filterMap (fun t => versionRec old o.1 t.1 t.2))
  let tooMany := decide (480 < (shardKeys kept).length + (dedupNat ((owe r.full).map (·.2.2))).length + 1)
  let kept := if r.full || tooMany then [] else kept
  let rows := (liveRows s.dir.rows).filter (fun e => bits e.2.key 71 71 = p)
  let shards := (shardKeys kept).filterMap (fun k => (ms.flatMap (·.shards)).find? (fun h => h.epoch * 32 + h.shard = k))
  let owed := owe (r.full || tooMany)
  let r := { r with
    full := r.full || tooMany, cutAt := some s.time, dirEpoch := s.dir.epoch, owed := owed, recs := kept, carried := shards
    objs := objs, rows := rows, dirShard := dirShard s p rows }
  let lens := objs.foldl (fun m o => match o.sess with
    | none => m
    | some (k, x) => if o.damaged then m else mput m k x.length) s.cutLen
  let wait := if (portPavs s p).any (fun n => pavReady s n) then s.time - r.since else 0
  regAdd p 0x70028 wait (markPending owed (onSnap p (fun x => { x with run := some r }) { s with cutLen := lens }))

/-- SNAPSHOT_CUT (R288): once every frame group of the port stands between frames. A target with no room for its manifest slots
fails the attempt (R299). -/
def execSnapshotCut (port : Port) (s : State) : Host.Outcome State Fault Refusal :=
  let p := port.idx
  match (snapAt s p).run with
  | none => .next s
  | some r =>
    if r.cutAt.isSome || ! cutReady s p then .next s
    else
      match takeManifests p r.tier r.region s with
      | none => .next (snapFail p s)
      | some s => .next (recordCut p r s)

/-! ### Tile records (R289, R291, R295) -/

/-- SNAPSHOT_TILE_STORED (R289, R291, R293, R295): a pending tile reaches the epoch as it stood at the cut, from its copy where
one was taken. A tile that cannot be read fails the attempt (R299). -/
def execSnapshotTileStored (port : Port) (obj : ObjRef) (tile : Nat) (s : State) : Host.Outcome State Fault Refusal :=
  let key := refKey obj
  if ! ((snapAt s port.idx).run).any (fun r => r.owed.any (fun o => o.1 = key && o.2.1 = tile)) then .next s
  else
    match ((mget? s.cows (cowKey key tile)).map (·.bytes)).or (tilePlain s key tile) with
    | none => .next (snapFail port.idx s)
    | some plain => .next (snapStore port.idx key tile plain s)

/-! ### Shards, manifests and the commit (R295 to R298) -/

/-- LOCATION of a place: the byte offset in the region, or the far slot. -/
def placeLoc (s : State) (p tier region : Nat) (a : Nat × Nat × Nat) : Nat :=
  if tier = 2 then a.1
  else match regionOf s (64 * p) tier region with
    | none => 0
    | some r => 256 * Spot.granule ⟨tier, region, a.1, a.2.1⟩ r.base

/-- The index entry of a record (R295). -/
def indexEntry (s : State) (p : Nat) (r : SnapRec) : List Byte :=
  natLe 8 (r.obj % 2 ^ 64) ++ natLe 4 r.tile ++ natLe 1 r.data.codec ++ natLe 1 (b2n r.zeroed) ++ natLe 2 r.gran
    ++ natLe 8 (placeLoc s p r.tier r.region (r.addr, r.gran, 0)) ++ natLe 2 r.data.kd ++ natLe 6 0

/-- Write bytes at a place of the target, as a part of the attempt (R295, R296). -/
def snapLay (p : Nat) (part : SnapPart) (sp : Spot) (bs : List Byte) (s : State) : Option State :=
  let s := if sp.tier = 2 then { s with far := mput s.far sp.addr { bytes := bs } }
    else if sp.tier = 3 then dmaWrite p sp.addr bs s else s
  snapOut p part sp false bs s

/-- Lay a shard's index, or the directory shard, in pieces of up to 16 KiB: the places taken; none when there is no room. -/
def layPieces (p tier region shard : Nat) : List (List Byte) → List (Nat × Nat × Nat) → State →
    Option (List (Nat × Nat × Nat) × State)
  | [], acc, s => some (acc, s)
  | bs :: rest, acc, s =>
    match spotAlloc (64 * p) tier region bs.length s with
    | none => none
    | some (sp, s) =>
      match snapLay p (.piece shard acc.length) sp bs s with
      | none => none
      | some s => layPieces p tier region shard rest (acc ++ [(sp.addr, sp.gran, bs.length)]) s

/-- Close a shard (R295): its records are followed by its index, or, of the directory shard, its lines. -/
def closeShard (p : Nat) (r : SnapRun) (shard : Nat) (s : State) : Option (SnapShard × State) :=
  let mine := r.recs.filter (fun x => x.epoch = r.epoch && x.shard = shard)
  let recs := mine.map (fun x => (x, x.stored s))
  let body := recs.flatMap (·.2)
  let index := if shard = 20 then r.dirShard else mine.flatMap (indexEntry s p)
  match layPieces p r.tier r.region shard (chunks 16384 (ceilDiv index.length 16384) index) [] s with
  | none => none
  | some (ps, t) =>
    let places := recs.map (fun x => (x.1.addr, x.1.gran, x.2.length)) ++ ps
    some ({ epoch := r.epoch, shard := shard, location := ((places.head?).map (placeLoc t p r.tier r.region)).getD 0
            bytes := body.length + index.length, digest := shake256 (body ++ index) 32, places := places },
      regAdd p 0x70030 index.length t)

/-- Close the epoch's shards, in any order: those with tiles, and the directory shard always. -/
def closeShards (p : Nat) (r : SnapRun) : List Nat → List SnapShard → State → Option (List SnapShard × State)
  | [], acc, s => some (acc, s)
  | n :: ns, acc, s =>
    match closeShard p r n s with
    | none => none
    | some (h, s) => closeShards p r ns (acc ++ [h]) s

/-- The key that seals manifests in a key domain: its tile GCM key (R320, R324, R326). -/
def snapKey (s : State) (kd : Nat) : List Byte := byteSlice (kdOf s kd).keys 64 32

/-- Bytes sealed in a key domain: sealed form and trailer (R296, R326). -/
def sealBlob (s : State) (kd : Nat) (bs : List Byte) : List Byte :=
  let nonce := natLe 4 (kdInst s kd) ++ natLe 8 (kdOf s kd).counter
  byteSlice (Config.gcmSeal (snapKey s kd) nonce [] bs) 0 (bs.length + 16) ++ nonce ++ natLe 2 kd ++ [1, 0]

/-- A manifest's body (R296). -/
def manifestBody (p : Nat) (m : Manifest) : List Byte :=
  natLe 4 0x4E535853 ++ natLe 8 m.epoch ++ natLe 1 p ++ natLe 1 (b2n m.full) ++ natLe 2 m.shards.length ++ natLe 8 m.cutTime
    ++ natLe 8 m.dirEpoch ++ natLe 32 0
    ++ (m.shards.map (fun h => natLe 8 h.epoch ++ natLe 1 h.shard ++ natLe 7 0 ++ natLe 8 h.location ++ natLe 8 h.bytes
      ++ h.digest)).flatten

/-- The commit record of a sealed body (R296). -/
def commitRecord (m : Manifest) (body : List Byte) : List Byte :=
  natLe 4 0x434E5853 ++ natLe 8 m.epoch ++ natLe 4 body.length ++ natLe 16 0 ++ shake256 body 32

/-- The place of the last 256 bytes of an epoch's manifest slot, with the commit record, or of the whole slot. -/
def manifestSpot (m : Manifest) (last : Bool) : Spot :=
  let off := 32768 * (m.epoch % 16) + (if last then 32512 else 0)
  ⟨m.tier, m.region, (if m.tier = 3 then m.base else m.region * 2 ^ 48) + off, if last then 1 else 128⟩

/-- Write bytes of a manifest slot (R296): in the far tier its two far slots, in the host tier and the pool its granules from byte
`off` on. -/
def slotWrite (p : Nat) (m : Manifest) (part : SnapPart) (bs : List Byte) (off : Nat) (s : State) : Option State :=
  let sp := manifestSpot m (decide (off ≠ 0))
  let whole := splice m.slot off bs
  if m.tier = 2 then
    let slot (i : Nat) : Nat := (snapAt s p).slots.getD (2 * (m.epoch % 16) + i) 0
    snapOut p part sp false bs { s with
      far := mput (mput s.far (slot 0) { bytes := byteSlice whole 0 16384 }) (slot 1) { bytes := byteSlice whole 16384 16384 } }
  else snapLay p part sp bs s

/-- Keep a manifest with its slot's bytes from `off` on. -/
def keepSlot (p : Nat) (m : Manifest) (bs : List Byte) (off : Nat) (s : State) : State :=
  onRun p (fun r => { r with man := some { m with slot := splice m.slot off bs }, committing := decide (off ≠ 0) }) s

/-- The manifest's body is written (R296, R298): sealed under SNAP_KD, with no commit record yet. -/
def writeBody (p : Nat) (m : Manifest) (s : State) : Option State :=
  let kd := regGet s p 0x70004 % 4096
  let bs := byteSlice (sealBlob s kd (manifestBody p m)) 0 32640 ++ List.replicate 128 0
  (slotWrite p m .body bs 0 (regAdd p 0x70030 32640 (bumpCounter kd s))).map (keepSlot p m bs 0)

/-- The commit record is written (R296, R298), in the last 128 bytes of the slot. -/
def writeCommit (p : Nat) (m : Manifest) (s : State) : Option State :=
  let kd := regGet s p 0x70004 % 4096
  let body := byteSlice m.slot 0 ((manifestBody p m).length + 32)
  let bs := byteSlice m.slot 32512 128 ++ byteSlice (sealBlob s kd (commitRecord m body)) 0 128
  (slotWrite p m .commit bs 32512 (regAdd p 0x70030 128 (bumpCounter kd s))).map (keepSlot p m bs 32512)

/-- Manifests go, and every shard that no remaining one lists is freed (R301). -/
def dropManifests (p : Nat) (gone : Manifest → Bool) (s : State) : State :=
  let keep := (snapAt s p).manifests.filter (fun m => ! gone m)
  let out := (snapAt s p).manifests.filter gone
  let listed (m : Manifest) (h : SnapShard) : Bool := keep.any (fun k => k.tier = m.tier && k.region = m.region
    && k.shards.any (fun x => x.epoch = h.epoch && x.shard = h.shard))
  let free (m : Manifest) (s : State) : State :=
    if ! m.found s p m.tier m.region then s
    else (m.shards.filter (fun h => ! listed m h)).foldl (fun s h =>
      h.places.foldl (fun s a => spotFree (64 * p) ⟨m.tier, m.region, a.1, a.2.1⟩ s) s) s
  onSnap p (fun x => { x with manifests := keep }) (out.foldl (fun s m => free m s) s)

/-- The change bits of the tiles an epoch stored are cleared, but for those changed again since its cut (R290, R298). -/
def storedTiles (r : SnapRun) (s : State) : State :=
  (r.recs.filter (fun x => x.epoch = r.epoch)).foldl (fun s x =>
    onTile x.obj x.tile (fun t => { t with changed := t.again, epoch := r.epoch }) s) s

/-- The epoch commits (R290, R298, R301): SNP_EPOCH takes its number, the manifest that held its slot goes, both triggers
restart. -/
def commitEpoch (p : Nat) (r : SnapRun) (m : Manifest) (s : State) : State :=
  let s := unpend p (storedTiles r (onSnap p (fun x => { x with
    run := none, manifests := x.manifests ++ [m], timerFrom := s.time, frames := 0 }) s))
  let s := dropManifests p (fun k => k.tier = m.tier && k.region = m.region && k.base = m.base && k.node = m.node
    && k.epoch % 16 = m.epoch % 16 && decide (k.epoch ≠ m.epoch)) s
  let s := regSet p 0x70018 m.epoch s
  match r.id with | none => s | some id => done id s

/-- Every tile of an attempt is stored: its shards are closed and the manifest's body is written (R295 to R298). -/
def closeEpoch (p : Nat) (r : SnapRun) (s : State) : State :=
  let own := dedupNat ((r.recs.filter (fun x => x.epoch = r.epoch)).map (·.shard) ++ [20])
  let reg := (regionOf s (64 * p) r.tier r.region).getD {}
  let closed := (closeShards p r own [] s).bind (fun h => writeBody p {
    epoch := r.epoch, full := r.full, cutTime := r.cutAt.getD 0, dirEpoch := r.dirEpoch, tier := r.tier, region := r.region
    base := reg.base, node := reg.node, keyId := keyTag s (regGet s p 0x70004 % 4096), shards := h.1 ++ r.carried
    recs := r.recs, objs := r.objs, rows := r.rows, slot := List.replicate 32768 0 } h.2)
  closed.getD (snapFail p s)

/-- SNAPSHOT_COMMIT (R296 to R299): the next stage of the attempt. Once every tile is stored the shards are closed and the body
written; once all of that is acknowledged the commit record is written; once that is acknowledged the epoch commits. -/
def execSnapshotCommit (port : Port) (s : State) : Host.Outcome State Fault Refusal :=
  let p := port.idx
  match (snapAt s p).run with
  | none => .next s
  | some r =>
    match r.man with
    | none => if r.cutAt.isNone || r.owed ≠ [] then .next s else .next (closeEpoch p r s)
    | some m =>
      if r.outs ≠ [] then .next s
      else if r.committing then .next (commitEpoch p r m s)
      else .next ((writeCommit p m s).getD (snapFail p s))

/-! ### SNP_RETIRE and SNP_LIST (R301, R306) -/

/-- SNP_RETIRE (R301): the manifests that can be found, of epochs up to the one named. -/
def execSnpRetire (r : Req) (epoch : DWord) (s : State) : Host.Outcome State Fault Refusal :=
  .next (onReq r 0x63 none (fun id s =>
    let p := fnPort id.fn
    if ! r.fn.isPf then fail id 0x69 s
    else done id (dropManifests p (fun m => decide (m.epoch ≤ epoch.toNat) && m.found s p m.tier m.region) s)) s)

/-- Manifests in ascending epochs. -/
def byEpoch (ms : List Manifest) : List Manifest :=
  ms.foldl (fun acc m => acc.filter (fun x => decide (x.epoch ≤ m.epoch)) ++ [m] ++ acc.filter (fun x => decide (m.epoch < x.epoch))) []

/-- SNP_LIST (R306): the committed epochs of the target. -/
def execSnpList (r : Req) (buf : DWord) (s : State) : Host.Outcome State Fault Refusal :=
  .next (onReq r 0x64 none (fun id s =>
    let p := fnPort id.fn
    let c := regGet s p 0x70000
    let tier := bits c 4 6
    if ! r.fn.isPf then fail id 0x69 s
    else if ! tierOk s (64 * p) tier (bits c 16 25) then fail id 0x74 s
    else
      let ms := (byEpoch (foundIn s p tier (bits c 16 25))).take 16
      let entry (m : Manifest) : List Byte :=
        natLe 8 m.epoch ++ natLe 8 m.cutTime ++ natLe 2 m.shards.length ++ natLe 1 (b2n m.full) ++ natLe 13 0
      withOut id buf.toNat (byteSlice (ms.map entry).flatten 0 512) (done id) s) s)

end Sys2Proof.Machine
end

