-- ==== Sys2Proof/Machine/Board.lean ====
section
/-! DEFINITION. Module reset, power-up, what may train, and boundary scan (R406, R419, R470 to R474, R481). -/

namespace Sys2Proof.Machine

/-! ### Module reset (R471) -/

/-- A port's snapshots after a module reset: manifests of its host and pool regions stay where they were written (R296, R297,
R300), and so does the last number taken (R287). -/
def resetSnap (x : SnapPort) : SnapPort := { last := x.last, manifests := x.manifests.filter (fun m => decide (m.tier ≠ 2)) }

/-- What no reset touches: the outside of the block (the commands waiting, host memory, messages sent, the last answer), what
the one-time-programmable store and the profile store hold (R310, R312, R398, R400, R459), and manifests in host and pool
memory. -/
def resetKept (s : State) : State :=
  { State.reset with
    pending := s.pending, hostMem := s.hostMem, irqs := s.irqs, reply := s.reply, free := s.free
    snaps := s.snaps.map (fun x => (x.1, resetSnap x.2))
    sec := { boots := s.sec.boots, floor := s.sec.floor, block := s.sec.block, next := 64 * s.sec.block }
    store := { s.store with running := none, waiting := none } }

/-- Module reset (R471): everything outside the gatehouse and the stores is lost; the gatehouse keeps device time, its sensors,
pins, stuck limits and caps, GH_TRIP and ERR_FATAL. -/
def moduleReset (causes : List ResetCause) (s : State) : State :=
  let t := resetKept s
  let g := { s.gate with effective := 0, coarse := 0, wakes := [] }
  let t := { t with time := s.time, hclk := s.hclk, gate := g
                    hub := { inReset := true, causes := causes, resetAt := s.time, pinsTaken := s.hub.pinsTaken } }
  regSet 0 0x20030 (regGet s 0 0x20030) (regSet 0 0x10048 (regGet s 0 0x10048) t)

/-- MODULE_RESET_ENTRY (R470, R471): a condition of R470 holds; one more joins those that hold already. -/
def execModuleResetEntry (cause : ResetCause) (s : State) : Host.Outcome State Fault Refusal :=
  .next (moduleReset (if s.hub.causes.contains cause then s.hub.causes else s.hub.causes ++ [cause]) s)

/-- The TRIP level of a sensor in °C (R418). -/
def tripLevel (id : Nat) : Nat := if 40 ≤ id then 108 else 115

/-- Whether every sensor reads at least 20 °C below its TRIP level (R419). -/
def allCool (s : State) : Bool := s.gate.sensors.all (fun x => decide (x.2.reading + 20 ≤ tripLevel x.1))

/-- MODULE_RESET_RELEASE (R400, R419, R472, R481): 1 ms after the last condition clears; a trip holds the module until every
sensor has cooled. The test access port returns to Test-Logic-Reset. -/
def execModuleResetRelease (s : State) : Host.Outcome State Fault Refusal :=
  if ! s.hub.inReset || decide (s.time < s.hub.resetAt + 1000000) || (s.hub.causes.contains .trip && ! allCool s) then .next s
  else
    .next { s with hub := { releasedAt := s.time, idleSince := s.time, pinsTaken := (pinAt s 2).accepted }
                   gate := { s.gate with thermtrip := false }, tap := {} }

/-- HUB_PLL_LOCK (R472). -/
def execHubPllLock (s : State) : Host.Outcome State Fault Refusal :=
  .next (if s.hub.inReset then s else { s with hub := { s.hub with pll := true } })

/-- PORT_TRAIN_ENABLE (R473): 1 ms after the later of the release and PERST accepted high. -/
def execPortTrainEnable (port : Port) (s : State) : Host.Outcome State Fault Refusal :=
  let from_ := max s.hub.releasedAt ((pinAt s port.idx).changedAt.getD 0)
  if s.hub.inReset || pinActs s port.idx || decide (s.time < from_ + 1000000) then .next s
  else .next { s with hub := if port.idx = 0 then { s.hub with ableA := true } else { s.hub with ableB := true } }

/-- AON_POWER_UP (R406, R470): the always-on rail comes up; device time starts at 0, and the module is in module reset. -/
def execAonPowerUp (s : State) : Host.Outcome State Fault Refusal :=
  .next { resetKept s with hub := { inReset := true, causes := [.aonSupply] } }

/-! ### Boundary scan (R481) -/

/-- Whether the test access port works: in module reset with every rail valid. -/
def tapWorks (s : State) : Bool :=
  s.hub.inReset && s.hub.causes.all (fun c => c ≠ .aonSupply && c ≠ .vin48 && c ≠ .regulator && c ≠ .vddqFar)

/-- Bits as they leave TDO, the first in the lowest place. -/
def scanOut (xs : List Bool) : Nat := xs.foldr (fun b n => b2n b + 2 * n) 0

/-- The port takes an instruction with its cells, and what it shifts out. -/
def tapTake (ins : TapIns) (cells : List Bool) (out : Nat) (s : State) : Host.Outcome State Fault Refusal :=
  .next (if tapWorks s then { s with tap := ⟨ins, cells⟩, reply := .bits out } else s)

/-- The IDCODE (R481). -/
def idcode : Nat := 0x1 * 2 ^ 28 + 0x5320 * 2 ^ 12 + Config.manufacturer.toNat * 2 + 1

/-- BYPASS: one bit of delay between TDI and TDO. -/
def execTapBypass (tdi : List Bool) (s : State) : Host.Outcome State Fault Refusal :=
  tapTake .bypass s.tap.cells (scanOut (false :: tdi)) s

/-- IDCODE (R481). -/
def execTapIdcode (s : State) : Host.Outcome State Fault Refusal := tapTake .idcode s.tap.cells idcode s

/-- SAMPLE/PRELOAD: the pins are captured and shifted out, and the cells are loaded. -/
def execTapSamplePreload (pins data : List Bool) (s : State) : Host.Outcome State Fault Refusal :=
  tapTake .samplePreload data (scanOut pins) s

/-- EXTEST: the cells drive the pins, and the inputs are captured. -/
def execTapExtest (pins data : List Bool) (s : State) : Host.Outcome State Fault Refusal :=
  tapTake .extest data (scanOut pins) s

/-- CLAMP: the cells loaded before drive the pins; the bypass bit is shifted. -/
def execTapClamp (tdi : List Bool) (s : State) : Host.Outcome State Fault Refusal :=
  tapTake .clamp s.tap.cells (scanOut (false :: tdi)) s

/-- HIGHZ: every output is released; the bypass bit is shifted. -/
def execTapHighz (tdi : List Bool) (s : State) : Host.Outcome State Fault Refusal :=
  tapTake .highz s.tap.cells (scanOut (false :: tdi)) s

/-- EXTEST_PULSE of IEEE 1149.6: as EXTEST, with a pulse on each AC-coupled lane. -/
def execTapExtestPulse (pins data : List Bool) (s : State) : Host.Outcome State Fault Refusal :=
  tapTake .extestPulse data (scanOut pins) s

/-- EXTEST_TRAIN of IEEE 1149.6: as EXTEST, with a pulse train on each AC-coupled lane. -/
def execTapExtestTrain (pins data : List Bool) (s : State) : Host.Outcome State Fault Refusal :=
  tapTake .extestTrain data (scanOut pins) s

end Sys2Proof.Machine
end

