-- ==== Sys2Proof/Machine/CoreMatrix.lean ====
section
/-! DEFINITION. Addresses of a bundle (R73), the matrix instructions (R44 to R53) and ACCRD (R51). -/

namespace Sys2Proof.Machine

/-- The current index of the loop at a level, 0 outside it (R73). -/
def loopIndex (c : Core) (cyc lvl : Nat) : Nat :=
  match mget? c.loops lvl with
  | none => 0
  | some l => if l.start ≤ cyc ∧ cyc < l.start + l.trip * l.body then (cyc - l.start) / l.body else 0

/-- The strides of an address expression of the program a core runs; number 0 is no expression (R72). -/
def coreStrides (s : State) (k : Nat) (x : Nat) : List Int :=
  if x = 0 then []
  else
    match coreImage s k with
    | none => []
    | some b => imgStrides b x

/-- An address: base + Σ stride × L (R73). -/
def addrOf (strides : List Int) (c : Core) (cyc : Nat) (a : PAddr) : Int :=
  (a.base : Int) + ((strides.zip (List.range 8)).map (fun p => p.1 * (loopIndex c cyc p.2 : Int))).foldl (· + ·) 0

/-- A pane-store byte address of `n` bytes, when they exist; the field counts units of `u` bytes. -/
def paneAddr (strides : List Int) (c : Core) (cyc u n : Nat) (a : PAddr) : Option Nat :=
  let x := addrOf strides c cyc a * (u : Int)
  if 0 ≤ x ∧ x.toNat + n ≤ paneBytes then some x.toNat else none

/-- Read `n` bytes of the pane store at an address field; none when they do not exist. -/
def paneAt (s : State) (k cyc u n : Nat) (a : PAddr) (c : Core) : Option (List Byte) :=
  match paneAddr (coreStrides s k a.expr) c cyc u n a with
  | none => none
  | some x => some (c.paneRead x n)

/-- An accumulator column with every MMA issued so far applied (R48). -/
def accIssued (c : Core) (t : Fin 8) (j : Fin 32) : Vec :=
  (c.flight.foldl (fun (a : Vec) f => match f.val with
    | .acc u i x => if u = t ∧ i = j then x else a
    | _ => a) (c.accCol t j))

/-- The latest cycle at which an MMA in flight to a column lands. -/
def accDue (c : Core) (t : Fin 8) (j : Fin 32) : Nat :=
  c.flight.foldl (fun a f => match f.val with
    | .acc u i _ => if u = t ∧ i = j then max a f.due else a
    | _ => a) 0

/-- Row `i` of a 32 × 32 F8 or BF16 operand: its elements row by row, as R45 has them for K4 (DESIGN CHOICE, log 99: R44 gives
only their number of bytes). -/
def rowOf (w : Nat) (dec : Nat → FVal) (bytes : List Byte) (i n : Nat) : List FVal :=
  (List.range n).map (fun k => dec (leField bytes ((i * n + k) * w) w))

/-- The row of a K4 block under its scale byte (R34, R45). -/
def k4Row (t : KTable) (codes : List Byte) (scale i n : Nat) : List FVal :=
  (List.range n).map (fun k => k4Val t scale (k4Code codes (i * n + k)))

/-- Finish an MMA: one result for each row i, in column j after `lat` cycles, in issue order (R44, R48, R49). -/
def mmaOut (lat cyc : Nat) (acc : Fin 8) (col : Fin 32) (z : Bool) (extra : BitVec 5)
    (dot : Nat → Option FVal → LaneRes Word) (c : Core) : CoreRes :=
  let old := fpLanes (accIssued c acc col)
  let rs := (List.range 32).map (fun i => numRes (dot i (if z then none else some (old.getD i (.fin false 0 0)))))
  .ok (fly (max (cyc + lat) (accDue c acc col)) (.acc acc col (ofLanes 32 (rs.map (·.val)))) c)
    (rs.foldl (fun a r => a ||| r.flags) extra)

/-- The 32 or 64 elements of a b operand (R45): K4 codes followed by one scale byte, or F8. Of 64 K4 elements the codes stand
first, 32 bytes, then the two scale bytes (DESIGN CHOICE, log 99: R45 gives only 32 elements). The flag is K4 when a scale
byte is 0xFF (R50). -/
def bOperand (fmt : BFmt) (t : KTable) (n : Nat) (bytes : List Byte) : List FVal × BitVec 5 :=
  match fmt with
  | .k4 =>
    let sc (k : Nat) : Nat := leField bytes (n / 2 + k / 32) 1
    ((List.range n).map (fun k => k4Val t (sc k) (k4Code bytes k)),
      if (List.range (n / 32)).any (fun i => sc (32 * i) = 0xFF) then flK4 else 0)
  | .e4m3 => ((List.range n).map (fun k => e4m3Val (leField bytes k 1)), 0)
  | .e5m2 => ((List.range n).map (fun k => e5m2Val (leField bytes k 1)), 0)

/-- Bytes of a b operand of `n` elements. -/
def bBytes (fmt : BFmt) (n : Nat) : Nat :=
  match fmt with
  | .k4 => n / 2 + n / 32
  | _ => n

/-- MMA.K4 (R44 to R46, R50). -/
def execMmaK4 (k : Fin 10240) (cyc : Nat) (acc : Fin 8) (col : Fin 32) (a scale : PAddr) (bFmt : BFmt) (b : PAddr)
    (ktA ktB : Fin 8) (z : Bool) (s : State) : Host.Outcome State Fault Refusal :=
  coreStep (.mmaK4 k cyc acc col a scale bFmt b ktA ktB z) k cyc (fun c =>
    match paneAt s k cyc 64 512 a c, paneAt s k cyc 1 32 scale c, paneAt s k cyc 1 (bBytes bFmt 32) b c with
    | some codes, some scales, some bb =>
      let (bv, fl) := bOperand bFmt (c.table ktB) 32 bb
      let bad := (List.range 32).any (fun i => leField scales i 1 = 0xFF)
      mmaOut 12 cyc acc col z (if bad then fl ||| flK4 else fl)
        (fun i old => mmaExact old ((k4Row (c.table ktA) codes (leField scales i 1) i 32).zip bv)) c
    | _, _, _ => .bad .outsidePane) s

/-- Metadata nibble of group `g` of a sparse row (R52). -/
def sparseMeta (bytes : List Byte) (i g : Nat) : Nat :=
  let b := leField bytes (8 * i + g / 2) 1
  if g % 2 = 0 then b % 16 else b / 16

/-- Whether a group's metadata is one of the six valid encodings (R53). -/
def sparseOk (m : Nat) : Bool := decide (m % 4 < m / 4)

/-- The products of row `i` of a 2:4 sparse operand with a 64-element b: groups with invalid metadata give none
(R52, R53). A b element that no stored element selects takes no part, a NaN or an infinity among them included (DESIGN
CHOICE, log 99: R50 does not say whether it is an operand element of the column). -/
def sparseRow (t : KTable) (codes metas scales : List Byte) (bv : List FVal) (i : Nat) : List (FVal × FVal) :=
  ((List.range 16).map (fun g =>
    let m := sparseMeta metas i g
    let sc := leField scales (2 * i + g / 8) 1
    if sparseOk m then
      [(k4Val t sc (k4Code codes (32 * i + 2 * g)), bv.getD (4 * g + m % 4) (.fin false 0 0)),
       (k4Val t sc (k4Code codes (32 * i + 2 * g + 1)), bv.getD (4 * g + m / 4) (.fin false 0 0))]
    else [])).flatten

/-- MMA.K4S (R44, R46, R50, R52, R53). The codes, the metadata and the codes' address follow one another at the A
address: 512 B of codes, then 256 B of metadata (log 22). -/
def execMmaK4s (k : Fin 10240) (cyc : Nat) (acc : Fin 8) (col : Fin 32) (a scale : PAddr) (bFmt : BFmt) (b : PAddr)
    (ktA ktB : Fin 8) (z : Bool) (s : State) : Host.Outcome State Fault Refusal :=
  coreStep (.mmaK4s k cyc acc col a scale bFmt b ktA ktB z) k cyc (fun c =>
    match paneAt s k cyc 64 768 a c, paneAt s k cyc 1 64 scale c, paneAt s k cyc 1 (bBytes bFmt 64) b c with
    | some am, some scales, some bb =>
      let codes := am.take 512
      let metas := am.drop 512
      let (bv, fl) := bOperand bFmt (c.table ktB) 64 bb
      let bad := (List.range 64).any (fun i => leField scales i 1 = 0xFF)
        || (List.range 512).any (fun i => ! sparseOk (sparseMeta metas (i / 16) (i % 16)))
      mmaOut 12 cyc acc col z (if bad then fl ||| flK4 else fl)
        (fun i old => mmaExact old (sparseRow (c.table ktA) codes metas scales bv i)) c
    | _, _, _ => .bad .outsidePane) s

/-- MMA.F8 (R44 to R46, R50). -/
def execMmaF8 (k : Fin 10240) (cyc : Nat) (acc : Fin 8) (col : Fin 32) (a b : PAddr) (aEnc bEnc : F8) (z : Bool)
    (s : State) : Host.Outcome State Fault Refusal :=
  coreStep (.mmaF8 k cyc acc col a b aEnc bEnc z) k cyc (fun c =>
    match paneAt s k cyc 64 1024 a c, paneAt s k cyc 1 32 b c with
    | some ab, some bb =>
      mmaOut 12 cyc acc col z 0
        (fun i old => mmaExact old ((rowOf 1 (f8Val aEnc) ab i 32).zip (rowOf 1 (f8Val bEnc) bb 0 32))) c
    | _, _ => .bad .outsidePane) s

/-- MMA.BF16 (R44, R47, R50). -/
def execMmaBf16 (k : Fin 10240) (cyc : Nat) (acc : Fin 8) (col : Fin 32) (a b : PAddr) (z : Bool) (s : State) :
    Host.Outcome State Fault Refusal :=
  coreStep (.mmaBf16 k cyc acc col a b z) k cyc (fun c =>
    match paneAt s k cyc 64 2048 a c, paneAt s k cyc 1 64 b c with
    | some ab, some bb =>
      mmaOut 16 cyc acc col z 0
        (fun i old => mmaBf16 old ((rowOf 2 bf16Val ab i 32).zip (rowOf 2 bf16Val bb 0 32))) c
    | _, _ => .bad .outsidePane) s

/-- The width in bits of an element of a format (R29, R72). -/
def fmtBits : Fmt → Nat
  | .fp32 => 32
  | .bf16 => 16
  | .e4m3 => 8
  | .e5m2 => 8
  | .k4 => 4
  | .int16 => 16

/-- Convert an FP32 value to a format other than K4 (R41). -/
def toFmt (f : Fmt) (nonsat : Bool) (x : FVal) : LaneRes Nat :=
  match f with
  | .fp32 => ⟨(fp32OfVal x).toNat, 0⟩
  | .bf16 => toBf16 x
  | .e4m3 => toE4m3 nonsat x
  | .e5m2 => toE5m2 nonsat x
  | .k4 => ⟨0, 0⟩
  | .int16 => toInt16 x

/-- An element that ACCRD gives (R51): FP32, BF16 or F8. The other formats of its field, K4 and INT16, are conversions the
spec does not give ACCRD, so the element is a free value (log 63). -/
def accrdElem (f : Fmt) (nonsat : Bool) (x : FVal) : LaneRes Nat :=
  match f with
  | .k4 => ⟨(Config.accrdOther f (fp32OfVal x)).toNat % 16, 0⟩
  | .int16 => ⟨(Config.accrdOther f (fp32OfVal x)).toNat, 0⟩
  | f => toFmt f nonsat x

/-- ACCRD (R51): the column as it stands. The register's bits above the 32 elements keep their value (log 23). -/
def execAccrd (k : Fin 10240) (cyc : Nat) (acc : Fin 8) (col : Fin 32) (vd : Fin 32) (fmt : Fmt) (nonsat : Bool)
    (s : State) : Host.Outcome State Fault Refusal :=
  coreStep (.accrd k cyc acc col vd fmt nonsat) k cyc (fun c =>
    vecOut (fmtBits fmt) 4 cyc vd none ((fpLanes (c.accCol acc col)).map (accrdElem fmt nonsat)) c) s

end Sys2Proof.Machine
end

