-- ==== Sys2Proof/Machine/CoreMemory.lean ====
section
/-! DEFINITION. Pane-store, bond and lattice instructions (R36, R57, R60, R62, R77, R90, R174, R175) and the
colonnade (R78, R86). -/

namespace Sys2Proof.Machine

/-- The number of a core memory in a CORE_MEMORY record (R442). -/
def coreMemNum : CoreMem → Nat
  | .pane => 1
  | .registers => 2
  | .accumulators => 3
  | .bundles => 4

/-- A core's memory is found uncorrectable during a frame (R448): CORE_MEMORY, every session of every pavilion that takes
part on the core's bay fails at the frame's end, and a bundle store's program is unloaded. -/
def coreMemLost (k : Nat) (m : CoreMem) (s : State) : State :=
  match frameOf s (coreBay k) with
  | none => s
  | some (key, f) =>
    let here := f.pavs.filter (fun n => (mgetD s.pavs n {}).quarters.any (fun q => q / 4 = coreBay k))
    let own := match quarterPav s (coreQuarter k) with | none => [] | some p => [p.1]
    let f := { f with damagedPavs := f.damagedPavs ++ here
                      lostProgs := f.lostProgs ++ (if m = .bundles then own else []) }
    raiseErr { bayErr s k 2 5 with detail := coreMemNum m } (setFrame key f s)

/-- VLD (R60, R448): 128 bytes from a line of the pane store; latency 3. `bad` is a core memory found uncorrectable in the
bundle; what a lost pane line then gives is a free value. -/
def execVld (k : Fin 10240) (cyc : Nat) (v : Fin 32) (addr : PAddr) (bad : Option CoreMem) (s : State) :
    Host.Outcome State Fault Refusal :=
  let i : Instr := .vld k cyc v addr bad
  let load (x : Option Vec) (s : State) : Host.Outcome State Fault Refusal :=
    coreStep i k cyc (fun c =>
      match paneAt s k cyc 64 128 addr c with
      | none => .bad .outsidePane
      | some bs => .ok (fly (cyc + 3) (.vec v (BitVec.allOnes 1024) (x.getD (BitVec.ofNat 1024 (leNat bs)))) c) 0) s
  match issues s k cyc i, bad with
  | some _, some m =>
    load (if m = .pane then some (Config.lostVec (s.free + 1) v) else none) { coreMemLost k m s with free := s.free + 1 }
  | _, _ => load none s

/-- VST (R60): the register as it is at issue reaches the pane store after 3 cycles. -/
def execVst (k : Fin 10240) (cyc : Nat) (v : Fin 32) (addr : PAddr) (s : State) : Host.Outcome State Fault Refusal :=
  coreStep (.vst k cyc v addr) k cyc (fun c =>
    match paneAddr (coreStrides s k addr.expr) c cyc 64 128 addr with
    | none => .bad .outsidePane
    | some a => .ok (fly (cyc + 3) (.pane a (natLe 128 (c.vreg v).toNat)) c) 0) s

/-- TLD (R36): 16 entries of a code table from a line of the pane store. -/
def execTld (k : Fin 10240) (cyc : Nat) (kt : Fin 8) (addr : PAddr) (s : State) : Host.Outcome State Fault Refusal :=
  coreStep (.tld k cyc kt addr) k cyc (fun c =>
    match paneAt s k cyc 64 16 addr c with
    | none => .bad .outsidePane
    | some bs => .ok (fly (cyc + 3) (.table kt (BitVec.ofNat 128 (leNat bs))) c) 0) s

/-- SLD (R57): 8 naturally aligned bytes. -/
def execSld (k : Fin 10240) (cyc : Nat) (sr : Fin 16) (addr : PAddr) (s : State) : Host.Outcome State Fault Refusal :=
  coreStep (.sld k cyc sr addr) k cyc (fun c =>
    match paneAddr (coreStrides s k addr.expr) c cyc 1 8 addr with
    | none => .bad .outsidePane
    | some a =>
      if a % 8 = 0 then .ok (fly (cyc + 3) (.scal sr (BitVec.ofNat 64 (leNat (c.paneRead a 8)))) c) 0
      else .bad .misalignedPane) s

/-- SST (R57): 8 naturally aligned bytes. -/
def execSst (k : Fin 10240) (cyc : Nat) (sr : Fin 16) (addr : PAddr) (s : State) : Host.Outcome State Fault Refusal :=
  coreStep (.sst k cyc sr addr) k cyc (fun c =>
    match paneAddr (coreStrides s k addr.expr) c cyc 1 8 addr with
    | none => .bad .outsidePane
    | some a =>
      if a % 8 = 0 then .ok (fly (cyc + 3) (.pane a (natLe 8 (c.sreg sr).toNat)) c) 0
      else .bad .misalignedPane) s

/-- A sliver line of `n` lines, when they exist (R161). -/
def sliverAddr (strides : List Int) (c : Core) (cyc n : Nat) (a : PAddr) : Option Nat :=
  let x := addrOf strides c cyc a
  if 0 ≤ x ∧ x.toNat + n ≤ sliverLines then some x.toNat else none

/-- Sliver lines as a BLD delivers them: damaged lines, and lines lost now, as zeros (R446, R447). -/
def bldLines (s : State) (k line n : Nat) (bad : List Nat) : List Byte :=
  ((List.range n).map (fun i =>
    if isDamaged s k (line + i) || bad.contains (line + i) then List.replicate 64 0
    else nearRead s k (line + i) 1)).flatten

/-- Lines of a tile's form that a codec BLD moves: the beats beyond the form's LENGTH move nothing (R174). -/
def formLines (s : State) (k line : Nat) : Nat :=
  min 256 (max 1 (ceilDiv (formLength (formAt s k line) (nearRead s k line 1)) 64))

/-- The lines a BLD moves: all of its length, or of each tile those of its form (R174). -/
def bldMoved (s : State) (k line n mode : Nat) : List Nat :=
  if mode = 0 then (List.range n).map (line + ·)
  else (List.range (n / 256)).flatMap (fun i => (List.range (formLines s k (line + 256 * i))).map (line + 256 * i + ·))

/-- Those of the lines a BLD moves that are lost: damaged ones, and ones lost now (R446, R447). -/
def bldLost (s : State) (k line n mode : Nat) (bad : List Nat) : List Nat :=
  (bldMoved s k line n mode).filter (fun l => isDamaged s k l || bad.contains l)

/-- A tile as a codec BLD delivers it (R170, R174, R175): plain when its form field is 0, decoded otherwise; zeros when a line of
it is lost, which is found before it would be decoded, and none when the codec refuses the form. -/
def bldTile (s : State) (k line : Nat) (bad : List Nat) : Option (List Byte) :=
  if formAt s k line = 0 then some (bldLines s k line 256 bad)
  else if bldLost s k line 256 1 bad ≠ [] then some (List.replicate 16384 0)
  else decodeTile (formAt s k line) (nearRead s k line 256)

/-- The first lines of the tiles of a codec BLD. -/
def bldTiles (line n mode : Nat) : List Nat := if mode = 0 then [] else (List.range (n / 256)).map (fun i => line + 256 * i)

/-- The first lines of the tiles of a codec BLD that its codec refuses (R175). -/
def bldRefused (s : State) (k line n mode : Nat) (bad : List Nat) : List Nat :=
  (bldTiles line n mode).filter (fun t => (bldTile s k t bad).isNone)

/-- What a BLD lays into the pane store (R62, R174, R175): refused tiles as zeros. -/
def bldData (s : State) (k line n mode : Nat) (bad : List Nat) : List Byte :=
  if mode = 0 then bldLines s k line n bad
  else (bldTiles line n mode).flatMap (fun t => (bldTile s k t bad).getD (List.replicate 16384 0))

/-- The bond beats of 200 bytes as results in flight: beat `i` lands `i` cycles after the first (R59, R62). -/
def bondBeats (due a : Nat) (data : List Byte) (c : Core) : Core :=
  (List.range (ceilDiv data.length 200)).foldl
    (fun c i => fly (due + i) (.pane (a + 200 * i) ((data.drop (200 * i)).take 200)) c) c

/-- A core codec refuses a form (R175): a CODEC_REFUSED record, the counter, and the sessions that fail. -/
def codecRefused (key k line : Nat) (s : State) : State :=
  let port := match quarterPav s (coreQuarter k) with | none => 0 | some p => p.2.port
  damageSlot key k line (regAdd port 0xC0014 1 (raiseErr { bayErr s k 2 6 with addr := line } s))

/-- The frame in which a core issues a bond instruction: never inside a slot that bars its bay's bond interfaces (R83, R91). -/
def bondIssues (s : State) (k cyc : Nat) (i : Instr) : Option (Nat × Frame) :=
  if bondBarred s k cyc then none else issues s k cyc i

/-- The cycles until the first beat of a bond read (R59): 28 when the row of its first line is open, 60 when it must be
activated. -/
def rowWait (c : Core) (line : Nat) : Nat := if c.row = some (rowOfByte (64 * line)) then 28 else 60

/-- BLD (R59, R62, R174, R175, R446). `bad` lists the sliver lines whose data is lost. The sliver's bytes are those of the
cycle it issues in (DESIGN CHOICE, log 35); beat by beat they land in the pane store. -/
def execBld (k : Fin 10240) (cyc : Nat) (pane sliver : PAddr) (lines : Nat) (mode : Fin 8) (bad : List Nat) (s : State) :
    Host.Outcome State Fault Refusal :=
  match bondIssues s k cyc (.bld k cyc pane sliver lines mode bad) with
  | none => .next s
  | some (key, f) =>
    let s := advance k cyc s
    let c := coreAt s k
    match paneAddr (coreStrides s k pane.expr) c cyc 64 (64 * lines) pane,
        sliverAddr (coreStrides s k sliver.expr) c cyc lines sliver with
    | none, _ => .fault .outsidePane
    | some _, none => .fault .outsideSliver
    | some a, some l =>
      let due := cyc + rowWait c l + (if mode = 0 then 0 else 48)
      let open' := ((bldMoved s k l lines mode).getLast?).map (fun x => rowOfByte (64 * x))
      let refused := bldRefused s k l lines mode bad
      let lost := bldLost s k l lines mode bad
      let s := setCore k { bondBeats due a (bldData s k l lines mode bad) c with
        row := open', bondEnd := due + ceilDiv (64 * lines) 200 } (setFrame key { f with cycle := cyc } s)
      let s := refused.foldl (fun s t => codecRefused key k t s) s
      .next (lost.foldl (fun s x => damageSlot key k x (lineLost k x s)) s)

/-- Whether a tagged slot's verdict bit is 1 (R87, R89): the slot ran at the frame's start and is not masked. -/
def verdict (f : Frame) (pav slot : Nat) : Bool :=
  ((mget? f.runs (pav * 1024 + slot)).isSome || f.scans.contains (pav * 1024 + slot)) && (mget? f.masked (pav * 1024 + slot)).isNone

/-- The reads and stores of a BST of `n` bytes from pane byte `a` to sliver byte `b` (R62, R174): 200 bytes a cycle, each stored
as it is read; a codec reads at the same cycles and stores a tile 48 cycles after its last read. -/
def bstMoves (cyc a b n mode : Nat) : List BondRead × List BondStore :=
  let beats := (List.range (ceilDiv n 200)).map (fun i => (i, 200 * i, min 200 (n - 200 * i)))
  if mode = 0 then
    (beats.map (fun x => ⟨cyc + x.1, a + x.2.1, x.2.2, cyc + x.1, b + x.2.1⟩),
     beats.map (fun x => ⟨cyc + x.1, b + x.2.1, 0, []⟩))
  else
    let due (t : Nat) : Nat := cyc + (16384 * (t + 1) - 1) / 200 + 48
    let read (i lo hi : Nat) : BondRead := ⟨cyc + i, a + lo, hi - lo, due (lo / 16384), b + lo / 16384 * 16384⟩
    (beats.flatMap (fun x =>
      let hi := x.2.1 + x.2.2
      let cut := (x.2.1 / 16384 + 1) * 16384
      if hi ≤ cut then [read x.1 x.2.1 hi] else [read x.1 x.2.1 cut, read x.1 cut hi]),
     (List.range (n / 16384)).map (fun t => ⟨due t, b + 16384 * t, mode, []⟩))

/-- BST (R62, R90, R141, R172, R174): pane-store data into the sliver, 200 bytes a cycle, unless its tagged slot is masked. -/
def execBst (k : Fin 10240) (cyc : Nat) (pane sliver : PAddr) (lines : Nat) (mode : Fin 8) (tag : Option (Fin 1024))
    (s : State) : Host.Outcome State Fault Refusal :=
  match bondIssues s k cyc (.bst k cyc pane sliver lines mode tag) with
  | none => .next s
  | some (key, f) =>
    let s := advance k cyc s
    let c := coreAt s k
    match paneAddr (coreStrides s k pane.expr) c cyc 64 (64 * lines) pane,
        sliverAddr (coreStrides s k sliver.expr) c cyc lines sliver with
    | none, _ => .fault .outsidePane
    | some _, none => .fault .outsideSliver
    | some a, some l =>
      let go := match tag, quarterPav s (coreQuarter k) with
        | some t, some (n, _) => verdict f n t
        | _, _ => true
      let m := if go then bstMoves cyc a (64 * l) (64 * lines) mode else ([], [])
      let stop := cyc + ceilDiv (64 * lines) 200 + (if mode = 0 then 0 else 48)
      .next (advance k cyc (setCore k { c with reads := c.reads ++ m.1, stores := c.stores ++ m.2, bondEnd := stop }
        (setFrame key { f with cycle := cyc } s)))

/-- The core of a lattice destination (R72): [3:0] row, [8:4] column, in the same bay. -/
def latticeCore (k : Nat) (dst : Fin 512) : Nat := coreBay k * 512 + dst.val % 16 * 32 + dst.val / 16

/-- Hops between two cores of a bay (R77). -/
def hops (a b : Nat) : Nat :=
  let d (x y : Nat) : Nat := (x - y) + (y - x)
  d (a % 512 / 32) (b % 512 / 32) + d (a % 32) (b % 32)

/-- LSEND (R77): the message lands in the destination from cycle t + 3 + h on. All its beats hold what the pane store holds at
issue (DESIGN CHOICE, log 99: R77 does not say in which cycle a later beat is read). One to the sending core itself is no
lattice transfer and sends nothing. -/
def execLsend (k : Fin 10240) (cyc : Nat) (pane : PAddr) (dst : Fin 512) (beats : Nat) (s : State) :
    Host.Outcome State Fault Refusal :=
  match issues s k cyc (.lsend k cyc pane dst beats) with
  | none => .next s
  | some (key, f) =>
    let s := advance k cyc s
    let c := coreAt s k
    match paneAddr (coreStrides s k pane.expr) c cyc 64 (256 * beats) pane with
    | none => .fault .outsidePane
    | some a =>
      let d := latticeCore k dst
      let s := setFrame key { f with cycle := cyc } s
      if d = k.val then .next s
      else .next { s with lattice := s.lattice ++ [⟨d, cyc + 3 + hops k d, c.paneRead a (256 * beats)⟩] }

/-- LRECV (R77): the message whose first beat lands in this cycle is written at the pane address, a beat a cycle. With
none arriving the cycle passes. -/
def execLrecv (k : Fin 10240) (cyc : Nat) (pane : PAddr) (beats : Nat) (s : State) :
    Host.Outcome State Fault Refusal :=
  match issues s k cyc (.lrecv k cyc pane beats) with
  | none => .next s
  | some (key, f) =>
    let s := advance k cyc s
    let c := coreAt s k
    match paneAddr (coreStrides s k pane.expr) c cyc 64 (256 * beats) pane with
    | none => .fault .outsidePane
    | some a =>
      let s := setFrame key { f with cycle := cyc } s
      match s.lattice.find? (fun m => m.dst = k.val && m.due = cyc) with
      | none => .next s
      | some m =>
        let data := m.data.take (256 * beats)
        let c := (List.range (ceilDiv data.length 256)).foldl
          (fun c i => fly (cyc + i) (.pane (a + 256 * i) ((data.drop (256 * i)).take 256)) c) c
        .next { setCore k (retire cyc c) s with lattice := s.lattice.erase m }

/-- The core a colonnade port attaches to in a bay (R78). -/
def portCore (bay : Nat) (port : Fin 4) : Nat :=
  bay * 512 + (if port = 0 then 8 else if port = 1 then 24 else if port = 2 then 8 * 32 else 8 * 32 + 31)

/-- Logical ring hops from a bay to another, through port 3 to higher bays or through port 2 to lower ones; the ring closes
from bay 19 to bay 0 (R78). -/
def ringHops (up : Bool) (a b : Nat) : Nat := (if up then b + 20 - a else a + 20 - b) % 20

/-- The cycle a colonnade transfer's first beat lands in (R21, R78): over the ring, through the transom, or from the hub.
There is none over the ring within a bay, nor from the hub, which joins ports 0 and 1. -/
def colLand (cyc : Nat) (src : Option Nat) (dst : Nat) (path : ColPath) : Option Nat :=
  match path, src with
  | .ring up, some a =>
    let k := ringHops up (coreBay a) (coreBay dst)
    if k = 0 then none
    else some (cyc + 7 + hops a (portCore (coreBay a) (if up then 3 else 2)) + 8 * k
      + hops (portCore (coreBay dst) (if up then 2 else 3)) dst)
  | .ring _, none => none
  | .transom o i, some a =>
    some (cyc + 31 + hops a (portCore (coreBay a) (o.castLE (by decide))) + hops (portCore (coreBay dst) (i.castLE (by decide))) dst)
  | .transom _ i, none => some (cyc + 15 + hops (portCore (coreBay dst) (i.castLE (by decide))) dst)

/-- Whether a transfer is one that a program can place (R75, R78, R86): it issues at an even cycle; a pane source has one
destination; the hub has up to 20, in as many bays; every core belongs to one pavilion; and each has a route. -/
def colOk (s : State) (cyc : Nat) (src : Option Nat) (dsts : List PanePlace) (path : ColPath) : Bool :=
  let cores := src.toList ++ dsts.map (fun d => d.core.val)
  let pav (k : Nat) : Option Nat := (quarterPav s (coreQuarter k)).map (·.1)
  cyc % 2 = 0 && decide (dsts.length ≤ if src.isSome then 1 else 20)
    && (dedupNat (dsts.map (fun d => coreBay d.core))).length = dsts.length
    && cores.all (fun k => pav k = pav (cores.headD 0))
    && dsts.all (fun d => (colLand cyc src d.core path).isSome)

/-- COLONNADE_TRANSFER (R21, R78, R86): at an even cycle of a running frame the source's data is sent in beats of 512 bytes
every two cycles to each destination; a pane source must take part in the frame, and every pavilion's transfers happen
only while it does (R67). A transfer that no program can place sends nothing (R23). -/
def execColonnadeTransfer (cyc : Nat) (src : ColSource) (dsts : List PanePlace) (path : ColPath) (beats : Nat)
    (s : State) : Host.Outcome State Fault Refusal :=
  let from? : Option Nat := match src with | .pane p => some p.core.val | .hub _ => none
  match (from?.toList ++ dsts.map (fun d => d.core.val)).head? with
  | none => .next s
  | some k =>
    match issuing s k cyc with
    | none => .next s
    | some (key, f) =>
      if ! colOk s cyc from? dsts path then .next s
      else
        let line := match src with | .pane p => p.line | .hub _ => 0
        if paneBytes < 64 * line + 512 * beats ∨ dsts.any (fun (d : PanePlace) => decide (paneBytes < 64 * d.line + 512 * beats)) then
          .fault .outsidePane
        else
          let s := match src with | .pane p => advance p.core cyc s | .hub _ => s
          let data := match src with
            | .pane p => (coreAt s p.core).paneRead (64 * p.line) (512 * beats)
            | .hub bs => byteSlice bs 0 (512 * beats)
          let out := (dsts.map (fun (d : PanePlace) => (List.range beats).map (fun i =>
            (⟨d.core, 64 * d.line + 512 * i, (colLand cyc from? d.core path).getD 0 + 2 * i, (data.drop (512 * i)).take 512⟩ :
              ColBeat)))).flatten
          let s := setFrame key { f with cycle := cyc } s
          .next { s with colonnade := s.colonnade ++ out }

/-- COLONNADE_BEAT_ARRIVAL (R23, R78): the core stands at the cycle, and each beat due by then has landed in its pane store in
the cycle it was due. -/
def execColonnadeBeatArrival (k : Fin 10240) (cyc : Nat) (s : State) : Host.Outcome State Fault Refusal :=
  match issuing s k cyc with
  | none => .next s
  | some (key, f) => .next (setFrame key { f with cycle := cyc } (advance k cyc s))

end Sys2Proof.Machine
end

