-- ==== Sys2Proof/Machine/CoreScalar.lean ====
section
/-! DEFINITION. The scalar unit (R57) and the counted loop (R31, R73). -/

namespace Sys2Proof.Machine

/-- The value of a second operand: a register, or a 32-bit two's-complement immediate (R72). -/
def Core.sval (c : Core) : SOperand → DWord
  | .reg r => c.sreg r
  | .imm v => v.signExtend 64

/-- A scalar instruction of two operands: its result may be read one cycle later (R59). -/
def scalar2 (i : Instr) (f : DWord → DWord → DWord) (k : Fin 10240) (cyc : Nat) (sd sa : Fin 16) (sb : SOperand) (s : State) :
    Host.Outcome State Fault Refusal :=
  coreStep i k cyc (fun c => .ok (fly (cyc + 1) (.scal sd (f (c.sreg sa) (c.sval sb))) c) 0) s

/-- A shift: an amount of 64 or more is a shift the spec does not state, a free value. -/
def shiftBy (op : Nat) (f : DWord → Nat → DWord) (a b : DWord) : DWord :=
  if b.toNat < 64 then f a b.toNat else Config.scalarShift op a b

/-- ADD (R57). -/
def execScAdd (k : Fin 10240) (cyc : Nat) (sd sa : Fin 16) (sb : SOperand) (s : State) :
    Host.Outcome State Fault Refusal := scalar2 (.scAdd k cyc sd sa sb) (fun a b => a + b) k cyc sd sa sb s

/-- SUB (R57). -/
def execScSub (k : Fin 10240) (cyc : Nat) (sd sa : Fin 16) (sb : SOperand) (s : State) :
    Host.Outcome State Fault Refusal := scalar2 (.scSub k cyc sd sa sb) (fun a b => a - b) k cyc sd sa sb s

/-- MUL (R57): the low 64 bits. -/
def execScMul (k : Fin 10240) (cyc : Nat) (sd sa : Fin 16) (sb : SOperand) (s : State) :
    Host.Outcome State Fault Refusal := scalar2 (.scMul k cyc sd sa sb) (fun a b => a * b) k cyc sd sa sb s

/-- SHL (R57). -/
def execScShl (k : Fin 10240) (cyc : Nat) (sd sa : Fin 16) (sb : SOperand) (s : State) :
    Host.Outcome State Fault Refusal := scalar2 (.scShl k cyc sd sa sb) (shiftBy 0 (fun a n => a <<< n)) k cyc sd sa sb s

/-- SHR (R57): logical. -/
def execScShr (k : Fin 10240) (cyc : Nat) (sd sa : Fin 16) (sb : SOperand) (s : State) :
    Host.Outcome State Fault Refusal := scalar2 (.scShr k cyc sd sa sb) (shiftBy 1 (fun a n => a >>> n)) k cyc sd sa sb s

/-- SAR (R57): arithmetic. -/
def execScSar (k : Fin 10240) (cyc : Nat) (sd sa : Fin 16) (sb : SOperand) (s : State) :
    Host.Outcome State Fault Refusal := scalar2 (.scSar k cyc sd sa sb) (shiftBy 2 (fun a n => a.sshiftRight n)) k cyc sd sa sb s

/-- AND (R57). -/
def execScAnd (k : Fin 10240) (cyc : Nat) (sd sa : Fin 16) (sb : SOperand) (s : State) :
    Host.Outcome State Fault Refusal := scalar2 (.scAnd k cyc sd sa sb) (fun a b => a &&& b) k cyc sd sa sb s

/-- OR (R57). -/
def execScOr (k : Fin 10240) (cyc : Nat) (sd sa : Fin 16) (sb : SOperand) (s : State) :
    Host.Outcome State Fault Refusal := scalar2 (.scOr k cyc sd sa sb) (fun a b => a ||| b) k cyc sd sa sb s

/-- XOR (R57). -/
def execScXor (k : Fin 10240) (cyc : Nat) (sd sa : Fin 16) (sb : SOperand) (s : State) :
    Host.Outcome State Fault Refusal := scalar2 (.scXor k cyc sd sa sb) (fun a b => a ^^^ b) k cyc sd sa sb s

/-- NOT (R57). -/
def execScNot (k : Fin 10240) (cyc : Nat) (sd sa : Fin 16) (s : State) : Host.Outcome State Fault Refusal :=
  coreStep (.scNot k cyc sd sa) k cyc (fun c => .ok (fly (cyc + 1) (.scal sd (~~~ c.sreg sa)) c) 0) s

/-- CEQ (R57): what a comparison gives for true and for false is free. -/
def execScCeq (k : Fin 10240) (cyc : Nat) (sd sa : Fin 16) (sb : SOperand) (s : State) :
    Host.Outcome State Fault Refusal := scalar2 (.scCeq k cyc sd sa sb) (fun a b => Config.compareResult (a == b)) k cyc sd sa sb s

/-- CLT (R57): signed. -/
def execScClt (k : Fin 10240) (cyc : Nat) (sd sa : Fin 16) (sb : SOperand) (s : State) :
    Host.Outcome State Fault Refusal := scalar2 (.scClt k cyc sd sa sb) (fun a b => Config.compareResult (a.slt b)) k cyc sd sa sb s

/-- CLTU (R57): unsigned. -/
def execScCltu (k : Fin 10240) (cyc : Nat) (sd sa : Fin 16) (sb : SOperand) (s : State) :
    Host.Outcome State Fault Refusal := scalar2 (.scCltu k cyc sd sa sb) (fun a b => Config.compareResult (a.ult b)) k cyc sd sa sb s

/-- MOVI (R57, R72): the immediate, two's complement. -/
def execScMovi (k : Fin 10240) (cyc : Nat) (sd : Fin 16) (imm : Word) (s : State) :
    Host.Outcome State Fault Refusal :=
  coreStep (.scMovi k cyc sd imm) k cyc (fun c => .ok (fly (cyc + 1) (.scal sd (imm.signExtend 64)) c) 0) s

/-- MOV (R57). -/
def execScMov (k : Fin 10240) (cyc : Nat) (sd sa : Fin 16) (s : State) : Host.Outcome State Fault Refusal :=
  coreStep (.scMov k cyc sd sa) k cyc (fun c => .ok (fly (cyc + 1) (.scal sd (c.sreg sa)) c) 0) s

/-- The frame cycles one iteration takes of the loop that a core's bundle at a frame cycle opens: its body runs from the next
bundle to bundle `last` (R72, R73). -/
def loopBody (s : State) (k cyc last : Nat) : Nat :=
  let xs := coreBundles s k
  match issueIndex xs cyc with
  | none => 0
  | some i => spanCycles xs xs.length (i + 1) (last + 1)

/-- LOOP (R31, R72, R73): a counted loop at a level, whose body begins at the next frame cycle and ends with bundle `last`. -/
def execLoop (k : Fin 10240) (cyc : Nat) (level : Fin 8) (trip last : Nat) (s : State) :
    Host.Outcome State Fault Refusal :=
  coreStep (.loop k cyc level trip last) k cyc
    (fun c => .ok { c with loops := mput c.loops level ⟨cyc + 1, trip, loopBody s k cyc last⟩ } 0) s

end Sys2Proof.Machine
end

