-- ==== Sys2Proof/Machine/CoreVector.lean ====
section
/-! DEFINITION. Vector FP32 and INT16 arithmetic, conversions, reductions and special functions (R41, R54 to R58). -/

namespace Sys2Proof.Machine

/-- An FP32 instruction of two operands, latency 4 (R54, R59). -/
def fp2 (i : Instr) (f : FVal → FVal → LaneRes Word) (k : Fin 10240) (cyc : Nat) (vd va vb : Fin 32) (m : Mask) (s : State) :
    Host.Outcome State Fault Refusal :=
  coreStep i k cyc (fun c => vecOut 32 4 cyc vd m (fpBin f (c.vreg va) (c.vreg vb)) c) s

/-- An INT16 instruction of two operands (R56, R59). -/
def int2 (i : Instr) (f : Int → Int → LaneRes Nat) (k : Fin 10240) (cyc : Nat) (vd va vb : Fin 32) (m : Mask) (s : State) :
    Host.Outcome State Fault Refusal :=
  coreStep i k cyc (fun c => vecOut 16 2 cyc vd m (i16Bin f (c.vreg va) (c.vreg vb)) c) s

/-- A special function of one operand, latency 14 (R58, R59), on the 32 lanes of a register. -/
def special1 (i : Instr) (f : FVal → LaneRes Word) (k : Fin 10240) (cyc : Nat) (vd va : Fin 32) (m : Mask) (s : State) :
    Host.Outcome State Fault Refusal :=
  coreStep i k cyc (fun c => vecOut 32 14 cyc vd m (fpUn f (c.vreg va)) c) s

/-- VADD (R54). -/
def execVadd (k : Fin 10240) (cyc : Nat) (vd va vb : Fin 32) (mask : Mask) (s : State) :
    Host.Outcome State Fault Refusal := fp2 (.vadd k cyc vd va vb mask) fpAdd k cyc vd va vb mask s

/-- VSUB (R54): a − b, as a plus b with its sign changed. -/
def execVsub (k : Fin 10240) (cyc : Nat) (vd va vb : Fin 32) (mask : Mask) (s : State) :
    Host.Outcome State Fault Refusal := fp2 (.vsub k cyc vd va vb mask) (fun x y => fpAdd x y.flip) k cyc vd va vb mask s

/-- VMUL (R54). -/
def execVmul (k : Fin 10240) (cyc : Nat) (vd va vb : Fin 32) (mask : Mask) (s : State) :
    Host.Outcome State Fault Refusal := fp2 (.vmul k cyc vd va vb mask) fpMul k cyc vd va vb mask s

/-- VFMA (R54): a × b + c with one rounding. -/
def execVfma (k : Fin 10240) (cyc : Nat) (vd va vb vc : Fin 32) (mask : Mask) (s : State) :
    Host.Outcome State Fault Refusal :=
  coreStep (.vfma k cyc vd va vb vc mask) k cyc (fun c => vecOut 32 4 cyc vd mask (fpTer fpFma (c.vreg va) (c.vreg vb) (c.vreg vc)) c) s

/-- VMAX (R54). -/
def execVmax (k : Fin 10240) (cyc : Nat) (vd va vb : Fin 32) (mask : Mask) (s : State) :
    Host.Outcome State Fault Refusal := fp2 (.vmax k cyc vd va vb mask) fpMax k cyc vd va vb mask s

/-- VMIN (R54). -/
def execVmin (k : Fin 10240) (cyc : Nat) (vd va vb : Fin 32) (mask : Mask) (s : State) :
    Host.Outcome State Fault Refusal := fp2 (.vmin k cyc vd va vb mask) fpMin k cyc vd va vb mask s

/-- VABS (R54). -/
def execVabs (k : Fin 10240) (cyc : Nat) (vd va : Fin 32) (mask : Mask) (s : State) :
    Host.Outcome State Fault Refusal :=
  coreStep (.vabs k cyc vd va mask) k cyc (fun c => vecOut 32 4 cyc vd mask (fpUn fpAbs (c.vreg va)) c) s

/-- The 32 source elements of VCVT as values. A K4 block lies in a register as 16 bytes of codes, then its scale byte
(log 24). -/
def cvtSource (src : Fmt) (t : KTable) (v : Vec) : List FVal :=
  match src with
  | .fp32 => fpLanes v
  | .bf16 => (lanes 16 32 v).map bf16Val
  | .e4m3 => (lanes 8 32 v).map e4m3Val
  | .e5m2 => (lanes 8 32 v).map e5m2Val
  | .int16 => (lanes 16 32 v).map (fun x => int16Val (BitVec.ofNat 16 x))
  | .k4 => (lanes 4 32 v).map (fun x => k4Val t ((lanes 8 17 v).getD 16 0) x)

/-- A value converted to FP32: an FP32 element, which is what every other conversion starts from (R41). -/
def viaFp32 (x : FVal) : FVal × BitVec 5 :=
  match x with
  | .fin n m e =>
    let r := fp32Round n m e
    (fp32Val r.bits, if r.tooBig then flOverflow else 0)
  | y => (y, 0)

/-- VCVT (R41 to R43, R50): 32 elements, latency 3, or 6 to K4. Bits of Vd the result does not fill keep their value. A
use of an invalid K4 block sets the K4 flag. -/
def execVcvt (k : Fin 10240) (cyc : Nat) (vd va : Fin 32) (src dst : Fmt) (nonsat : Bool) (kt : Fin 8) (s : State) :
    Host.Outcome State Fault Refusal :=
  coreStep (.vcvt k cyc vd va src dst nonsat kt) k cyc (fun c =>
    let t := c.table kt
    let xs := (cvtSource src t (c.vreg va)).map viaFp32
    let fl0 := xs.foldl (fun a x => a ||| x.2) (if src = .k4 ∧ (lanes 8 17 (c.vreg va)).getD 16 0 = 0xFF then flK4 else 0)
    match dst with
    | .k4 =>
      let b := toK4 t (xs.map (·.1))
      .ok (fly (cyc + 6) (.vec vd (ofLanes 8 (List.replicate 17 255))
        (BitVec.ofNat 1024 (packBits 4 b.codes + 2 ^ 128 * b.scale))) c) (fl0 ||| b.flags)
    | d =>
      let rs := xs.map (fun x => toFmt d nonsat x.1)
      .ok (fly (cyc + 3) (.vec vd (laneBits (fmtBits d) (List.replicate 32 true)) (ofLanes (fmtBits d) (rs.map (·.val)))) c)
        (rs.foldl (fun a r => a ||| r.flags) fl0)) s

/-- VADD.I16 (R56). -/
def execVaddI16 (k : Fin 10240) (cyc : Nat) (vd va vb : Fin 32) (mask : Mask) (s : State) :
    Host.Outcome State Fault Refusal := int2 (.vaddI16 k cyc vd va vb mask) (fun x y => sat16 (x + y)) k cyc vd va vb mask s

/-- VSUB.I16 (R56). -/
def execVsubI16 (k : Fin 10240) (cyc : Nat) (vd va vb : Fin 32) (mask : Mask) (s : State) :
    Host.Outcome State Fault Refusal := int2 (.vsubI16 k cyc vd va vb mask) (fun x y => sat16 (x - y)) k cyc vd va vb mask s

/-- VMUL.I16 (R56). -/
def execVmulI16 (k : Fin 10240) (cyc : Nat) (vd va vb : Fin 32) (mask : Mask) (s : State) :
    Host.Outcome State Fault Refusal := int2 (.vmulI16 k cyc vd va vb mask) (fun x y => sat16 (x * y)) k cyc vd va vb mask s

/-- VMULH.I16 (R56): the upper 16 bits of the exact product. -/
def execVmulhI16 (k : Fin 10240) (cyc : Nat) (vd va vb : Fin 32) (mask : Mask) (s : State) :
    Host.Outcome State Fault Refusal := int2 (.vmulhI16 k cyc vd va vb mask) (fun x y => wrap16 (x * y / 65536)) k cyc vd va vb mask s

/-- VMADD.I16 (R56): a × b + c exactly, saturated once; latency 3. -/
def execVmaddI16 (k : Fin 10240) (cyc : Nat) (vd va vb vc : Fin 32) (mask : Mask) (s : State) :
    Host.Outcome State Fault Refusal :=
  coreStep (.vmaddI16 k cyc vd va vb vc mask) k cyc (fun c => vecOut 16 3 cyc vd mask
    (((intLanes (c.vreg va)).zip ((intLanes (c.vreg vb)).zip (intLanes (c.vreg vc)))).map
      (fun p => sat16 (p.1 * p.2.1 + p.2.2))) c) s

/-- VSHL.I16 (R56): saturating. -/
def execVshlI16 (k : Fin 10240) (cyc : Nat) (vd va vb : Fin 32) (mask : Mask) (s : State) :
    Host.Outcome State Fault Refusal := int2 (.vshlI16 k cyc vd va vb mask) shl16 k cyc vd va vb mask s

/-- VSHR.I16 (R56): arithmetic. -/
def execVshrI16 (k : Fin 10240) (cyc : Nat) (vd va vb : Fin 32) (mask : Mask) (s : State) :
    Host.Outcome State Fault Refusal := int2 (.vshrI16 k cyc vd va vb mask) sar16 k cyc vd va vb mask s

/-- VADD.I16.W (R56): modulo 2^16. -/
def execVaddI16W (k : Fin 10240) (cyc : Nat) (vd va vb : Fin 32) (mask : Mask) (s : State) :
    Host.Outcome State Fault Refusal := int2 (.vaddI16W k cyc vd va vb mask) (fun x y => wrap16 (x + y)) k cyc vd va vb mask s

/-- VSUB.I16.W (R56): modulo 2^16. -/
def execVsubI16W (k : Fin 10240) (cyc : Nat) (vd va vb : Fin 32) (mask : Mask) (s : State) :
    Host.Outcome State Fault Refusal := int2 (.vsubI16W k cyc vd va vb mask) (fun x y => wrap16 (x - y)) k cyc vd va vb mask s

/-- VMUL.I16.W (R56): modulo 2^16. -/
def execVmulI16W (k : Fin 10240) (cyc : Nat) (vd va vb : Fin 32) (mask : Mask) (s : State) :
    Host.Outcome State Fault Refusal := int2 (.vmulI16W k cyc vd va vb mask) (fun x y => wrap16 (x * y)) k cyc vd va vb mask s

/-- One level of the pairwise tree (R55). -/
def pairLevel (f : FVal → FVal → LaneRes Word) : List (LaneRes Word) → List (LaneRes Word)
  | x :: y :: rest =>
    let r := f (fp32Val x.val) (fp32Val y.val)
    ⟨r.val, r.flags ||| x.flags ||| y.flags⟩ :: pairLevel f rest
  | xs => xs

/-- The pairwise tree over 32 lanes (R55). -/
def pairTree (f : FVal → FVal → LaneRes Word) (v : Vec) : LaneRes Word :=
  let l0 := (lanes 32 32 v).map (fun x => (⟨BitVec.ofNat 32 x, 0⟩ : LaneRes Word))
  ((pairLevel f (pairLevel f (pairLevel f (pairLevel f (pairLevel f l0))))).headD ⟨0, 0⟩)

/-- A reduction: into the low 32 bits of a scalar register, the rest zero (log 25), or one lane; latency 8. -/
def reduce (i : Instr) (f : FVal → FVal → LaneRes Word) (k : Fin 10240) (cyc : Nat) (rd : RedDest) (va : Fin 32) (s : State) :
    Host.Outcome State Fault Refusal :=
  coreStep i k cyc (fun c =>
    let r := pairTree f (c.vreg va)
    match rd with
    | .scalar d => .ok (fly (cyc + 8) (.scal d (BitVec.ofNat 64 r.val.toNat)) c) r.flags
    | .lane d n => .ok (fly (cyc + 8) (.vec d (BitVec.ofNat 1024 ((2 ^ 32 - 1) * 2 ^ (32 * n.val)))
        (BitVec.ofNat 1024 (r.val.toNat * 2 ^ (32 * n.val)))) c) r.flags) s

/-- VSUMR (R55). -/
def execVsumr (k : Fin 10240) (cyc : Nat) (rd : RedDest) (va : Fin 32) (s : State) :
    Host.Outcome State Fault Refusal := reduce (.vsumr k cyc rd va) fpAdd k cyc rd va s

/-- VMAXR (R55). -/
def execVmaxr (k : Fin 10240) (cyc : Nat) (rd : RedDest) (va : Fin 32) (s : State) :
    Host.Outcome State Fault Refusal := reduce (.vmaxr k cyc rd va) fpMax k cyc rd va s

/-- VEXP2 (R58). -/
def execVexp2 (k : Fin 10240) (cyc : Nat) (vd va : Fin 32) (mask : Mask) (s : State) :
    Host.Outcome State Fault Refusal := special1 (.vexp2 k cyc vd va mask) fpExp2 k cyc vd va mask s

/-- VEXP (R58). -/
def execVexp (k : Fin 10240) (cyc : Nat) (vd va : Fin 32) (mask : Mask) (s : State) :
    Host.Outcome State Fault Refusal := special1 (.vexp k cyc vd va mask) fpExp k cyc vd va mask s

/-- VEXPSUB (R58): e^(x − m), x − m formed exactly. -/
def execVexpsub (k : Fin 10240) (cyc : Nat) (vd va vm : Fin 32) (mask : Mask) (s : State) :
    Host.Outcome State Fault Refusal :=
  coreStep (.vexpsub k cyc vd va vm mask) k cyc (fun c => vecOut 32 14 cyc vd mask (fpBin fpExpSub (c.vreg va) (c.vreg vm)) c) s

/-- VRCP (R58). -/
def execVrcp (k : Fin 10240) (cyc : Nat) (vd va : Fin 32) (mask : Mask) (s : State) :
    Host.Outcome State Fault Refusal := special1 (.vrcp k cyc vd va mask) fpRcp k cyc vd va mask s

/-- VRSQRT (R58). -/
def execVrsqrt (k : Fin 10240) (cyc : Nat) (vd va : Fin 32) (mask : Mask) (s : State) :
    Host.Outcome State Fault Refusal := special1 (.vrsqrt k cyc vd va mask) fpRsqrt k cyc vd va mask s

/-- VSIGM (R58). -/
def execVsigm (k : Fin 10240) (cyc : Nat) (vd va : Fin 32) (mask : Mask) (s : State) :
    Host.Outcome State Fault Refusal := special1 (.vsigm k cyc vd va mask) fpSigm k cyc vd va mask s

/-- VSILU (R58). -/
def execVsilu (k : Fin 10240) (cyc : Nat) (vd va : Fin 32) (mask : Mask) (s : State) :
    Host.Outcome State Fault Refusal := special1 (.vsilu k cyc vd va mask) fpSilu k cyc vd va mask s

/-- VTANH (R58). -/
def execVtanh (k : Fin 10240) (cyc : Nat) (vd va : Fin 32) (mask : Mask) (s : State) :
    Host.Outcome State Fault Refusal := special1 (.vtanh k cyc vd va mask) fpTanh k cyc vd va mask s

/-- VERF (R58). -/
def execVerf (k : Fin 10240) (cyc : Nat) (vd va : Fin 32) (mask : Mask) (s : State) :
    Host.Outcome State Fault Refusal := special1 (.verf k cyc vd va mask) fpErf k cyc vd va mask s

end Sys2Proof.Machine
end

