-- ==== Sys2Proof/Machine/Gatehouse.lean ====
section
/-! DEFINITION. The gatehouse (R330, R405 to R425): bay power states, the hub's quiet, wakes, the effective envelope, temperatures,
slow pins, wake timers, notices and the management interface. -/

namespace Sys2Proof.Machine

/-! ### Bays and their ports (R408) -/

/-- Whether a logical bay has a quarter in a pavilion of a port. -/
def bayHas (s : State) (p b : Nat) : Bool := s.pavs.any (fun x => x.2.port = p && x.2.bays.contains b)

/-- Whether a logical bay has a quarter in some pavilion; one that has none is held in rest (R403). -/
def bayUsed (s : State) (b : Nat) : Bool := s.pavs.any (fun x => x.2.bays.contains b)

/-- A field of GH_CTRL with 0 acting as 1. -/
def ghCtrl (s : State) (p lo hi : Nat) : Nat := max 1 (bits (regGet s p 0x10008) lo hi)

/-- The larger value of a GH_CTRL field over the ports that have quarters in a bay (R408). -/
def bayCtrl (s : State) (b lo hi : Nat) : Nat :=
  max (if bayHas s 0 b then ghCtrl s 0 lo hi else 0) (if bayHas s 1 b then ghCtrl s 1 lo hi else 0)

/-- Whether a bay has work (R408): a frame, hub traffic queued, or a hatch command queued. -/
def bayBusy (s : State) (b : Nat) : Bool :=
  let x := bayAt s b
  (frameOf s b).isSome || x.transom ≠ [] || x.bond ≠ [] || x.hcQueue ≠ [] || x.hcRun.isSome

/-- Set a bay's power state; its idle time starts. -/
def setPower (b : Nat) (p : BayPower) (s : State) : State := onBay b (fun x => { x with power := p, idleSince := s.time }) s

/-- DOZE_ENTRY (R408): after DOZE_IDLE without work. -/
def execDozeEntry (bay : Fin 20) (s : State) : Host.Outcome State Fault Refusal :=
  let x := bayAt s bay
  if x.power ≠ .run || x.fenced || bayBusy s bay || decide (s.time < x.idleSince + 40 * bayCtrl s bay 0 7) then .next s
  else .next (setPower bay .doze s)

/-- A wake timer's CTRL and DEADLINE (R423). -/
def timerCtrl (s : State) (p n : Nat) : Nat := regGet s p (0x11008 + 16 * n)
def timerDeadline (s : State) (p n : Nat) : Nat := regGet s p (0x11000 + 16 * n)

/-- The bays an armed timer wakes ahead of its deadline, with the time it wakes them (R423): none unless its PAVILION is one of
the port. -/
def timerPrewake (s : State) (p n : Nat) : Option (Nat × List Nat) :=
  let c := timerCtrl s p n
  if ! bitOf c 31 || bits c 0 15 = 0 then none
  else
    match mget? s.pavs (bits c 16 22) with
    | none => none
    | some x => if x.port = p then some (timerDeadline s p n - 1000 * bits c 0 15, x.bays) else none

/-- Whether a pre-wake for a bay falls within the next 40 µs (R408). -/
def prewakeSoon (s : State) (b : Nat) : Bool :=
  ([0, 1] : List Nat).any (fun p => (List.range 256).any (fun n =>
    (timerPrewake s p n).any (fun x => decide (s.time ≤ x.1) && decide (x.1 ≤ s.time + 40000) && x.2.contains b)))

/-- REST_ENTRY (R408): after REST_IDLE in doze, unless a pre-wake is near. -/
def execRestEntry (bay : Fin 20) (s : State) : Host.Outcome State Fault Refusal :=
  let x := bayAt s bay
  if x.power ≠ .doze || x.wake.isSome || bayBusy s bay || prewakeSoon s bay
      || decide (s.time < x.idleSince + 1000 * bayCtrl s bay 20 31) then .next s
  else .next (setPower bay (.resting s.time) s)

/-! ### Wakes (R411, R412) -/

/-- A bay is to wake: to run, or to doze; a wake to run prevails. -/
def wakeBay (toRun : Bool) (b : Nat) (s : State) : State :=
  let x := bayAt s b
  let asleep := match x.power with
    | .doze => toRun
    | .rest => true
    | .resting _ => true
    | .waking _ _ toDoze => toDoze && toRun
    | _ => false
  if x.fenced || ! asleep || ! bayUsed s b then s
  else onBay b (fun x => { x with wake := some (toRun || x.wake = some true) }) s

/-- A dozing bay with a wake to run begins it (R407). -/
def wakeDoze (b : Nat) (s : State) : State :=
  let x := bayAt s b
  if x.power = .doze && x.wake = some true then onBay b (fun x => { x with power := .waking s.time false false, wake := none }) s else s

/-- Bays at rest that wait for a wake, in ascending physical order (R412). -/
def wakeWaiters (s : State) : List Nat :=
  (List.range 21).filterMap (fun pb => (List.range 20).find? (fun b =>
    physBay s b = pb && (bayAt s b).power = .rest && (bayAt s b).wake.isSome && ! (bayAt s b).fenced))

/-- Waiting bays begin to wake from rest, at most 10 in any 2 µs (R412). -/
def beginWakes (s : State) : State :=
  let recent := s.gate.wakes.filter (fun t => decide (s.time < t + 2000))
  let go := (wakeWaiters s).take (10 - recent.length)
  let s := { s with gate := { s.gate with wakes := recent ++ go.map (fun _ => s.time) } }
  go.foldl (fun s b => onBay b (fun x => { x with power := .waking s.time true (x.wake ≠ some true), wake := none }) s) s

/-- REST_ENTRY_DONE (R407, R408): 5 µs after entry began the cores' contents are lost, and a wake that waited begins. -/
def execRestEntryDone (bay : Fin 20) (s : State) : Host.Outcome State Fault Refusal :=
  match (bayAt s bay).power with
  | .resting t => if s.time < t + 5000 then .next s else .next (beginWakes (loseCores bay (setPower bay .rest s)))
  | _ => .next s

/-- The bays that a frame to start needs (R411): those of each frame group with a ready and gathered pavilion. -/
def frameBays (s : State) : List Nat :=
  (List.range 20).filter (fun b => bayUsed s b && (frameOf s b).isNone &&
    (groupPavs s (groupBays s b)).any (fun n => pavReady s n && pavGathered s n))

/-- Whether something wakes the hub (R411): a cell received in quiet, or WAKE_N; doorbells and timers have noted theirs. -/
def hubCalled (s : State) : Bool := s.hub.wake || pinActs s 3 || (s.hub.quiet && s.celay.any (fun c => c.2.rx ≠ []))

/-- WAKE_DECISION (R411): every cause present wakes the hub or its bays. -/
def execWakeDecision (s : State) : Host.Outcome State Fault Refusal :=
  let s := { s with hub := { s.hub with wake := s.hub.quiet && hubCalled s } }
  let bays := frameBays s ++ (List.range 20).filter (bayBusy s)
  let s := bays.foldl (fun s b => wakeBay true b s) s
  .next (beginWakes ((List.range 20).foldl (fun s b => wakeDoze b s) s))

/-- BAY_WAKE_START (R412): the next bays in order begin to wake from rest. -/
def execBayWakeStart (s : State) : Host.Outcome State Fault Refusal := .next (beginWakes s)

/-- BAY_RUN_READY (R407, R427): 0.5 µs from doze or 20 µs from rest after it began, a wake is complete; the return from rest
has run 16 recovery passes. -/
def execBayRunReady (bay : Fin 20) (passes : List LinePass) (s : State) : Host.Outcome State Fault Refusal :=
  match (bayAt s bay).power with
  | .waking t cold toDoze =>
    if s.time < t + (if cold then 20000 else 500) then .next s
    else
      let doze := toDoze && (bayAt s bay).wake ≠ some true
      let s := onBay bay (fun x => { x with wake := none }) (setPower bay (if doze then .doze else .run) s)
      .next (if cold then deskewPass bay 64 false passes (onBay bay (fun x => { x with refreshAt := 9 * s.time }) s) else s)
  | _ => .next s

/-! ### Off (R409) -/

/-- Whether a bay may be switched off for a port. -/
def offAllowed (s : State) (p b : Nat) : Bool :=
  let x := bayAt s b
  s.pavs.all (fun v => ! v.2.bays.contains b || (v.2.port = p && v.2.prog.isNone))
    && s.objects.all (fun o => o.2.tiles.all (fun t => ! (hasSlot o.2 t.2 && coreBay (addrCore t.2.upAddr) = b)))
    && ! x.hatch && ! hatchWanted s b && ! x.fenced

/-- A bay's near tier loses its contents, or is written with zeros (R407, R409). -/
def clearNear (b : Nat) (s : State) : State :=
  let lo := nearKey (512 * b) 0
  let s := { s with
    near := memClear s.near lo (512 * nearKey 1 0)
    slotDirty := s.slotDirty.filter (fun x => decide (slotKeyBay x.1 ≠ b))
    slotForm := s.slotForm.filter (fun x => decide (slotKeyBay x.1 ≠ b)) }
  onBay b (fun x => { x with damaged := [] }) s

/-- BAY_OFF_REQUEST (R409): a bit of GH_BAY_OFF is set; the bay goes off, or the bit returns to 0 with OFF_REFUSED. -/
def execBayOffRequest (port : Port) (bay : Fin 20) (s : State) : Host.Outcome State Fault Refusal :=
  let p := port.idx
  if ! responds s 0x10028 || bitOf (regGet s p 0x10028) bay then .next s
  else if ! offAllowed s p bay then .next (ghNotice p 32 s)
  else
    let s := regOr p 0x10028 (2 ^ bay.val) s
    let s := onBay bay (fun x => { x with power := .off, wake := none, transom := [], bond := [], offPort := p }) s
    .next (clearNear bay (loseCores bay s))

/-- Bays that wait to come back from off do, at most 4 at once, in ascending physical order (R412). -/
def beginReturns (s : State) : State :=
  let busy := ((List.range 20).filter (fun b => match (bayAt s b).power with | .returning _ => true | _ => false)).length
  let wait := (List.range 21).filterMap (fun pb => (List.range 20).find? (fun b =>
    physBay s b = pb && (bayAt s b).power = .off && (bayAt s b).wake.isSome))
  (wait.take (4 - busy)).foldl (fun s b => onBay b (fun x => { x with power := .returning s.time, wake := none }) s) s

/-- BAY_OFF_RELEASE (R409): the bit is cleared; once neither port asks for off, the bay comes back. -/
def execBayOffRelease (port : Port) (bay : Fin 20) (s : State) : Host.Outcome State Fault Refusal :=
  let p := port.idx
  if ! responds s 0x10028 || ! bitOf (regGet s p 0x10028) bay then .next s
  else
    let s := regClear p 0x10028 (2 ^ bay.val) s
    if bitOf (regGet s (1 - p) 0x10028) bay || (bayAt s bay).power ≠ .off then .next s
    else .next (beginReturns (onBay bay (fun x => { x with wake := some true, offPort := p }) s))

/-- BAY_OFF_DONE (R403, R407, R409): the near tier is written with zeros; the bay is back at run, or at rest when no pavilion
has a quarter in it, and OFF_DONE is raised. -/
def execBayOffDone (bay : Fin 20) (passes : List LinePass) (s : State) : Host.Outcome State Fault Refusal :=
  match (bayAt s bay).power with
  | .returning _ =>
    let s := clearNear bay (setPower bay (if bayUsed s bay then .run else .rest) s)
    let s := deskewPass bay 64 false passes (onBay bay (fun x => { x with refreshAt := 9 * s.time, owed := 0, wake := none }) s)
    .next (beginReturns (ghNotice (bayAt s bay).offPort 64 s))
  | _ => .next s

/-! ### Quiet (R410) -/

/-- Whether a request is in effect or waits anywhere in the hub (R410). -/
def hubBusy (s : State) : Bool :=
  s.rings.any (fun r => (r.2.enable && r.2.rqHead ≠ r.2.rqTail) || r.2.fetched ≠ [] || r.2.overflow ≠ [])
    || s.held ≠ [] || s.streams.any (fun y => ! (y.hand && y.aborted)) || s.snaps.any (fun x => x.2.run.isSome)

/-- The module's HUB_QUIET in ns: the larger of the ports' values. -/
def hubQuietNs (s : State) : Nat := 1000 * max (ghCtrl s 0 8 19) (ghCtrl s 1 8 19)

/-- HUB_QUIET_ENTRY (R410). -/
def execHubQuietEntry (s : State) : Host.Outcome State Fault Refusal :=
  let asleep := (List.range 20).all (fun b => (bayAt s b).power = .rest || (bayAt s b).power = .off)
  if s.hub.quiet || ! hubServes s || hubBusy s || ! asleep || decide (s.time < s.hub.idleSince + hubQuietNs s) then .next s
  else .next { s with hub := { s.hub with quiet := true, wake := false } }

/-- HUB_RETURN (R410, R411): a hub that something woke is on again. -/
def execHubReturn (s : State) : Host.Outcome State Fault Refusal :=
  if s.hub.quiet && hubCalled s then .next { s with hub := { s.hub with quiet := false, wake := false, idleSince := s.time } }
  else .next s

/-! ### The effective envelope (R416) -/

/-- A cap as it acts: none for 0, and at least 1,600 W. -/
def capActs (v : Nat) : List Nat := if v = 0 then [] else [max 1600 v]

/-- The caps from outside a port's own GH_CAP: the other port's, the management cap and the PWRCAP_N cap. -/
def capsElsewhere (s : State) (p : Nat) : List Nat :=
  capActs (bits (regGet s (1 - p) 0x1000C) 0 12) ++ capActs s.gate.mgmtCap ++ (if pinActs s 4 then capActs s.gate.pwrCap else [])

/-- A port's own cap. -/
def capOwn (s : State) (p : Nat) : List Nat := capActs (bits (regGet s p 0x1000C) 0 12)

/-- E (R416). -/
def effectiveCap (s : State) (t : Trellis) : Nat := (capOwn s 0 ++ capsElsewhere s 0).foldl min t.envelope

/-- EFFECTIVE_CAP_CHANGE (R416). -/
def execEffectiveCapChange (s : State) : Host.Outcome State Fault Refusal :=
  match s.trellis with
  | none => .next s
  | some t =>
    let e := effectiveCap s t
    if e = s.gate.effective then .next s
    else .next (ghNoticeBoth 8 { s with gate := { s.gate with effective := e } })

/-! ### Temperatures (R418, R419) -/

/-- The sensors (R425): the hub, each bay's logic, and each bay's hottest DRAM die. -/
def sensorIds : List Nat := 3 :: (List.range 20).map (10 + ·) ++ (List.range 20).map (40 + ·)

/-- A level of a sensor in °C: 0 and 1 refresh doubling, 2 WARN, 3 THROTTLE, 4 TRIP. -/
def levelAt (id : Nat) : Nat → Nat
  | 0 => 85
  | 1 => 95
  | 2 => 95
  | 3 => 100
  | _ => tripLevel id

/-- The levels a sensor has: refresh doubling is the DRAM sensors' alone. -/
def levelsOf (id : Nat) : List Nat := if 40 ≤ id then [0, 1, 2, 3, 4] else [2, 3, 4]

/-- A level after a reading: entered at the 4th in a row at or above it (2nd for TRIP), left at the 101st in a row at least 3 °C
below it. -/
def levelRead (at_ need v : Nat) (l : Level) : Level :=
  let high := if at_ ≤ v then min need (l.high + 1) else 0
  let low := if v + 3 ≤ at_ then min 101 (l.low + 1) else 0
  { on := if l.on then decide (low < 101) else decide (need ≤ high), high := high, low := low }

/-- A sensor after a reading. -/
def sensorRead (id v : Nat) (x : Sensor) : Sensor :=
  { reading := v
    levels := (levelsOf id).foldl (fun m n =>
      mput m n (levelRead (levelAt id n) (if n = 4 then 2 else 4) v (mgetD m n {}))) x.levels }

/-- Whether a sensor entered a level between two states of it. -/
def entered (a b : Sensor) (n : Nat) : Bool := ! (mgetD a.levels n {}).on && (mgetD b.levels n {}).on

/-- One sensor's reading: WARN and THROTTLE raise their notices. -/
def readSensor (id v : Nat) (s : State) : State :=
  let a := mgetD s.gate.sensors id {}
  let b := sensorRead id v a
  let s := { s with gate := { s.gate with sensors := mput s.gate.sensors id b } }
  ghNoticeBoth (2 * b2n (entered a b 2) + 4 * b2n (entered a b 3)) s

/-- The thermal trip (R419): THERMTRIP_N, power removed, GH_TRIP, and the module held in reset. -/
def tripModule (id v : Nat) (s : State) : State :=
  let s := moduleReset (s.hub.causes.filter (· ≠ .trip) ++ [.trip]) s
  regSet 0 0x10048 (2 ^ 31 + id * 256 + v % 256) { s with gate := { s.gate with thermtrip := true, tripOwed := true } }

/-- SENSOR_READING (R418, R419): at each multiple of 100 µs every sensor is read. A sensor that `readings` does not list reads
as before. -/
def execSensorReading (readings : List (Nat × Nat)) (s : State) : Host.Outcome State Fault Refusal :=
  if s.time % 100000 ≠ 0 || s.gate.readAt = some s.time then .next s
  else
    let val (id : Nat) : Nat :=
      match readings.find? (fun r => r.1 = id) with
      | some r => r.2
      | none => (mgetD s.gate.sensors id {}).reading
    let was (id : Nat) : Bool := sensorAt s id 4
    let t := sensorIds.foldl (fun t id => readSensor id (val id) t) { s with gate := { s.gate with readAt := some s.time } }
    match sensorIds.find? (fun id => ! was id && sensorAt t id 4) with
    | none => .next t
    | some id => .next (tripModule id (val id) t)

/-! ### Slow pins (R420 to R422) -/

/-- A pin's place in R420's table. -/
def pinIdx : PinId → Nat
  | .perstA => 0
  | .perstB => 1
  | .profileSel => 2
  | .wake => 3
  | .pwrcap => 4
  | .coolant => 5

/-- Whether a pin's changes are held for 1 ms (R421). -/
def pinHeld (n : Nat) : Bool := decide (2 ≤ n)

/-- Replace a pin. -/
def setPin (n : Nat) (x : Pin) (s : State) : State := { s with gate := { s.gate with pins := mput s.gate.pins n x } }

/-- A pin's accepted level becomes its acted level: PERST low resets its port, WAKE_N low wakes the hub. -/
def pinAct (n : Nat) (s : State) : State :=
  let x := pinAt s n
  let s := setPin n { x with acted := x.accepted, changedAt := some s.time } s
  if x.accepted ≠ 0 then s
  else if n = 0 then portReset 0 { s with hub := { s.hub with ableA := false } }
  else if n = 1 then portReset 1 { s with hub := { s.hub with ableB := false } }
  else if n = 3 then { s with hub := { s.hub with wake := s.hub.wake || s.hub.quiet } }
  else s

/-- Whether 1 ms has passed since a pin's last acted change. -/
def pinFree (s : State) (x : Pin) : Bool := match x.changedAt with | none => true | some t => decide (t + 1000000 ≤ s.time)

/-- PIN_LEVEL_ACCEPTED (R420 to R422): a level is accepted after 8 equal samples. -/
def execPinLevelAccepted (pin : PinId) (level : Fin 4) (s : State) : Host.Outcome State Fault Refusal :=
  let n := pinIdx pin
  let x := pinAt s n
  let v := if n = 2 then level.val else level.val % 2
  if v = x.accepted then .next s
  else
    let s := setPin n { x with accepted := v, stuck := x.stuck && v = 0 } s
    if v = x.acted then .next (regAdd 0 0x10044 1 s)
    else if pinFree s x then .next (pinAct n s)
    else if pinHeld n then .next s
    else .next (pinAct n (regAdd 0 0x10044 1 s))

/-- FAST_TOGGLE_HOLD_EXPIRY (R421): a level still accepted when the 1 ms ends is acted on. -/
def execFastToggleHoldExpiry (pin : PinId) (s : State) : Host.Outcome State Fault Refusal :=
  let n := pinIdx pin
  let x := pinAt s n
  if pinHeld n && x.accepted ≠ x.acted && pinFree s x then .next (pinAct n s) else .next s

/-- PIN_STUCK (R422): a pin active longer than its stuck limit is treated as inactive. -/
def execPinStuck (pin : PinId) (s : State) : Host.Outcome State Fault Refusal :=
  let n := pinIdx pin
  let x := pinAt s n
  let limit := mgetD s.gate.limits n 0
  if n = 2 || limit = 0 || x.acted ≠ 0 || x.stuck || decide (s.time ≤ x.changedAt.getD 0 + limit * 1000000000) then .next s
  else
    let s := ghNoticeBoth 16 (setPin n { x with stuck := true } s)
    .next (raiseErr { source := srcId 0xA 0, cls := 5, code := 0x30, unit := n } s)

/-! ### Wake timers (R423, R424) -/

/-- WAKE_TIMER_FIRE (R423). -/
def execWakeTimerFire (port : Port) (timer : Fin 256) (s : State) : Host.Outcome State Fault Refusal :=
  let p := port.idx
  let n := timer.val
  if ! bitOf (timerCtrl s p n) 31 || decide (s.time < timerDeadline s p n) then .next s
  else
    let s := regClear p (0x11008 + 16 * n) (2 ^ 31) s
    let s := regOr p (0x10100 + 4 * (n / 32)) (2 ^ (n % 32)) s
    .next (ghNotice p 1 { s with hub := { s.hub with wake := s.hub.wake || s.hub.quiet } })

/-- WAKE_TIMER_PREWAKE (R411, R423): PREWAKE_US before DEADLINE the pavilion's bays are woken to doze. -/
def execWakeTimerPrewake (port : Port) (timer : Fin 256) (s : State) : Host.Outcome State Fault Refusal :=
  match timerPrewake s port.idx timer with
  | none => .next s
  | some (t, bays) =>
    if s.time < t || timerDeadline s port.idx timer < s.time then .next s
    else .next (beginWakes (bays.foldl (fun s b => wakeBay false b s) s))

/-! ### Notices -/

/-- GH_NOTICE_CLEAR: a 1 clears the bit. -/
def execGhNoticeClear (port : Port) (v : Word) (s : State) : Host.Outcome State Fault Refusal :=
  .next (if responds s 0x10030 then regClear port.idx 0x10030 (v.toNat % 128) s else s)

/-- GH_NOTICE_EN_WRITE (R352): an enable bit that changes to 1 while its notice is set raises vector 1. -/
def execGhNoticeEnWrite (port : Port) (v : Word) (s : State) : Host.Outcome State Fault Refusal :=
  let p := port.idx
  let old := regGet s p 0x10034
  let new := v.toNat % 128
  if ! responds s 0x10034 then .next s
  else
    let t := regSet p 0x10034 new s
    .next (if (new - (new &&& old)) &&& regGet s p 0x10030 = 0 then t else noticeIrq p t)

/-- GH_FIRED_CLEAR: a 1 clears the bit of a timer that has fired. -/
def execGhFiredClear (port : Port) (word : Fin 8) (v : Word) (s : State) : Host.Outcome State Fault Refusal :=
  .next (if responds s 0x10100 then regClear port.idx (0x10100 + 4 * word) v.toNat s else s)

/-! ### Management (R425, R445, R459) -/

/-- PLDM_SENSOR_READ (R330, R425): `measured` is what the meter reads, for the 48 V sensor and for the power sensor under
MGMT_RAW. -/
def execPldmSensorRead (ident measured : Nat) (s : State) : Host.Outcome State Fault Refusal :=
  let word (v : Nat) : State := { s with reply := .word (BitVec.ofNat 32 v) }
  if ident = 1 then .next (word (if s.trellis.any (fun t => t.mgmtRaw) then measured else s.gate.coarse))
  else if ident = 2 then .next (word measured)
  else if sensorIds.contains ident then .next (word (mgetD s.gate.sensors ident {}).reading)
  else if ident = 60 then .next (word (regGet s 0 0x10048))
  else .next { s with reply := .unsupported }

/-- The pins of a row of R420's table. -/
def pinRow (n : Nat) : List Nat := if n = 0 then [0, 1] else [n + 1]

/-- PLDM_EFFECTER_SET (R416, R422, R425). -/
def execPldmEffecterSet (ident v : Nat) (s : State) : Host.Outcome State Fault Refusal :=
  if ident = 100 then .next { s with gate := { s.gate with mgmtCap := v } }
  else if ident = 101 then .next { s with gate := { s.gate with pwrCap := v } }
  else if 102 ≤ ident ∧ ident ≤ 106 then
    .next { s with gate := { s.gate with limits := (pinRow (ident - 102)).foldl (fun m n => mput m n v) s.gate.limits } }
  else .next { s with reply := .unsupported }

/-- PLDM_ERROR_LOG_READ (R445, R459): the module log, newest first, or the repair list. -/
def execPldmErrorLogRead (repairs : Bool) (s : State) : Host.Outcome State Fault Refusal :=
  .next { s with reply := .bytes (if repairs then (s.store.repairs.map (natLe 8)).flatten else (s.modLog.map ErrRec.bytes).flatten) }

/-! ### Power readings (R330) -/

/-- The hottest reading among the bays with a quarter of a port. -/
def hottest (s : State) (p base : Nat) : Nat :=
  ((List.range 20).filter (bayHas s p)).foldl (fun m b => max m (mgetD s.gate.sensors (base + b) {}).reading) 0

/-- GH_TEMP of a port. -/
def ghTemp (s : State) (p : Nat) : Nat :=
  (mgetD s.gate.sensors 3 {}).reading % 256 * 65536 + hottest s p 40 % 256 * 256 + hottest s p 10 % 256

/-- POWER_WINDOW_END (R330): the mean power over the window that ended, `watts`, is coarsened, and GH_TEMP is updated. Windows end
at multiples of POWER_WINDOW_MS, 100 ms with no profile in force, and the last end is kept. -/
def execPowerWindowEnd (watts : Nat) (s : State) : Host.Outcome State Fault Refusal :=
  let ns := (match s.trellis with | none => 100 | some t => max 1 t.windowMs) * 1000000
  let kp := match s.trellis with | none => 0 | some t => t.kp
  let now := s.time / ns
  if now * ns ≤ s.gate.window then .next s
  else
    let w := watts / 2 ^ kp * 2 ^ kp
    let v := (now - 1) % 65536 * 65536 + w % 8192
    let s := { s with gate := { s.gate with window := now * ns, coarse := w } }
    .next (([0, 1] : List Nat).foldl (fun s p => regSet p 0x10018 (ghTemp s p) (regSet p 0x10014 v s)) s)

end Sys2Proof.Machine
end

