-- ==== Sys2Proof/Machine/HatchOps.lean ====
section
/-! DEFINITION. Hatch commands (R358 to R364): the checks of R361, the INT16 operations of R360 over runs of sliver lines,
stored micro-programs, and the queue of a bay. A command's effect takes place when it starts, and it runs for the time of R360
(log 60). -/

namespace Sys2Proof.Machine

/-! ### The checks of R361 -/

/-- The quarters of a command as numbers 0 to 3. -/
def hcQuarters (q : BitVec 4) : List Nat := (List.range 4).filter (fun i => q.getLsbD i)

/-- Whether an enabled window of a port shows a quarter of a bay. -/
def hcShown (s : State) (p b : Nat) : Bool :=
  (List.range 8).any (fun n => bitOf (hatWindow s p n) 31 && bits (hatWindow s p n) 0 6 / 4 = b)

/-- Whether an OP is allocated (R360); a stored RUN is not allowed (R363). -/
def hcAllocated (op : Nat) (stored : Bool) : Bool :=
  (decide (1 ≤ op) && decide (op ≤ 8)) || op = 0x0B || op = 0x0C || op = 0x10 || (op = 0x20 && ! stored)

/-- Whether the fields of a command are allowed: reserved fields zero, and LINES, REPEAT and FIRST within R359's ranges
where the operation uses them. -/
def hcFields (op : Nat) (c : HcCmd) : Bool :=
  ! c.reserved && decide (c.flags.toNat < 8)
    && (! hcHasDest op || (decide (1 ≤ c.lines.toNat) && decide (c.lines.toNat ≤ sliverLines)))
    && (op ≠ 0x20 || (decide (1 ≤ c.repeats.toNat) && decide (c.repeats.toNat ≤ 65536) && decide (c.first.toNat < 64)))

/-- Whether a source run overlaps the destination without coinciding with it. -/
def hcCrosses (d n a : Nat) : Bool := a ≠ d && decide (a < d + n) && decide (d < a + n)

/-- The runs of a command: first lines. -/
def hcRuns (op : Nat) (c : HcCmd) : List Nat := (if hcHasDest op then [c.d.toNat] else []) ++ hcSources op c

/-- Whether any line run of the selected cores meets a tile or slot that satisfies a test. -/
def hcAny (b op : Nat) (c : HcCmd) (f : Nat → Nat → Nat → Bool) : Bool :=
  (hcCores b c.quarters).any (fun k => (hcRuns op c).any (fun l => f k l c.lines.toNat))

/-- Whether a session's park or migration is in progress: its job parks it, swaps it or moves it (R361). -/
def hcMoving (s : State) (key : Nat) : Bool :=
  match mget? s.jobs key with
  | some (.park ..) => true
  | some (.swap ..) => true
  | some (.migrate ..) => true
  | some (.handOver ..) => true
  | _ => false

/-- The first cause of R361 that refuses a command, 0 for none. -/
def hcCheck (s : State) (p b op : Nat) (stored : Bool) (c : HcCmd) : Nat :=
  if ! (bayAt s b).hatch then 1
  else if c.quarters = 0 || ! hcShown s p b || ! hcAllocated op stored || ! hcFields op c then 2
  else if (hcRuns op c).any (fun l => decide (sliverLines < l + c.lines.toNat))
      || (hcHasDest op && (hcSources op c).any (hcCrosses c.d.toNat c.lines.toNat)) then 3
  else if hcAny b op c (fun k l n => (slotsAt s k l n).any (fun x => formAt s k x ≠ 0)) then 4
  else if hcAny b op c (fun k l n => (lineTiles s k l n).any (fun t => kdSealed s (tileOf s t.1 t.2).kd)) then 5
  else if hcAny b op c (fun k l n => (lineTiles s k l n).any (fun t =>
      (tileOf s t.1 t.2).state = .arriving || hcMoving s t.1)) then 6
  else 0

/-! ### Operations (R360) -/

/-- One element of an operation: A, B, C, H[RX], H[RY]. -/
def hcElem (op : Nat) (wrap : Bool) (a b c x y : Int) : LaneRes Nat :=
  let nar := if wrap then wrap16 else sat16
  if op = 1 then nar (a + b)
  else if op = 2 then nar (a - b)
  else if op = 3 then nar (a * b)
  else if op = 4 then wrap16 (a * b / 65536)
  else if op = 5 then sat16 (a * b + c)
  else if op = 6 then sat16 (a * x + y)
  else if op = 7 then shl16 a x
  else if op = 8 then sar16 a x
  else if op = 0x0B then wrap16 x
  else wrap16 a

/-- The 32 INT16 elements of a line (R359). -/
def lineElems (bs : List Byte) : List Int :=
  (List.range 32).map (fun i => (BitVec.ofNat 16 (leField bs (2 * i) 2) : Half).toInt)

/-- The result of one line of an operation on a core, with the flags it sets. -/
def hcLine (s : State) (op : Nat) (c : HcCmd) (k i : Nat) : List Byte × BitVec 5 :=
  let src (l : Word) : List Int := lineElems (nearRead s k (l.toNat + i) 1)
  let core := coreAt s k
  let x := (core.hreg c.rx).toInt
  let y := (core.hreg c.ry).toInt
  let rs := (((src c.a).zip ((src c.b).zip (src c.c)))).map (fun t => hcElem op (c.flags.getLsbD 0) t.1 t.2.1 t.2.2 x y)
  ((rs.map (fun r => natLe 2 r.val)).flatten, rs.foldl (fun f r => f ||| r.flags) 0)

/-- The flags of a core's hatch arithmetic (R63, R360): in the core and in its port's copy of BAY_ARITH_FLAGS; FIRST takes the
first line that sets a flag and then the lowest core. -/
def hcFlag (p k : Nat) (fl : BitVec 5) (s : State) : State :=
  if fl = 0 then s
  else
    let s := setCore k { coreAt s k with flags := (coreAt s k).flags ||| fl } s
    let port := ((quarterPav s (coreQuarter k)).map (·.2.port)).getD p
    let step := ((quarterPav s (coreQuarter k)).map (·.2.step)).getD 0
    let base := 0x1000000 + physBay s (coreBay k) * 0x100000
    let first := regGet s port (base + 0x80004)
    let s := regOr port (base + 0x80000) fl.toNat s
    if bitOf first 31 then s else regSet port (base + 0x80004) (2 ^ 31 + step % 65536 * 512 + k % 512) s

/-- Line `i` of an operation on every selected core. -/
def hcStep (p op : Nat) (c : HcCmd) (cores : List Nat) (i : Nat) (s : State) : State :=
  cores.foldl (fun s k =>
    let r := hcLine s op c k i
    hcFlag p k r.2 (nearStore k (c.d.toNat + i) r.1 s)) s

/-- The number of a source line among a command's lines, when a core and line lie in a source run. -/
def hcIndex (op : Nat) (c : HcCmd) (cores : List Nat) (k line : Nat) : Option Nat :=
  if ! cores.contains k then none
  else ((hcSources op c).filterMap (fun l => if l ≤ line ∧ line < l + c.lines.toNat then some (line - l) else none)).min?

/-- The first source line a command cannot read (R362): one already in its bay's damaged-line list, or the one `bad` names. -/
def hcStop (s : State) (b op : Nat) (c : HcCmd) (cores : List Nat) (bad : Option HcBad) : Option (Nat × Nat × Nat) :=
  let known := (bayAt s b).damaged ++ (match bad with | none => [] | some x => [(x.core.val, x.line)])
  (known.filterMap (fun d => (hcIndex op c cores d.1 d.2).map (fun i => (i, d.1, d.2)))).foldl
    (fun m x => match m with | none => some x | some y => if x.1 < y.1 then some x else some y) none

/-- The effect of one operation on a bay, and its cause: 0, or 7 with the line in an error record. -/
def hcEffect (p b op : Nat) (c : HcCmd) (bad : Option HcBad) (s : State) : Nat × State :=
  let cores := hcCores b c.quarters
  if op = 0x10 then
    (0, cores.foldl (fun s k => setCore k { coreAt s k with h := mput (coreAt s k).h c.rx c.imm } s) s)
  else
    let stop := hcStop s b op c cores bad
    let n := match stop with | none => c.lines.toNat | some x => x.1
    let s := foldDirty [b] ((List.range n).foldl (fun s i => hcStep p op c cores i s) s)
    match stop with
    | none => (0, s)
    | some x => (7, raiseErr (hatchLost s p x.2.1 x.2.2) s)

/-- The core cycles of one command (R360): 96 and the longer of the lanes' and the bond interface's time. -/
def hcCycles (op : Nat) (c : HcCmd) : Nat :=
  let n := if hcHasDest op then c.lines.toNat else 0
  96 + max ((n * (if op = 5 ∨ op = 6 then 2 else 1) + 1) / 2) ((64 * n * ((hcSources op c).length + 1) + 199) / 200)

/-- The command that runs in a bay takes `n` core cycles more, each four ninths of a nanosecond. -/
def hcSpend (b n : Nat) (s : State) : State := onBay b (fun x => { x with hcEnd := x.hcEnd + 4 * n }) s

/-! ### Micro-programs (R363) -/

/-- A stored command from its 64 bytes (R359). -/
def hcOf (bs : List Byte) : Nat × HcCmd :=
  let w (o : Nat) : Word := BitVec.ofNat 32 (leField bs o 4)
  let clear (o n : Nat) : Bool := leField bs o n = 0
  (leField bs 0 1, {
    flags := BitVec.ofNat 8 (leField bs 1 1), quarters := BitVec.ofNat 4 (leField bs 2 1)
    d := w 8, a := w 12, b := w 16, c := w 20, lines := w 24
    rx := Fin.ofNat 16 (leField bs 28 1), ry := Fin.ofNat 16 (leField bs 29 1), rz := Fin.ofNat 16 (leField bs 30 1)
    imm := BitVec.ofNat 16 (leField bs 32 2), repeats := w 36, stride := w 40, first := BitVec.ofNat 8 (leField bs 44 1)
    reserved := ! (decide (leField bs 2 1 < 16) && clear 3 5 && decide (leField bs 28 1 < 16) && decide (leField bs 29 1 < 16)
      && decide (leField bs 30 1 < 16) && clear 31 1 && clear 34 2 && clear 45 19) })

/-- Store entry `i` of a bay. -/
def hcEntry (s : State) (b i : Nat) : Nat × HcCmd := hcOf (memRead (bayAt s b).hcStore (64 * i) 64)

/-- The entries a RUN executes: from FIRST to the first with LAST set, or to entry 63. -/
def hcSeq (s : State) (b : Nat) : Nat → Nat → List Nat
  | 0, _ => []
  | n + 1, i => if (hcEntry s b i).2.flags.getLsbD 2 then [i] else i :: hcSeq s b n (i + 1)

/-- A stored entry as RUN executes it in repetition `r`. -/
def hcShift (run : HcCmd) (r : Nat) (c : HcCmd) : HcCmd :=
  let o : Word := BitVec.ofNat 32 r * run.stride
  { c with quarters := run.quarters, d := c.d + run.d + o, a := c.a + run.a + o, b := c.b + run.b + o, c := c.c + run.c + o }

/-- Execute entries in order; the first refusal or error stops with its cause. -/
def hcExec (p b : Nat) (run : HcCmd) (bad : Option HcBad) : List (Nat × Nat) → State → Nat × State
  | [], s => (0, s)
  | (r, i) :: xs, s =>
    let e := hcEntry s b i
    let c := hcShift run r e.2
    let cause := hcCheck s p b e.1 true c
    if cause ≠ 0 then (cause, s)
    else
      let y := hcEffect p b e.1 c bad (hcSpend b (hcCycles e.1 c) s)
      if y.1 ≠ 0 then y else hcExec p b run bad xs y.2

/-- A command that passed its checks takes effect, from now on for its time (R360, R363). -/
def hcPerform (p b op : Nat) (c : HcCmd) (bad : Option HcBad) (s : State) : Nat × State :=
  let s := onBay b (fun x => { x with hcEnd := 9 * s.time }) s
  if op = 0x20 then
    let seq := hcSeq s b (64 - c.first.toNat) c.first.toNat
    hcExec p b c bad (((List.range c.repeats.toNat).map (fun r => seq.map (fun i => (r, i)))).flatten) s
  else hcEffect p b op c bad (hcSpend b (hcCycles op c) s)

/-! ### The queue of a bay (R358, R361) -/

/-- A command completes: HC_DONE, the cause of a failure, and the interrupt its IRQ flag asks for (R352, R361). -/
def hcFinish (b : Nat) (e : HcEntry) (cause : Nat) (s : State) : State :=
  let s := onBay b (fun x =>
    if cause = 0 then { x with hcDone := e.seq } else { x with hcDone := e.seq, hcErrSeq := e.seq, hcErrCause := cause }) s
  if e.cmd.flags.getLsbD 1 then sendIrq (e.port * 64) (2 + b) s else s

/-- Start the commands that wait: refused ones complete at once, and the first that is not runs. -/
def hcStart (b : Nat) (bad : Option HcBad) : Nat → State → State
  | 0, s => s
  | n + 1, s =>
    match (bayAt s b).hcQueue with
    | [] => s
    | e :: q =>
      let s := onBay b (fun x => { x with hcQueue := q }) s
      let cause := hcCheck s e.port b e.op false e.cmd
      if cause ≠ 0 then hcStart b bad n (hcFinish b e cause s)
      else
        let y := hcPerform e.port b e.op e.cmd bad s
        onBay b (fun x => { x with hcRun := some (e, y.1) }) y.2

/-- Submit a command to a bay (R358): taken with the next SEQ, or discarded and counted when 64 are queued or running. -/
def submitHc (op : Nat) (port : Port) (b : Nat) (c : HcCmd) (bad : Option HcBad) (s : State) : State :=
  let x := bayAt s b
  if 64 ≤ x.hcQueue.length + b2n x.hcRun.isSome then onBay b (fun x => { x with hcFull := (x.hcFull + 1) % 2 ^ 32, hcHeld := [] }) s
  else
    let seq := (x.hcSubmitted + 1) % 2 ^ 32
    let e : HcEntry := ⟨seq, port.idx, op, c⟩
    let s := onBay b (fun x => { x with hcSubmitted := seq, hcQueue := x.hcQueue ++ [e], hcHeld := [] }) s
    if x.hcRun.isSome then s else hcStart b bad (x.hcQueue.length + 1) s

/-- HATCH_ADD (R360). -/
def execHatchAdd (port : Port) (bay : Fin 20) (c : HcCmd) (bad : Option HcBad) (s : State) : Host.Outcome State Fault Refusal :=
  .next (submitHc 0x01 port bay c bad s)

/-- HATCH_SUB (R360). -/
def execHatchSub (port : Port) (bay : Fin 20) (c : HcCmd) (bad : Option HcBad) (s : State) : Host.Outcome State Fault Refusal :=
  .next (submitHc 0x02 port bay c bad s)

/-- HATCH_MUL (R360). -/
def execHatchMul (port : Port) (bay : Fin 20) (c : HcCmd) (bad : Option HcBad) (s : State) : Host.Outcome State Fault Refusal :=
  .next (submitHc 0x03 port bay c bad s)

/-- HATCH_MULH (R360). -/
def execHatchMulh (port : Port) (bay : Fin 20) (c : HcCmd) (bad : Option HcBad) (s : State) : Host.Outcome State Fault Refusal :=
  .next (submitHc 0x04 port bay c bad s)

/-- HATCH_MADD (R360). -/
def execHatchMadd (port : Port) (bay : Fin 20) (c : HcCmd) (bad : Option HcBad) (s : State) : Host.Outcome State Fault Refusal :=
  .next (submitHc 0x05 port bay c bad s)

/-- HATCH_SCALE (R360). -/
def execHatchScale (port : Port) (bay : Fin 20) (c : HcCmd) (bad : Option HcBad) (s : State) : Host.Outcome State Fault Refusal :=
  .next (submitHc 0x06 port bay c bad s)

/-- HATCH_SHL (R360). -/
def execHatchShl (port : Port) (bay : Fin 20) (c : HcCmd) (bad : Option HcBad) (s : State) : Host.Outcome State Fault Refusal :=
  .next (submitHc 0x07 port bay c bad s)

/-- HATCH_SAR (R360). -/
def execHatchSar (port : Port) (bay : Fin 20) (c : HcCmd) (bad : Option HcBad) (s : State) : Host.Outcome State Fault Refusal :=
  .next (submitHc 0x08 port bay c bad s)

/-- HATCH_FILL (R360). -/
def execHatchFill (port : Port) (bay : Fin 20) (c : HcCmd) (bad : Option HcBad) (s : State) : Host.Outcome State Fault Refusal :=
  .next (submitHc 0x0B port bay c bad s)

/-- HATCH_COPY (R360). -/
def execHatchCopy (port : Port) (bay : Fin 20) (c : HcCmd) (bad : Option HcBad) (s : State) : Host.Outcome State Fault Refusal :=
  .next (submitHc 0x0C port bay c bad s)

/-- HATCH_SETH (R360). -/
def execHatchSeth (port : Port) (bay : Fin 20) (c : HcCmd) (bad : Option HcBad) (s : State) : Host.Outcome State Fault Refusal :=
  .next (submitHc 0x10 port bay c bad s)

/-- HATCH_RUN (R363). -/
def execHatchRun (port : Port) (bay : Fin 20) (c : HcCmd) (bad : Option HcBad) (s : State) : Host.Outcome State Fault Refusal :=
  .next (submitHc 0x20 port bay c bad s)

/-- HATCH_UNALLOCATED_OP (R358, R361): it takes its SEQ and is refused with cause 2, or cause 1 outside hatch mode. An `op`
that is allocated is no such command. -/
def execHatchUnallocatedOp (port : Port) (bay : Fin 20) (op : Byte) (c : HcCmd) (s : State) :
    Host.Outcome State Fault Refusal :=
  .next (if hcAllocated op.toNat false then s else submitHc op.toNat port bay c none s)

/-- HATCH_COMMAND_DONE (R360 to R364): once its time has passed the running command completes; writes to HC_STORE that a RUN deferred and held hatch
writes follow, and the next command of the queue starts. -/
def execHatchCommandDone (bay : Fin 20) (bad : Option HcBad) (s : State) : Host.Outcome State Fault Refusal :=
  match (bayAt s bay).hcRun with
  | none => .next s
  | some (e, cause) =>
    if 9 * s.time < (bayAt s bay).hcEnd then .next s
    else
      let s := hcFinish bay e cause s
      let s := onBay bay (fun x => { x with
        hcRun := none, storeHeld := [], hcStore := x.storeHeld.foldl (fun m w => memWrite m w.1 w.2) x.hcStore }) s
      let s := releaseHatch 1 (releaseHatch 0 s)
      .next (hcStart bay bad (bayAt s bay).hcQueue.length s)

end Sys2Proof.Machine
end

