-- ==== Sys2Proof/Machine/Models.lean ====
section
/-! DEFINITION. Model images and their loading (R154, R155, R315). -/

namespace Sys2Proof.Machine

/-- Fields of a model image's header (R155). -/
def mdFlag (h : List Byte) (i : Nat) : Bool := bitOf (leField h 7 1) i
def mdRanges (h : List Byte) : Nat := leField h 0xC 2
def mdRopeTable (h : List Byte) : Nat := leField h 0xE 1
def mdOutRows (h : List Byte) : Nat := leField h 0x10 4
def mdProgTile (h : List Byte) : Nat := leField h 0x14 4
def mdProgTiles (h : List Byte) : Nat := leField h 0x18 4
def mdRopeTile (h : List Byte) : Nat := leField h 0x1C 4

/-- A range record (R155). -/
structure ModelRange where
  first : Nat
  count : Nat
  target : Nat
  zero : Nat
  cores : Nat
  base : Nat
  deriving DecidableEq, Repr

/-- The range records of a model image's tile 0. -/
def modelRanges (h : List Byte) : List ModelRange :=
  (List.range (mdRanges h)).map (fun i =>
    let o := 256 + 16 * i
    ⟨leField h o 4, leField h (o + 4) 4, leField h (o + 8) 1, leField h (o + 9) 1, leField h (o + 10) 2, leField h (o + 12) 4⟩)

/-- Whether a range holds a tile. -/
def ModelRange.holds (r : ModelRange) (i : Nat) : Bool := decide (r.first ≤ i) && decide (i < r.first + r.count)

/-- Whether bytes `o` to `o + n − 1` of a list are zero. -/
def zeroBytes (b : List Byte) (o n : Nat) : Bool := leField b o n = 0

/-- Whether a header is well formed for an object of `ntiles` tiles (R155). -/
def modelHeaderOk (h : List Byte) (ntiles : Nat) : Bool :=
  leField h 0 4 = 0x444D5853 && leField h 4 2 = 1 && leField h 6 1 = 0xB0 && decide (leField h 7 1 < 32)
    && leField h 8 4 = ntiles && decide (1 ≤ mdRanges h) && decide (mdRanges h ≤ 1008) && decide (mdRopeTable h ≤ 15)
    && zeroBytes h 0xF 1 && decide (1 ≤ mdOutRows h) && decide (mdOutRows h ≤ 1048576)
    && decide (1 ≤ mdProgTiles h) && decide (mdProgTile h + mdProgTiles h ≤ ntiles)
    && (! mdFlag h 4 || decide (mdRopeTile h + 12 ≤ ntiles)) && zeroBytes h 0x20 32 && zeroBytes h 0xB0 80

/-- Whether a range is well formed, and a near one inside its pavilion's cores and slivers. -/
def rangeOk (p : Pav) (r : ModelRange) (ntiles : Nat) : Bool :=
  decide (1 ≤ r.count) && decide (r.first + r.count ≤ ntiles) && r.zero = 0
    && (if r.target = 1 then
          p.quarters.contains (r.base % 2 ^ 14 / 128) && decide (r.cores ≤ 10240) && dealFits p r.base r.cores r.count
        else r.target = 2 && r.cores = 0 && r.base = 0)

/-- Whether MODEL_LOAD accepts a model image for a pavilion (R155, R323): `h` is its tile 0. -/
def modelOk (s : State) (o : Obj) (p : Pav) (h : List Byte) : Bool :=
  let rs := modelRanges h
  modelHeaderOk h o.ntiles && rs.all (fun r => rangeOk p r o.ntiles)
    && (List.range o.ntiles).all (fun i => i = 0 || (rs.filter (fun r => r.holds i)).length = 1)
    && (List.range (mdProgTiles h)).all (fun j => rs.any (fun r => r.target = 1 && r.holds (mdProgTile h + j)))
    && (! mdFlag h 0 || kdSealed s o.kd)

/-- Give a tile of a model image its near address (R154, R155): one that lies in another near slot is copied from there. -/
def loadUpper (key addr i : Nat) (s : State) : State :=
  let t := tileOf s key i
  if t.upTier = 1 && decide (t.upAddr ≠ addr) && (t.state = .clean || t.state = .dirty) then copyUpper key 1 addr true i s
  else placeUpper key 1 addr true i s

/-- Place the tiles of the ranges (R155): near ones dealt over their cores, far ones in slots of the pool. -/
def placeRanges (key : Nat) (p : Pav) : List ModelRange → State → Option State
  | [], s => some s
  | r :: rs, s =>
    let is := (List.range r.count).map (fun i => r.first + i)
    if r.target = 1 then
      placeRanges key p rs (is.foldl (fun s i => loadUpper key (dealAddr p r.base r.cores (i - r.first)) i s) s)
    else
      match placeFar key true (is.filter (fun i => needsFar (tileOf s key i))) s with
      | none => none
      | some t => placeRanges key p rs t

/-- The model slot and the model that a pavilion's program names. -/
def runningModel (s : State) (n : Nat) : Option (Nat × ModelUse) :=
  (pavAt s n).prog.bind (fun g => (mget? (pavAt s n).models g.modelSlot).map (fun m => (g.modelSlot, m)))

/-- Whether a tile lies in a slot of a pavilion's cores. -/
def inPav (s : State) (n : Nat) (t : Tile) : Bool :=
  t.upTier = 1 && (pavAt s n).quarters.contains (coreQuarter (addrCore t.upAddr))

/-- The DIRTY tiles of a pavilion's current model that have a lower copy to be written back to (R154). -/
def unloadOwed (s : State) (n : Nat) : List Nat :=
  match runningModel s n with
  | none => []
  | some (_, m) => tilesWhere s m.object (fun t => t.state = .dirty && t.loTier ≠ 0 && inPav s n t)

/-- Order the write-backs that the unloading of a model needs; none when one has no room. -/
def orderUnload (n : Nat) (s : State) : Option (Nat × State) :=
  match runningModel s n with
  | none => none
  | some (_, m) =>
    let t := noteEpoch m.object s
    ((unloadOwed s n).foldl (fun (a : Option State) i => a.bind (fun s =>
      orderWrite m.object (relTier (tileOf s m.object i).loTier) (tileOf s m.object i).loRegion
        (tileOf s m.object i).codec i s)) (some t)).map (fun s => (m.object, { s with jobs := mput s.jobs m.object .unload }))

/-- REPLACE (R154): the pavilion's current model is unloaded, and its program with it, which releases its slots. A tile without
another copy keeps its slot. -/
def unloadModel (n : Nat) (s : State) : State :=
  match runningModel s n with
  | none => s
  | some (slot, m) =>
    let s := (tilesWhere s m.object (fun t => t.state = .clean && inPav s n t)).foldl (fun s i => releaseUpper m.object i s) s
    flushQueue n (onPav n (fun p => { p with models := mdel p.models slot, prog := none, readyAt := none }) s)

/-- A load with REPLACE whose old model owes write-backs: it waits until they are over, and while another request is in
effect for that model. -/
def awaitUnload (id : ReqId) (cmd : Instr) (n : Nat) (s : State) : State :=
  match runningModel s n with
  | none => s
  | some (_, m) =>
    if objBusy s m.object then holdReq id (.object m.object) cmd s
    else
      match orderUnload n s with
      | none => complete id 0x20 (some 7) 0 s
      | some (key, t) => holdReq id (.object key) cmd t

/-- MODEL_LOAD (R144, R145, R154, R155). -/
def execModelLoad (r : Req) (slot pavilion : Nat) (object : DWord) (replace : Bool) (s : State) :
    Host.Outcome State Fault Refusal :=
  let new := fresh s
  .next (onReq r 0x51 (if 255 < slot then some 32 else if 79 < pavilion then some 33 else none) (fun id s =>
    let key := objKey id.ident object.toNat
    let cmd := Instr.modelLoad r slot pavilion object replace
    objectGate new cmd key (fun id s =>
      match objOf s key with
      | none => fail id 0x26 s
      | some o =>
        let p := pavAt s pavilion
        let h := tileNow s key 0
        if ! assigned s pavilion id.ident then fail id 0x61 s
        else if ! modelOk s o p h then fail id 0x28 s
        else if pavFenced s p then complete id 0xB0 (some 8) 0 s
        else if replace ∧ p.slots ≠ [] then complete id 0x21 (some 7) 0 s
        else if replace ∧ groupBusy s pavilion then holdReq id (.group pavilion) cmd s
        else if replace ∧ unloadOwed s pavilion ≠ [] then awaitUnload id cmd pavilion s
        else
          match placeRanges key p (modelRanges h) (if replace then unloadModel pavilion s else s) with
          | none => complete id 0x21 (some 7) 0 s
          | some t => { t with jobs := mput t.jobs key (.modelLoad id pavilion slot) }) id s) s)

/-- The load entry that a model image makes (R154, R259). -/
def modelItem (s : State) (key n slot : Nat) : LoadItem :=
  let h := tileNow s key 0
  let part (bit off len : Nat) : List Byte := if mdFlag h bit then byteSlice h off len else []
  { pav := n, modelSlot := slot, object := key
    image := if cleanNear s key (mdProgTile h) (mdProgTiles h) (pavAt s n)
      then objRead s key (mdProgTile h) 0 (16384 * mdProgTiles h) else []
    decode := part 1 0x40 64, sample := part 2 0x80 16, recallDesc := part 3 0x90 32
    rope := if mdFlag h 4 then some (mdRopeTable h, objRead s key (mdRopeTile h) 0 196608) else none }

/-- Whether every placed tile of a model image is CLEAN. -/
def modelClean (s : State) (key : Nat) : Bool :=
  (modelRanges (tileNow s key 0)).all (fun r => (List.range r.count).all (fun i => (tileOf s key (r.first + i)).state = .clean))

/-- MODEL_LOAD_APPLY (R154): once every tile is CLEAN the program loads as PAV_LOAD would load it; a load that is refused
releases every tile placed. -/
def execModelLoadApply (pav : Fin 80) (s : State) : Host.Outcome State Fault Refusal :=
  match s.jobs.find? (fun j => match j.2 with | .modelLoad _ n _ => n = pav.val | _ => false) with
  | some (key, .modelLoad id n slot) =>
    if moving s key then .next s
    else if hasFailed s key then .next (complete id 0x24 (some 8) 0 (releaseAll key (endJob key s)))
    else if ! modelClean s key then .next s
    else
      let old := (pavAt s n).models
      let h := tileNow s key 0
      let use : ModelUse := { object := key, outRows := mdOutRows h, digest := shake256 ((objPlain s key).getD []) 32 }
      let x := modelItem s key n slot
      let t := onPav n (fun p => { p with models := mput p.models slot use }) (endJob key s)
      match loadRefused t (fnPort id.fn) [x] with
      | some _ => .next (releaseAll key (loadAll id [x] (onPav n (fun p => { p with models := old }) t)))
      | none => .next (loadAll id [x] t)
  | _ => .next s

end Sys2Proof.Machine
end

