-- ==== Sys2Proof/Machine/Trellis.lean ====
section
/-! DEFINITION. Trellis images (R392 to R397, R403, R414, R477, R478, R495): reading one, checking it, and applying it. An image
is its bytes. -/

namespace Sys2Proof.Machine

/-! ### Layout (R392, R393) -/

/-- Fields of the header (R392). -/
def trlBytes (b : List Byte) : Nat := leField b 8 4
def trlCount (b : List Byte) : Nat := leField b 0xC 2
def trlTable (b : List Byte) : Nat := leField b 0x10 4
def trlSerial (b : List Byte) : Nat := leField b 0x14 4
def trlOwner (b : List Byte) : List Byte := byteSlice b 0x30 32

/-- Where FSIG begins; CSIG ends the image. -/
def trlSigs (b : List Byte) : Nat := trlBytes b - 2 * 9893

/-- A section table entry (R393). -/
structure TrlSection where
  kind : Nat
  zero : Nat
  off : Nat
  len : Nat
  deriving DecidableEq, Repr

/-- The section table. -/
def trlSections (b : List Byte) : List TrlSection :=
  (List.range (trlCount b)).map (fun i =>
    let o := trlTable b + 12 * i
    ⟨leField b o 2, leField b (o + 2) 2, leField b (o + 4) 4, leField b (o + 8) 4⟩)

/-- The content of the section of a type; empty when there is none. -/
def trlSection (b : List Byte) (kind : Nat) : List Byte :=
  match (trlSections b).find? (fun x => x.kind = kind) with
  | none => []
  | some x => byteSlice b x.off x.len

/-- The records of a section that begins with their count. -/
def trlRecords (size : Nat) (x : List Byte) : List (List Byte) :=
  (List.range (leField x 0 4)).map (fun i => byteSlice x (4 + size * i) size)

/-- Types of the foundation, and of the composition with DEFAULTS (R393). -/
def foundationKinds : List Nat := [1, 2, 3, 4, 5, 6]
def compositionKinds : List Nat := [0x10, 0x11, 0x12, 0x13, 0x14, 0x15, 0x16]

/-- The length a section must have (R396). -/
def sectionLen (kind : Nat) (x : List Byte) : Nat :=
  let n := leField x 0 4
  if kind = 1 then 21 else if kind = 2 then 672 else if kind = 3 ∨ kind = 6 then 4 + 8 * n else if kind = 4 then 40
  else if kind = 5 then 27 else if kind = 0x10 then 4 + 16 * n else if kind = 0x11 ∨ kind = 0x12 then 16
  else if kind = 0x13 then 24 else if kind = 0x14 ∨ kind = 0x15 then 8 else 4 + 12 * n

/-- Whether bytes are all zero. -/
def allZero (x : List Byte) : Bool := x.all (fun b => b = 0)

/-! ### Checks in the order of R397 -/

/-- BAD_HEADER. -/
def trlHeaderOk (b : List Byte) : Bool :=
  leField b 0 4 = 0x52545853 && leField b 4 2 = 1 && leField b 6 1 = 0xB0 && allZero (byteSlice b 7 1)
    && trlBytes b = b.length && decide (256 + 2 * 9893 ≤ b.length) && decide (b.length ≤ 66060288)
    && decide (12 ≤ trlCount b) && decide (trlCount b ≤ 13) && allZero (byteSlice b 0xE 2) && allZero (byteSlice b 0x18 8)
    && decide (1 ≤ trlSerial b) && decide (trlSerial b ≤ 1023) && allZero (byteSlice b 0xD4 44)

/-- BAD_SECTION. -/
def trlSectionsOk (b : List Byte) : Bool :=
  let xs := trlSections b
  let spans := (trlTable b, 12 * trlCount b) :: xs.map (fun x => (x.off, x.len))
  let inside (x : Nat × Nat) : Bool := decide (256 ≤ x.1) && decide (x.1 + x.2 ≤ trlSigs b)
  let apart (x y : (Nat × Nat) × Nat) : Bool :=
    x.2 = y.2 || decide (x.1.1 + x.1.2 ≤ y.1.1) || decide (y.1.1 + y.1.2 ≤ x.1.1)
  let kinds := xs.map (fun x => x.kind)
  spans.all inside && spans.zipIdx.all (fun x => spans.zipIdx.all (apart x)) && xs.all (fun x => x.zero = 0)
    && kinds.all (fun k => (foundationKinds ++ compositionKinds).contains k) && (dedupNat kinds).length = kinds.length
    && (foundationKinds ++ compositionKinds.take 6).all (fun k => kinds.contains k)
    && xs.all (fun x => sectionLen x.kind (byteSlice b x.off x.len) = x.len)

/-- A run of sections as digests take them: type, length, content. -/
def sectionRun (b : List Byte) (kinds : List Nat) : List Byte :=
  (kinds.map (fun k => natLe 2 k ++ natLe 4 (trlSection b k).length ++ trlSection b k)).flatten

/-- FSIG_FAIL (R394). -/
def trlFsigOk (b : List Byte) : Bool :=
  let d := shake256 (deviceId ++ natLe 4 (trlSerial b) ++ trlOwner b ++ sectionRun b foundationKinds) 32
  d = byteSlice b 0x50 32 && Config.trellisSigned Config.trellisKey d (byteSlice b (trlSigs b) 9893)

/-- The trellis image digest (R395). -/
def trlDigest (b : List Byte) : List Byte := byteSlice b 0x70 32

/-- CSIG_FAIL (R395). -/
def trlCsigOk (b : List Byte) : Bool :=
  let d := shake256 (splice (b.take (trlBytes b - 9893)) 0x70 (List.replicate 32 0)) 32
  let key := byteSlice b 0x90 68
  let owned := ! allZero (trlOwner b)
  d = trlDigest b && (! owned || shake256 key 32 = trlOwner b)
    && Config.trellisSigned (if owned then key else Config.trellisKey) d (byteSlice b (trlBytes b - 9893) 9893)

/-- Whether a REPAIR record is in range (R396, R458). -/
def repairOk (x : List Byte) : Bool :=
  let kind := leField x 1 1
  let core := leField x 2 2
  let elem := leField x 4 2
  let spare := leField x 6 2
  let lim : Nat × Nat × Nat := if kind = 1 then (544, 1600, 48) else if kind = 2 then (544, 24576, 256)
    else if kind = 3 then (544, 256, 8) else if kind = 4 then (544, 16, 32) else if kind = 5 then (976, 256, 8)
    else if kind = 6 then (4, 512, 16) else (0, 0, 0)
  decide (leField x 0 1 ≤ 20) && decide (core < lim.1) && decide (elem < lim.2.1) && decide (spare < lim.2.2)

/-- The number of a bay of BAY_MAP. -/
def mapBay (b : List Byte) (i : Nat) : Nat := leField (trlSection b 1) i 1

/-- BAD_MAP. -/
def trlMapOk (b : List Byte) : Bool :=
  let bays := (List.range 21).map (mapBay b)
  let ring := trlSection b 4
  let hop (i : Nat) : Bool :=
    let n := leField ring (2 * i) 1
    (n = 1 || n = 2) && (mapBay b i + n) % 21 = mapBay b ((i + 1) % 20) && leField ring (2 * i + 1) 1 = 4 - 2 * n
  let eng := trlSection b 5
  bays.all (fun x => decide (x ≤ 20)) && (dedupNat bays).length = 21 && (List.range 20).all hop
    && (trlSection b 2).all (fun x => decide (x.toNat ≤ 16) || x = 0xFF)
    && decide (leField (trlSection b 3) 0 4 ≤ 65536) && (trlRecords 8 (trlSection b 3)).all repairOk
    && (([(0, 16), (1, 8), (2, 8), (3, 32), (4, 64), (5, 1)] : List (Nat × Nat)).all (fun x => decide (leField eng x.1 1 ≤ x.2)))
    && (List.range 21).all (fun i => decide (leField eng (6 + i) 1 ≤ 1))
    && (trlRecords 8 (trlSection b 6)).all (fun x => decide (leField x 0 1 ≤ 63) && leField x 1 1 = 0
      && decide (leField x 4 2 ≤ 1023) && leField x 6 2 = 0)

/-- Fields of a PAVILIONS record. -/
def pavRecQuarters (x : List Byte) : List Nat := (List.range 80).filter (fun q => bitOf (leField x 2 10) q)

/-- GiB of a site by its DENSITY code (R477). -/
def densityGib (code : Nat) : Nat := ([16, 24, 32, 48, 64] : List Nat).getD code 0

/-- Whether the PAVILIONS and PORTS sections hold together. -/
def trlPavsOk (b : List Byte) : Bool :=
  let recs := trlRecords 16 (trlSection b 0x10)
  let ports := trlSection b 0x15
  let on (p : Nat) : Bool := decide (p ≤ 1) && bitOf (leField ports 0 1) p
  let nums := recs.map (fun x => leField x 0 1)
  let qs := (recs.map pavRecQuarters).flatten
  decide (1 ≤ recs.length) && decide (recs.length ≤ 80) && (dedupNat nums).length = nums.length && (dedupNat qs).length = qs.length
    && recs.all (fun x => decide (leField x 0 1 < 80) && on (leField x 1 1) && pavRecQuarters x ≠ [] && leField x 12 4 = 0)
    && decide (leField ports 0 1 ≤ 3) && decide (leField ports 1 1 ≤ 15) && (List.range 4).all (fun i => on (leField ports (2 + i) 1))
    && leField ports 6 2 = 0

/-- Whether TIER_MAP and DIRECTORY are in range (R396, R477, R478); `rows` are the directory's rows in service. -/
def trlTierOk (rows : Nat) (b : List Byte) : Bool :=
  let t := trlSection b 0x11
  let d := trlSection b 0x12
  let sites := leField t 0 1
  let cow := leField t 8 4
  let slots := leField t 12 1
  (sites = 8 || sites = 16) && decide (leField t 1 1 ≤ 4) && decide (leField t 2 1 ≤ 3) && leField t 3 1 = 0
    && cow % 256 = 0 && decide (slots ≤ 64) && decide (cow + 256 * slots ≤ sliverLines) && leField t 13 3 = 0
    && decide (leField t 4 4 + 32768 ≤ sites * densityGib (leField t 1 1) * 65536)
    && decide (leField d 4 4 + leField d 8 4 ≤ rows) && decide (900 ≤ leField d 12 2) && decide (leField d 14 1 ≤ 1)
    && leField d 15 1 = 0

/-- Whether POWER and DISCLOSURE are in range (R396, R414). -/
def trlPowerOk (b : List Byte) : Bool :=
  let x := trlSection b 0x13
  let d := trlSection b 0x14
  let w := leField x 4 4
  decide (1600 ≤ leField x 0 2) && decide (leField x 0 2 ≤ 4000) && decide (leField x 2 1 ≤ 3) && leField x 3 1 = 0
    && leField x 12 4 = w && decide (1024 ≤ w) && decide (w ≤ 65536) && decide (leField x 8 4 ≤ 50 * w)
    && decide (leField x 16 4 ≤ w) && decide (1024 ≤ leField x 20 2) && decide (leField x 20 2 ≤ 4096) && leField x 22 2 = 0
    && decide (leField d 0 1 ≤ 31) && decide (leField d 1 1 ≤ 31) && decide (leField d 2 1 ≤ 8) && decide (leField d 3 1 ≤ 1)
    && decide (100 ≤ leField d 4 2) && decide (leField d 4 2 ≤ 1000) && leField d 6 2 = 0

/-- The RW bits of the 32-bit register or half at an offset. -/
def rwBits (off : Nat) : Nat :=
  match regRow off with
  | none => 0
  | some r => if isHigh off then r.rw / 2 ^ 32 else r.rw % 2 ^ 32

/-- Whether a DEFAULTS record is allowed (R396). -/
def defaultOk (x : List Byte) : Bool :=
  let off := leField x 0 4
  decide (0x50000 ≤ off) && decide (off ≤ 0xDFFFF) && off % 4 = 0 && rwBits off ≠ 0 && decide (leField x 8 1 ≤ 3) && leField x 9 3 = 0

/-- The directory's rows in service (R178, R203). -/
def dirRowsIn (s : State) : Nat := 65536 * (64 - s.dir.outBlocks.length)

/-- BAD_COMPOSITION. -/
def trlCompositionOk (rows : Nat) (b : List Byte) : Bool :=
  trlPavsOk b && trlTierOk rows b && trlPowerOk b && (trlRecords 12 (trlSection b 0x16)).all defaultOk

/-- The code of the first check an image fails up to 0x0A, 0 when it passes (R397). -/
def trlCheck (s : State) (b : List Byte) : Nat :=
  if ! trlHeaderOk b then 3
  else if ! trlSectionsOk b then 4
  else if byteSlice b 0x20 16 ≠ deviceId then 5
  else if ! trlFsigOk b then 6
  else if ! trlCsigOk b then 7
  else if trlSerial b < s.store.floor then 8
  else if ! trlMapOk b then 9
  else if ! trlCompositionOk (dirRowsIn s) b then 0xA else 0

/-- The code of the first check an image fails when it is applied: FAR_MISMATCH comes last (R397). -/
def applyCheck (s : State) (b : List Byte) : Nat :=
  let t := trlSection b 0x11
  let c := trlCheck s b
  if c ≠ 0 then c else if s.farCal.found ≠ (leField t 0 1, leField t 1 1, leField t 2 1) then 0xB else 0

/-! ### An image in force (R396, R403, R495) -/

/-- What an image says. -/
def trlParse (slot : Nat) (b : List Byte) : Trellis :=
  let t := trlSection b 0x11
  let d := trlSection b 0x12
  let w := trlSection b 0x13
  let c := trlSection b 0x14
  let p := trlSection b 0x15
  { slot := slot, serial := trlSerial b, cDigest := trlDigest b, foundation := sectionRun b foundationKinds, tierRaw := t, dirRaw := d
    bayMap := (List.range 20).map (mapBay b), spareBay := mapBay b 20, coreMap := (trlSection b 2).map (fun x => x.toNat)
    repairs := (trlRecords 8 (trlSection b 3)).map leNat, dirRows := (trlRecords 8 (trlSection b 6)).map leNat
    sites := leField t 0 1, density := densityGib (leField t 1 1), rate := leField t 2 1, mapSlots := leField t 4 4
    cowBase := leField t 8 4, cowPerCore := leField t 12 1, cascade := leField d 0 4, shareA := leField d 4 4
    shareB := leField d 8 4, scrubMs := leField d 12 2, scrubEnable := leField d 14 1 = 1, envelope := leField w 0 2
    thermal := leField w 2 1, actWindow := leField w 4 4, actLimit := leField w 8 4, macWindow := leField w 12 4
    macLimit := leField w 16 4, transomMin := leField w 20 2, kc := leField c 0 1, kt := leField c 1 1, kp := leField c 2 1
    mgmtRaw := leField c 3 1 = 1, windowMs := leField c 4 2, hostEnable := leField p 0 1, auth := leField p 1 1
    celayCtl := (List.range 4).map (fun i => leField p (2 + i) 1) }

/-- The spare assignment an image's ENGINES section fixes (R495). -/
def trlSpares (b : List Byte) : Spares :=
  let e := trlSection b 5
  { intake := leField e 0 1, louver := leField e 1 1, crypto := leField e 2 1, shutter := leField e 3 1, dirBlock := leField e 4 1
    gate := leField e 5 1, clocks := sumNat ((List.range 21).map (fun i => leField e (6 + i) 1 * 2 ^ i)) }

/-- Whether a repair list entry is carried by a foundation (R459): by a REPAIR record, and a core or bay by the maps. -/
def repairCarried (t : Trellis) (e : Nat) : Bool :=
  let pbay := bits e 0 7
  let kind := bits e 8 15
  let core := bits e 16 31
  if kind = 7 then t.coreMap.getD (32 * pbay + core % 32) 0xFF = core / 32
  else if kind = 8 then t.spareBay = pbay
  else t.repairs.any (fun r => r % 2 ^ 48 = e % 2 ^ 48)

/-- Every RW register of the PAV_ to CLY_ regions takes its reset value, accounting counters reset, HAT_ windows and mode requests
clear, and the count of retired rows starts again (R403). -/
def clearRegs (s : State) : State :=
  let gone (off : Nat) : Bool := match regRow off with
    | none => false
    | some r => (decide (0x50000 ≤ r.start) && decide (r.start < 0xE0000) && r.rw ≠ 0)
      || (decide (0x60000 ≤ r.start) && decide (r.start < 0x70000)) || r.start = 0x100000 || r.start = 0x100010 || off = 0x8002C
  { s with regs := s.regs.filter (fun r => ! gone (r.1 % 2 ^ 32)) }

/-- Write a DEFAULTS value to a register's RW bits of a port's copy (R396, R403); a Celay port's takes effect through its
controller's bit only. -/
def defaultWrite (off v p : Nat) (s : State) : State :=
  let lo := if isHigh off then off - 4 else off
  let sh := if isHigh off then 32 else 0
  let m := rwBits off
  let old := regGet s p lo
  let part := bits old sh (sh + 31)
  let x := (part - (part &&& m)) ||| (v &&& m)
  let other := match celayBlock off with | none => false | some c => decide (celayCtl s c ≠ p)
  if other then s
  else
    let s := regSet p lo (setBits old sh (sh + 31) (if off = 0xB0000 ∧ bits x 12 31 = 0 then setBits x 12 31 1 else x)) s
    if off = 0x70000 then
      let s := if bits x 4 6 = 2 then (takeManifests p 2 0 s).getD s else s
      if bitOf x 0 then onSnap p (fun y => { y with timerFrom := s.time, frames := 0 }) s else s
    else
      match celayBlock off with
      | some c => if off % 0x1000 = 0 && bitOf x 0 then onCly c (fun y => { y with state := 1 }) s else s
      | none => s

/-- Write the DEFAULTS records in order. -/
def defaultsFrom (b : List Byte) (s : State) : State :=
  (trlRecords 12 (trlSection b 0x16)).foldl (fun s x =>
    let ports := ([0, 1] : List Nat).filter (fun p => bitOf (leField x 8 1) p)
    ports.foldl (fun s p => defaultWrite (leField x 0 4) (leField x 4 4) p s) s) s

/-- The pavilions of an image; one that keeps its port and quarters keeps its model slots. -/
def trlPavs (s : State) (b : List Byte) : NMap Pav :=
  (trlRecords 16 (trlSection b 0x10)).foldl (fun m x =>
    let n := leField x 0 1
    let p : Pav := { port := leField x 1 1, quarters := pavRecQuarters x }
    let old := pavAt s n
    mput m n (if old.port = p.port ∧ old.quarters = p.quarters then { p with models := old.models } else p)) []

/-- A bay all of whose quarters are in no pavilion is held in rest (R403). -/
def restIdle (s : State) : State :=
  (List.range 20).foldl (fun s b =>
    let x := bayAt s b
    if s.pavs.any (fun p => p.2.bays.contains b) || x.power = .off || x.power = .rest then s
    else loseCores b (onBay b (fun x => { x with power := .rest, wake := none }) s)) s

/-- Every bay of the map is brought into rest (R403). -/
def restAll (s : State) : State := (List.range 20).foldl (fun s b => onBay b (fun x => { x with power := .rest }) s) s

/-- The interfaces whose locked configuration an image changed move to ERROR (R329): their PAV_ASSIGN bits or their tenant. The
codes of R402 hold no refusal for it (DEDUCED, log 104). -/
def lockLost (old s : State) : State :=
  let assigns (s : State) (f : Nat) : List Bool :=
    (List.range 80).map (fun n => bitOf (regGet s (fnPort f) (0x51010 + 0x20 * n)) (f % 64))
  tdiError ((s.sec.tdi.filter (fun x => (x.2 = .locked || x.2 = .run)
    && (assigns old x.1 ≠ assigns s x.1 || fnTenant old x.1 ≠ fnTenant s x.1))).map (·.1)) s

/-- Apply an image (R397, R403, R459, R495): `source` is what TRL_ACTIVE names, `cold` that no image was in force. -/
def applyImage (slot : Nat) (b : List Byte) (source : Nat) (cold : Bool) (s : State) : State :=
  let old := s
  let t := trlParse slot b
  let s := ([0, 1, 2, 3] : List Nat).foldl (fun s c => clyDisable c s) s
  let pavs := trlPavs s b
  let s := { s with trellis := some t, pavs := pavs, tenants := [], fnTenant := [], frames := []
                    store := { s.store with floor := max s.store.floor t.serial, repairs := s.store.repairs.filter (! repairCarried t ·) }
                    gate := { s.gate with effective := t.envelope } }
  let used : NMap Nat := t.dirRows.foldl (fun m r => malter m (r % 256) 0 (· + 1)) []
  let s := if cold then restAll { s with spares := trlSpares b, near := [], dir := { s.dir with sparesUsed := used } } else s
  let s := restIdle (defaultsFrom b (clearRegs s))
  let s := pavs.foldl (fun s p => applyMode p.1 s) s
  let active := 2 ^ 31 + source * 2 ^ 20 + slot * 2 ^ 16 + (regGet s 0 0x30018 + 1) % 65536
  lockLost old (regSet 0 0x30018 active s)

end Sys2Proof.Machine
end

