-- ==== Sys2Proof/Machine/Profiles.lean ====
section
/-! DEFINITION. Profile slots and their commands, selection at module reset and by command (R398 to R402). -/

namespace Sys2Proof.Machine

/-! ### Results and authority (R398, R399) -/

/-- A source as the store numbers it: a port's physical function, or 2 for the management interface. -/
def profSrc (x : ProfileSource) : Nat :=
  match x with
  | .port p => p.idx
  | .mgmt => 2

/-- A command of a source ends with a result: in its port's TRL_STATUS, or in the answer over PLDM. -/
def trlDone (src code : Nat) (s : State) : State :=
  if src = 2 then { s with reply := .word (BitVec.ofNat 32 code) }
  else regSet src 0x30014 (code % 256) s

/-- A command of a source ends at once while another command of the source may still run: BUSY and PENDING stay. -/
def trlRefuse (src code : Nat) (s : State) : State :=
  if src = 2 then { s with reply := .word (BitVec.ofNat 32 code) }
  else regField src 0x30014 0 7 code s

/-- A command of a source runs. -/
def trlBusy (src : Nat) (s : State) : State := if src = 2 then s else regSet src 0x30014 (2 ^ 31) s

/-- Whether a source may issue profile commands (R399). -/
def trlAllowed (s : State) (src : Nat) : Bool := match s.trellis with | none => true | some t => bitOf t.auth src

/-- Whether a slot is the slot in force (R398). -/
def slotInForce (s : State) (slot : Nat) : Bool := s.trellis.any (fun t => t.slot = slot)

/-- What a profile command meets first: the TRL_ region must respond (R401), the source be authorised, and no command run. -/
def trlCommand (x : ProfileSource) (body : Nat → State → State) (s : State) : State :=
  if ! responds s 0x30000 then s
  else if ! trlAllowed s (profSrc x) then trlRefuse (profSrc x) 2 s
  else if s.store.running.isSome then trlRefuse (profSrc x) 1 s
  else body (profSrc x) s

/-- Change the profile store. -/
def onStore (f : Store → Store) (s : State) : State := { s with store := f s.store }

/-! ### WRITE, ERASE, SET_NEXT, CLEAR_NEXT (R398, R400) -/

/-- WRITE (R397, R398): the image is read and checked, and its writing begins, which empties the slot. -/
def execProfileWrite (src : ProfileSource) (slot : Fin 4) (mem : Dma) (s : State) : Host.Outcome State Fault Refusal :=
  .next (trlCommand src (fun p s =>
    if slotInForce s slot then trlDone p 0x0F s
    else
      match mem with
      | .fault => trlDone p 0x13 s
      | .data bs =>
        let b := if p = 2 then bs else bs.take (regGet s 0 0x30010)
        let c := trlCheck s b
        if c ≠ 0 then trlDone p c s
        else trlBusy p (onStore (fun x => { x with
          slots := mdel x.slots slot, running := some { source := p, op := 1, slot := slot, image := b, since := s.time } }) s)) s)

/-- PROFILE_WRITE_COMMIT (R398): the commit record is written last and the slot becomes valid; `fault` says that the store
failed. -/
def execProfileWriteCommit (fault : Bool) (s : State) : Host.Outcome State Fault Refusal :=
  match s.store.running with
  | some c =>
    if c.op ≠ 1 then .next s
    else
      let s := onStore (fun x => { x with running := none }) s
      .next (trlDone c.source (if fault then 0x11 else 0)
        (if fault then s else onStore (fun x => { x with slots := mput x.slots c.slot ⟨c.image, true⟩ }) s))
  | none => .next s

/-- ERASE (R398). -/
def execProfileErase (src : ProfileSource) (slot : Fin 4) (fault : Bool) (s : State) : Host.Outcome State Fault Refusal :=
  .next (trlCommand src (fun p s =>
    if slotInForce s slot then trlDone p 0x0F s
    else if fault then trlDone p 0x11 s
    else trlDone p 0 (onStore (fun x => { x with slots := mdel x.slots slot }) s)) s)

/-- SET_NEXT (R400). -/
def execSetNext (src : ProfileSource) (slot : Fin 4) (s : State) : Host.Outcome State Fault Refusal :=
  .next (trlCommand src (fun p s => trlDone p 0 (onStore (fun x => { x with nextSet := true, nextSlot := slot }) s)) s)

/-- CLEAR_NEXT (R400). -/
def execClearNext (src : ProfileSource) (s : State) : Host.Outcome State Fault Refusal :=
  .next (trlCommand src (fun p s => trlDone p 0 (onStore (fun x => { x with nextSet := false }) s)) s)

/-- TRL_CMD_BAD_OP (R398): an OP other than 1 to 5. -/
def execTrlCmdBadOp (port : Port) (op : Nat) (s : State) : Host.Outcome State Fault Refusal :=
  if (1 ≤ op ∧ op ≤ 5) ∨ responds s 0x30000 = false then .next s else .next (trlRefuse port.idx 0x12 s)

/-! ### SELECT_WARM (R402) -/

/-- The host ports that must join a select: those whose AUTH bit is set, under CONSENT_ALL. -/
def consentPorts (s : State) : List Nat :=
  match s.trellis with
  | none => []
  | some t => if bitOf t.auth 3 then ([0, 1] : List Nat).filter (fun p => bitOf t.auth p) else []

/-- The sources of a pending select end with CONSENT_LOST. -/
def dropWaiting (s : State) : State :=
  match s.store.waiting with
  | none => s
  | some c => c.joined.foldl (fun s p => trlDone p 0x10 s) (onStore (fun x => { x with waiting := none }) s)

/-- SELECT_WARM (R402 steps 1 and 2): a source joins or starts a select; once consent is complete neither port fetches. -/
def execSelectWarm (src : ProfileSource) (slot : Fin 4) (s : State) : Host.Outcome State Fault Refusal :=
  .next (trlCommand src (fun p s =>
    let old := s.store.waiting.filter (fun c => c.slot = slot.val)
    let s := if old.isNone then dropWaiting s else s
    let c : ProfileCmd := match old with
      | some c => { c with joined := c.joined.filter (· ≠ p) ++ [p] }
      | none => { source := p, op := 3, slot := slot, since := s.time, joined := [p] }
    if (consentPorts s).all (fun q => c.joined.contains q) then
      let s := onStore (fun x => { x with waiting := none, running := some { c with since := s.time, quiescing := true } }) s
      c.joined.foldl (fun s p => trlBusy p s) { s with hub := { s.hub with quiesce := true } }
    else
      let s := onStore (fun x => { x with waiting := some c }) s
      if p = 2 then s else regSet p 0x30014 (2 ^ 30) s) s)

/-- CONSENT_TIMEOUT (R402): a pending select not joined within 1 s. -/
def execConsentTimeout (s : State) : Host.Outcome State Fault Refusal :=
  match s.store.waiting with
  | none => .next s
  | some c => .next (if c.since + 1000000000 ≤ s.time then dropWaiting s else s)

/-- Whether the part is quiesced (R402, code 0x0C). -/
def quiesced (s : State) : Bool :=
  s.sessions.all (fun x => match x.2.place with | .parked _ _ => true | _ => false)
    && s.bays.all (fun b => ! b.2.hatch) && regGet s 0 0x100000 = 0 && regGet s 1 0x100000 = 0
    && s.snaps.all (fun x => x.2.run.isNone) && s.streams.all (fun y => y.hand && y.aborted)
    && s.rings.all (fun r => r.2.fetched.all (fun id => ! ([1, 5, 6, 8] : List Nat).contains (id.opcode / 16)))

/-- Whether every session's home stays with its owner's port (R402, code 0x0E). -/
def homesKept (s : State) (b : List Byte) : Bool :=
  let pavs := trlPavs s b
  s.sessions.all (fun x => (mget? pavs x.2.home).any (fun p => p.port = sessPort x.1))

/-- The first condition of a warm select that does not hold (R397, R402); with no image in force the quiesce conditions hold and
nothing is compared. -/
def warmCheck (s : State) (b : List Byte) : Nat :=
  let c := applyCheck s b
  if c ≠ 0 then c
  else
    match s.trellis with
    | none => 0
    | some t =>
      if ! quiesced s then 0xC
      else if sectionRun b foundationKinds ≠ t.foundation ∨ trlSection b 0x11 ≠ t.tierRaw ∨ trlSection b 0x12 ≠ t.dirRaw then 0xD
      else if ! homesKept s b then 0xE else 0

/-- A warm select is over: fetching resumes. -/
def warmEnd (c : ProfileCmd) (code : Nat) (s : State) : State :=
  let s := onStore (fun x => { x with running := none }) { s with hub := { s.hub with quiesce := false } }
  c.joined.foldl (fun s p => trlDone p code s) s

/-- SELECT_WARM_APPLY (R402 steps 3 and 4): the conditions hold within 100 ms and the image is applied, or the command fails. -/
def execSelectWarmApply (s : State) : Host.Outcome State Fault Refusal :=
  match s.store.running with
  | none => .next s
  | some c =>
    if ! c.quiescing then .next s
    else
      let image := ((mget? s.store.slots c.slot).filter (fun x => x.valid)).map (fun x => x.image)
      match image with
      | none => .next (warmEnd c 3 s)
      | some b =>
        let code := warmCheck s b
        if code = 0xC && decide (s.time < c.since + 100000000) then .next s
        else if code ≠ 0 then .next (warmEnd c code s)
        else .next (warmEnd c 0 (applyImage c.slot b 3 s.trellis.isNone s))

/-! ### Selection at module reset (R400, R401, R430) -/

/-- Try slots in order (R400): the first that passes, with the slots that failed. -/
def trySlots (s : State) : List Nat → List (Nat × Nat) → List (Nat × Nat) × Option (Nat × List Byte)
  | [], failed => (failed, none)
  | n :: ns, failed =>
    match (mget? s.store.slots n).filter (fun x => x.valid) with
    | none => trySlots s ns failed
    | some x =>
      let c := applyCheck s x.image
      if c = 0 then (failed, some (n, x.image)) else trySlots s ns (failed ++ [(n, c)])

/-- FAR_TRAINING_DONE (R309 step 5, R400, R401, R403, R430): training found a population; the firmware chooses a slot and applies
it. -/
def execFarTrainingDone (sites density rate : Nat) (s : State) : Host.Outcome State Fault Refusal :=
  if ! s.hub.firmware || s.hub.inReset || s.farCal.start.isSome then .next s
  else
    let s := { s with farCal := { s.farCal with start := some s.time, found := (sites, density, rate) } }
    let first := if s.store.nextSet then s.store.nextSlot else s.hub.pinsTaken
    let source := b2n s.store.nextSet
    let s := onStore (fun x => { x with nextSet := false }) s
    let pick := trySlots s (first :: ([0, 1, 2, 3] : List Nat).filter (· ≠ first)) []
    let s := pick.1.foldl (fun s f => raiseErr { source := srcId 0xB 0, cls := 3, code := 0x33, detail := f.1 + 256 * f.2 } s) s
    match pick.2 with
    | none => .next s
    | some (n, b) => .next (applyImage n b (if n = first then source else 2) true s)

end Sys2Proof.Machine
end

