-- ==== Sys2Proof/Machine/Restore.lean ====
section
/-! DEFINITION. SNP_RESTORE (R302 to R307): choosing an epoch, restoring a port, restoring one session, and the report. -/

namespace Sys2Proof.Machine

/-- An entry of a restore's report (R306): epoch, shard, reason, session identifier. -/
structure ReportEntry where
  epoch : Nat
  shard : Nat := 0
  reason : Nat
  sess : Nat := 0
  deriving DecidableEq, Repr

/-- The report (R306): a 64-byte header and one 32-byte entry for each thing passed over. -/
def reportBytes (epoch : Nat) (es : List ReportEntry) : List Byte :=
  natLe 8 epoch ++ natLe 4 es.length ++ natLe 52 0
    ++ (es.map (fun e => natLe 8 e.epoch ++ natLe 1 e.shard ++ natLe 1 e.reason ++ natLe 6 0 ++ natLe 8 e.sess ++ natLe 8 0)).flatten

/-! ### What an epoch still holds (R302) -/

/-- The bytes that stand at a place of a target now; none where a far slot is gone, or in the pool, whose content is read there. -/
def placeBytes (s : State) (p tier : Nat) (a : Nat × Nat × Nat) : Option (List Byte) :=
  if tier = 2 then (mget? s.far a.1).bind (fun x => if x.intact then some (x.bytes.take a.2.2) else none)
  else if tier = 3 then some (memRead s.hostMem (hostKey p a.1) a.2.2) else none

/-- Why a shard fails, if it does (R302): 1 not present, 2 its SHAKE256 digest differs. What a read of it met comes as `bad`: of
shards in the pool nothing else is known here. -/
def shardFault (s : State) (p : Nat) (m : Manifest) (bad : List SnapBad) (h : SnapShard) : Option Nat :=
  match bad.find? (fun b => b.epoch = h.epoch && b.shard = h.shard && decide (1 ≤ b.reason.val) && decide (b.reason.val ≤ 3)) with
  | some b => some b.reason
  | none =>
    if m.tier = 5 then none
    else match h.places.mapM (placeBytes s p m.tier) with
      | none => some 1
      | some bs => if shake256 bs.flatten 32 = h.digest then none else some 2

/-- The first shard of a list that fails, as the report lists it. -/
def shardsFail (s : State) (p : Nat) (m : Manifest) (bad : List SnapBad) (hs : List SnapShard) : Option ReportEntry :=
  hs.findSome? (fun h => (shardFault s p m bad h).map (fun c => { epoch := m.epoch, shard := h.shard, reason := c }))

/-- The bytes of a manifest slot now; of one in the pool, those that were written. -/
def slotNow (s : State) (p : Nat) (m : Manifest) : Option (List Byte) :=
  if m.tier = 5 then some m.slot
  else if m.tier = 3 then some (memRead s.hostMem (hostKey p (m.base + 32768 * (m.epoch % 16))) 32768)
  else
    let half (i : Nat) : Option (List Byte) := ((snapAt s p).slots[2 * (m.epoch % 16) + i]?).bind (fun n => (mget? s.far n).map (·.bytes))
    (half 0).bind (fun a => (half 1).map (fun b => a ++ b))

/-- Whether a manifest's commit record opens with SNAP_KD and its body matches (R302): the slot holds what was written under the
same keys. -/
def Manifest.opens (m : Manifest) (s : State) (p : Nat) (bad : List SnapBad) : Bool :=
  keyTag s (regGet s p 0x70004 % 4096) = m.keyId && slotNow s p m = some m.slot
    && ! bad.any (fun b => b.epoch = m.epoch && b.reason.val = 4)

/-- The form a record opens to (R303, R304, R326), under its CODEC byte: what was stored, or what other bytes that pass its seal
decode to. -/
def SnapRec.opened (s : State) (p : Nat) (r : SnapRec) : Option Encoded :=
  if r.tier = 2 then (mget? s.far r.addr).bind (fun x => (openStored s x).map (fun _ => ⟨x.bytes, x.codec, false⟩))
  else
    let now := if r.tier = 3 then memRead s.hostMem (hostKey p r.addr) (256 * r.gran) else r.stored s
    match openRecord s r.data now with
    | .inl _ => none
    | .inr plain => some (if now = r.stored s then ⟨r.data.bytes, r.data.codec, false⟩ else ⟨plain, 0, false⟩)

/-- The first record of a list that does not open, as the report lists it. -/
def recordsFail (s : State) (p : Nat) (m : Manifest) (rs : List SnapRec) : Option ReportEntry :=
  rs.findSome? (fun r => if (r.opened s p).isSome then none else some { epoch := m.epoch, shard := r.shard, reason := 3 })

/-- Why a port restore passes a manifest over (R302, R303): its commit record, a shard it lists, or a record that is used. -/
def portFails (s : State) (p : Nat) (bad : List SnapBad) (uses : Manifest → SnapRec → Bool) (m : Manifest) : Option ReportEntry :=
  if ! m.opens s p bad then some { epoch := m.epoch, reason := 4 }
  else (shardsFail s p m bad m.shards).or (recordsFail s p m (m.recs.filter (uses m)))

/-- Why a session restore passes a manifest over (R304): its commit record, the digest of its own directory shard, or the seal of
a record of the session. A shard that cannot be read at all fails its records too. -/
def sessFails (s : State) (p : Nat) (bad : List SnapBad) (mine : Manifest → SnapRec → Bool) (m : Manifest) : Option ReportEntry :=
  let recs := m.recs.filter (mine m)
  let unread (r : SnapRec) : Option ReportEntry := (bad.find? (fun b => b.epoch = r.epoch && b.shard = r.shard
    && (b.reason.val = 1 || b.reason.val = 3))).map (fun b => { epoch := m.epoch, shard := r.shard, reason := b.reason })
  if ! m.opens s p bad then some { epoch := m.epoch, reason := 4 }
  else ((shardsFail s p m bad (m.shards.filter (fun h => h.epoch = m.epoch && h.shard = 20))).or (recs.findSome? unread)).or
    (recordsFail s p m recs)

/-- The keys of a manifest's objects as a restoring port has them: its own functions. -/
def movedKey (p key : Nat) : Nat := (64 * p + key / 2 ^ 64 % 64) * 2 ^ 64 + key % 2 ^ 64

/-- Whether an object's key domain is KEYED in a port with the owner's bit (R303). -/
def SnapObj.keyed (o : SnapObj) (s : State) (p : Nat) : Bool := kdUsable s (movedKey p o.obj / 2 ^ 64) o.kd

/-- Try manifests in order: those passed over, and the first that holds. -/
def tryEpochs (test : Manifest → Option ReportEntry) : List Manifest → List ReportEntry → List ReportEntry × Option Manifest
  | [], acc => (acc, none)
  | m :: ms, acc =>
    match test m with
    | none => (acc, some m)
    | some e => tryEpochs test ms (acc ++ [e])

/-- The manifests a restore tries, newest first, or the one it names. -/
def candidates (s : State) (p tier region epoch : Nat) : List Manifest :=
  ((byEpoch (foundIn s p tier region)).reverse).filter (fun m => epoch = 0 || m.epoch = epoch)

/-! ### Bringing objects back (R303, R304) -/

/-- Store the records of an object afresh in a tier and region (R303): none when one does not open, there is no room, or the pool cannot
be reached. -/
def storeAfresh (p key kd tier region : Nat) (layers : NMap Nat) : List SnapRec → NMap Tile → State → Option (NMap Tile × State)
  | [], acc, s => some (acc, s)
  | r :: rs, acc, s =>
    match r.opened s p with
    | none => none
    | some x =>
      match spotAlloc (key / 2 ^ 64) tier region x.bytes.length s with
      | none => none
      | some (sp, s) =>
        let w := spotWrite key r.tile kd sp x s
        let t : Tile := { state := .lower, loTier := absTier (objPort key) tier, loRegion := sp.region, loAddr := sp.addr
                          loGran := sp.gran, codec := x.codec, kd := kd, layer := mgetD layers r.tile 0xFFFF }
        let record := sealRecord s kd r.tile x.codec x.bytes (kdOf s kd).counter
        match if tier = 5 then poolSend key r.tile true false sp record w else some w with
        | none => none
        | some s => storeAfresh p key kd tier region layers rs (mput acc r.tile t) s

/-- Bring an object of an epoch back under a key, its tiles LOWER (R303). -/
def bringObject (p : Nat) (m : Manifest) (o : SnapObj) (key tier region : Nat) (s : State) : Option State :=
  let recs := m.recs.filter (fun r => r.obj = o.obj)
  match storeAfresh p key o.kd tier region o.layers recs [] s with
  | none => none
  | some (tiles, s) =>
    if ! mapRoom s (ceilDiv (32 * o.ntiles) 16384) then none
    else
      let s := { s with objects := mput s.objects key { kind := o.kind, kd := o.kd, ntiles := o.ntiles, tiles := tiles } }
      match o.index with
      | none => some s
      | some x => some { s with indices := mput s.indices key { x with pend := [] } }

/-- A session as an epoch held it, PARKED, under a generation (R303, R304). -/
def parkedAs (x : Session) (tier region gen object tenant : Nat) : Session :=
  { x with busy := none, object := object, gen := gen, place := .parked tier region, run := none, expedite := false
           mapSlot := none, tenant := tenant }

/-- The directory record of a restored session. -/
def parkedRec (r : DirRec) (tier gen : Nat) : DirRec := { r with state := 2, tier := tier, gen := gen, pav := 0xFF, slot := 0xFFFF }

/-! ### A port restore (R302, R303) -/

/-- The objects of an epoch that come back: not damaged, and keyed in the port. -/
def Manifest.backs (m : Manifest) (s : State) (p : Nat) : List SnapObj := m.objs.filter (fun o => ! o.damaged && o.keyed s p)

/-- The objects left out, as the report lists them. -/
def Manifest.leftOut (m : Manifest) (s : State) (p : Nat) : List ReportEntry :=
  let sess (o : SnapObj) : Nat := (o.sess.map (fun x => x.1 % 2 ^ 64)).getD 0
  m.objs.filterMap (fun o => if o.damaged then some { epoch := m.epoch, reason := 5, sess := sess o }
    else if o.keyed s p then none else some { epoch := m.epoch, reason := 6, sess := sess o })

/-- Bring back every object that comes back, and the sessions whose state they hold. -/
def bringAll (m : Manifest) (p tier region : Nat) : List SnapObj → State → Option State
  | [], s => some s
  | o :: os, s =>
    let key := movedKey p o.obj
    match bringObject p m o key tier region (closeObject key s) with
    | none => none
    | some s =>
      let s := match o.sess with
        | none => s
        | some (k, x) => { s with
            sessions := mput s.sessions (movedKey p k) (parkedAs x tier region ((x.gen + 1) % 65536) x.object x.tenant) }
      bringAll m p tier region os s

/-- The directory entries of an epoch as they are inserted: PORT is the restoring port's and FUNCTION stays; of session entries,
those whose sessions come back (R303). -/
def Manifest.entries (m : Manifest) (s : State) (p tier : Nat) : List DirRow :=
  m.rows.filterMap (fun r =>
    let e := { r.2 with key := setBits r.2.key 71 71 p }
    if e.data.state ≤ 3 then
      let back := (m.backs s p).find? (fun o => o.sess.any (fun x => sessDirKey (movedKey p x.1 / 2 ^ 64) (x.1 % 2 ^ 64) = e.key))
      match back.bind (fun o => o.sess) with
      | none => none
      | some x => some { e with data := parkedRec e.data (absTier p tier) ((x.2.gen + 1) % 65536) }
    else some e)

/-- Insert directory entries; the last write completes the request. None when the directory has no room; an entry that stands
is left as it is. -/
def insertAll (p : Nat) (id : ReqId) : List DirRow → State → Option State
  | [], s => some (done id s)
  | e :: es, s =>
    let rest := es.any (fun x => match dirAccept s p x.wide x.key x.care with | .inl _ => false | .inr _ => true)
    match dirAccept s p e.wide e.key e.care with
    | .inl 0x30 => none
    | .inl _ => insertAll p id es s
    | .inr n =>
      let w : DirWrite := { row := n, entry := { key := e.key, care := e.care, wide := e.wide, data := e.data }, insert := true }
      if rest then insertAll p id es (dirWrite w s) else some (dirWrite { w with id := some id } s)

/-- The detail a restore's target or source is refused with (R145, R147, R307). -/
def restoreCheck (s : State) (id : ReqId) (p target region sourceRegion : Nat) : Option Nat :=
  if ! tierOk s id.ident target region then some 0x22
  else if ! tierOk s (64 * p) (bits (regGet s p 0x70000) 4 6) sourceRegion then some 0x74 else none

/-- PORT_RESTORE (R302, R303, R305 to R307): the port holds no session; the first epoch that qualifies comes back whole, or
nothing does. `bad` are the shards found unusable as they are read. -/
def execPortRestore (r : Req) (target region sourceRegion : Nat) (epoch report : DWord) (bad : List SnapBad) (s : State) :
    Host.Outcome State Fault Refusal :=
  .next (onReq r 0x62 none (fun id s =>
    let p := fnPort id.fn
    if ! r.fn.isPf then fail id 0x69 s
    else
      match restoreCheck s id p target region sourceRegion with
      | some d => fail id d s
      | none =>
        if s.sessions.any (fun x => sessPort x.1 = p) || (snapAt s p).run.isSome then defer id 0x70 s
        else
          let tier := bits (regGet s p 0x70000) 4 6
          let uses (m : Manifest) (y : SnapRec) : Bool := (m.backs s p).any (fun o => o.obj = y.obj)
          let pick := tryEpochs (portFails s p bad uses) (candidates s p tier sourceRegion epoch.toNat) []
          match pick.2 with
          | none => withOut id report.toNat (reportBytes 0 pick.1) (fail id 0x72) s
          | some m =>
            withOut id report.toNat (reportBytes m.epoch (pick.1 ++ m.leftOut s p)) (fun s =>
              match bringAll m p target region (m.backs s p) s with
              | none => complete id (noRoom target) (some 7) 0 s
              | some t => (insertAll p id (m.entries s p target) t).getD (defer id 0x30 s)) s) s)

/-! ### A session restore (R304) -/

/-- The record of a session in a manifest: its function and identifier are the requester's. -/
def Manifest.session (m : Manifest) (p key : Nat) : Option (SnapObj × Session) :=
  m.objs.findSome? (fun o => match o.sess with
    | some (k, x) => if movedKey p k = key && ! o.damaged then some (o, x) else none
    | none => none)

/-- Put a session back as an epoch held it: the slots it holds are released, its generation advances, and it is PARKED in the
target. -/
def restoreSession (id : ReqId) (key : Nat) (m : Manifest) (o : SnapObj) (x : Session) (p target region : Nat) (s : State) :
    Option (State × Option DirRec) :=
  let now := mget? s.sessions key
  let num := (now.map (·.object)).getD x.object
  let gen := ((now.map (·.gen)).getD x.gen + 1) % 65536
  let obj := objKey (key / 2 ^ 64) num
  let s := match now with
    | none => s
    | some y => freeSlotOf y (onSess key (fun y => { y with place := .parked 0 0 }) (closeObject obj (movedPushes key s)))
  match bringObject p m o obj target region s with
  | none => none
  | some s =>
    let tenant := (now.map (·.tenant)).getD x.tenant
    let s := { s with sessions := mput s.sessions key { parkedAs x target region gen num tenant with
      busy := if now.isSome then none else some id } }
    let row := m.rows.find? (fun r => setBits r.2.key 71 71 p = sessDirKey (key / 2 ^ 64) (key % 2 ^ 64))
    let d : DirRec := { (row.map (fun r => r.2.data)).getD {} with kd := o.kd, tenant := tenant, model := x.modelSlot, object := num }
    some (s, if now.isSome then none else some (parkedRec d (absTier p target) gen))

/-- Carry out a session restore from the epoch chosen, or refuse it (R304, R320, R348). -/
def restorePicked (id : ReqId) (key p target region : Nat) (pick : Option (Manifest × SnapObj × Session)) (s : State) : State :=
  match pick with
  | none => fail id 0x73 s
  | some (m, o, x) =>
    let clash := (mget? s.sessions key).isNone && (objOf s (objKey (key / 2 ^ 64) x.object)).isSome
    if ! kdUsable s (key / 2 ^ 64) o.kd then fail id 0x86 s
    else if clash then fail id 0x93 s
    else
      match restoreSession id key m o x p target region s with
      | none => complete id (noRoom target) (some 7) 0 s
      | some (t, none) => dirSetDone key (fun d => parkedRec d (absTier p target) (((mget? t.sessions key).map (·.gen)).getD 0)) id t
      | some (t, some d) =>
        let k := sessDirKey (key / 2 ^ 64) (key % 2 ^ 64)
        match dirAccept s p false k (fullCare false) with
        | .inl 0x30 => defer id 0x30 s
        | .inl e => fail id e s
        | .inr n => dirWrite { row := n, entry := { key := k, care := fullCare false, data := d }, insert := true, id := some id } t

/-- SESSION_RESTORE (R27, R302, R304 to R307): one session of the requester's own, from the newest epoch that holds it. -/
def execSessionRestore (r : Req) (target region sourceRegion : Nat) (session epoch report : DWord) (bad : List SnapBad) (s : State) :
    Host.Outcome State Fault Refusal :=
  let new := fresh s
  let cmd := Instr.sessionRestore r target region sourceRegion session epoch report bad
  .next (onReq r 0x62 none (fun id s =>
    let key := sessKey id.ident session.toNat
    orderGateOn key new true cmd (fun id s =>
      let p := fnPort id.fn
      match restoreCheck s id p target region sourceRegion with
      | some d => fail id d s
      | none =>
        let tier := bits (regGet s p 0x70000) 4 6
        let holds := (candidates s p tier sourceRegion epoch.toNat).filter (fun m => (m.session p key).isSome)
        let mine (m : Manifest) (y : SnapRec) : Bool := (m.session p key).any (fun z => z.1.obj = y.obj)
        let pick := tryEpochs (sessFails s p bad mine) holds []
        withOut id report.toNat (reportBytes ((pick.2.map (·.epoch)).getD 0) pick.1)
          (restorePicked id key p target region (pick.2.bind (fun m => (m.session p key).map (fun z => (m, z))))) s)
      id s) s)

end Sys2Proof.Machine
end

