-- ==== Sys2Proof/Machine/View.lean ====
section
/-! DEFINITION. What a register reads as (R8, R11, R17, R256, R281, R339, R401, R485 to R495), and reads. A register of 64 bits is
named by its low half's offset. -/

namespace Sys2Proof.Machine

/-! ### GLB_ and GH_ (R488, R416, R420) -/

/-- GH_CAP_STATE of a port. -/
def ghCapState (s : State) (p : Nat) : Nat :=
  let e := s.gate.effective
  let on := s.trellis.isSome
  e % 8192 + 2 ^ 16 * b2n (on && (capOwn s p).contains e) + 2 ^ 17 * b2n (on && (capsElsewhere s p).contains e)

/-- The code of a bay's power state in GH_BAY_STATE (R408): a bay at rest that is to wake shows waking. -/
def bayCode (x : Bay) : Nat :=
  match x.power with
  | .run => 1
  | .doze => 2
  | .rest => if x.wake.isSome then 5 else 3
  | .resting _ => 3
  | .off => 4
  | .returning _ => 5
  | .waking .. => 5

/-- GH_BAY_STATE0 or 1 of a port. -/
def ghBayState (s : State) (p n : Nat) : Nat :=
  sumNat ((List.range 10).map (fun i => (if bayHas s p (10 * n + i) then bayCode (bayAt s (10 * n + i)) else 0) * 8 ^ i))

/-- GH_PINS. -/
def ghPins (s : State) : Nat :=
  let lv (n : Nat) : Nat := (pinAt s n).acted
  lv 0 + 2 * lv 1 + 4 * lv 2 + 16 * lv 3 + 32 * lv 4 + 64 * lv 5
    + sumNat ((List.range 6).map (fun n => b2n (pinAt s n).stuck * 2 ^ (8 + n)))

/-- GLB_ and GH_ registers as a function reads them. -/
def viewGate (s : State) (f : Fn) (off : Nat) : Nat :=
  let p := f.port.idx
  if off = 4 then 128 * p + f.num.val
  else if 0x10 ≤ off ∧ off < 0x20 then leField deviceId (off - 0x10) 4
  else if off = 0x10000 then s.time
  else if off = 0x10010 then ghCapState s p
  else if off = 0x10020 then ghBayState s p 0
  else if off = 0x10024 then ghBayState s p 1
  else if off = 0x10040 then ghPins s
  else regGet s p off

/-! ### ERR_, TRL_ and SEC_ -/

/-- ERR_ registers of a port (R445, R459). -/
def viewErr (s : State) (p off : Nat) : Nat :=
  let recs := (errQueue s p).recs
  if off = 0x20000 then recs.length + 2 ^ 31 * b2n (recs ≠ [])
  else if off = 0x20008 then 0
  else if off = 0x20040 then s.store.repairs.length
  else if off = 0x20048 then s.store.repairs.getD (bits (regGet s p 0x20044) 0 11) 0
  else if 0x20100 ≤ off ∧ off < 0x20140 then
    match recs with
    | [] => 0
    | e :: _ => leField e.bytes (off - 0x20100) 4
  else regGet s p off

/-- TRL_SLOTn. -/
def trlSlot (s : State) (n : Nat) : Nat :=
  match mget? s.store.slots n with
  | none => 0
  | some x =>
    if x.valid then
      let t := trlParse n x.image
      2 ^ 31 + t.serial % 1024 * 65536 + leField t.cDigest 0 2
    else 0

/-- TRL_SPARES (R495). -/
def trlSparesReg (s : State) : Nat :=
  let x := s.spares
  x.intake % 32 + x.louver % 16 * 2 ^ 5 + x.crypto % 16 * 2 ^ 9 + x.shutter % 64 * 2 ^ 13 + x.dirBlock % 128 * 2 ^ 19
    + x.gate % 2 * 2 ^ 26

/-- TRL_ registers. -/
def viewTrl (s : State) (p off : Nat) : Nat :=
  if off = 0x30000 then 0
  else if off = 0x30018 then
    regGet s p off % 2 ^ 22 + s.hub.pinsTaken % 4 * 2 ^ 22 + b2n s.store.nextSet * 2 ^ 25 + s.store.nextSlot % 4 * 2 ^ 26
      + b2n s.trellis.isSome * 2 ^ 31
  else if 0x30020 ≤ off ∧ off < 0x30030 then trlSlot s ((off - 0x30020) / 4)
  else if off = 0x30030 then s.store.floor
  else if off = 0x30040 then (if s.trellis.isSome then trlSparesReg s else 0)
  else if off = 0x30044 then (if s.trellis.isSome then s.spares.clocks % 2 ^ 21 else 0)
  else regGet s p off

/-- SEC_KD_STATE of a domain as a port reads it. -/
def secKdState (s : State) (p d : Nat) : Nat :=
  let k := kdOf s d
  if k.state = 0 ∨ k.port ≠ p then 0
  else k.state * 2 ^ 30 + b2n k.isSealed * 2 ^ 29 + b2n k.released * 2 ^ 28 + min (kdUsers s d) (2 ^ 24 - 1)

/-- SEC_ registers (R309 to R313, R330). -/
def viewSec (s : State) (p off : Nat) : Nat :=
  let x := s.sec
  if off = 0x40000 then 0
  else if off = 0x40014 then x.boot + x.cause * 256 + x.owner.getD 0 * 2 ^ 31
  else if off = 0x40018 then x.svn + x.floor * 256
  else if off = 0x4001C then Config.romVersion.toNat
  else if off = 0x40020 then x.next
  else if off = 0x40028 then 2 ^ 32 - x.next
  else if off = 0x40030 then 1048576 - x.boots
  else if off = 0x40034 then
    match s.trellis with
    | none => 0x64
    | some t => t.windowMs + t.kp * 2 ^ 12 + b2n t.mgmtRaw * 2 ^ 16
  else if 0x41000 ≤ off ∧ off < 0x45000 then secKdState s p ((off - 0x41000) / 4)
  else regGet s p off

/-! ### PAV_ and ACC_ (R256, R281) -/

/-- PAV_STATUS. -/
def pavStatus (x : Pav) : Nat :=
  (x.slots.filter (fun u => ! u.2.reserved)).length + x.queue.length % 2048 * 2 ^ 16 + b2n x.prog.isSome * 2 ^ 31

/-- PAV_ registers: those of another port's pavilion read as zero. -/
def viewPav (s : State) (p off : Nat) : Nat :=
  match pavBlock off with
  | none => regGet s p off
  | some n =>
    match mget? s.pavs n with
    | none => regGet s p off
    | some x => if x.port ≠ p then 0 else if off % 0x20 = 8 then pavStatus x else regGet s p off

/-- A tenant's counter at an ACC_ offset. -/
def tenantView (t : Tenant) (off : Nat) : Nat :=
  if off = 0x60008 then t.tokensOut
  else if off = 0x60010 then t.tokensIn
  else if off = 0x60018 then t.cycles
  else if off = 0x60020 then (if t.unlimited then 2 ^ 64 - 1 else t.budget)
  else if off = 0x60028 then t.steps
  else if off = 0x60030 then t.preempted % 2 ^ 32
  else t.deferred % 2 ^ 32

/-- A value rounded down to a multiple of 2^k. -/
def coarsen (k v : Nat) : Nat := v / 2 ^ k * 2 ^ k

/-- ACC_ registers: a virtual function reads its own tenant's counters, coarsened. -/
def viewAcc (s : State) (f : Fn) (off : Nat) : Nat :=
  let p := f.port.idx
  let kc := match s.trellis with | none => 0 | some t => t.kc
  let kt := match s.trellis with | none => 0 | some t => t.kt
  let round (cycles : Bool) (v : Nat) : Nat := if f.isPf then v else coarsen (if cycles then kc else kt) v
  if off = 0x60000 then regGet s p off
  else if off = 0x60004 then kc * 256 + kt
  else if off < 0x61000 then
    let t := tenantOf s p (if f.isPf then bits (regGet s p 0x60000) 0 11 else fnTenant s f.key)
    round (off = 0x60018) (tenantView t off % 2 ^ 64)
  else round true (regGet s p off)

/-! ### SNP_, DIR_, TXT_, RCL_ and TIR_ -/

/-- SNP_STATUS. -/
def snpStatus (s : State) (p : Nat) : Nat :=
  match (snapAt s p).run with
  | none => 0
  | some r =>
    let phase := if r.cutAt.isNone then 1 else if r.owed ≠ [] then 2 else 3
    2 ^ 31 + phase * 2 ^ 29 + min r.owed.length (2 ^ 29 - 1)

/-- DIR_STATUS (R178, R180, R201). -/
def dirStatus (s : State) : Nat :=
  let inUse := (List.range 64).filter (fun b => ! s.dir.outBlocks.contains b)
  let left := inUse.foldl (fun m b => min m (1024 - mgetD s.dir.sparesUsed b 0)) 1024
  let pairs := ((List.range 32).filter (fun j => cascaded s (2 * j) && inUse.contains (2 * j))).length
  left + pairs * 2 ^ 16 + inUse.length * 2 ^ 24 + b2n s.dir.spareFor.isSome * 2 ^ 31

/-- Free slots of the far tier's pool (R134, R454). -/
def farFreeCount (s : State) : Nat :=
  let sites := farSites s
  let below (x site : Nat) : Nat := (x + sites - 1 - site) / sites
  let all := sumNat (((List.range sites).filter (fun i => ! s.farOut.contains i)).map (fun i => below (farTotal s) i - below (farPool s) i))
  let used := s.far.filter (fun x => decide (farPool s ≤ x.1) && ! s.farOut.contains (x.1 % sites))
  let gone := s.farGone.filter (fun x => (mget? s.far x).isNone && ! s.farOut.contains (x % sites))
  all - used.length - gone.length

/-- DIR_CTRL. -/
def dirCtrl (s : State) : Nat := match s.trellis with | none => 0x03E80001 | some t => t.scrubMs * 65536 + b2n t.scrubEnable

/-- Registers of the hub's services as a port reads them. -/
def viewHub (s : State) (p off : Nat) : Nat :=
  let mine := s.queries.filter (fun q => fnPort q.id.fn = p)
  if off = 0x70010 then snpStatus s p
  else if off = 0x80000 then dirCtrl s
  else if off = 0x80004 then dirStatus s
  else if off = 0x80010 then dirShare s p
  else if off = 0x80014 then dirUsed s p
  else if off = 0x90000 then engineService s 8 * 2 ^ 16 + engineService s 7
  else if off = 0x90004 then (33554432 - storeUsed s p) / 1024
  else if off = 0xA0004 then mine.length % 2048 + (mine.filter (fun q => q.graph && q.running)).length * 2 ^ 16
  else if off = 0xB0008 then engineService s 3
  else if off = 0xB0020 then farFreeCount s
  else regGet s p off

/-! ### CLY_, FAR_, CAL_ and HAT_ -/

/-- CLY_STATUS of a Celay port. -/
def clyStatus (x : CelayPort) : Nat := x.state + x.lanesOk % 512 * 4 + x.outLane % 16 * 2 ^ 20

/-- FAR_POPULATION (R489). -/
def farPopulation (s : State) : Nat :=
  let (sites, density, rate) := s.farCal.found
  if s.farCal.start.isNone then 0
  else 2 ^ 31 + rate % 16 * 2 ^ 20 + density % 16 * 2 ^ 16
    + sumNat ((List.range 16).map (fun i => b2n (decide (i < sites) && ! s.farOut.contains i) * 2 ^ i))

/-- CLY_, FAR_, CAL_ and HAT_ registers. -/
def viewLink (s : State) (p off : Nat) : Nat :=
  if (celayBlock off).isSome && off % 0x1000 = 4 then clyStatus (clyAt s ((celayBlock off).getD 0))
  else if off = 0xE0000 then farPopulation s
  else if off = 0xF0000 then
    regGet s p off + b2n s.farCal.burstAt.isSome * 2 ^ 30 + b2n s.farCal.windowAt.isSome * 2 ^ 29 + s.farCal.channel % 64
  else if off = 0xF0008 then farNextAt s
  else if off = 0xF0010 then farNextCh s
  else if off = 0x100004 then sumNat ((List.range 20).map (fun b => b2n ((bayAt s b).hatch && bayHas s p b) * 2 ^ b))
  else if off = 0x100034 then sumNat ((s.hatchHeld.filter (fun h => h.port = p)).map (fun h => h.bytes.length))
  else regGet s p off

/-! ### BAY_ (R16, R17) -/

/-- The pavilion of a quarter, if it is one of a port's. -/
def portQuarter (s : State) (p q : Nat) : Option (Nat × Pav) := s.pavs.find? (fun x => x.2.port = p && x.2.quarters.contains q)

/-- BAY_FRAME_STATE of a logical bay as a port reads it. -/
def bayFrameState (s : State) (p b : Nat) : Nat :=
  let f := (frameOf s b).map (·.2)
  let runs := sumNat ((List.range 4).map (fun i =>
    b2n (f.any (fun x => x.quarters.contains (4 * b + i)) && (portQuarter s p (4 * b + i)).isSome) * 2 ^ i))
  let banks := sumNat ((List.range 4).map (fun i =>
    ((portQuarter s p (4 * b + i)).map (fun x => mgetD x.2.banks (4 * b + i) 0 % 2)).getD 0 * 2 ^ (4 + i)))
  runs + banks + (bayAt s b).owed % 256 * 2 ^ 8 + b2n (rateDoubled s b) * 2 ^ 16 + b2n (f.any (·.hold.isSome)) * 2 ^ 30
    + b2n f.isSome * 2 ^ 31

/-- BAY_SLIP_LAST of a logical bay as a port reads it. -/
def baySlipLast (s : State) (p b : Nat) : Nat :=
  let x := bayAt s b
  x.slipLastCause % 8 + (if p = 0 then x.slipStepA else x.slipStepB) % 65536 * 256 + b2n x.slipValid * 2 ^ 31

/-- BAY_PROG_ID of a quarter as a port reads it. -/
def bayProgId (s : State) (p q : Nat) : Nat :=
  match (portQuarter s p q).bind (·.2.prog) with
  | none => 0
  | some g => leField (imgDigest g.image) 0 4

/-- BAY_ registers: those of a bay with no quarter of the port read as zero. -/
def viewBay (s : State) (p pb off : Nat) : Nat :=
  let r := off % 0x100000
  if ! bayOfPort s p pb then 0
  else
    match (List.range 20).find? (fun b => physBay s b = pb) with
    | none => 0
    | some b =>
      if r = 0x90000 then bayFrameState s p b
      else if r = 0x90004 then ((frameOf s b).map (fun x => x.2.cycle)).getD 0
      else if r = 0x9000C then baySlipLast s p b
      else if 0x90020 ≤ r ∧ r < 0x90030 then bayProgId s p (4 * b + (r - 0x90020) / 4)
      else regGet s p off

/-! ### The map -/

/-- Whether a virtual function reads a region as zero (R485). -/
def vfZero (off : Nat) : Bool :=
  (decide (0x10000 ≤ off) && decide (off < 0x40000)) || (decide (0xE0000 ≤ off) && decide (off < 0x100000))

/-- What a BAR0 register reads as to a function. -/
def regView (s : State) (f : Fn) (off : Nat) : Nat :=
  let p := f.port.idx
  if ! responds s off || (! f.isPf && vfZero off) then 0
  else
    match bayBlock off with
    | some pb => viewBay s p pb off
    | none =>
      if off < 0x20000 then viewGate s f off
      else if off < 0x30000 then viewErr s p off
      else if off < 0x40000 then viewTrl s p off
      else if off < 0x50000 then viewSec s p off
      else if off < 0x60000 then viewPav s p off
      else if off < 0x70000 then viewAcc s f off
      else if off < 0xD0000 then viewHub s p off
      else viewLink s p off

/-- RING_CTRL and RING_STATUS (R339). -/
def ringCtrl (r : Ring) : Nat := b2n r.enable + 2 * b2n r.irqEnable + r.coalCount % 256 * 256 + r.coalNs % 65536 * 65536
def ringStatus (r : Ring) : Nat := b2n (r.fetched = []) + 2 * b2n r.error + r.cause % 16 * 16

/-- What a ring register reads as, by its offset in the share. -/
def ringView (r : Ring) (o : Nat) : Nat :=
  if o = 0 then r.rqTail else if o = 4 then r.cqHead else if o = 0x1000 then r.rqBase else if o = 0x1008 then r.rqSize
  else if o = 0x100C then r.rqHead else if o = 0x1010 then r.cqBase else if o = 0x1018 then r.cqSize
  else if o = 0x101C then r.cqTail else if o = 0x1020 then ringCtrl r else if o = 0x1024 then ringStatus r else 0

/-- A register's value and the half an offset names: 0 for a 32-bit register, 1 for a low half, 2 for a high half. -/
def readPlace (s : State) (f : Fn) (bar : Bar) (off : Nat) : Nat × Nat :=
  match bar with
  | .bar0 =>
    if isHigh off then (regView s f (off - 4), 2) else (regView s f off, if isLow off then 1 else 0)
  | .bar4 =>
    let x := shareOf f off
    let r := ringOf s x.1
    if x.2 = 0x1004 ∨ x.2 = 0x1014 then (ringView r (x.2 - 4), 2)
    else (ringView r x.2, if x.2 = 0x1000 ∨ x.2 = 0x1010 then 1 else 0)

/-- LOW_HALF_READ (R7, R8, R485): an aligned read of a register. A low half fills the function's read holding register with the
high half; a high half comes from it when it was last filled for the same register; any other register reads as it
stands. -/
def execLowHalfRead (f : Fn) (bar : Bar) (off : Nat) (s : State) : Host.Outcome State Fault Refusal :=
  let code := match bar with | .bar0 => 0 | .bar4 => 4
  if off % 4 ≠ 0 || ! inBar f bar off || ! decodes f bar off then .next s
  else
    let v := readPlace s f bar off
    let answer (x : Nat) (s : State) : State := { s with reply := .word (BitVec.ofNat 32 x) }
    if v.2 = 1 then .next (answer v.1 { s with readHold := mput s.readHold f.key ⟨code, off, v.1 / 2 ^ 32 % 2 ^ 32⟩ })
    else if v.2 = 2 then
      match mget? s.readHold f.key with
      | some h => .next (answer (if h.bar = code ∧ h.off = off - 4 then h.val else v.1 / 2 ^ 32) s)
      | none => .next (answer (v.1 / 2 ^ 32) s)
    else .next (answer v.1 s)

end Sys2Proof.Machine
end

