-- ==== Sys2Proof/Machine/Dispatch.lean ====
section
/-! DEFINITION. The meaning of every command: one arm for each constructor of Instr, one direct call each. -/

namespace Sys2Proof.Machine

/-- The effect of a command on everything but the queue of waiting commands. -/
def exec (i : Instr) (s : State) : Host.Outcome State Fault Refusal :=
  match i with
  | .misalignedRegisterAccess f off size write => Sys2Proof.Machine.execMisalignedRegisterAccess f off size write s
  | .lowHalfRead f bar off => Sys2Proof.Machine.execLowHalfRead f bar off s
  | .lowHalfWrite f bar off v => Sys2Proof.Machine.execLowHalfWrite f bar off v s
  | .highHalfWrite f bar off v => Sys2Proof.Machine.execHighHalfWrite f bar off v s
  | .registerWrite f bar off v => Sys2Proof.Machine.execRegisterWrite f bar off v s
  | .undecodedAccess f bar off write => Sys2Proof.Machine.execUndecodedAccess f bar off write s
  | .vfBar0Write f off size => Sys2Proof.Machine.execVfBar0Write f off size s
  | .bayArithFlagsClear f pbay v => Sys2Proof.Machine.execBayArithFlagsClear f pbay v s
  | .mmaK4 k cyc acc col a scale bFmt b ktA ktB z => Sys2Proof.Machine.execMmaK4 k cyc acc col a scale bFmt b ktA ktB z s
  | .mmaK4s k cyc acc col a scale bFmt b ktA ktB z => Sys2Proof.Machine.execMmaK4s k cyc acc col a scale bFmt b ktA ktB z s
  | .mmaF8 k cyc acc col a b aEnc bEnc z => Sys2Proof.Machine.execMmaF8 k cyc acc col a b aEnc bEnc z s
  | .mmaBf16 k cyc acc col a b z => Sys2Proof.Machine.execMmaBf16 k cyc acc col a b z s
  | .accrd k cyc acc col vd fmt nonsat => Sys2Proof.Machine.execAccrd k cyc acc col vd fmt nonsat s
  | .vadd k cyc vd va vb mask => Sys2Proof.Machine.execVadd k cyc vd va vb mask s
  | .vsub k cyc vd va vb mask => Sys2Proof.Machine.execVsub k cyc vd va vb mask s
  | .vmul k cyc vd va vb mask => Sys2Proof.Machine.execVmul k cyc vd va vb mask s
  | .vfma k cyc vd va vb vc mask => Sys2Proof.Machine.execVfma k cyc vd va vb vc mask s
  | .vmax k cyc vd va vb mask => Sys2Proof.Machine.execVmax k cyc vd va vb mask s
  | .vmin k cyc vd va vb mask => Sys2Proof.Machine.execVmin k cyc vd va vb mask s
  | .vabs k cyc vd va mask => Sys2Proof.Machine.execVabs k cyc vd va mask s
  | .vcvt k cyc vd va src dst nonsat kt => Sys2Proof.Machine.execVcvt k cyc vd va src dst nonsat kt s
  | .vaddI16 k cyc vd va vb mask => Sys2Proof.Machine.execVaddI16 k cyc vd va vb mask s
  | .vsubI16 k cyc vd va vb mask => Sys2Proof.Machine.execVsubI16 k cyc vd va vb mask s
  | .vmulI16 k cyc vd va vb mask => Sys2Proof.Machine.execVmulI16 k cyc vd va vb mask s
  | .vmulhI16 k cyc vd va vb mask => Sys2Proof.Machine.execVmulhI16 k cyc vd va vb mask s
  | .vmaddI16 k cyc vd va vb vc mask => Sys2Proof.Machine.execVmaddI16 k cyc vd va vb vc mask s
  | .vshlI16 k cyc vd va vb mask => Sys2Proof.Machine.execVshlI16 k cyc vd va vb mask s
  | .vshrI16 k cyc vd va vb mask => Sys2Proof.Machine.execVshrI16 k cyc vd va vb mask s
  | .vaddI16W k cyc vd va vb mask => Sys2Proof.Machine.execVaddI16W k cyc vd va vb mask s
  | .vsubI16W k cyc vd va vb mask => Sys2Proof.Machine.execVsubI16W k cyc vd va vb mask s
  | .vmulI16W k cyc vd va vb mask => Sys2Proof.Machine.execVmulI16W k cyc vd va vb mask s
  | .vsumr k cyc rd va => Sys2Proof.Machine.execVsumr k cyc rd va s
  | .vmaxr k cyc rd va => Sys2Proof.Machine.execVmaxr k cyc rd va s
  | .vexp2 k cyc vd va mask => Sys2Proof.Machine.execVexp2 k cyc vd va mask s
  | .vexp k cyc vd va mask => Sys2Proof.Machine.execVexp k cyc vd va mask s
  | .vexpsub k cyc vd va vm mask => Sys2Proof.Machine.execVexpsub k cyc vd va vm mask s
  | .vrcp k cyc vd va mask => Sys2Proof.Machine.execVrcp k cyc vd va mask s
  | .vrsqrt k cyc vd va mask => Sys2Proof.Machine.execVrsqrt k cyc vd va mask s
  | .vsigm k cyc vd va mask => Sys2Proof.Machine.execVsigm k cyc vd va mask s
  | .vsilu k cyc vd va mask => Sys2Proof.Machine.execVsilu k cyc vd va mask s
  | .vtanh k cyc vd va mask => Sys2Proof.Machine.execVtanh k cyc vd va mask s
  | .verf k cyc vd va mask => Sys2Proof.Machine.execVerf k cyc vd va mask s
  | .scAdd k cyc sd sa sb => Sys2Proof.Machine.execScAdd k cyc sd sa sb s
  | .scSub k cyc sd sa sb => Sys2Proof.Machine.execScSub k cyc sd sa sb s
  | .scMul k cyc sd sa sb => Sys2Proof.Machine.execScMul k cyc sd sa sb s
  | .scShl k cyc sd sa sb => Sys2Proof.Machine.execScShl k cyc sd sa sb s
  | .scShr k cyc sd sa sb => Sys2Proof.Machine.execScShr k cyc sd sa sb s
  | .scSar k cyc sd sa sb => Sys2Proof.Machine.execScSar k cyc sd sa sb s
  | .scAnd k cyc sd sa sb => Sys2Proof.Machine.execScAnd k cyc sd sa sb s
  | .scOr k cyc sd sa sb => Sys2Proof.Machine.execScOr k cyc sd sa sb s
  | .scXor k cyc sd sa sb => Sys2Proof.Machine.execScXor k cyc sd sa sb s
  | .scNot k cyc sd sa => Sys2Proof.Machine.execScNot k cyc sd sa s
  | .scCeq k cyc sd sa sb => Sys2Proof.Machine.execScCeq k cyc sd sa sb s
  | .scClt k cyc sd sa sb => Sys2Proof.Machine.execScClt k cyc sd sa sb s
  | .scCltu k cyc sd sa sb => Sys2Proof.Machine.execScCltu k cyc sd sa sb s
  | .scMovi k cyc sd imm => Sys2Proof.Machine.execScMovi k cyc sd imm s
  | .scMov k cyc sd sa => Sys2Proof.Machine.execScMov k cyc sd sa s
  | .loop k cyc level trip last => Sys2Proof.Machine.execLoop k cyc level trip last s
  | .vld k cyc v addr bad => Sys2Proof.Machine.execVld k cyc v addr bad s
  | .vst k cyc v addr => Sys2Proof.Machine.execVst k cyc v addr s
  | .tld k cyc kt addr => Sys2Proof.Machine.execTld k cyc kt addr s
  | .sld k cyc sr addr => Sys2Proof.Machine.execSld k cyc sr addr s
  | .sst k cyc sr addr => Sys2Proof.Machine.execSst k cyc sr addr s
  | .bld k cyc pane sliver lines mode bad => Sys2Proof.Machine.execBld k cyc pane sliver lines mode bad s
  | .bst k cyc pane sliver lines mode tag => Sys2Proof.Machine.execBst k cyc pane sliver lines mode tag s
  | .lsend k cyc pane dst beats => Sys2Proof.Machine.execLsend k cyc pane dst beats s
  | .lrecv k cyc pane beats => Sys2Proof.Machine.execLrecv k cyc pane beats s
  | .colonnadeTransfer cyc src dsts path beats => Sys2Proof.Machine.execColonnadeTransfer cyc src dsts path beats s
  | .colonnadeBeatArrival k cyc => Sys2Proof.Machine.execColonnadeBeatArrival k cyc s
  | .frameStart bay rates => Sys2Proof.Machine.execFrameStart bay rates s
  | .columnInputWrite pav slot => Sys2Proof.Machine.execColumnInputWrite pav slot s
  | .maskWrite pav slot => Sys2Proof.Machine.execMaskWrite pav slot s
  | .latchDecision pav index => Sys2Proof.Machine.execLatchDecision pav index s
  | .frameEnd bay results minima => Sys2Proof.Machine.execFrameEnd bay results minima s
  | .refreshSlot bay start => Sys2Proof.Machine.execRefreshSlot bay start s
  | .deskewSlot bay start passes => Sys2Proof.Machine.execDeskewSlot bay start passes s
  | .hubBondSlot bay start => Sys2Proof.Machine.execHubBondSlot bay start s
  | .transomWindowBeat bay cport toBay cyc => Sys2Proof.Machine.execTransomWindowBeat bay cport toBay cyc s
  | .betweenFrameHubTransfer bay => Sys2Proof.Machine.execBetweenFrameHubTransfer bay s
  | .bayIdleRefresh bay passes => Sys2Proof.Machine.execBayIdleRefresh bay passes s
  | .refreshIntervalElapse bay => Sys2Proof.Machine.execRefreshIntervalElapse bay s
  | .holdRequest bay cause cyc => Sys2Proof.Machine.execHoldRequest bay cause cyc s
  | .holdFreeze bay => Sys2Proof.Machine.execHoldFreeze bay s
  | .holdEnd bay passes => Sys2Proof.Machine.execHoldEnd bay passes s
  | .gatherExpiry pav => Sys2Proof.Machine.execGatherExpiry pav s
  | .tagClearV r first count segment => Sys2Proof.Machine.execTagClearV r first count segment s
  | .tagSetV r first count segment => Sys2Proof.Machine.execTagSetV r first count segment s
  | .tagSetSegment r first count segment => Sys2Proof.Machine.execTagSetSegment r first count segment s
  | .setMaskMode r first count segment => Sys2Proof.Machine.execSetMaskMode r first count segment s
  | .setCurrentSegment r first count segment => Sys2Proof.Machine.execSetCurrentSegment r first count segment s
  | .preemptionSwap pav slot => Sys2Proof.Machine.execPreemptionSwap pav slot s
  | .streamLayerFetch pav slot layer => Sys2Proof.Machine.execStreamLayerFetch pav slot layer s
  | .tailUnitWriteBack pav slot layer group => Sys2Proof.Machine.execTailUnitWriteBack pav slot layer group s
  | .park r target keep checkGen expectGen region codec => Sys2Proof.Machine.execPark r target keep checkGen expectGen region codec s
  | .parkRelease f session => Sys2Proof.Machine.execParkRelease f session s
  | .revive r early releaseLower checkGen expectGen => Sys2Proof.Machine.execRevive r early releaseLower checkGen expectGen s
  | .reviveComplete f session => Sys2Proof.Machine.execReviveComplete f session s
  | .migrate r dest checkGen expectGen pavilion celayPort kind peerNode fenceUs => Sys2Proof.Machine.execMigrate r dest checkGen expectGen pavilion celayPort kind peerNode fenceUs s
  | .migrationDrained f session => Sys2Proof.Machine.execMigrationDrained f session s
  | .migrationFenceTimeout f session => Sys2Proof.Machine.execMigrationFenceTimeout f session s
  | .place r object target keepLower region nearBase cores => Sys2Proof.Machine.execPlace r object target keepLower region nearBase cores s
  | .modelLoad r slot pavilion object replace => Sys2Proof.Machine.execModelLoad r slot pavilion object replace s
  | .modelLoadApply pav => Sys2Proof.Machine.execModelLoadApply pav s
  | .writeBack r object first count => Sys2Proof.Machine.execWriteBack r object first count s
  | .regionGrant r tier region base granules poolNode => Sys2Proof.Machine.execRegionGrant r tier region base granules poolNode s
  | .regionWithdraw r tier region => Sys2Proof.Machine.execRegionWithdraw r tier region s
  | .mapRead r object tile buf => Sys2Proof.Machine.execMapRead r object tile buf s
  | .shutterFetch engine obj tile read => Sys2Proof.Machine.execShutterFetch engine obj tile read s
  | .shutterWrite engine obj tile => Sys2Proof.Machine.execShutterWrite engine obj tile s
  | .shutterCopy engine obj tile => Sys2Proof.Machine.execShutterCopy engine obj tile s
  | .shutterSend engine obj tile => Sys2Proof.Machine.execShutterSend engine obj tile s
  | .tileArrival obj tile => Sys2Proof.Machine.execTileArrival obj tile s
  | .tileWriteAck w => Sys2Proof.Machine.execTileWriteAck w s
  | .tileTransferFailure w cause => Sys2Proof.Machine.execTileTransferFailure w cause s
  | .heldHatchWriteApply port => Sys2Proof.Machine.execHeldHatchWriteApply port s
  | .k4TableHeldWrite f table word v => Sys2Proof.Machine.execK4TableHeldWrite f table word v s
  | .k4TableCommitWrite f table v => Sys2Proof.Machine.execK4TableCommitWrite f table v s
  | .dirLookup r buf admin ignoreBlock mem => Sys2Proof.Machine.execDirLookup r buf admin ignoreBlock mem s
  | .dirInsert r buf admin mem => Sys2Proof.Machine.execDirInsert r buf admin mem s
  | .dirDelete r buf admin mem => Sys2Proof.Machine.execDirDelete r buf admin mem s
  | .dirUpdate r buf user admin mem => Sys2Proof.Machine.execDirUpdate r buf user admin mem s
  | .dirScan r first count buf maxLines admin => Sys2Proof.Machine.execDirScan r first count buf maxLines admin s
  | .dirSearchResult flips => Sys2Proof.Machine.execDirSearchResult flips s
  | .dirShadowRetry unread => Sys2Proof.Machine.execDirShadowRetry unread s
  | .dirCommit unread => Sys2Proof.Machine.execDirCommit unread s
  | .dirRecordHoldEnd row => Sys2Proof.Machine.execDirRecordHoldEnd row s
  | .dirScrubRow flips unread => Sys2Proof.Machine.execDirScrubRow flips unread s
  | .dirSpareBlockSwitch => Sys2Proof.Machine.execDirSpareBlockSwitch s
  | .txtTableLoad r kind ident object => Sys2Proof.Machine.execTxtTableLoad r kind ident object s
  | .txtTableUnload r kind ident => Sys2Proof.Machine.execTxtTableUnload r kind ident s
  | .txtTokenise r tokeniser special src bytes dst capacity mem => Sys2Proof.Machine.execTxtTokenise r tokeniser special src bytes dst capacity mem s
  | .txtAppend r src bytes special tokens mem => Sys2Proof.Machine.execTxtAppend r src bytes special tokens mem s
  | .txtDetok r tokeniser src count dst capacity mem => Sys2Proof.Machine.execTxtDetok r tokeniser src count dst capacity mem s
  | .txtSamplerSet r buf mem => Sys2Proof.Machine.execTxtSamplerSet r buf mem s
  | .txtLouverSet r grammar allow oneShot reset keepGrammar keepAllow => Sys2Proof.Machine.execTxtLouverSet r grammar allow oneShot reset keepGrammar keepAllow s
  | .txtStopSet r buf excludeStop mem => Sys2Proof.Machine.execTxtStopSet r buf excludeStop mem s
  | .resample r => Sys2Proof.Machine.execResample r s
  | .inject r token => Sys2Proof.Machine.execInject r token s
  | .dropPending r => Sys2Proof.Machine.execDropPending r s
  | .txtStateRead r buf => Sys2Proof.Machine.execTxtStateRead r buf s
  | .rclCreate r object buf mem => Sys2Proof.Machine.execRclCreate r object buf mem s
  | .rclInsert r object buf count mem => Sys2Proof.Machine.execRclInsert r object buf count mem s
  | .rclDelete r object buf count mem => Sys2Proof.Machine.execRclDelete r object buf count mem s
  | .rclPurge r object buf count mem => Sys2Proof.Machine.execRclPurge r object buf count mem s
  | .rclEdges r object buf count mem => Sys2Proof.Machine.execRclEdges r object buf count mem s
  | .rclEntry r object entries => Sys2Proof.Machine.execRclEntry r object entries s
  | .rclQuery r object qbuf rbuf k pick l maxExpand mem => Sys2Proof.Machine.execRclQuery r object qbuf rbuf k pick l maxExpand mem s
  | .rclDrop r object => Sys2Proof.Machine.execRclDrop r object s
  | .rclGraphWalk port => Sys2Proof.Machine.execRclGraphWalk port s
  | .pavLoad r buf count mem => Sys2Proof.Machine.execPavLoad r buf count mem s
  | .pavUnload r pavilion => Sys2Proof.Machine.execPavUnload r pavilion s
  | .pavTenantSet r buf mem => Sys2Proof.Machine.execPavTenantSet r buf mem s
  | .pavFuncTenant r function tenant => Sys2Proof.Machine.execPavFuncTenant r function tenant s
  | .pavExpedite r session => Sys2Proof.Machine.execPavExpedite r session s
  | .admissionWaitTimeout pav f session => Sys2Proof.Machine.execAdmissionWaitTimeout pav f session s
  | .levelPromotion => Sys2Proof.Machine.execLevelPromotion s
  | .snpTake r full => Sys2Proof.Machine.execSnpTake r full s
  | .snpInclude r object exclude => Sys2Proof.Machine.execSnpInclude r object exclude s
  | .portRestore r target region sourceRegion epoch report bad => Sys2Proof.Machine.execPortRestore r target region sourceRegion epoch report bad s
  | .sessionRestore r target region sourceRegion session epoch report bad => Sys2Proof.Machine.execSessionRestore r target region sourceRegion session epoch report bad s
  | .snpRetire r epoch => Sys2Proof.Machine.execSnpRetire r epoch s
  | .snpList r buf => Sys2Proof.Machine.execSnpList r buf s
  | .snpTimerFire port => Sys2Proof.Machine.execSnpTimerFire port s
  | .snpStepTrigger port => Sys2Proof.Machine.execSnpStepTrigger port s
  | .snapshotCut port => Sys2Proof.Machine.execSnapshotCut port s
  | .snapshotTileStored port obj tile => Sys2Proof.Machine.execSnapshotTileStored port obj tile s
  | .snapshotCommit port => Sys2Proof.Machine.execSnapshotCommit port s
  | .bootGo f v => Sys2Proof.Machine.execBootGo f v s
  | .bootImageReadDone mem => Sys2Proof.Machine.execBootImageReadDone mem s
  | .bootVerifyDone floorRead marginal => Sys2Proof.Machine.execBootVerifyDone floorRead marginal s
  | .secAttest r buf kem scope mem => Sys2Proof.Machine.execSecAttest r buf kem scope mem s
  | .attestSigned readBack => Sys2Proof.Machine.execAttestSigned readBack s
  | .pendingKeyExpiry => Sys2Proof.Machine.execPendingKeyExpiry s
  | .secKdRelease r buf mem => Sys2Proof.Machine.execSecKdRelease r buf mem s
  | .secKdCreate r kd sealFlag => Sys2Proof.Machine.execSecKdCreate r kd sealFlag s
  | .secKdBind r kd mask => Sys2Proof.Machine.execSecKdBind r kd mask s
  | .secKdRetire r kd => Sys2Proof.Machine.execSecKdRetire r kd s
  | .secIdRead r buf => Sys2Proof.Machine.execSecIdRead r buf s
  | .ideKmMessage port msg stream act => Sys2Proof.Machine.execIdeKmMessage port msg stream act s
  | .tdispMessage f msg act => Sys2Proof.Machine.execTdispMessage f msg act s
  | .portReset port cause => Sys2Proof.Machine.execPortReset port cause s
  | .vfFlr f => Sys2Proof.Machine.execVfFlr f s
  | .ringStart f v => Sys2Proof.Machine.execRingStart f v s
  | .ringStop f v => Sys2Proof.Machine.execRingStop f v s
  | .rqTailDoorbell f v => Sys2Proof.Machine.execRqTailDoorbell f v s
  | .requestFetchFault f => Sys2Proof.Machine.execRequestFetchFault f s
  | .cqHeadDoorbell f v => Sys2Proof.Machine.execCqHeadDoorbell f v s
  | .coalTimeout f => Sys2Proof.Machine.execCoalTimeout f s
  | .badOpcode r opcode => Sys2Proof.Machine.execBadOpcode r opcode s
  | .nop r => Sys2Proof.Machine.execNop r s
  | .ringFence r => Sys2Proof.Machine.execRingFence r s
  | .openSession r object kd pavilion slotKind modelSlot lmax tokeniser => Sys2Proof.Machine.execOpenSession r object kd pavilion slotKind modelSlot lmax tokeniser s
  | .stepSession r checkGen expectGen outBase outSize => Sys2Proof.Machine.execStepSession r checkGen expectGen outBase outSize s
  | .closeSession r checkGen expectGen => Sys2Proof.Machine.execCloseSession r checkGen expectGen s
  | .haltSession r => Sys2Proof.Machine.execHaltSession r s
  | .hatchRead port off len bad => Sys2Proof.Machine.execHatchRead port off len bad s
  | .hatchWrite port off data bad => Sys2Proof.Machine.execHatchWrite port off data bad s
  | .hcDoneRead port off => Sys2Proof.Machine.execHcDoneRead port off s
  | .hatchModeRequest port bay => Sys2Proof.Machine.execHatchModeRequest port bay s
  | .hatchExitRequest port bay => Sys2Proof.Machine.execHatchExitRequest port bay s
  | .hatchModeExit bay => Sys2Proof.Machine.execHatchModeExit bay s
  | .hatWindowWrite port n v => Sys2Proof.Machine.execHatWindowWrite port n v s
  | .hcStoreWrite port off data => Sys2Proof.Machine.execHcStoreWrite port off data s
  | .hatchAdd port bay c bad => Sys2Proof.Machine.execHatchAdd port bay c bad s
  | .hatchSub port bay c bad => Sys2Proof.Machine.execHatchSub port bay c bad s
  | .hatchMul port bay c bad => Sys2Proof.Machine.execHatchMul port bay c bad s
  | .hatchMulh port bay c bad => Sys2Proof.Machine.execHatchMulh port bay c bad s
  | .hatchMadd port bay c bad => Sys2Proof.Machine.execHatchMadd port bay c bad s
  | .hatchScale port bay c bad => Sys2Proof.Machine.execHatchScale port bay c bad s
  | .hatchShl port bay c bad => Sys2Proof.Machine.execHatchShl port bay c bad s
  | .hatchSar port bay c bad => Sys2Proof.Machine.execHatchSar port bay c bad s
  | .hatchFill port bay c bad => Sys2Proof.Machine.execHatchFill port bay c bad s
  | .hatchCopy port bay c bad => Sys2Proof.Machine.execHatchCopy port bay c bad s
  | .hatchSeth port bay c bad => Sys2Proof.Machine.execHatchSeth port bay c bad s
  | .hatchRun port bay c bad => Sys2Proof.Machine.execHatchRun port bay c bad s
  | .hatchCommandDone bay bad => Sys2Proof.Machine.execHatchCommandDone bay bad s
  | .flitTransmit cport => Sys2Proof.Machine.execFlitTransmit cport s
  | .flitReceive cport flit corrected => Sys2Proof.Machine.execFlitReceive cport flit corrected s
  | .gateEntryAdvance cport => Sys2Proof.Machine.execGateEntryAdvance cport s
  | .pushOpen cport => Sys2Proof.Machine.execPushOpen cport s
  | .pushData cport => Sys2Proof.Machine.execPushData cport s
  | .pushEnd cport => Sys2Proof.Machine.execPushEnd cport s
  | .pushAbort cport => Sys2Proof.Machine.execPushAbort cport s
  | .streamIdleTimeout cport tag => Sys2Proof.Machine.execStreamIdleTimeout cport tag s
  | .handOffer cport tables => Sys2Proof.Machine.execHandOffer cport tables s
  | .handAccept cport => Sys2Proof.Machine.execHandAccept cport s
  | .handRefuse cport => Sys2Proof.Machine.execHandRefuse cport s
  | .handData cport => Sys2Proof.Machine.execHandData cport s
  | .handEnd cport => Sys2Proof.Machine.execHandEnd cport s
  | .handDone cport => Sys2Proof.Machine.execHandDone cport s
  | .handAbort cport => Sys2Proof.Machine.execHandAbort cport s
  | .poolWriteAck cport => Sys2Proof.Machine.execPoolWriteAck cport s
  | .poolReadData cport => Sys2Proof.Machine.execPoolReadData cport s
  | .poolError cport => Sys2Proof.Machine.execPoolError cport s
  | .poolTimeout tag => Sys2Proof.Machine.execPoolTimeout tag s
  | .celayEnable f cport v => Sys2Proof.Machine.execCelayEnable f cport v s
  | .celayDisable f cport v => Sys2Proof.Machine.execCelayDisable f cport v s
  | .celayLinkUp cport lanes => Sys2Proof.Machine.execCelayLinkUp cport lanes s
  | .celayBringupRetry cport => Sys2Proof.Machine.execCelayBringupRetry cport s
  | .laneSwap cport lane => Sys2Proof.Machine.execLaneSwap cport lane s
  | .profileWrite src slot mem => Sys2Proof.Machine.execProfileWrite src slot mem s
  | .profileWriteCommit fault => Sys2Proof.Machine.execProfileWriteCommit fault s
  | .profileErase src slot fault => Sys2Proof.Machine.execProfileErase src slot fault s
  | .selectWarm src slot => Sys2Proof.Machine.execSelectWarm src slot s
  | .consentTimeout => Sys2Proof.Machine.execConsentTimeout s
  | .selectWarmApply => Sys2Proof.Machine.execSelectWarmApply s
  | .setNext src slot => Sys2Proof.Machine.execSetNext src slot s
  | .clearNext src => Sys2Proof.Machine.execClearNext src s
  | .farTrainingDone sites density rate => Sys2Proof.Machine.execFarTrainingDone sites density rate s
  | .aonPowerUp => Sys2Proof.Machine.execAonPowerUp s
  | .dozeEntry bay => Sys2Proof.Machine.execDozeEntry bay s
  | .restEntry bay => Sys2Proof.Machine.execRestEntry bay s
  | .restEntryDone bay => Sys2Proof.Machine.execRestEntryDone bay s
  | .wakeDecision => Sys2Proof.Machine.execWakeDecision s
  | .bayWakeStart => Sys2Proof.Machine.execBayWakeStart s
  | .bayRunReady bay passes => Sys2Proof.Machine.execBayRunReady bay passes s
  | .bayOffRequest port bay => Sys2Proof.Machine.execBayOffRequest port bay s
  | .bayOffRelease port bay => Sys2Proof.Machine.execBayOffRelease port bay s
  | .bayOffDone bay passes => Sys2Proof.Machine.execBayOffDone bay passes s
  | .hubQuietEntry => Sys2Proof.Machine.execHubQuietEntry s
  | .hubReturn => Sys2Proof.Machine.execHubReturn s
  | .effectiveCapChange => Sys2Proof.Machine.execEffectiveCapChange s
  | .sensorReading readings => Sys2Proof.Machine.execSensorReading readings s
  | .pinLevelAccepted pin level => Sys2Proof.Machine.execPinLevelAccepted pin level s
  | .fastToggleHoldExpiry pin => Sys2Proof.Machine.execFastToggleHoldExpiry pin s
  | .pinStuck pin => Sys2Proof.Machine.execPinStuck pin s
  | .wakeTimerFire port timer => Sys2Proof.Machine.execWakeTimerFire port timer s
  | .wakeTimerPrewake port timer => Sys2Proof.Machine.execWakeTimerPrewake port timer s
  | .ghNoticeClear port v => Sys2Proof.Machine.execGhNoticeClear port v s
  | .ghNoticeEnWrite port v => Sys2Proof.Machine.execGhNoticeEnWrite port v s
  | .ghFiredClear port word v => Sys2Proof.Machine.execGhFiredClear port word v s
  | .pldmSensorRead ident measured => Sys2Proof.Machine.execPldmSensorRead ident measured s
  | .pldmEffecterSet ident v => Sys2Proof.Machine.execPldmEffecterSet ident v s
  | .pldmErrorLogRead repairs => Sys2Proof.Machine.execPldmErrorLogRead repairs s
  | .deskewPhaseAlarm core line error cyc => Sys2Proof.Machine.execDeskewPhaseAlarm core line error cyc s
  | .farRetrainWindow => Sys2Proof.Machine.execFarRetrainWindow s
  | .farRetrainBurst => Sys2Proof.Machine.execFarRetrainBurst s
  | .farBurstEnd => Sys2Proof.Machine.execFarBurstEnd s
  | .farDeviceTempChange channel => Sys2Proof.Machine.execFarDeviceTempChange channel s
  | .clockMonitorWindow bay ppm lockLost cyc => Sys2Proof.Machine.execClockMonitorWindow bay ppm lockLost cyc s
  | .hubClockFault fault => Sys2Proof.Machine.execHubClockFault fault s
  | .errorRecordRetire source => Sys2Proof.Machine.execErrorRecordRetire source s
  | .errorMuteEnd source => Sys2Proof.Machine.execErrorMuteEnd source s
  | .errPop port => Sys2Proof.Machine.execErrPop port s
  | .correctedLineRewrite place corrected again => Sys2Proof.Machine.execCorrectedLineRewrite place corrected again s
  | .nearScrubRead bay bad => Sys2Proof.Machine.execNearScrubRead bay bad s
  | .farScrubRead bad line => Sys2Proof.Machine.execFarScrubRead bad line s
  | .engineSpareSwitch kind engine => Sys2Proof.Machine.execEngineSpareSwitch kind engine s
  | .moduleResetEntry cause => Sys2Proof.Machine.execModuleResetEntry cause s
  | .moduleResetRelease => Sys2Proof.Machine.execModuleResetRelease s
  | .hubPllLock => Sys2Proof.Machine.execHubPllLock s
  | .portTrainEnable port => Sys2Proof.Machine.execPortTrainEnable port s
  | .tapBypass tdi => Sys2Proof.Machine.execTapBypass tdi s
  | .tapIdcode => Sys2Proof.Machine.execTapIdcode s
  | .tapSamplePreload pins data => Sys2Proof.Machine.execTapSamplePreload pins data s
  | .tapExtest pins data => Sys2Proof.Machine.execTapExtest pins data s
  | .tapClamp tdi => Sys2Proof.Machine.execTapClamp tdi s
  | .tapHighz tdi => Sys2Proof.Machine.execTapHighz tdi s
  | .tapExtestPulse pins data => Sys2Proof.Machine.execTapExtestPulse pins data s
  | .tapExtestTrain pins data => Sys2Proof.Machine.execTapExtestTrain pins data s
  | .irqEnableSet f v => Sys2Proof.Machine.execIrqEnableSet f v s
  | .completionWriteFault f => Sys2Proof.Machine.execCompletionWriteFault f s
  | .trlCmdBadOp port op => Sys2Proof.Machine.execTrlCmdBadOp port op s
  | .snapshotTargetSet f v => Sys2Proof.Machine.execSnapshotTargetSet f v s
  | .hcSubmitHeldWrite port off data => Sys2Proof.Machine.execHcSubmitHeldWrite port off data s
  | .hatchUnallocatedOp port bay op c => Sys2Proof.Machine.execHatchUnallocatedOp port bay op c s
  | .powerWindowEnd watts => Sys2Proof.Machine.execPowerWindowEnd watts s

end Sys2Proof.Machine
end

