-- ==== Sys2Proof/Machine/Idle.lean ====
section
/-! DEFINITION. What the block does when no command waits (DESIGN CHOICE, log 1): a request that it holds and that may run now
does, or else one ACLK cycle passes (R406). -/

namespace Sys2Proof.Machine

/-- Bays with work are not idle (R408). -/
def idleBays (s : State) : State :=
  ((List.range 20).filter (bayBusy s)).foldl (fun s b => onBay b (fun x => { x with idleSince := s.time }) s) s

/-- One ACLK cycle: device time adds 40 ns and HCLK 60 cycles; what has work is not idle (R405, R406, R408, R410). -/
def tick (s : State) : State :=
  let s := { noteReadyAll s with time := s.time + 40, hclk := s.hclk + 60 }
  idleBays (if hubBusy s then { s with hub := { s.hub with idleSince := s.time } } else s)

/-- Pavilions between frames fill their free slots once every request due between their frames has taken effect (R261, R264). -/
def refill (s : State) : State :=
  noteReadyAll (((s.pavs.map (·.1)).filter (fun n => ! pavInFrame s n)).foldl (fun s n => fillAll [n] s) s)

/-- Step with no command waiting. -/
def idle (s : State) : Host.Outcome State Fault Refusal :=
  match nextHeld s [] s.held with
  | none => .next (tick s)
  | some (h, rest) =>
    match exec h.cmd { s with held := rest, releasing := some h.id } with
    | .next t => .next (refill { t with releasing := none })
    | .fault r => .fault r
    | .refused r => .refused r

end Sys2Proof.Machine
end

