-- ==== Sys2Proof/Safety.lean ====
section
/-! DEFINITION. What the statements say runs about: which commands answer a next state, when the hub takes a request, when a
core issues, and the invariant of the clocks. -/

namespace Sys2Proof.Machine

/-- What a stored register holds once a value is written to it (R9): the bits that may be written and that no other command
governs take the value's, and a FENCE_US of 0 is taken as 1. -/
def written (row : RegRow) (off old v : Nat) : Nat :=
  let m := row.rw - (row.rw &&& governed off)
  let x := (old - (old &&& m)) ||| (v &&& m)
  if off = 0xB0000 ∧ bits x 12 31 = 0 then setBits x 12 31 1 else x

/-- `low` is the low half that a function's write of a high half combines with (R8): the held one when the write holding register
was last filled for the same register, and the current one otherwise. -/
abbrev Combines (s : State) (f : Fn) (bar off cur low : Nat) : Prop :=
  mget? s.writeHold f.key = some ⟨bar, off, low⟩ ∨
    (∀ h, mget? s.writeHold f.key = some h → ¬ (h.bar = bar ∧ h.off = off)) ∧ low = cur

/-- No step refuses or faults: a step answers a next state. -/
def State.goes (s : State) : Prop := ∃ t, step s = .next t

/-- The next index of the identity key lies in the block of 64 last reserved, or at its end (R312). -/
def InBlock (x : Security) : Prop := 64 * (x.block - 1) ≤ x.next ∧ x.next ≤ 64 * x.block

/-- The invariant of the block: the clocks keep their ratio and device time its step (R405, R406), host memory and the near tier their
canonical form, and the next signing index lies in the block last reserved (R312). -/
structure Sound (s : State) : Prop where
  clocks : 2 * s.hclk = 3 * s.time
  ticks : s.time % 40 = 0
  host : Memory.wf s.hostMem = true
  near : Memory.wf s.near = true
  signed : InBlock s.sec

/-- The function's ring holds a request to fetch, no held request is being released, and neither the function's interface nor
the request's header refuses it (R329, R340 to R342). -/
abbrev Takes (s : State) (r : Req) : Prop :=
  s.releasing = none ∧ fetchable s r.fn.key = true ∧ tdiOf s r.fn.key ≠ .error ∧ r.stray = none ∧
    (r.admin = true → r.fn.isPf = true)

/-- What names the request at the head of a function's ring once it is fetched. -/
def takenId (s : State) (r : Req) (op : Nat) : ReqId :=
  ⟨r.fn.key, (ringOf s r.fn.key).seq, (ringOf s r.fn.key).epoch, op, r.tag.toNat, r.session.toNat, r.identity.key, r.noWrite⟩

/-- The state once the request at the head of a function's ring is fetched: RQ_HEAD has passed it (R340). -/
def taken (s : State) (r : Req) (op : Nat) : State :=
  let q := ringOf s r.fn.key
  setRing r.fn.key { q with
    rqHead := (q.rqHead + 1) % 2 ^ q.rqLogL, seq := q.seq + 1, fetched := q.fetched ++ [takenId s r op] } s

/-- The state once a session request is fetched and its directory search is counted, retried on the shadow where rows are suspect
(R183, R200, R340). -/
def found (s : State) (r : Req) (op : Nat) : State :=
  searchNow false (sessDirKey r.identity.key r.session.toNat) (countSearch (fnPort r.fn.key) (taken s r op))

/-- The request names a session that its directory search finds, whatever its opcode (R183, R351): `key` names it, `x` is the hub's
account of it. -/
abbrev Finds (s : State) (r : Req) (key : Nat) (x : Session) : Prop :=
  key = sessKey r.identity.key r.session.toNat ∧ mget? s.sessions key = some x ∧
    ∀ op, ∃ n e, dirSearch (found s r op).dir.rows false (sessDirKey r.identity.key r.session.toNat) (found s r op).dir.epoch false
      = some (n, e) ∧ e.data.state ≠ 4

/-- Nothing holds a request for the session back (R27, R158, R350): it has no run, and no earlier request is in effect for it
or waits. -/
abbrev Clear (s : State) (key : Nat) (x : Session) (landing : Bool) : Prop :=
  x.run = none ∧ sessBlocked s key x landing = false ∧ sessWaits s key = false

/-- Nothing holds a request that takes effect between frames back (R120, R232). -/
abbrev Between (s : State) (key : Nat) (x : Session) : Prop :=
  sessBlocked s key x false = false ∧ sessWaits s key = false ∧ inFrame s x = false

/-- Nothing holds a request for an object back (R255): no other is in effect for it or waits. -/
abbrev Idle (s : State) (key : Nat) : Prop := objBusy s key = false ∧ s.held.any (fun h => h.why = .object key) = false

/-- The instruction's outcome is `o` when its core issues it: the frame `key`, which stands as `f`, runs, and the core's program
places the instruction at the frame cycle (R23, R65). -/
abbrev Runs (s : State) (k : Fin 10240) (cyc key : Nat) (f : Frame) (i : Instr) (o : Host.Outcome State Fault Refusal) : Prop :=
  issues s k cyc i = some (key, f) → exec i s = o

/-- A vector instruction's outcome: its lane results of `w` bits land in the enabled lanes of Vd after the latency, with the
enabled lanes' flags (R32, R33, R59, R63). -/
def vecNext (s : State) (k : Fin 10240) (cyc key : Nat) (f : Frame) (vd : Fin 32) (m : Mask) (w lat : Nat)
    (rs : List (LaneRes Nat)) : Host.Outcome State Fault Refusal :=
  let c := coreNow s k cyc
  let on := laneOn c m rs.length
  .next (issued s k cyc key f (fly (cyc + lat) (.vec vd (laneBits w on) (ofLanes w (rs.map (·.val)))) c)
    (laneFlags on (rs.map (·.flags))))

/-- A scalar instruction's outcome: its result may be read one core cycle later and no flag is raised (R57, R59). -/
def scalNext (s : State) (k : Fin 10240) (cyc key : Nat) (f : Frame) (sd : Fin 16) (x : DWord) :
    Host.Outcome State Fault Refusal :=
  .next (issued s k cyc key f (fly (cyc + 1) (.scal sd x) (coreNow s k cyc)) 0)

end Sys2Proof.Machine
end

