-- ==== Sys2Proof/WellFormed.lean ====
section
/-! DEFINITION. What a command's operands must satisfy to stand for something that can reach the block: accesses lie inside
their BAR, flits have their length, sensors exist, and levels have their width. -/

namespace Sys2Proof

/-- The bytes of a function's BAR (R337). -/
def barSize (f : Fn) : Bar → Nat
  | .bar0 => if f.isPf then 0x4000000 else 0x100000
  | .bar4 => if f.isPf then 0x1000000 else 0x40000

/-- An aligned 32-bit access inside a BAR (R7, R337). -/
def barAccess (f : Fn) (bar : Bar) (off : Nat) : Bool := off % 4 = 0 && decide (off < barSize f bar)

/-- An access inside the eight windows of BAR2 (R353). -/
def winAccess (off len : Nat) : Bool := decide (0 < len) && decide (off + len ≤ 2 ^ 36)

/-- Whether an identifier names a temperature sensor (R425). -/
def isSensor (id : Nat) : Bool := id = 3 || (decide (10 ≤ id) && decide (id < 30)) || (decide (40 ≤ id) && decide (id < 60))

/-- Whether a command is well formed; commands whose operand types say everything are. -/
def Instr.wf : Instr → Bool
  | .lowHalfRead f bar off => barAccess f bar off
  | .lowHalfWrite f bar off _ => barAccess f bar off
  | .highHalfWrite f bar off _ => barAccess f bar off
  | .registerWrite f bar off _ => barAccess f bar off
  | .undecodedAccess f bar off _ => barAccess f bar off
  | .misalignedRegisterAccess f off size _ => decide (off < barSize f .bar0) && decide (size ≠ 4 ∨ off % 4 ≠ 0)
  | .vfBar0Write f off _ => ! f.isPf && decide (off < barSize f .bar0)
  | .hatchWrite _ off data _ => winAccess off data.length
  | .hatchRead _ off len _ => winAccess off len
  | .flitReceive _ (some bs) _ => decide (bs.length = 1040)
  | .sensorReading rs => rs.all (fun r => isSensor r.1 && decide (r.2 < 256))
  | .pinLevelAccepted p level => p = .profileSel || decide (level.val < 2)
  | _ => true

end Sys2Proof
end

