-- ==== Sys2Proof/Certificates/Slice0/Obligations.lean ====
section
/-! DEFINITION. The statements for the provers. -/

open Sys2Proof Sys2Proof.Machine

/-! ### The queue -/

/-- A step carries out the command at the front of the queue, on the state that holds the rest of it. -/
def Obligations.StepRunsFront : Prop :=
  ∀ (c : Instr) (cs : List Instr) (s : State), step { s with pending := c :: cs } = exec c { s with pending := cs }

/-- With nothing waiting and no held request ready, a step is one ACLK cycle: 40 ns and 60 HCLK cycles (R405, R406; that an idle
step stands for one cycle is the model's choice, log 1). Only the idle times of the hub and of busy bays move with it. -/
def Obligations.IdleStepIsOneCycle : Prop :=
  ∀ s : State, s.pending = [] → nextHeld s [] s.held = none →
    ∃ t, step s = .next t ∧ t.time = s.time + 40 ∧ t.hclk = s.hclk + 60 ∧
      { t with time := s.time, hclk := s.hclk, bays := s.bays, hub := s.hub } = s ∧
      { t.hub with idleSince := s.hub.idleSince } = s.hub

/-! ### Registers -/

/-- Refused accesses complete by being recorded (R7, R486, R487): a misaligned or partial BAR0 access, a write that no register
decodes and a virtual function's write change nothing but the error log; a misaligned read answers zeros in every byte and is
recorded too, and a read that no register decodes answers zero and is not recorded. -/
def Obligations.RefusedAccessesAreRecorded : Prop :=
  (∀ (f : Fn) (off size : Nat) (s : State), inBar f .bar0 off = true → (size ≠ 4 ∨ off % 4 ≠ 0) →
    exec (.misalignedRegisterAccess f off size true) s = .next (raiseErr (regAccessErr f .bar0 off size true) s) ∧
    exec (.misalignedRegisterAccess f off size false) s =
      .next { raiseErr (regAccessErr f .bar0 off size false) s with reply := .bytes (List.replicate size 0) }) ∧
  (∀ (f : Fn) (bar : Bar) (off : Nat) (s : State), inBar f bar off = true → off % 4 = 0 → decodes f bar off = false →
    exec (.undecodedAccess f bar off true) s = .next (raiseErr (regAccessErr f bar off 4 true) s) ∧
    exec (.undecodedAccess f bar off false) s = .next { s with reply := .word 0 }) ∧
  (∀ (f : Fn) (off size : Nat) (s : State), f.isPf = false → inBar f .bar0 off = true →
    exec (.vfBar0Write f off size) s = .next (raiseErr (regAccessErr f .bar0 off size true) s))

/-- LOW_HALF_READ (R8): reading the low half of a 64-bit BAR0 register answers it and fills the function's read holding register
with the high half and the register's address; reading the high half answers the held half when the holding register was last
filled for that register and the live one otherwise, and leaves the holding register as it is; a read of a 32-bit register
answers it. Nothing else changes. -/
def Obligations.ReadsFollowTheHoldingRegister : Prop :=
  ∀ (f : Fn) (off : Nat) (s : State), off % 4 = 0 → inBar f .bar0 off = true → decodes f .bar0 off = true →
    (isLow off = true → isHigh off = false →
      exec (.lowHalfRead f .bar0 off) s = .next { s with
        readHold := mput s.readHold f.key ⟨0, off, regView s f off / 2 ^ 32 % 2 ^ 32⟩
        reply := .word (BitVec.ofNat 32 (regView s f off)) }) ∧
    (isHigh off = true → ∀ v, mget? s.readHold f.key = some ⟨0, off - 4, v⟩ →
      exec (.lowHalfRead f .bar0 off) s = .next { s with reply := .word (BitVec.ofNat 32 v) }) ∧
    (isHigh off = true → (∀ h, mget? s.readHold f.key = some h → ¬ (h.bar = 0 ∧ h.off = off - 4)) →
      exec (.lowHalfRead f .bar0 off) s =
        .next { s with reply := .word (BitVec.ofNat 32 (regView s f (off - 4) / 2 ^ 32)) }) ∧
    (isHigh off = false → isLow off = false →
      exec (.lowHalfRead f .bar0 off) s = .next { s with reply := .word (BitVec.ofNat 32 (regView s f off)) })

/-- LOW_HALF_WRITE and HIGH_HALF_WRITE (R8, R9, R329): a function's write of the low half of a register it may write goes to its
write holding register and nowhere else; its write of the high half sets the register's writable bits from the high half and the
held low half (the current one, where the holding register was last filled for another register) and empties the holding
register. A PAV_ASSIGN change that a locked interface forbids is not made, and the interface moves to ERROR. In BAR4 the ring
bases take their 4 KiB-aligned value in the same way. A half that the function may not write leaves the holding register and the
register as they were (that of the holding register is the model's choice, log 97), and is recorded where the rule on its region
says so. REGISTER_WRITE (R9, R339): a physical function's write to a 32-bit register sets its RW bits that no other command
governs, and every other bit and every other register keeps its value; FENCE_US written 0 is held as 1. A write that its region
drops or records sets nothing. In BAR4 a function's own ring takes RQ_SIZE and CQ_SIZE, and RING_CTRL its coalescing fields, a 0
in IRQ_ENABLE, and the interrupt that they now call for; a write to another function's share, or to no register of its own, is
discarded. -/
def Obligations.RegisterWritesSetTheirFields : Prop :=
  (∀ (f : Fn) (off : Nat) (v : Word) (s : State),
      let p := f.port.idx
      let lo := off - 4
      let emptied : State := { s with writeHold := mdel s.writeHold f.key }
      (f.isPf = true → decodes f .bar0 off = true → isLow off = true →
        (writeGate s f off = .open →
          exec (.lowHalfWrite f .bar0 off v) s = .next { s with writeHold := mput s.writeHold f.key ⟨0, off, v.toNat⟩ }) ∧
        (writeGate s f off = .dropped → exec (.lowHalfWrite f .bar0 off v) s = .next s) ∧
        (writeGate s f off = .recorded →
          exec (.lowHalfWrite f .bar0 off v) s = .next (raiseErr (regAccessErr f .bar0 off 4 true) s))) ∧
      (f.isPf = true → decodes f .bar0 off = true → isHigh off = true →
        (∀ (row : RegRow) (low : Nat), writeGate s f off = .open → regRow lo = some row →
          Combines s f 0 lo (regGet s p lo % 2 ^ 32) low →
          let old := regGet s p lo
          let new := written row lo old (low + 2 ^ 32 * v.toNat)
          let hit := if isAssign lo then lockedFns s p (old ^^^ new) else []
          exec (.highHalfWrite f .bar0 off v) s = .next (if hit = [] then regSet p lo new emptied else tdiError hit emptied)) ∧
        (writeGate s f off = .dropped → exec (.highHalfWrite f .bar0 off v) s = .next s) ∧
        (writeGate s f off = .recorded →
          exec (.highHalfWrite f .bar0 off v) s = .next (raiseErr (regAccessErr f .bar0 off 4 true) s))) ∧
      (f.isPf = false → exec (.lowHalfWrite f .bar0 off v) s = .next s ∧ exec (.highHalfWrite f .bar0 off v) s = .next s) ∧
      (shareOf f off = (f.key, 0x1000) ∨ shareOf f off = (f.key, 0x1010) →
        exec (.lowHalfWrite f .bar4 off v) s = .next { s with writeHold := mput s.writeHold f.key ⟨4, off, v.toNat⟩ }) ∧
      (∀ low : Nat, shareOf f off = (f.key, 0x1004) → Combines s f 4 lo ((ringOf s f.key).rqBase % 2 ^ 32) low →
        exec (.highHalfWrite f .bar4 off v) s = .next
          (setRing f.key { ringOf s f.key with rqBase := (low + 2 ^ 32 * v.toNat) / 4096 * 4096 } emptied)) ∧
      (∀ low : Nat, shareOf f off = (f.key, 0x1014) → Combines s f 4 lo ((ringOf s f.key).cqBase % 2 ^ 32) low →
        exec (.highHalfWrite f .bar4 off v) s = .next
          (setRing f.key { ringOf s f.key with cqBase := (low + 2 ^ 32 * v.toNat) / 4096 * 4096 } emptied)) ∧
      ((shareOf f off).1 ≠ f.key →
        exec (.lowHalfWrite f .bar4 off v) s = .next s ∧ exec (.highHalfWrite f .bar4 off v) s = .next s)) ∧
  (∀ (f : Fn) (off : Nat) (v : Word) (s : State),
      let p := f.port.idx
      let q := ringOf s f.key
      (f.isPf = true → decodes f .bar0 off = true → isLow off = false → isHigh off = false →
        (∀ row : RegRow, writeGate s f off = .open → regRow off = some row →
          let new := written row off (regGet s p off) v.toNat
          let hit := if isAssign off then lockedFns s p (regGet s p off ^^^ new) else []
          exec (.registerWrite f .bar0 off v) s = .next (if hit = [] then regSet p off new s else tdiError hit s)) ∧
        (writeGate s f off = .dropped → exec (.registerWrite f .bar0 off v) s = .next s) ∧
        (writeGate s f off = .recorded →
          exec (.registerWrite f .bar0 off v) s = .next (raiseErr (regAccessErr f .bar0 off 4 true) s))) ∧
      (f.isPf = false → exec (.registerWrite f .bar0 off v) s = .next s) ∧
      (shareOf f off = (f.key, 0x1008) →
        exec (.registerWrite f .bar4 off v) s = .next (setRing f.key { q with rqSize := v.toNat % 32 } s)) ∧
      (shareOf f off = (f.key, 0x1018) →
        exec (.registerWrite f .bar4 off v) s = .next (setRing f.key { q with cqSize := v.toNat % 32 } s)) ∧
      (shareOf f off = (f.key, 0x1020) → exec (.registerWrite f .bar4 off v) s =
        .next (fireCoal f.key (setRing f.key { q.coal v with irqEnable := q.irqEnable && bitOf v.toNat 1 } s))) ∧
      ((shareOf f off).1 ≠ f.key ∨ (shareOf f off).2 ∉ [0x1008, 0x1018, 0x1020] →
        exec (.registerWrite f .bar4 off v) s = .next s))

/-- BAY_ARITH_FLAGS_CLEAR (R17, R63): a 1 clears that flag in the port's copy, a 0 leaves it; BAY_ARITH_FIRST of that copy becomes 0
once every flag is clear and keeps its value otherwise. The other port's copies keep theirs. -/
def Obligations.ArithFlagsClearOnOnes : Prop :=
  ∀ (f : Fn) (pbay : Fin 21) (v : Word) (s : State), f.isPf = true → bayOfPort s f.port.idx pbay.val = true →
    let at0 := 0x1000000 + pbay.val * 0x100000
    let old := regGet s f.port.idx (at0 + 0x80000)
    old < 2 ^ 32 →
    ∃ t, exec (.bayArithFlagsClear f pbay v) s = .next t ∧
      regGet t f.port.idx (at0 + 0x80000) = old - (old &&& (v.toNat % 32)) ∧
      (old - (old &&& (v.toNat % 32)) = 0 → regGet t f.port.idx (at0 + 0x80004) = 0) ∧
      (old - (old &&& (v.toNat % 32)) ≠ 0 →
        regGet t f.port.idx (at0 + 0x80004) = regGet s f.port.idx (at0 + 0x80004)) ∧
      regGet t f.port.other.idx (at0 + 0x80000) = regGet s f.port.other.idx (at0 + 0x80000) ∧
      regGet t f.port.other.idx (at0 + 0x80004) = regGet s f.port.other.idx (at0 + 0x80004) ∧
      { t with regs := s.regs, cores := s.cores } = s

/-- K4_TABLE_HELD_WRITE and K4_TABLE_COMMIT_WRITE (R177): a write to word 0, 1 or 2 of a hub K4 table is held and changes no table;
a write to word 3 sets it and each held word, which is held no longer, and leaves a word that is not held as it was. -/
def Obligations.K4TablesChangeWhole : Prop :=
  (∀ (f : Fn) (n : Fin 16) (w : Fin 3) (v : Word) (s : State), f.isPf = true → responds s (k4Off n w) = true →
    exec (.k4TableHeldWrite f n w v) s =
      .next { s with k4Held := mput s.k4Held (k4Key f.port.idx n w) v.toNat }) ∧
  (∀ (f : Fn) (n : Fin 16) (v : Word) (s : State), f.isPf = true → responds s (k4Off n 3) = true →
    mapWf s.k4Held = true → (∀ w x, mget? s.k4Held (k4Key f.port.idx n w) = some x → x < 2 ^ 32) →
    ∃ t, exec (.k4TableCommitWrite f n v) s = .next t ∧
      regGet t f.port.idx (k4Off n 3) = v.toNat ∧
      (∀ w : Fin 3, regGet t f.port.idx (k4Off n w) =
        (mget? s.k4Held (k4Key f.port.idx n w)).getD (regGet s f.port.idx (k4Off n w))) ∧
      (∀ w : Fin 3, mget? t.k4Held (k4Key f.port.idx n w) = none) ∧
      { t with regs := s.regs, k4Held := s.k4Held } = s)

/-! ### Sliver cores -/

/-- VADD, VSUB, VMUL, VFMA, VMAX, VMIN and VABS on a core that issues (R54, R59): lane by lane the operation on the FP32 elements
the registers hold at issue, VSUB as the sum with the second operand's sign changed; latency 4. The core's other registers, its
memories and every other core keep what they hold (`vecNext` names all that changes). VMAX and VMIN return NaN if either operand
is NaN, and VMAX treats +0 as greater than −0 (R54); on other values the result is one of the operands, and no operand lies
above VMAX's or below VMIN's in the order of `fpBelow`. -/
def Obligations.VectorFp32Results : Prop :=
  (∀ (k : Fin 10240) (cyc key : Nat) (f : Frame) (vd va vb vc : Fin 32) (m : Mask) (s : State),
      let c := coreNow s k cyc
      Runs s k cyc key f (.vadd k cyc vd va vb m) (vecNext s k cyc key f vd m 32 4 (fpBin fpAdd (c.vreg va) (c.vreg vb))) ∧
      Runs s k cyc key f (.vsub k cyc vd va vb m)
        (vecNext s k cyc key f vd m 32 4 (fpBin (fun x y => fpAdd x y.flip) (c.vreg va) (c.vreg vb))) ∧
      Runs s k cyc key f (.vmul k cyc vd va vb m) (vecNext s k cyc key f vd m 32 4 (fpBin fpMul (c.vreg va) (c.vreg vb))) ∧
      Runs s k cyc key f (.vfma k cyc vd va vb vc m)
        (vecNext s k cyc key f vd m 32 4 (fpTer fpFma (c.vreg va) (c.vreg vb) (c.vreg vc))) ∧
      Runs s k cyc key f (.vmax k cyc vd va vb m) (vecNext s k cyc key f vd m 32 4 (fpBin fpMax (c.vreg va) (c.vreg vb))) ∧
      Runs s k cyc key f (.vmin k cyc vd va vb m) (vecNext s k cyc key f vd m 32 4 (fpBin fpMin (c.vreg va) (c.vreg vb))) ∧
      Runs s k cyc key f (.vabs k cyc vd va m) (vecNext s k cyc key f vd m 32 4 (fpUn fpAbs (c.vreg va)))) ∧
  ((∀ x y : FVal, x.isNan = true ∨ y.isNan = true → fpMax x y = ⟨fp32Nan, 0⟩ ∧ fpMin x y = ⟨fp32Nan, 0⟩) ∧
    (∀ (e g : Int), fpMax (.fin false 0 e) (.fin true 0 g) = ⟨0, 0⟩ ∧ fpMax (.fin true 0 e) (.fin false 0 g) = ⟨0, 0⟩) ∧
    (∀ x y : FVal, x.isNan = false → y.isNan = false →
      (fpMax x y = ⟨fp32OfVal x, 0⟩ ∧ fpBelow x y = false ∨ fpMax x y = ⟨fp32OfVal y, 0⟩ ∧ fpBelow y x = false) ∧
      (fpMin x y = ⟨fp32OfVal y, 0⟩ ∧ fpBelow x y = false ∨ fpMin x y = ⟨fp32OfVal x, 0⟩ ∧ fpBelow y x = false)))

/-- Every FP32 element that is not NaN is its value's own encoding: decoding it and rounding the exact value to FP32 gives it back,
so an exact result is never changed by the rounding (R39, R54). -/
def Obligations.Fp32ValuesAreTheirOwnRounding : Prop :=
  ∀ w : Word, (fp32Val w).isNan = false → fp32OfVal (fp32Val w) = w

/-- The INT16 instructions on a core that issues (R56, R59), lane by lane on 64 lanes: VADD.I16, VSUB.I16, VMUL.I16 and VMADD.I16
saturate the exact result, VMULH.I16 gives the upper half of the exact product, the .W forms wrap modulo 2^16, and the shifts
are saturating on the left and arithmetic on the right (a negative amount is a free value, log 5). Latency 2, and 3 for
VMADD.I16. INT16 saturation and wrapping (R56): a result in range is itself and raises nothing, one out of range becomes the
nearest bound and sets SATURATE, and a wrapped result is the exact one modulo 2^16 and raises nothing. -/
def Obligations.VectorInt16Results : Prop :=
  (∀ (k : Fin 10240) (cyc key : Nat) (f : Frame) (vd va vb vc : Fin 32) (m : Mask) (s : State),
      let c := coreNow s k cyc
      let out (g : Int → Int → LaneRes Nat) := vecNext s k cyc key f vd m 16 2 (i16Bin g (c.vreg va) (c.vreg vb))
      Runs s k cyc key f (.vaddI16 k cyc vd va vb m) (out (fun x y => sat16 (x + y))) ∧
      Runs s k cyc key f (.vsubI16 k cyc vd va vb m) (out (fun x y => sat16 (x - y))) ∧
      Runs s k cyc key f (.vmulI16 k cyc vd va vb m) (out (fun x y => sat16 (x * y))) ∧
      Runs s k cyc key f (.vmulhI16 k cyc vd va vb m) (out (fun x y => wrap16 (x * y / 65536))) ∧
      Runs s k cyc key f (.vaddI16W k cyc vd va vb m) (out (fun x y => wrap16 (x + y))) ∧
      Runs s k cyc key f (.vsubI16W k cyc vd va vb m) (out (fun x y => wrap16 (x - y))) ∧
      Runs s k cyc key f (.vmulI16W k cyc vd va vb m) (out (fun x y => wrap16 (x * y))) ∧
      Runs s k cyc key f (.vshlI16 k cyc vd va vb m) (out shl16) ∧
      Runs s k cyc key f (.vshrI16 k cyc vd va vb m) (out sar16) ∧
      Runs s k cyc key f (.vmaddI16 k cyc vd va vb vc m) (vecNext s k cyc key f vd m 16 3
        (((intLanes (c.vreg va)).zip ((intLanes (c.vreg vb)).zip (intLanes (c.vreg vc)))).map
          (fun p => sat16 (p.1 * p.2.1 + p.2.2))))) ∧
  (∀ x : Int,
      (-32768 ≤ x → x ≤ 32767 → (BitVec.ofNat 16 (sat16 x).val).toInt = x ∧ (sat16 x).flags = 0) ∧
      (x < -32768 → (BitVec.ofNat 16 (sat16 x).val).toInt = -32768 ∧ (sat16 x).flags &&& flSaturate = flSaturate) ∧
      (32767 < x → (BitVec.ofNat 16 (sat16 x).val).toInt = 32767 ∧ (sat16 x).flags &&& flSaturate = flSaturate) ∧
      ((wrap16 x).val : Int) = x % 65536 ∧ (wrap16 x).flags = 0)

/-- The special functions on a core that issues (R58, R59): lane by lane the correctly rounded function, latency 14. VSUMR, VMAXR,
VCVT and ACCRD on a core that issues. A reduction's one result (R55) lands after 8 cycles in the low half of a scalar register,
zeros above it (the model's choice, log 25), or in one lane of a vector register, whose other lanes stay. VCVT (R41) converts 32
elements of any format in 3 cycles, or in 6 to a K4 block, and raises K4 for a source block whose scale byte is 0xFF (R50);
ACCRD (R51) reads the column as it stands and converts it in 4, to K4 or INT16 as a free value (log 63). -/
def Obligations.SpecialAndReductionResults : Prop :=
  (∀ (k : Fin 10240) (cyc key : Nat) (f : Frame) (vd va vm : Fin 32) (m : Mask) (s : State),
      let c := coreNow s k cyc
      let out (g : FVal → LaneRes Word) := vecNext s k cyc key f vd m 32 14 (fpUn g (c.vreg va))
      Runs s k cyc key f (.vexp2 k cyc vd va m) (out fpExp2) ∧
      Runs s k cyc key f (.vexp k cyc vd va m) (out fpExp) ∧
      Runs s k cyc key f (.vrcp k cyc vd va m) (out fpRcp) ∧
      Runs s k cyc key f (.vrsqrt k cyc vd va m) (out fpRsqrt) ∧
      Runs s k cyc key f (.vsigm k cyc vd va m) (out fpSigm) ∧
      Runs s k cyc key f (.vsilu k cyc vd va m) (out fpSilu) ∧
      Runs s k cyc key f (.vtanh k cyc vd va m) (out fpTanh) ∧
      Runs s k cyc key f (.verf k cyc vd va m) (out fpErf) ∧
      Runs s k cyc key f (.vexpsub k cyc vd va vm m) (vecNext s k cyc key f vd m 32 14 (fpBin fpExpSub (c.vreg va) (c.vreg vm)))) ∧
  (∀ (k : Fin 10240) (cyc key : Nat) (f : Frame) (s : State),
      let c := coreNow s k cyc
      (∀ (va vd : Fin 32) (sd : Fin 16) (i : Fin 32),
        let sum := pairTree fpAdd (c.vreg va)
        let top := pairTree fpMax (c.vreg va)
        let toScal (r : LaneRes Word) : Host.Outcome State Fault Refusal :=
          .next (issued s k cyc key f (fly (cyc + 8) (.scal sd (r.val.zeroExtend 64)) c) r.flags)
        let toLane (r : LaneRes Word) : Host.Outcome State Fault Refusal :=
          .next (issued s k cyc key f (fly (cyc + 8) (.vec vd (BitVec.ofNat 1024 ((2 ^ 32 - 1) * 2 ^ (32 * i.val)))
            (BitVec.ofNat 1024 (r.val.toNat * 2 ^ (32 * i.val)))) c) r.flags)
        Runs s k cyc key f (.vsumr k cyc (.scalar sd) va) (toScal sum) ∧
        Runs s k cyc key f (.vmaxr k cyc (.scalar sd) va) (toScal top) ∧
        Runs s k cyc key f (.vsumr k cyc (.lane vd i) va) (toLane sum) ∧
        Runs s k cyc key f (.vmaxr k cyc (.lane vd i) va) (toLane top)) ∧
      (∀ (vd va : Fin 32) (src dst : Fmt) (nonsat : Bool) (kt : Fin 8), dst ≠ .k4 →
        let rs := ((cvtSource src (c.table kt) (c.vreg va)).map viaFp32)
        let bad : BitVec 5 := if src = .k4 ∧ (lanes 8 17 (c.vreg va)).getD 16 0 = 0xFF then flK4 else 0
        Runs s k cyc key f (.vcvt k cyc vd va src dst nonsat kt)
        (.next (issued s k cyc key f (fly (cyc + 3) (.vec vd (laneBits (fmtBits dst) (List.replicate 32 true))
            (ofLanes (fmtBits dst) (rs.map (fun x => (toFmt dst nonsat x.1).val)))) c)
            ((rs.map (fun x => toFmt dst nonsat x.1)).foldl (fun a r => a ||| r.flags) (rs.foldl (fun a x => a ||| x.2) bad))))) ∧
      (∀ (vd va : Fin 32) (src : Fmt) (nonsat : Bool) (kt : Fin 8),
        let rs := ((cvtSource src (c.table kt) (c.vreg va)).map viaFp32)
        let bad : BitVec 5 := if src = .k4 ∧ (lanes 8 17 (c.vreg va)).getD 16 0 = 0xFF then flK4 else 0
        let b := toK4 (c.table kt) (rs.map (·.1))
        Runs s k cyc key f (.vcvt k cyc vd va src .k4 nonsat kt)
        (.next (issued s k cyc key f (fly (cyc + 6) (.vec vd (ofLanes 8 (List.replicate 17 255))
            (BitVec.ofNat 1024 (packBits 4 b.codes + 2 ^ 128 * b.scale))) c)
            ((rs.foldl (fun a x => a ||| x.2) bad) ||| b.flags)))) ∧
      (∀ (acc : Fin 8) (col vd : Fin 32) (fmt : Fmt) (nonsat : Bool),
        Runs s k cyc key f (.accrd k cyc acc col vd fmt nonsat)
        (vecNext s k cyc key f vd none (fmtBits fmt) 4 ((fpLanes (c.accCol acc col)).map (accrdElem fmt nonsat)))))

/-- The scalar unit on a core that issues (R57, R59): 64-bit add, subtract, multiply (low 64 bits), shifts by less than 64, logical
operations, compares (what a compare gives for true and for false is a free value, log 5), moves, and a second operand that is a
register or a sign-extended immediate. A shift by 64 or more gives a free value (log 5). LOOP on a core that issues (R31, R73):
the level's loop begins at the next frame cycle with the immediate trip count, and each iteration takes the frame cycles of the
bundles up to the last one named; no register, memory or flag changes. -/
def Obligations.ScalarAndLoopResults : Prop :=
  (∀ (k : Fin 10240) (cyc key : Nat) (f : Frame) (sd sa : Fin 16) (sb : SOperand) (imm : Word) (s : State),
      let c := coreNow s k cyc
      let a := c.sreg sa
      let b := c.sval sb
      let out := scalNext s k cyc key f sd
      Runs s k cyc key f (.scAdd k cyc sd sa sb) (out (a + b)) ∧
      Runs s k cyc key f (.scSub k cyc sd sa sb) (out (a - b)) ∧
      Runs s k cyc key f (.scMul k cyc sd sa sb) (out (a * b)) ∧
      (b.toNat < 64 → Runs s k cyc key f (.scShl k cyc sd sa sb) (out (a <<< b.toNat)) ∧
        Runs s k cyc key f (.scShr k cyc sd sa sb) (out (a >>> b.toNat)) ∧
        Runs s k cyc key f (.scSar k cyc sd sa sb) (out (a.sshiftRight b.toNat))) ∧
      (64 ≤ b.toNat → Runs s k cyc key f (.scShl k cyc sd sa sb) (out (Config.scalarShift 0 a b)) ∧
        Runs s k cyc key f (.scShr k cyc sd sa sb) (out (Config.scalarShift 1 a b)) ∧
        Runs s k cyc key f (.scSar k cyc sd sa sb) (out (Config.scalarShift 2 a b))) ∧
      Runs s k cyc key f (.scAnd k cyc sd sa sb) (out (a &&& b)) ∧
      Runs s k cyc key f (.scOr k cyc sd sa sb) (out (a ||| b)) ∧
      Runs s k cyc key f (.scXor k cyc sd sa sb) (out (a ^^^ b)) ∧
      Runs s k cyc key f (.scNot k cyc sd sa) (out (~~~ a)) ∧
      Runs s k cyc key f (.scCeq k cyc sd sa sb) (out (Config.compareResult (a == b))) ∧
      Runs s k cyc key f (.scClt k cyc sd sa sb) (out (Config.compareResult (a.slt b))) ∧
      Runs s k cyc key f (.scCltu k cyc sd sa sb) (out (Config.compareResult (a.ult b))) ∧
      Runs s k cyc key f (.scMovi k cyc sd imm) (out (imm.signExtend 64)) ∧
      Runs s k cyc key f (.scMov k cyc sd sa) (out a)) ∧
  (∀ (k : Fin 10240) (cyc key : Nat) (f : Frame) (level : Fin 8) (trip last : Nat) (s : State),
      let c := coreNow s k cyc
      Runs s k cyc key f (.loop k cyc level trip last)
        (.next (issued s k cyc key f { c with loops := mput c.loops level ⟨cyc + 1, trip, loopBody s k cyc last⟩ } 0)))

/-- Loads and stores of the pane store on a core that issues, at an address that exists (R36, R57, R60): VLD brings 128 bytes and
TLD 16 from a line, VST sends the register as it is at issue, SLD and SST move 8 naturally aligned bytes, least significant byte
first; each takes 3 cycles, and no byte outside those stored changes. A VLD that finds a core memory uncorrectable records it
and runs all the same; what a lost pane line then gives is a free value (R448, log 5). Where a core instruction stops: an
address outside the pane store faults every access to it, as does an SLD or SST address that is not a multiple of 8 (R29, R57,
R60), and a sliver line that does not exist faults BLD and BST. -/
def Obligations.PaneAccessesAndTheirStops : Prop :=
  (∀ (k : Fin 10240) (cyc key : Nat) (f : Frame) (v : Fin 32) (kt : Fin 8) (sr : Fin 16) (addr : PAddr) (a : Nat) (s : State),
      let c := coreNow s k cyc
      let st := coreStrides s k addr.expr
      let out (x : FlightVal) : Host.Outcome State Fault Refusal := .next (issued s k cyc key f (fly (cyc + 3) x c) 0)
      (paneAddr st c cyc 64 128 addr = some a →
        Runs s k cyc key f (.vld k cyc v addr none)
        (out (.vec v (BitVec.allOnes 1024) (BitVec.ofNat 1024 (leNat (c.paneRead a 128))))) ∧
        Runs s k cyc key f (.vst k cyc v addr) (out (.pane a (natLe 128 (c.vreg v).toNat)))) ∧
      (paneAddr st c cyc 64 16 addr = some a →
        Runs s k cyc key f (.tld k cyc kt addr) (out (.table kt (BitVec.ofNat 128 (leNat (c.paneRead a 16)))))) ∧
      (paneAddr st c cyc 1 8 addr = some a → a % 8 = 0 →
        Runs s k cyc key f (.sld k cyc sr addr) (out (.scal sr (BitVec.ofNat 64 (leNat (c.paneRead a 8))))) ∧
        Runs s k cyc key f (.sst k cyc sr addr) (out (.pane a (natLe 8 (c.sreg sr).toNat)))) ∧
      (∀ (m : CoreMem) (g : Frame) (b : Nat),
        let s1 : State := { coreMemLost k m s with free := s.free + 1 }
        let c1 := coreNow s1 k cyc
        issues s1 k cyc (.vld k cyc v addr (some m)) = some (key, g) →
        paneAddr (coreStrides s1 k addr.expr) c1 cyc 64 128 addr = some b →
        Runs s k cyc key f (.vld k cyc v addr (some m)) (.next (issued s1 k cyc key g (fly (cyc + 3)
          (.vec v (BitVec.allOnes 1024)
            (if m = .pane then Config.lostVec (s.free + 1) v else BitVec.ofNat 1024 (leNat (c1.paneRead b 128)))) c1) 0)))) ∧
  (∀ (k : Fin 10240) (cyc key : Nat) (f : Frame) (v col : Fin 32) (kt acc : Fin 8) (sr : Fin 16) (addr other : PAddr) (n : Nat)
      (bf : BFmt) (e : F8) (z : Bool) (mode : Fin 8) (tag : Option (Fin 1024)) (bad : List Nat) (dst : Fin 512) (s : State),
      let c := coreNow s k cyc
      let st := coreStrides s k addr.expr
      let out (i : Instr) : Prop := Runs s k cyc key f i (.fault .outsidePane)
      (paneAddr st c cyc 64 128 addr = none → out (.vld k cyc v addr none) ∧ out (.vst k cyc v addr)) ∧
      (paneAddr st c cyc 64 16 addr = none → out (.tld k cyc kt addr)) ∧
      (paneAddr st c cyc 1 8 addr = none → out (.sld k cyc sr addr) ∧ out (.sst k cyc sr addr)) ∧
      (∀ a, paneAddr st c cyc 1 8 addr = some a → a % 8 ≠ 0 →
        Runs s k cyc key f (.sld k cyc sr addr) (.fault .misalignedPane) ∧
        Runs s k cyc key f (.sst k cyc sr addr) (.fault .misalignedPane)) ∧
      (paneAddr st c cyc 64 512 addr = none → out (.mmaK4 k cyc acc col addr other bf other kt kt z)) ∧
      (paneAddr st c cyc 64 768 addr = none → out (.mmaK4s k cyc acc col addr other bf other kt kt z)) ∧
      (paneAddr st c cyc 64 1024 addr = none → out (.mmaF8 k cyc acc col addr other e e z)) ∧
      (paneAddr st c cyc 64 2048 addr = none → out (.mmaBf16 k cyc acc col addr other z)) ∧
      (paneAddr st c cyc 64 (256 * n) addr = none → out (.lsend k cyc addr dst n) ∧ out (.lrecv k cyc addr n)) ∧
      (bondBarred s k cyc = false → paneAddr st c cyc 64 (64 * n) addr = none →
        out (.bld k cyc addr other n mode bad) ∧ out (.bst k cyc addr other n mode tag)) ∧
      (bondBarred s k cyc = false → ∀ a, paneAddr st c cyc 64 (64 * n) addr = some a →
        sliverAddr (coreStrides s k other.expr) c cyc n other = none →
        Runs s k cyc key f (.bld k cyc addr other n mode bad) (.fault .outsideSliver) ∧
        Runs s k cyc key f (.bst k cyc addr other n mode tag) (.fault .outsideSliver)))

/-- The matrix instructions on a core that issues, whose operands lie in the pane store (R44 to R52): every one of the 32 results is
one rounding of the exact sum of the accumulator element (none with .Z) and the row's products, and lands in column j after 12
cycles, or 16 for BF16, never before an MMA to the column that issued earlier (R48). -/
def Obligations.MatrixResults : Prop :=
  ∀ (k : Fin 10240) (cyc key : Nat) (f : Frame) (acc ktA ktB : Fin 8) (col : Fin 32) (a sc b : PAddr) (z : Bool) (s : State),
    let c := coreNow s k cyc
    let old := fpLanes (accIssued c acc col)
    let out (lat : Nat) (extra : BitVec 5) (dot : Nat → Option FVal → LaneRes Word) : Host.Outcome State Fault Refusal :=
      let rs := (List.range 32).map (fun i => dot i (if z then none else some (old.getD i (.fin false 0 0))))
      .next (issued s k cyc key f (fly (max (cyc + lat) (accDue c acc col))
        (.acc acc col (ofLanes 32 (rs.map (fun r => r.val.toNat)))) c) (rs.foldl (fun x r => x ||| r.flags) extra))
    (∀ ab bb, paneAt s k cyc 64 2048 a c = some ab → paneAt s k cyc 1 64 b c = some bb →
      Runs s k cyc key f (.mmaBf16 k cyc acc col a b z) (out 16 0
        (fun i x => mmaBf16 x ((rowOf 2 bf16Val ab i 32).zip (rowOf 2 bf16Val bb 0 32))))) ∧
    (∀ ab bb (aEnc bEnc : F8), paneAt s k cyc 64 1024 a c = some ab → paneAt s k cyc 1 32 b c = some bb →
      Runs s k cyc key f (.mmaF8 k cyc acc col a b aEnc bEnc z) (out 12 0
        (fun i x => mmaExact x ((rowOf 1 (f8Val aEnc) ab i 32).zip (rowOf 1 (f8Val bEnc) bb 0 32))))) ∧
    (∀ codes scales bb (bFmt : BFmt), paneAt s k cyc 64 512 a c = some codes → paneAt s k cyc 1 32 sc c = some scales →
      paneAt s k cyc 1 (bBytes bFmt 32) b c = some bb →
      let bv := bOperand bFmt (c.table ktB) 32 bb
      Runs s k cyc key f (.mmaK4 k cyc acc col a sc bFmt b ktA ktB z)
      (out 12 (if (List.range 32).any (fun i => leField scales i 1 = 0xFF) then bv.2 ||| flK4 else bv.2)
          (fun i x => mmaExact x ((k4Row (c.table ktA) codes (leField scales i 1) i 32).zip bv.1)))) ∧
    (∀ am scales bb (bFmt : BFmt), paneAt s k cyc 64 768 a c = some am → paneAt s k cyc 1 64 sc c = some scales →
      paneAt s k cyc 1 (bBytes bFmt 64) b c = some bb →
      let bv := bOperand bFmt (c.table ktB) 64 bb
      let bad := (List.range 64).any (fun i => leField scales i 1 = 0xFF)
        || (List.range 512).any (fun i => ! sparseOk (sparseMeta (am.drop 512) (i / 16) (i % 16)))
      Runs s k cyc key f (.mmaK4s k cyc acc col a sc bFmt b ktA ktB z) (out 12 (if bad then bv.2 ||| flK4 else bv.2)
          (fun i x => mmaExact x (sparseRow (c.table ktA) (am.take 512) (am.drop 512) scales bv.1 i))))

/-- A masked lane keeps its element and every enabled lane takes its result when a vector result lands (R32); no other vector
register changes. -/
def Obligations.LaneMaskGovernsLanding : Prop :=
  ∀ (c : Core) (vd : Fin 32) (w n : Nat) (on : List Bool) (xs : List Nat), w * n = 1024 → on.length = n → xs.length = n →
    (∀ x ∈ xs, x < 2 ^ w) →
    let d := landVal c (.vec vd (laneBits w on) (ofLanes w xs))
    (∀ i, i < n → (lanes w n (d.vreg vd)).getD i 0 =
      if on.getD i false then xs.getD i 0 else (lanes w n (c.vreg vd)).getD i 0) ∧
    (∀ v, v ≠ vd → d.vreg v = c.vreg v)

/-- A result in flight is not read before its latency has elapsed and is read from then on (R33): landing what is due leaves a
register alone while none of its results is due, and gives it the latest due result when one is. -/
def Obligations.ResultsLandWhenDue : Prop :=
  ∀ (c : Core) (due now : Nat) (n : Fin 16) (x : DWord), c.flight = [] →
    (now < due → (retire now (fly due (.scal n x) c)).sreg n = c.sreg n ∧
      (retire now (fly due (.scal n x) c)).flight = [⟨due, .scal n x⟩]) ∧
    (due ≤ now → (retire now (fly due (.scal n x) c)).sreg n = x ∧ (retire now (fly due (.scal n x) c)).flight = [] ∧
      ∀ v, (retire now (fly due (.scal n x) c)).vreg v = c.vreg v)

/-- Flags are sticky and go to the port's copy (R63): setting flags keeps those a core holds, ORs them into the BAY_ARITH_FLAGS of
the port whose pavilion has the core, and changes no vector or scalar register, no memory and no flag of another core. -/
def Obligations.FlagsAreSticky : Prop :=
  ∀ (k : Fin 10240) (key cyc : Nat) (f : Frame) (fl : BitVec 5) (s : State),
    let t := setFlags k key f cyc fl s
    coreAt t k = { coreAt s k with flags := (coreAt s k).flags ||| fl } ∧
    (∀ j, j ≠ k.val → coreAt t j = coreAt s j) ∧
    { t with cores := s.cores, regs := s.regs, arithAt := s.arithAt } = s ∧
    (∀ n p, quarterPav s (coreQuarter k) = some (n, p) → fl ≠ 0 → physBay s (coreBay k) < 21 →
      regGet t p.port (0x1080000 + physBay s (coreBay k) * 0x100000) =
        (regGet s p.port (0x1080000 + physBay s (coreBay k) * 0x100000) ||| fl.toNat) % 2 ^ 32)

/-- BLD and BST on a core that issues, at addresses that exist (R59, R62, R90, R174, R175): a BLD sends the sliver's data (the plain
bytes where no line of a plain BLD is damaged) to the pane store in beats of 200 bytes, the first after 28 cycles where the row
is open and 60 where it is not, and 48 later through the codec; refused tiles and lost lines are recorded and fail the sessions
they hold. A BST reads the pane store and stores 200 bytes a cycle, and nothing where its tagged slot is masked. Inside a
REFRESH, DESKEW or HUB_BOND slot neither runs (R83, R91). A near-tier write changes exactly its bytes: every other byte of the
near tier reads as before, and the written ones read as written while the memory is in its canonical form (R62, R161). -/
def Obligations.NearTierTransfers : Prop :=
  (∀ (k : Fin 10240) (cyc key : Nat) (f : Frame) (pane sliver : PAddr) (lines : Nat) (mode : Fin 8) (bad : List Nat)
      (tag : Option (Fin 1024)) (s : State),
      let s1 := advance k cyc s
      let c := coreNow s k cyc
      let s2 := setFrame key { f with cycle := cyc } s1
      (bondBarred s k cyc = true → exec (.bld k cyc pane sliver lines mode bad) s = .next s ∧
        exec (.bst k cyc pane sliver lines mode tag) s = .next s) ∧
      (bondBarred s k cyc = false → ∀ a l, paneAddr (coreStrides s1 k pane.expr) c cyc 64 (64 * lines) pane = some a →
        sliverAddr (coreStrides s1 k sliver.expr) c cyc lines sliver = some l →
        let due := cyc + rowWait c l + (if mode = 0 then 0 else 48)
        let go := match tag, quarterPav s1 (coreQuarter k) with
          | some t, some (n, _) => verdict f n t
          | _, _ => true
        let m := if go then bstMoves cyc a (64 * l) (64 * lines) mode else ([], [])
        Runs s k cyc key f (.bld k cyc pane sliver lines mode bad)
          (.next ((bldLost s1 k l lines mode bad).foldl (fun s x => damageSlot key k x (lineLost k x s))
            ((bldRefused s1 k l lines mode bad).foldl (fun s t => codecRefused key k t s)
              (setCore k { bondBeats due a (bldData s1 k l lines mode bad) c with
                row := ((bldMoved s1 k l lines mode).getLast?).map (fun x => rowOfByte (64 * x))
                bondEnd := due + ceilDiv (64 * lines) 200 } s2)))) ∧
        Runs s k cyc key f (.bst k cyc pane sliver lines mode tag)
          (.next (advance k cyc (setCore k { c with
            reads := c.reads ++ m.1
            stores := c.stores ++ m.2
            bondEnd := cyc + ceilDiv (64 * lines) 200 + (if mode = 0 then 0 else 48) } s2))) ∧
        ((∀ i, i < lines → isDamaged s1 k (l + i) = false) → bldData s1 k l lines 0 [] = nearRead s1 k l lines))) ∧
  (∀ (k line : Nat) (bs : List Byte) (s : State) (b : Nat),
      ((b < nearKey k (64 * line) ∨ nearKey k (64 * line) + bs.length ≤ b) →
        memByte (nearStore k line bs s).near b = memByte s.near b) ∧
      (Memory.wf s.near = true → ∀ i, (h : i < bs.length) →
        memByte (nearStore k line bs s).near (nearKey k (64 * line) + i) = bs[i]))

/-- The lattice on a core that issues (R77): an LSEND's message starts to land at its destination, another core of its bay, at cycle
t + 3 + h, and one to the sending core itself sends nothing; an LRECV in that cycle sends beat i of it, of the beats it takes,
to the pane store i cycles later, and one that no message meets takes nothing. The colonnade (R78, R86): a transfer that a
program can place sends each destination its beats of 512 bytes, two cycles apart, from the cycle that the stages give: the data
of a core's pane store as it stands at the cycle, or the hub's to every destination. One at an odd cycle, or that no program can
place, sends none, and one outside a pane store faults. Beats due at a core land in its pane store in the cycle they were due,
and leave the colonnade. -/
def Obligations.LatticeAndColonnade : Prop :=
  (∀ (k : Fin 10240) (cyc key : Nat) (f : Frame) (pane : PAddr) (beats a : Nat) (s : State),
      let s1 := advance k cyc s
      let c := coreNow s k cyc
      let s2 := setFrame key { f with cycle := cyc } s1
      paneAddr (coreStrides s1 k pane.expr) c cyc 64 (256 * beats) pane = some a →
      (∀ dst : Fin 512, latticeCore k dst ≠ k.val → Runs s k cyc key f (.lsend k cyc pane dst beats)
        (.next { s2 with lattice := s1.lattice ++
          [⟨latticeCore k dst, cyc + 3 + hops k (latticeCore k dst), c.paneRead a (256 * beats)⟩] })) ∧
      (∀ dst : Fin 512, latticeCore k dst = k.val → Runs s k cyc key f (.lsend k cyc pane dst beats) (.next s2)) ∧
      (∀ m, s1.lattice.find? (fun m => m.dst = k.val && m.due = cyc) = some m →
        let data := m.data.take (256 * beats)
        Runs s k cyc key f (.lrecv k cyc pane beats)
          (.next { setCore k (retire cyc ((List.range (ceilDiv data.length 256)).foldl
              (fun c i => fly (cyc + i) (.pane (a + 256 * i) ((data.drop (256 * i)).take 256)) c) c)) s2 with
            lattice := s1.lattice.erase m })) ∧
      (s1.lattice.find? (fun m => m.dst = k.val && m.due = cyc) = none →
        Runs s k cyc key f (.lrecv k cyc pane beats) (.next s2))) ∧
  ((∀ (cyc key : Nat) (f : Frame) (src d : PanePlace) (path : ColPath) (beats due : Nat) (s : State),
      issuing s src.core cyc = some (key, f) → colOk s cyc (some src.core.val) [d] path = true →
      colLand cyc (some src.core.val) d.core path = some due →
      (64 * src.line + 512 * beats ≤ paneBytes → 64 * d.line + 512 * beats ≤ paneBytes →
        let s1 := advance src.core cyc s
        exec (.colonnadeTransfer cyc (.pane src) [d] path beats) s =
          .next { setFrame key { f with cycle := cyc } s1 with
            colonnade := s1.colonnade ++ (List.range beats).map (fun i => ⟨d.core, 64 * d.line + 512 * i, due + 2 * i,
              (((coreNow s src.core cyc).paneRead (64 * src.line) (512 * beats)).drop (512 * i)).take 512⟩) }) ∧
      (paneBytes < 64 * src.line + 512 * beats ∨ paneBytes < 64 * d.line + 512 * beats →
        exec (.colonnadeTransfer cyc (.pane src) [d] path beats) s = .fault .outsidePane)) ∧
    (∀ (cyc key : Nat) (f : Frame) (bs : List Byte) (d : PanePlace) (ds : List PanePlace) (path : ColPath) (beats : Nat) (s : State),
      issuing s d.core cyc = some (key, f) → colOk s cyc none (d :: ds) path = true →
      (∀ x ∈ d :: ds, 64 * x.line + 512 * beats ≤ paneBytes) →
      exec (.colonnadeTransfer cyc (.hub bs) (d :: ds) path beats) s =
        .next { setFrame key { f with cycle := cyc } s with
          colonnade := s.colonnade ++ ((d :: ds).map (fun x => (List.range beats).map (fun i =>
            (⟨x.core, 64 * x.line + 512 * i, (colLand cyc none x.core path).getD 0 + 2 * i,
              ((byteSlice bs 0 (512 * beats)).drop (512 * i)).take 512⟩ : ColBeat)))).flatten }) ∧
    (∀ (cyc : Nat) (src : ColSource) (ds : List PanePlace) (path : ColPath) (beats : Nat) (s : State),
      cyc % 2 = 1 ∨ colOk s cyc (match src with | .pane p => some p.core.val | .hub _ => none) ds path = false →
      exec (.colonnadeTransfer cyc src ds path beats) s = .next s) ∧
    (∀ (k : Fin 10240) (cyc key : Nat) (f : Frame) (s : State), issuing s k cyc = some (key, f) →
      exec (.colonnadeBeatArrival k cyc) s = .next (setFrame key { f with cycle := cyc } (advance k cyc s)) ∧
      (∀ b : ColBeat, s.colonnade = [b] → b.dst = k.val → b.due ≤ cyc → (coreAt s k).flight = [] → (coreAt s k).reads = [] →
        (coreAt s k).stores = [] →
        coreAt (advance k cyc s) k = (coreAt s k).paneWrite b.addr b.data ∧ (advance k cyc s).colonnade = [])))

/-- The lossless codes return the original bytes whatever they hold (R165 to R169): a tile coded under any CODEC byte without K4R
decodes, under the CODEC byte the encoder records, to the bytes it was coded from. -/
def Obligations.LosslessCodesReturnTheTile : Prop :=
  ∀ (c : Nat) (t : KTable) (plain : List Byte), codecValid c = true → codecK4r c = false → plain.length = 16384 →
    decodeTile (encodeTile c t plain).codec (encodeTile c t plain).bytes = some plain

/-! ### Frames -/

/-- FRAME_START completes (R65 to R68, R261): when the group's first ready pavilion has a program, the frame may start and every
slot that runs has its inputs and mask, the group's frame begins at cycle 0 with the program's length, the bays, ready pavilions
and quarters of the group, and the slots that run; nothing is masked, held or stopped, and no latch point is decided.
LATCH_DECISION completes (R87 to R89, R129, R274): in a frame that runs, is neither frozen nor stopped and has not passed cycle
c − 64, a latch record that is not yet decided is decided at frame cycle c − 64: an arrival point checks each running slot of
the pavilion, a pre-emption point takes the named victims where the pavilion's policy is 2, and the verdict vector is on its way
to every core by cycle c. A frozen or stopped frame, or a point already decided, decides nothing. -/
def Obligations.FramesStartAndLatch : Prop :=
  (∀ (bay : Fin 20) (rates : List LeadRate) (g : Prog) (s : State),
      let bays := groupBays s bay
      let pavs := (groupPavs s bays).filter (pavReady s)
      let fates := frameFates s rates pavs
      (pavs.head?).bind (fun n => (pavAt s n).prog) = some g → frameMay s bays (groupPavs s bays) = true →
      (∀ x ∈ fates, ∀ r, x.2 = .runs r → inputReady s (x.1 / 1024) (x.1 % 1024) r = true) →
      ∃ t f, exec (.frameStart bay rates) s = .next t ∧ mget? t.frames (bays.foldl min bay) = some f ∧
        f.cycle = 0 ∧ f.start = s.time ∧ f.length = imgCycles g.image ∧ f.bays = bays ∧ f.pavs = pavs ∧
        f.quarters = (pavs.map (fun n => (pavAt s n).quarters)).flatten ∧
        f.runs = fates.foldl (fun m x => match x.2 with | .runs r => mput m x.1 r | _ => m) [] ∧
        f.hold = none ∧ f.stopped = false ∧ f.masked = [] ∧ f.latched = []) ∧
  (∀ (pav : Fin 80) (index key : Nat) (f : Frame) (g : Prog) (l : LatchRec) (s : State),
      s.frames.find? (fun f => f.2.pavs.contains pav) = some (key, f) → (pavAt s pav).prog = some g →
      (imgLatchRecs g.image)[index]? = some l →
      (f.hold = none → f.stopped = false → f.latched.contains (pav.val, index) = false →
        64 ≤ l.cycle → f.cycle ≤ l.cycle - 64 → (∀ r ∈ f.requests, l.cycle - 64 < r.freezeAt) →
        let f0 := { f with cycle := l.cycle - 64, latched := f.latched ++ [(pav.val, index)] }
        let f1 := if bitOf l.flags 0 then
          (f.runs.filter (fun r => r.1 / 1024 = pav.val)).foldl (fun f r => arrivalCheck pav l.layer r s f) f0 else f0
        let s1 := setFrame key f1 s
        exec (.latchDecision pav index) s = .next (sendVerdict pav key l.cycle
          (if bitOf l.flags 1 && bits (pavCtrl s1 pav) 4 5 = 2 then preemptAt pav key s1 else s1)) ∧
        f1.cycle = l.cycle - 64 ∧ f1.latched.contains (pav.val, index) = true ∧ f1.hold = none ∧ f1.stopped = false) ∧
      (f.hold ≠ none ∨ f.stopped = true ∨ f.latched.contains (pav.val, index) = true →
        exec (.latchDecision pav index) s = .next s))

/-- COLUMN_INPUT_WRITE and MASK_WRITE complete between frames (R84, R107, R213): for an active session whose next step has an input,
the column inputs are noted for its slot as the step's first position and tokens, and for one whose step samples, the mask noted
is the session's allow mask; a free slot of a recall pavilion takes a query (R240). GATHER_EXPIRY completes (R261): once
GATHER_NS have passed for a ready pavilion it has gathered, and before that only the gathering time of pavilions that have
become ready starts; no other pavilion changes. -/
def Obligations.InputsAndGathering : Prop :=
  (∀ (pav : Fin 80) (slot : Nat) (p : Pav) (s : State), mget? s.pavs pav = some p → groupBusy s pav = false →
      (∀ (g : Prog) (u : SlotUse) (x : Session) (r : Run), p.prog = some g → mget? p.slots slot = some u →
        slotActive s pav (slot, u) = true → g.decode ≠ [] → mget? s.sessions u.sess = some x → x.run = some r →
        x.hasInput = true → (slotColumns p slot x).1 < lengthLimit p x →
        (∀ c ∈ (slotColumns p slot x).2.1.zipIdx, (columnBlock s g ((slotColumns p slot x).1 + c.2) c.1).isSome = true) →
        ∃ t, exec (.columnInputWrite pav slot) s = .next t ∧
          mget? (pavAt t pav).inputs slot = some ((slotColumns p slot x).1, (slotColumns p slot x).2.1) ∧
          { t with bays := s.bays, pavs := s.pavs } = s) ∧
      (∀ (g : Prog), p.prog = some g → mget? p.slots slot = none →
        exec (.columnInputWrite pav slot) s = .next (placeQuery pav slot s)) ∧
      (∀ (u : SlotUse) (x : Session), mget? p.slots slot = some u → slotActive s pav (slot, u) = true →
        mget? s.sessions u.sess = some x → (slotColumns p slot x).2.2 = true →
        ∃ t, exec (.maskWrite pav slot) s = .next t ∧
          mget? (pavAt t pav).masks slot = some (sessMask s u.sess x (spVocab p.sample)) ∧
          { t with bays := s.bays, pavs := s.pavs } = s)) ∧
  (∀ (pav : Fin 80) (since : Nat) (s : State),
      let s1 := noteReadyAll s
      (pavAt s1 pav).readyAt = some since →
      (since + bits (pavCtrl s1 pav) 16 31 ≤ s1.time →
        exec (.gatherExpiry pav) s = .next (onPav pav (fun p => { p with gathered := true }) s1)) ∧
      (s1.time < since + bits (pavCtrl s1 pav) 16 31 → exec (.gatherExpiry pav) s = .next s1) ∧
      (∀ t, exec (.gatherExpiry pav) s = .next t → ∀ n, n ≠ pav.val → mget? t.pavs n = mget? s1.pavs n))

/-- FRAME_END completes (R84, R99, R103, R261, R455): a frame that is not frozen ends where a fence stopped it, or once its bundles
have passed, its latch points are decided and no request is left but holds that fall after it. Its cores stand still and its
bays' waiting items are served; every slot that ran ends its step, every query slot its scan, and every pavilion is charged for
the frame's cycles and the holds in it (R279), before what R261 lets happen between frames. -/
def Obligations.FrameEndEndsEverySlot : Prop :=
  ∀ (bay : Fin 20) (results : List SlotResult) (minima : List ScanResult) (key : Nat) (f : Frame) (s : State),
    frameOf s bay = some (key, f) → f.hold = none →
    (f.stopped = true ∨
      frameOver s f = true ∧ (f.requests = [] ∨ f.lateHolds = true) ∧ allLatched s f = true) →
    let len := (if f.stopped then f.cycle else f.length) + f.held
    let ended := f.runs.foldl (fun s r => endRun f len results r.1 r.2 s) (quietBays f s)
    let scanned := f.scans.foldl (fun s k => endScanSlot f minima k s) ended
    exec (.frameEnd bay results minima) s =
      .next (betweenFrames key f (f.pavs.foldl (fun s n => chargePav f len n s) scanned))

/-! ### Hub traffic, refresh, holds and calibration -/

/-- HUB_BOND_SLOT, TRANSOM_WINDOW_BEAT and BETWEEN_FRAME_HUB_TRANSFER complete (R80 to R84): a planned HUB_BOND slot spends its
cycles on the bay's waiting items, an even cycle of a planned window moves one beat of 512 bytes of the class it serves, and a
bay that no frame binds moves hub traffic in any cycle. The transom switch serves the window's primary class while it has an
item for the direction, and otherwise the first of T1 to T5 that has one (R81): a class is served only with an item of it, and
never while the primary class has one. -/
def Obligations.HubTrafficMoves : Prop :=
  ((∀ (bay : Fin 20) (start key : Nat) (f : Frame) (r : SlotRec) (s : State), boundFrame s bay = some (key, f) →
      (baySlots s bay).find? (fun r => r.kind = 3 && r.start = start) = some r → planned f bay 3 start = true →
      exec (.hubBondSlot bay start) s = .next (bondWork bay r.len (markPlan key f bay 3 start s))) ∧
    (∀ (bay : Fin 20) (cport : Fin 2) (toBay : Bool) (cyc key : Nat) (f : Frame) (r : SlotRec) (s : State),
      boundFrame s bay = some (key, f) →
      (baySlots s bay).find? (fun r => r.kind = 4 && r.port = cport.val && r.dir = 1 - b2n toBay
        && decide (r.start ≤ cyc) && decide (cyc < r.start + r.len)) = some r →
      cyc % 2 = 0 → planned f bay (4 + 2 * cport + (1 - b2n toBay)) cyc = true →
      exec (.transomWindowBeat bay cport toBay cyc) s =
        .next (moveBeats bay toBay r.cls 1 (markPlan key f bay (4 + 2 * cport + (1 - b2n toBay)) cyc s))) ∧
    (∀ (bay : Fin 20) (s : State), freeBay s bay = true →
      ∃ t, exec (.betweenFrameHubTransfer bay) s = .next t ∧ (bayAt t bay).idleSince = t.time)) ∧
  (∀ (q : List HubQueued) (toBay : Bool) (primary : Nat),
      (q.any (fun x => x.cls = primary && x.toBay = toBay) = true → beatClass q toBay primary = some primary) ∧
      (∀ c, beatClass q toBay primary = some c →
        q.any (fun x => x.cls = c && x.toBay = toBay) = true ∧ (c = primary ∨ 1 ≤ c ∧ c ≤ 5) ∧
        (c ≠ primary → ∀ d, 1 ≤ d → d < c → q.any (fun x => x.cls = d && x.toBay = toBay) = false)))

/-- Refresh and deskew complete (R84, R91, R95, R427): a planned REFRESH slot takes one from the bay's owed count, a planned DESKEW
slot runs one tracking pass, an idle awake bay does both on its own schedule, and each refresh interval adds one to the owed
count. A deskew pass moves a line's delay element towards zero error by no more than its steps, keeps it within its 64 steps,
and leaves as error what it could not move (R427). -/
def Obligations.RefreshAndDeskew : Prop :=
  ((∀ (bay : Fin 20) (start key : Nat) (f : Frame) (r : SlotRec) (s : State), boundFrame s bay = some (key, f) →
      (baySlots s bay).find? (fun r => r.kind = 1 && r.start = start) = some r → planned f bay 1 start = true →
      ∃ t, exec (.refreshSlot bay start) s = .next t ∧ bayAt t bay = { bayAt s bay with owed := (bayAt s bay).owed - 1 } ∧
        (∀ b, b ≠ bay.val → bayAt t b = bayAt s b) ∧ { t with bays := s.bays, frames := s.frames } = s) ∧
    (∀ (bay : Fin 20) (start key : Nat) (f : Frame) (r : SlotRec) (passes : List LinePass) (s : State),
      boundFrame s bay = some (key, f) → (baySlots s bay).find? (fun r => r.kind = 2 && r.start = start) = some r →
      planned f bay 2 start = true →
      exec (.deskewSlot bay start passes) s = .next (trackBay bay passes (markPlan key f bay 2 start s))) ∧
    (∀ (bay : Fin 20) (passes : List LinePass) (s : State), boundFrame s bay = none → bayAwake s bay = true →
      exec (.bayIdleRefresh bay passes) s =
        .next (trackBay bay passes (onBay bay (fun x => { x with owed := x.owed - 1 }) s))) ∧
    (∀ (bay : Fin 20) (s : State), bayAwake s bay = true →
      (bayAt s bay).refreshAt + 4 * refreshInterval s bay ≤ 9 * s.time →
      exec (.refreshIntervalElapse bay) s = .next (onBay bay (fun x => { x with
        owed := x.owed + 1, refreshAt := (bayAt s bay).refreshAt + 4 * refreshInterval s bay }) s))) ∧
  (∀ (n : Nat) (l : BondLine) (err : Int), l.step < 64 →
      let m := passStep n l err
      m.step < 64 ∧ ((m.step : Int) - l.step).natAbs ≤ n ∧ (m.step : Int) + m.err = l.step + err ∧ m.err.natAbs ≤ err.natAbs ∧
        { m with step := l.step, err := l.err } = l)

/-- Holds complete (R95 to R98, R428, R437): a request of a running frame at cycle `cyc` that may be made, of any of the four
causes, freezes the frame 48 cycles after it, at an even cycle; the freeze puts the hold in effect, as long as its longest
request; and the frame goes on, slipped, with the hold's length counted, once it ends, or passes to the hold that was requested
meanwhile. -/
def Obligations.HoldsFreezeAndEnd : Prop :=
  (∀ (bay : Fin 20) (cause : HoldCause) (cyc key : Nat) (f : Frame) (s : State), boundFrame s bay = some (key, f) →
    f.hold = none → f.requests = [] → f.stopped = false → f.cycle ≤ cyc → cyc < f.length →
    (match cause with
      | .refresh => 4 ≤ (bayAt s bay).owed ∧ bondBusy s bay cyc = false
      | .calibration => calDue s f bay cyc = true
      | .governor _ => bayBudget s bay < bayNeed s f bay
      | .clock => (bayAt s bay).clockBad = true) →
    let n : Nat × Nat := match cause with
      | .refresh => (1, 192)
      | .calibration => (2, 128)
      | .governor delay => (3, (delay + 1) / 2 * 2)
      | .clock => (4, 4096)
    ∃ t f', exec (.holdRequest bay cause cyc) s = .next t ∧ mget? t.frames key = some f' ∧
      f'.requests = [⟨bay, n.1, (cyc + 49) / 2 * 2, n.2⟩] ∧ f'.cycle = cyc ∧ (bayAt t bay).slipLastCause = n.1) ∧
  (∀ (bay : Fin 20) (key : Nat) (f : Frame) (r : HoldReq) (rs : List HoldReq) (s : State), frameOf s bay = some (key, f) →
    f.hold = none → f.stopped = false → f.requests = r :: rs → f.lateHolds = false →
    ∃ t f', exec (.holdFreeze bay) s = .next t ∧ mget? t.frames key = some f' ∧
      f'.hold = some { r with length := (r :: rs).foldl (fun m x => max m x.length) 0 } ∧
      f'.cycle = r.freezeAt ∧ f'.requests = [] ∧ f'.serving = r :: rs) ∧
  (∀ (bay : Fin 20) (passes : List LinePass) (key : Nat) (f : Frame) (h : HoldReq) (s : State),
    frameOf s bay = some (key, f) → f.hold = some h →
    ∃ t f', exec (.holdEnd bay passes) s = .next t ∧ mget? t.frames key = some f' ∧ f'.slipped = true ∧
      f'.held = f.held + h.length ∧ (f.requests = [] → f'.hold = none ∧ f'.cycle = f.cycle) ∧
      (∀ r rs, f.requests = r :: rs →
        f'.hold = some { r with length := (r :: rs).foldl (fun m x => max m x.length) 0 } ∧ f'.cycle = r.freezeAt))

/-- Monitors complete: a line's edge monitor that reports more than 16 steps is noted as the line's error, and asks for a
CALIBRATION hold where one is due (R428); a generator that is off by more than 500 ppm or unlocked asks for a CLOCK hold in a
frame and is switched at once between frames, and a bay whose other generator has failed already is fenced (R437). The far
calendar completes (R430 to R432): a window that is due opens for its channel, each of its bursts starts a microsecond after the
last, a burst ends 96 ns after it began and the 256th ends the window, and a device that asks early goes next. -/
def Obligations.MonitorsAndFarCalendar : Prop :=
  ((∀ (core : Fin 10240) (line : Fin 1648) (error : Int) (cyc : Nat) (s : State), 16 < error.natAbs →
      bayAwake s (coreBay core) = true →
      let s1 := onBay (coreBay core) (fun b => { b with
        lines := mput b.lines (lineKey core line) { mgetD b.lines (lineKey core line) {} with err := error } }) s
      (boundFrame s1 (coreBay core) = none → exec (.deskewPhaseAlarm core line error cyc) s = .next s1) ∧
      (∀ key f, boundFrame s1 (coreBay core) = some (key, f) → exec (.deskewPhaseAlarm core line error cyc) s =
        .next (if calDue s1 f (coreBay core) cyc then requestCal (coreBay core) cyc s1 else s1))) ∧
    (∀ (bay : Fin 20) (ppm cyc : Nat) (lockLost : Bool) (s : State), 500 < ppm ∨ lockLost = true →
      (bayAt s bay).fenced = false → (bayAt s bay).power ≠ .off → (bayAt s bay).clockBad = false →
      ((bayAt s bay).clockOut.contains (1 - b2n (bitOf s.spares.clocks (physBay s bay))) = true →
        let s1 := fenceBay (physBay s bay) 0xFFFF s
        exec (.clockMonitorWindow bay ppm lockLost cyc) s =
          .next (if (List.range 20).all (fun i => (bayAt s1 i).fenced) then hubFault 3 s1 else s1)) ∧
      ((bayAt s bay).clockOut.contains (1 - b2n (bitOf s.spares.clocks (physBay s bay))) = false →
        (boundFrame s bay = none → ∃ t, exec (.clockMonitorWindow bay ppm lockLost cyc) s = .next t ∧
          bitOf t.spares.clocks (physBay s bay) = ! bitOf s.spares.clocks (physBay s bay)) ∧
        (boundFrame s bay ≠ none → exec (.clockMonitorWindow bay ppm lockLost cyc) s =
          .next (requestHold bay 4 4096 cyc (onBay bay (fun x => { x with clockBad := true }) s)))))) ∧
  ((∀ (t0 : Nat) (s : State), s.farCal.start = some t0 → s.farCal.windowAt = none → farNextAt s ≤ s.time →
      ∃ t, exec .farRetrainWindow s = .next t ∧ t.farCal.channel = farNextCh s ∧ t.farCal.windowAt = some (farNextAt s) ∧
        t.farCal.bursts = 0 ∧ t.farCal.window = s.farCal.window + 1 ∧ { t with farCal := s.farCal } = s) ∧
    (∀ (w : Nat) (s : State), s.farCal.windowAt = some w → s.farCal.burstAt = none → s.farCal.bursts < 256 →
      w + 1000 * s.farCal.bursts ≤ s.time →
      exec .farRetrainBurst s = .next { s with farCal := { s.farCal with burstAt := some s.time, bursts := s.farCal.bursts + 1 } }) ∧
    (∀ (b : Nat) (s : State), s.farCal.burstAt = some b → b + 96 ≤ s.time →
      (s.farCal.bursts < 256 → exec .farBurstEnd s = .next { s with farCal := { s.farCal with burstAt := none } }) ∧
      (256 ≤ s.farCal.bursts → exec .farBurstEnd s =
        .next (regAdd 0 0xF0028 1 { s with farCal := { s.farCal with burstAt := none, windowAt := none } }))) ∧
    (∀ (ch : Fin 64) (t0 : Nat) (s : State), s.farCal.start = some t0 → ch.val < 4 * farSites s →
      s.farCal.early.contains ch.val = false → farNextCh s ≠ ch.val →
      exec (.farDeviceTempChange ch) s =
        .next (regAdd 0 0xF002C 1 { s with farCal := { s.farCal with early := s.farCal.early ++ [ch.val] } })))

/-! ### Errors and containment -/

/-- Errors are recorded (R443, R445): the first error of a source that is not muted takes the service place, stamped with the device
time, and is delivered to the module log as its newest record; the second waits as pending; and no other source's places change.
-/
def Obligations.FirstErrorIsDelivered : Prop :=
  ∀ (e : ErrRec) (s : State), (errSource s e.source).mutedSince = none →
    ((errSource s e.source).service = none →
      errSource (raiseErr e s) e.source = { errSource s e.source with service := some { e with time := s.time } } ∧
      (raiseErr e s).modLog.head? = some { e with time := s.time }) ∧
    (∀ r, (errSource s e.source).service = some r → (errSource s e.source).pending = none →
      errSource (raiseErr e s) e.source = { errSource s e.source with pending := some { e with time := s.time } } ∧
      (raiseErr e s).modLog = s.modLog) ∧
    (∀ x, x ≠ e.source → errSource (raiseErr e s) x = errSource s x)

/-- The error log's commands complete (R443 to R445): 200 ns after its detection, a record with nothing to wait for leaves the
service place and the pending one takes it; a muted source is heard again 100 ms after its last overflow; and a write that sets
POP takes the record shown off the port's queue. Scrubbing and clock faults complete (R438, R452 to R454, R457): a corrected
line raises its record, each patrol goes on to its next line or slot, a spare takes the place of an engine that fails, and a
lost PLL stops the module. -/
def Obligations.ErrorLogScrubbersAndFaults : Prop :=
  ((∀ (source : Nat) (r : ErrRec) (s : State), (errSource s source).service = some r → r.time + 200 ≤ s.time →
      (errSource s source).escalate = false → recordWaits s r = false →
      ∃ t, exec (.errorRecordRetire source) s = .next t ∧
        errSource t source = { errSource s source with service := (errSource s source).pending, pending := none } ∧
        (∀ x, x ≠ source → errSource t x = errSource s x)) ∧
    (∀ (source since : Nat) (s : State), (errSource s source).mutedSince = some since → since + 100000000 ≤ s.time →
      exec (.errorMuteEnd source) s =
        .next { s with errSources := mput s.errSources source { errSource s source with mutedSince := none } }) ∧
    (∀ (port : Port) (s : State), responds s 0x20008 = true →
      ∃ t, exec (.errPop port) s = .next t ∧ (errQueue t port.idx).recs = (errQueue s port.idx).recs.drop 1 ∧
        (errQueue t port.idx).seq = (errQueue s port.idx).seq ∧ errQueue t port.other.idx = errQueue s port.other.idx ∧
        { t with errQueueA := s.errQueueA, errQueueB := s.errQueueB } = s)) ∧
  ((∀ (k : Fin 10240) (line corrected : Nat) (s : State),
      exec (.correctedLineRewrite (.near k line) corrected none) s =
        .next (raiseErr { bayErr s k 0 1 with addr := line, detail := corrected } s)) ∧
    (∀ (slot line corrected : Nat) (s : State), exec (.correctedLineRewrite (.far slot line) corrected none) s =
      .next (raiseErr { source := srcId 2 (slot % farSites s), cls := 0, code := 3, unit := farChannel s slot line, addr := slot,
                        detail := line } (regAdd 0 0xE0008 1 s))) ∧
    (∀ (place : LinePlace) (corrected : Nat) (x : RepairElem) (s : State),
      ∃ t, exec (.correctedLineRewrite place corrected (some x)) s = .next t) ∧
    (∀ (bay : Fin 20) (bad : Option LineRead) (s : State), (bayAt s bay).fenced = false →
      (bayAt s bay).power = .run ∨ (bayAt s bay).power = .doze → bad ≠ some .uncorrectable →
      exec (.nearScrubRead bay bad) s =
        .next (onBay bay (fun x => { x with scrub := ((bayAt s bay).scrub + 1) % (512 * sliverLines) }) s)) ∧
    (∀ (bad : Option LineRead) (line : Fin 256) (s : State), farTotal s ≠ 0 → bad ≠ some .uncorrectable →
      ∃ t, exec (.farScrubRead bad line) s = .next t ∧ t.farScrub = (s.farScrub % farTotal s + 1) % farTotal s ∧
        t.far = s.far ∧ t.farGone = s.farGone) ∧
    (∀ (kind : EngineKind) (e : Nat) (s : State), engineUsed s (engineKind kind) e = true →
      s.spares.of (engineKind kind) ≠ noSpare (engineKind kind) →
      ∃ t, exec (.engineSpareSwitch kind e) s = .next t ∧ t.spares.of (engineKind kind) = noSpare (engineKind kind) ∧
        t.spares.out = s.spares.out ++ [(engineKind kind, e)]) ∧
    (∀ (ppm : Nat) (s : State), 500 < ppm →
      ∃ t, exec (.hubClockFault (.pll ppm)) s = .next t ∧ t.hub.stopped = true ∧ t.frames = []) ∧
    (∀ s : State, ∃ t, exec (.hubClockFault .pllLost) s = .next t ∧ t.hub.stopped = true ∧ t.frames = []) ∧
    (∀ (ppm : Nat) (s : State), 1000 < ppm → exec (.hubClockFault (.aclk ppm)) s =
      .next (raiseErr { source := srcId 0xA 0, cls := 5, code := 0x32, detail := ppm % 2 ^ 32 } (regOr 0 0xF0000 (2 ^ 31) s))))

/-! ### Rings -/

/-- Stopping a function's rings (R280, R340): fetching stops with ENABLE 0, completions that wait for room are discarded with their
charges committed, an error sets ERROR and CAUSE, every run whose request came from the function is to end at its next step, and
other rings and other runs stay as they are. RING_START, RING_STOP, REQUEST_FETCH_FAULT, COMPLETION_WRITE_FAULT, VF_FLR and
PORT_RESET complete (R335, R336, R339, R340): a start with ENABLE 0 latches the bases and the sizes (a size of 2^6 to 2^16
entries), puts every index at 0 and the phase at 1, and clears ERROR and CAUSE; a stop, a virtual function's reset and a fault
stop the rings, a fault with CAUSE 2 or 3; a port reset stops all 64 rings of the port and leaves no region of the host tier to
it. -/
def Obligations.RingsStartAndStop : Prop :=
  (∀ (fn : Nat) (cause : Option Nat) (s : State),
      let r := ringOf s fn
      let t := stopRings fn cause s
      ringOf t fn = { r with enable := false, overflow := [], error := r.error || cause.isSome, cause := cause.getD r.cause } ∧
        (∀ g, g ≠ fn → ringOf t g = ringOf s g) ∧
        t.tenants = (r.overflow.foldl (fun s c => applyCharge c.charge s) s).tenants ∧
        (∀ key x, mget? s.sessions key = some x → mget? t.sessions key =
          some { x with run := x.run.map (fun y => if y.id.fn = fn then { y with ending := true } else y) }) ∧
        { t with rings := s.rings, tenants := s.tenants, sessions := s.sessions } = s) ∧
  ((∀ (f : Fn) (v : Word) (s : State), (ringOf s f.key).enable = false → bitOf v.toNat 0 = true →
      let r := ringOf s f.key
      exec (.ringStart f v) s = .next (setRing f.key { r with
        enable := true, irqEnable := bitOf v.toNat 1, coalCount := bits v.toNat 8 15, coalNs := bits v.toNat 16 31
        error := false, cause := 0, phase := true, epoch := r.epoch + 1, rqBaseL := r.rqBase, cqBaseL := r.cqBase
        rqLogL := min 16 (max 6 (r.rqSize % 32)), cqLogL := min 16 (max 6 (r.cqSize % 32))
        rqHead := 0, rqTail := 0, cqHead := 0, cqTail := 0, unsig := 0, entries := [] } s)) ∧
    (∀ (f : Fn) (v : Word) (s : State), (ringOf s f.key).enable = true → bitOf v.toNat 0 = false →
      exec (.ringStop f v) s = .next (stopRings f.key none (fireCoal f.key (setRing f.key { ringOf s f.key with
        coalCount := bits v.toNat 8 15, coalNs := bits v.toNat 16 31, irqEnable := bitOf v.toNat 1 } s)))) ∧
    (∀ (f : Fn) (s : State), fetchable s f.key = true →
      exec (.requestFetchFault f) s = .next (stopRings f.key (some 2) s)) ∧
    (∀ (f : Fn) (s : State), (ringOf s f.key).enable = true →
      exec (.completionWriteFault f) s = .next (stopRings f.key (some 3) s)) ∧
    (∀ (f : Fn) (s : State), f.isPf = false → exec (.vfFlr f) s = .next (stopRings f.key none s)) ∧
    (∀ (port : Port) (cause : PortResetCause) (s : State), ∃ t, exec (.portReset port cause) s = .next t ∧
      (∀ i, i < 64 → (ringOf t (port.idx * 64 + i)).enable = false ∧ (ringOf t (port.idx * 64 + i)).overflow = []) ∧
      (∀ x ∈ t.regions, hostRegionOf port.idx x.1 = false)))

/-- The doorbells and the completion interrupt complete (R340, R345, R352, R410): RQ_TAIL takes a value below the ring's size and
one of at least it stops enabled rings with CAUSE 1; CQ_HEAD takes a value that releases only entries already written, which are
released and their output bytes consumed, and the overflow queue drains; one that would release more stops the rings with CAUSE
4; once COAL_NS have passed, or when IRQ_ENABLE is set and the condition already holds, vector 0 fires once and no completion is
left unsignalled. -/
def Obligations.DoorbellsMoveTheRings : Prop :=
  (∀ (f : Fn) (v : Word) (s : State), v.toNat < 2 ^ (ringOf s f.key).rqLogL →
    exec (.rqTailDoorbell f v) s = .next { setRing f.key { ringOf s f.key with rqTail := v.toNat } s with
      hub := { s.hub with wake := s.hub.wake || s.hub.quiet } }) ∧
  (∀ (f : Fn) (v : Word) (s : State), (ringOf s f.key).enable = true → 2 ^ (ringOf s f.key).rqLogL ≤ v.toNat →
    exec (.rqTailDoorbell f v) s = .next (stopRings f.key (some 1) s)) ∧
  (∀ (f : Fn) (v : Word) (s : State), let r := ringOf s f.key
    let size := 2 ^ r.cqLogL
    r.enable = true → v.toNat < size → (v.toNat + size - r.cqHead) % size ≤ (r.cqTail + size - r.cqHead) % size →
    exec (.cqHeadDoorbell f v) s = .next (drainOverflow f.key 1024 (consume f.key (released r v.toNat)
      (setRing f.key { r with cqHead := v.toNat
                              entries := r.entries.filter (fun e => ! (released r v.toNat).contains e) } s))) ∧
    (r.overflow = [] → ∃ t, exec (.cqHeadDoorbell f v) s = .next t ∧ (ringOf t f.key).cqHead = v.toNat ∧
      (ringOf t f.key).cqTail = r.cqTail ∧ { t with rings := s.rings, sessions := s.sessions } = s)) ∧
  (∀ (f : Fn) (v : Word) (s : State), let r := ringOf s f.key
    let size := 2 ^ r.cqLogL
    r.enable = true → (size ≤ v.toNat ∨ (r.cqTail + size - r.cqHead) % size < (v.toNat + size - r.cqHead) % size) →
    exec (.cqHeadDoorbell f v) s = .next (stopRings f.key (some 4) s)) ∧
  (∀ (f : Fn) (s : State), let r := ringOf s f.key
    r.irqEnable = true → 0 < r.unsig → r.firstAt + r.coalNs ≤ s.time →
    exec (.coalTimeout f) s = .next { setRing f.key { r with unsig := 0 } s with irqs := (f.key, 0) :: s.irqs }) ∧
  (∀ (f : Fn) (v : Word) (s : State), let r := ringOf s f.key
    let r' := { r with coalCount := bits v.toNat 8 15, coalNs := bits v.toNat 16 31, irqEnable := true }
    r.irqEnable = false → bitOf v.toNat 1 = true → bitOf v.toNat 0 = r.enable →
    (coalMet r' s.time = true →
      exec (.irqEnableSet f v) s = .next { setRing f.key { r' with unsig := 0 } s with irqs := (f.key, 0) :: s.irqs }) ∧
    (coalMet r' s.time = false → exec (.irqEnableSet f v) s = .next (setRing f.key r' s)))

/-- Requests that act on nothing but the rings complete (R340, R342, R343, R346): a request the hub takes moves RQ_HEAD past it and
joins the fetched requests; NOP completes with DONE; RING_FENCE completes once no earlier request of its ring is left and waits
until then; an unallocated opcode completes with BAD_OPCODE; and a request with a reserved header byte not 0 completes with
BAD_ENTRY and that byte as INFO. A completion (R340, R343, R345): with the rings the request came from still running and room in
the completion ring, its 32 bytes, phase bit first, are written to host memory at CQ_TAIL of the latched base, CQ_TAIL moves on
by one, and the phase inverts when it returns to 0; with no room it joins the overflow queue; when the rings have stopped since,
nothing is written. -/
def Obligations.RequestsAndCompletions : Prop :=
  ((∀ (r : Req) (s : State), Takes s r → exec (.nop r) s = .next (done (takenId s r 0) (taken s r 0))) ∧
    (∀ (r : Req) (s : State), Takes s r → (∀ x ∈ (ringOf s r.fn.key).fetched, (ringOf s r.fn.key).seq ≤ x.seq) →
      exec (.ringFence r) s = .next (done (takenId s r 1) (taken s r 1))) ∧
    (∀ (r : Req) (s : State), Takes s r → (∃ x ∈ (ringOf s r.fn.key).fetched, x.seq < (ringOf s r.fn.key).seq) →
      exec (.ringFence r) s = .next (holdReq (takenId s r 1) .ring (.ringFence r) (taken s r 1))) ∧
    (∀ (r : Req) (op : Nat) (s : State), opcodeAllocated op = false → s.releasing = none → fetchable s r.fn.key = true →
      exec (.badOpcode r op) s = .next (fail (takenId s r op) 0x91 (taken s r op))) ∧
    (∀ (r : Req) (s : State) (b : Nat), s.releasing = none → fetchable s r.fn.key = true → tdiOf s r.fn.key ≠ .error →
      r.stray = some b → exec (.nop r) s = .next (badEntry (takenId s r 0) b (taken s r 0)))) ∧
  (∀ (c : Cpl) (s : State), s.hub.stopped = false → c.more = false →
      let r := ringOf s c.id.fn
      let left := r.fetched.filter (· ≠ c.id)
      let t := postCpl c s
      (r.enable = true → r.epoch = c.id.epoch → r.overflow = [] → cqFull r = false →
        t.hostMem = memWrite s.hostMem (hostKey (fnPort c.id.fn) (r.cqBaseL + 32 * r.cqTail)) (cplBytes r.phase c) ∧
        (cplBytes r.phase c).length = 32 ∧
        (ringOf t c.id.fn).cqTail = (r.cqTail + 1) % 2 ^ r.cqLogL ∧
        ((ringOf t c.id.fn).phase = r.phase ↔ (r.cqTail + 1) % 2 ^ r.cqLogL ≠ 0) ∧ (ringOf t c.id.fn).fetched = left ∧
        (∀ g, g ≠ c.id.fn → ringOf t g = ringOf s g)) ∧
      (r.enable = true → r.epoch = c.id.epoch → (r.overflow ≠ [] ∨ cqFull r = true) →
        t = setRing c.id.fn { r with fetched := left, overflow := r.overflow ++ [c] } s) ∧
      (r.enable = false ∨ r.epoch ≠ c.id.epoch →
        t = applyCharge c.charge (setRing c.id.fn { r with fetched := left } s)))

/-! ### Sessions -/

/-- OPEN, STEP, CLOSE and HALT complete (R26, R27, R135, R263, R347 to R350): an OPEN that no check refuses gives the identity a
session with no position and its object with every tile ABSENT, and writes its directory entry; a STEP that passes its checks,
with input and room below the length limit, makes a session that holds a slot active and puts a parked one in its pavilion's
admission queue; one that a check refuses completes with that check's status, one without input with NO_INPUT, and one with a
run going with RUN_ACTIVE; CLOSE drops the session and its object with its entry's delete; HALT completes at once with no run
going. -/
def Obligations.SessionsOpenStepAndClose : Prop :=
  (∀ (r : Req) (object : DWord) (kd pavilion slotKind modelSlot lmax tokeniser row : Nat) (s : State),
    let id := takenId s r 0x10
    let t := found s r 0x10
    let key := sessKey r.identity.key r.session.toNat
    let obj := objKey r.identity.key object.toNat
    let n := kvTiles (pavAt s pavilion).desc lmax + tagTiles lmax + 1
    Takes s r → openBad kd pavilion slotKind lmax tokeniser = none → mget? s.sessions key = none → sessSearch t id ≠ 0x34 →
    openCheck t id object.toNat kd pavilion modelSlot n tokeniser = none →
    dirAccept t (fnPort r.fn.key) false (sessDirKey r.identity.key r.session.toNat) (fullCare false) = .inr row →
    ∃ u x o, exec (.openSession r object kd pavilion slotKind modelSlot lmax tokeniser) s = .next u ∧
      mget? u.sessions key = some x ∧ mget? u.objects obj = some o ∧ x.busy = some id ∧ x.length = 0 ∧ x.lmax = lmax ∧
      x.home = pavilion ∧ x.slotKind = slotKind ∧ x.kd = kd ∧ x.object = object.toNat ∧ x.run = none ∧ x.gen = 0 ∧
      o.kind = .session ∧ o.ntiles = n ∧ (∀ i, i + 1 < n → o.tile i = { kd := kd }) ∧ (o.tile (n - 1)).state = .dirty ∧ o.kd = kd ∧
      (∃ w, u.dir.writes = t.dir.writes ++ [w] ∧ w.id = some id ∧ w.row = row ∧ w.insert = true) ∧
      { u with sessions := t.sessions, objects := t.objects, free := t.free, dir := t.dir } = t) ∧
  (∀ (r : Req) (checkGen : Bool) (expectGen : Nat) (outBase : DWord) (outSize key : Nat) (x : Session) (s : State),
    let id := takenId s r 0x11
    let t := found s r 0x11
    let cmd := Instr.stepSession r checkGen expectGen outBase outSize
    let run : Run := { id := id, outBase := outBase.toNat, outSize := outSize, cmd := cmd }
    let parked := match x.place with | .parked _ _ => true | _ => false
    Takes s r → Finds s r key x → Clear s key x false → outSizeOk outSize = true → (checkGen = true → x.gen = expectGen) →
    (stepCheck t id x.pav parked x = none → x.hasInput = true → (x.columns 1).1 < lengthLimit (pavAt t x.pav) x →
      exec cmd s = .next (if parked then enqueue x.pav key id none (onSess key (fun x => { x with run := some run }) t)
        else noteReady x.pav (onSess key (fun x => { x with run := some { run with admitted := true } }) t))) ∧
    (∀ d st, stepCheck t id x.pav parked x = some (d, st) → exec cmd s = .next (complete id d st 0 t)) ∧
    (stepCheck t id x.pav parked x = none → x.hasInput = false →
      exec cmd s = .next (complete id 0x48 (some 4) 0 (regAdd (fnPort r.fn.key) 0x90018 1 t)))) ∧
  (∀ (r : Req) (checkGen : Bool) (expectGen : Nat) (outBase : DWord) (outSize key : Nat) (x : Session) (s : State),
    Takes s r → Finds s r key x → x.run.isSome = true → outSizeOk outSize = true →
    exec (.stepSession r checkGen expectGen outBase outSize) s = .next (fail (takenId s r 0x11) 0x95 (found s r 0x11))) ∧
  (∀ (r : Req) (checkGen : Bool) (expectGen key : Nat) (x : Session) (s : State), Takes s r → Finds s r key x →
    Clear s key x false → (checkGen = true → x.gen = expectGen) →
    exec (.closeSession r checkGen expectGen) s =
      .next (dropSession key x (some (takenId s r 0x12)) (movedPushes key (found s r 0x12)))) ∧
  (∀ (r : Req) (key : Nat) (x : Session) (s : State), Takes s r → Finds s r key x → Clear s key x false →
    exec (.haltSession r) s = .next (done (takenId s r 0x16) (found s r 0x16)))

/-- The five actions of TAG_EDIT complete between frames (R119, R120): on a resident session clearing V, setting V and setting the
segment change that part of the tags of the positions of the range below the session's length, in the holders of every group of
its batch slot, and no other byte of the near tier; on a session that is not resident they complete with NOT_READY. MASK_MODE
and the current segment are set in the state tile wherever the session is. -/
def Obligations.TagEditsChangeTheirRange : Prop :=
  (∀ (r : Req) (first count segment key : Nat) (x : Session) (s : State), Takes s r → Finds s r key x → Between s key x →
    first < 2 ^ 21 → 0 < count → count ≤ 2097152 → segment < 2 ^ 15 →
    let stop := min (first + count) x.length
    let id := takenId s r 0x1C
    let t := found s r 0x1C
    ((∃ pav slot, x.place = .resident pav slot) →
      exec (.tagClearV r first count segment) s = .next (done id (writeTags true key x first stop (fun v => v % 2 ^ 15) t)) ∧
      exec (.tagSetV r first count segment) s =
        .next (done id (writeTags true key x first stop (fun v => v % 2 ^ 15 + 2 ^ 15) t)) ∧
      exec (.tagSetSegment r first count segment) s =
        .next (done id (writeTags true key x first stop (fun v => v / 2 ^ 15 * 2 ^ 15 + segment) t))) ∧
    ((∀ pav slot, x.place ≠ .resident pav slot) →
      exec (.tagClearV r first count segment) s = .next (complete id 0 (some 0xB) 0 t) ∧
      exec (.tagSetV r first count segment) s = .next (complete id 0 (some 0xB) 0 t) ∧
      exec (.tagSetSegment r first count segment) s = .next (complete id 0 (some 0xB) 0 t))) ∧
  (∀ (keep : Bool) (key a b n slot : Nat) (x : Session) (f : Nat → Nat) (s : State), x.place = .resident n slot →
    (pavAt s n).desc ≠ [] → Memory.wf s.near = true →
    let p := pavAt s n
    let t := writeTags keep key x a b f s
    let place (g pos : Nat) : Nat := nearKey (tagByte p slot g pos).1 (tagByte p slot g pos).2
    (∀ g pos, g < dGroups p.desc → a ≤ pos → pos < b →
      (∀ h q, h < dGroups p.desc → a ≤ q → q < b → (h, q) ≠ (g, pos) → place h q + 2 ≤ place g pos ∨ place g pos + 2 ≤ place h q) →
      tagAt t p slot g pos = f (tagAt s p slot g pos) % 2 ^ 16) ∧
    (∀ byte, (∀ g pos, g < dGroups p.desc → a ≤ pos → pos < b → byte < place g pos ∨ place g pos + 2 ≤ byte) →
      memByte t.near byte = memByte s.near byte)) ∧
  (∀ (r : Req) (first count segment key : Nat) (x : Session) (s : State), Takes s r → Finds s r key x → Between s key x →
    segment < 2 ^ 15 →
    exec (.setMaskMode r first count segment) s =
      .next (done (takenId s r 0x1C) (setSessTile key (x.set 0x47 1 (segment % 4)) (found s r 0x1C))) ∧
    exec (.setCurrentSegment r first count segment) s =
      .next (done (takenId s r 0x1C) (setSessTile key (x.set 0x64 2 segment) (found s r 0x1C))))

/-- PARK, REVIVE and MIGRATE complete (R144 to R148, R156 to R160, R329, R384): a park orders the writes of what its tier lacks and
runs until PARK_RELEASE finds nothing more to write; a revive of a session with a slot is done already and of a parked one waits
in its home pavilion's queue until REVIVE_COMPLETE finds everything landed, or with EARLY layer 0, its tags and its state; a
migration within the part advances the generation, reserves a slot and orders the tiles' moves, and MIGRATION_DRAINED, or
MIGRATION_FENCE_TIMEOUT once the fence has expired, ends it, a parked session's where its tiles lie; one toward a peer sends its
offer and ends once all is sent. A tile that is FAILED, or a tier without room, ends the request with its status. Waiting and
pre-emption complete (R129 to R131, R264 to R267): a wait that reaches its tenant's limit ends with ADMISSION_DEFERRED and the
first condition not met; LEVEL_PROMOTION raises by one level every queued request past its level's ceiling in a pavilion that is
not in share mode, then fills free slots; PREEMPTION_SWAP acts once no frame of its pavilion runs, or once the frame has masked
the victim: it first orders the writes of the victim's dirty tiles and, once they have left, gives its slot to the request that
waits; where a tile fails, or there is no room for one, the request is deferred and the victim stays. -/
def Obligations.SessionsMoveAndWait : Prop :=
  ((∀ (r : Req) (target : Nat) (keep checkGen : Bool) (expectGen region codec key : Nat) (x : Session) (s u : State),
      let id := takenId s r 0x13
      let t := movedPushes key (found s r 0x13)
      Takes s r → Finds s r key x → Clear s key x true → (checkGen = true → x.gen = expectGen) →
      lockedFor (found s r 0x13) r id = false → tierOk (found s r 0x13) r.identity.key target region = true → codecValid codec = true →
      let ordered := orderWrites (sessObj key x) target region codec (parkTiles t (sessObj key x) target region x.parked) t
      (ordered = some u → exec (.park r target keep checkGen expectGen region codec) s =
        .next { u with jobs := mput u.jobs (sessObj key x) (.park id target region codec keep x.parked) }) ∧
      (ordered = none → exec (.park r target keep checkGen expectGen region codec) s =
        .next (complete id (noRoom target) (some 7) 0 (found s r 0x13)))) ∧
    (∀ (f : Fn) (session : DWord) (x : Session) (id : ReqId) (target region codec : Nat) (keep repark : Bool) (s : State),
      let sk := sessKey f.key session.toNat
      let obj := sessObj sk x
      mget? s.sessions sk = some x → mget? s.jobs obj = some (.park id target region codec keep repark) →
      (moving s obj = true → exec (.parkRelease f session) s = .next s) ∧
      (moving s obj = false → hasFailed s obj = true →
        exec (.parkRelease f session) s = .next (complete id 0x24 (some 8) 0 (endJob obj s))) ∧
      (moving s obj = false → hasFailed s obj = false → parkTiles s obj target region repark = [] →
        exec (.parkRelease f session) s = .next (parkDone id sk obj x target region keep repark s)) ∧
      (∀ u, moving s obj = false → hasFailed s obj = false → parkTiles s obj target region repark ≠ [] →
        orderWrites obj target region codec (parkTiles s obj target region repark) s = some u →
        exec (.parkRelease f session) s = .next u)) ∧
    (∀ (r : Req) (early rel checkGen : Bool) (expectGen key : Nat) (x : Session) (s : State),
      let id := takenId s r 0x14
      let t := found s r 0x14
      Takes s r → Finds s r key x → Clear s key x false → (checkGen = true → x.gen = expectGen) →
      ((∀ tier region, x.place ≠ .parked tier region) → exec (.revive r early rel checkGen expectGen) s = .next (done id t)) ∧
      (∀ tier region, x.place = .parked tier region → (pavAt s x.home).prog.isSome = true →
        assigned t x.home r.identity.key = true → pavFenced t (pavAt t x.home) = false →
        exec (.revive r early rel checkGen expectGen) s =
          .next (enqueue x.home key id (some (early, rel)) (onSess key (fun x => { x with busy := some id }) t)))) ∧
    (∀ (f : Fn) (session : DWord) (x : Session) (id : ReqId) (early rel : Bool) (s : State),
      let sk := sessKey f.key session.toNat
      let obj := sessObj sk x
      mget? s.sessions sk = some x → mget? s.jobs obj = some (.revive (some id) early rel false) →
      (moving s obj = false →
        let t := onSess sk (fun x => { x with busy := none }) (endJob obj s)
        exec (.reviveComplete f session) s = .next (if hasFailed t obj then complete id 0x24 (some 8) 0 t else done id t)) ∧
      (moving s obj = true → early = true → firstLanded s obj = true →
        let t := onSess sk (fun x => { x with busy := none }) { s with jobs := mput s.jobs obj (.revive (some id) early rel true) }
        exec (.reviveComplete f session) s =
          .next (if tilesWhere t obj (fun t => t.state = .failed && t.order = 0) = [] then done id t
            else complete id 0x24 (some 8) 0 t)) ∧
      (moving s obj = true → early = false ∨ firstLanded s obj = false → exec (.reviveComplete f session) s = .next s)) ∧
    (∀ (r : Req) (checkGen : Bool) (expectGen n cport kind peer fenceUs key : Nat) (x : Session) (s : State),
      let id := takenId s r 0x15
      let t := found s r 0x15
      let us := if fenceUs = 0 then bits (regGet t (fnPort r.identity.key) 0xB0000) 12 31 else fenceUs
      let k := if bitOf kind 7 then kind % 4 else x.slotKind
      Takes s r → Finds s r key x → Clear s key x true → (checkGen = true → x.gen = expectGen) → lockedFor t r id = false →
      (migrateBad 0 n cport kind = none → migrateCheck t id x n k = none →
        exec (.migrate r 0 checkGen expectGen n cport kind peer fenceUs) s = .next (startMigrate id key x n k (1000 * us) t)) ∧
      (migrateBad 1 n cport kind = none → sendCodecOk t (fnPort r.identity.key) = true → clyUp t cport = true →
        exec (.migrate r 1 checkGen expectGen n cport kind peer fenceUs) s =
          .next (startHandOver id key x cport peer (1000 * us) t))) ∧
    (∀ (f : Fn) (session : DWord) (x : Session) (id : ReqId) (n slot old oldSlot fence kind : Nat) (s : State),
      let sk := sessKey f.key session.toNat
      let obj := sessObj sk x
      mget? s.sessions sk = some x → mget? s.jobs obj = some (.migrate id n slot old oldSlot fence true kind) →
      allMoved s obj = true →
      (oldPush s sk = false → exec (.migrationDrained f session) s = .next (migrateDone sk obj n slot old oldSlot kind x
        (dirSetDone sk (fun r => { r with state := 1, tier := 1, pav := n, slot := slot }) id s))) ∧
      (fence ≤ s.time → exec (.migrationFenceTimeout f session) s = .next (migrateDone sk obj n slot old oldSlot kind x
        (complete id 0x25 (some 0) 0
          (dirSetSession sk (fun r => { r with state := 1, tier := 1, pav := n, slot := slot }) none s))))) ∧
    (∀ (f : Fn) (session : DWord) (x : Session) (id : ReqId) (n slot old oldSlot fence kind : Nat) (s : State),
      let sk := sessKey f.key session.toNat
      let obj := sessObj sk x
      mget? s.sessions sk = some x → mget? s.jobs obj = some (.migrate id n slot old oldSlot fence false kind) →
      (oldPush s sk = false → exec (.migrationDrained f session) s =
        .next (migrateParked sk obj n slot kind (dirSetDone sk (migratedRec sk x) id s))) ∧
      (fence ≤ s.time → exec (.migrationFenceTimeout f session) s =
        .next (migrateParked sk obj n slot kind (complete id 0x25 (some 0) 0 (dirSetSession sk (migratedRec sk x) none s))))) ∧
    (∀ (f : Fn) (session : DWord) (x : Session) (id : ReqId) (cport node tag fence at_ : Nat) (ended : Bool) (s : State),
      let sk := sessKey f.key session.toNat
      let obj := sessObj sk x
      mget? s.sessions sk = some x → mget? s.jobs obj = some (.handOver id cport node tag fence at_ true ended) →
      (ended = true → oldPush s sk = false → exec (.migrationDrained f session) s = .next (handOver obj id 0 (some 0) s)) ∧
      (allSent s obj = true → fence ≤ s.time →
        exec (.migrationFenceTimeout f session) s = .next (handOver obj id 0x25 (some 0) s)))) ∧
  ((∀ (pav : Fin 80) (f : Fn) (session : DWord) (q : Queued) (s : State),
      let limit := (tenantOf s (pavAt s pav).port q.tenant).waitLimit
      (pavAt s pav).queue.find? (fun q => q.sess = sessKey f.key session.toNat) = some q → limit ≠ 0xFFFFFFFF →
      q.arrival + 1000 * limit ≤ s.time →
      exec (.admissionWaitTimeout pav f session) s = .next (deferQueued q ((unmet s pav q).getD 0x62) (dequeue pav q s))) ∧
    (∀ s : State, ∃ u : State, exec .levelPromotion s = .next (u.pavs.foldl (fun s p => fillPav p.1 s) u) ∧
      { u with pavs := s.pavs } = s ∧ (∀ n p, mget? s.pavs n = some p → ∃ p', mget? u.pavs n = some p' ∧
        (p.share = true → p' = p) ∧ (p.share = false → p'.queue = p.queue.map (fun q => q.aged s p)))) ∧
    (∀ (q : Queued) (p : Pav) (s : State), (q.aged s p).level = if
        (q.level = 3 ∧ bits (regGet s p.port 0x50000) 16 31 ≠ 0 ∧
          q.levelAt + 1000000 * bits (regGet s p.port 0x50000) 16 31 < s.time) ∨
        (q.level = 2 ∧ bits (regGet s p.port 0x50000) 0 15 ≠ 0 ∧
          q.levelAt + 1000000 * bits (regGet s p.port 0x50000) 0 15 < s.time) then q.level - 1 else q.level) ∧
    (∀ (pav : Fin 80) (slot : Nat) (u : SlotUse) (x : Session) (q : Queued) (ordered : Bool) (s : State),
      let obj := sessObj u.sess x
      let ran := s.frames.any (fun f => (mget? f.2.runs (pav.val * 1024 + slot)).any (·.sess = u.sess)
        && (mget? f.2.masked (pav.val * 1024 + slot)).isSome)
      mget? (pavAt s pav).slots slot = some u → mget? s.sessions u.sess = some x →
      mget? s.jobs obj = some (.swap q ordered) →
      (pavInFrame s pav = true → ran = false → exec (.preemptionSwap pav slot) s = .next s) ∧
      (pavInFrame s pav = false ∨ ran = true →
        (∀ region t, ordered = false → spillWrites s obj = some (region, t) →
          exec (.preemptionSwap pav slot) s = .next { t with jobs := mput t.jobs obj (.swap q true) }) ∧
        (ordered = false → spillWrites s obj = none → exec (.preemptionSwap pav slot) s = .next (swapFail u.sess obj q s)) ∧
        (ordered = true → moving s obj = true → exec (.preemptionSwap pav slot) s = .next s) ∧
        (ordered = true → moving s obj = false → hasFailed s obj = true →
          exec (.preemptionSwap pav slot) s = .next (swapFail u.sess obj q s)) ∧
        (ordered = true → moving s obj = false → hasFailed s obj = false →
          exec (.preemptionSwap pav slot) s = .next (swapDone u.sess obj pav slot x q ran s)))))

/-! ### Tiers, objects and tiles -/

/-- PLACE and WRITE_BACK complete (R144, R145, R255, R497): a placement of an object that nothing holds back, with a fitting target,
gives its tiles near places dealt over the named cores, far slots, or writes to a granted region in the form each tile's entry
names (an index lays each region in the tier of its own, and one whose near regions have no place yet has no slot), and a
write-back orders the write of every DIRTY tile of its range that has a lower copy to where that lies; each is in effect until
nothing of the object is on its way. MODEL_LOAD, its application, MAP_READ and the region requests complete (R137, R144, R149,
R154, R155): a well-formed model image has the tiles of its ranges placed and loads its program once every one of them is CLEAN,
and gives its slots back where a tile fails or the program is refused; with REPLACE the model and program that stood there are
unloaded first; a map read answers the tile's 32-byte entry in host memory, or DMA_FAULT where that cannot be written; a grant
makes the region known with its base, its granules and its node, in place of one of the same number, and a withdrawal takes it
with every record in it. -/
def Obligations.ObjectsModelsAndRegions : Prop :=
  ((∀ (r : Req) (object : DWord) (target : Nat) (keep : Bool) (region base cores : Nat) (o : Obj) (s u : State),
      let id := takenId s r 0x50
      let t := taken s r 0x50
      let key := objKey r.identity.key object.toNat
      let job (u : State) : State := settle key { u with jobs := mput u.jobs key (.place id target region keep) }
      Takes s r → Idle s key → mget? s.objects key = some o → o.kind ≠ .session →
      (target = 1 ∨ tierOk t r.identity.key target region = true) → placeBad t id target base cores o.ntiles = none →
      mapRoom t 0 = true →
      (o.kind = .index → target = 2 → indexNeedsProg t key = true →
        exec (.place r object target keep region base cores) s = .next (complete id 0x21 (some 7) 0 t)) ∧
      (o.kind = .index → (target = 1 ∨ target = 2 ∧ indexNeedsProg t key = false) →
        placeIndex key o target keep base cores t = some u →
        exec (.place r object target keep region base cores) s = .next (job u)) ∧
      (o.kind ≠ .index → target = 1 → exec (.place r object target keep region base cores) s = .next (job
        ((List.range o.ntiles).foldl (fun s i =>
          placeUpper key 1 (dealAddr (((corePav t (base % 2 ^ 14)).map (·.2)).getD {}) base cores i) keep i s) t))) ∧
      (o.kind ≠ .index → target = 2 →
        placeFar key keep ((List.range o.ntiles).filter (fun i => needsFar (o.tile i))) t = some u →
        exec (.place r object target keep region base cores) s = .next (job u)) ∧
      (target ≠ 1 → target ≠ 2 →
        orderOwn key target region (tilesWhere (noteEpoch key t) key (fun t => t.state = .dirty
          || ((t.state = .clean || t.state = .lower) && ! t.liesIn target region))) (noteEpoch key t) = some u →
        exec (.place r object target keep region base cores) s = .next (job u))) ∧
    (∀ (r : Req) (object : DWord) (first count : Nat) (o : Obj) (s u : State),
      let id := takenId s r 0x52
      let key := objKey r.identity.key object.toNat
      let t := noteEpoch key (taken s r 0x52)
      let lo := if count = 0 then 0 else first
      let n := if count = 0 then o.ntiles else count
      Takes s r → Idle s key → mget? s.objects key = some o → (count = 0 ∨ first < o.ntiles) → lo + n ≤ o.ntiles →
      ((tilesWhere t key (fun t => t.state = .dirty && t.loTier ≠ 0)).filter (fun i =>
          decide (lo ≤ i) && decide (i < lo + n))).foldl (fun a i => a.bind (fun s =>
            orderWrite key (relTier (tileOf s key i).loTier) (tileOf s key i).loRegion (tileOf s key i).codec i s)) (some t) = some u →
      exec (.writeBack r object first count) s = .next (settle key { u with jobs := mput u.jobs key (.writeBack id lo n) }))) ∧
  ((∀ (r : Req) (slot n : Nat) (object : DWord) (replace : Bool) (o : Obj) (s u : State),
      let id := takenId s r 0x51
      let t := taken s r 0x51
      let key := objKey r.identity.key object.toNat
      let p := pavAt t n
      Takes s r → Idle s key → slot ≤ 255 → n ≤ 79 → mget? s.objects key = some o → assigned t n r.identity.key = true →
      modelOk t o p (tileNow t key 0) = true → pavFenced t p = false → 
      (replace = false ∨ (p.slots = [] ∧ groupBusy t n = false ∧ unloadOwed t n = [])) →
      placeRanges key p (modelRanges (tileNow t key 0)) (if replace then unloadModel n t else t) = some u →
      exec (.modelLoad r slot n object replace) s = .next { u with jobs := mput u.jobs key (.modelLoad id n slot) }) ∧
    (∀ (pav : Fin 80) (key n slot : Nat) (id : ReqId) (s : State),
      let x := modelItem s key n slot
      let m : ModelUse := { object := key, outRows := mdOutRows (tileNow s key 0), digest := shake256 ((objPlain s key).getD []) 32 }
      let t := onPav n (fun p => { p with models := mput p.models slot m }) (endJob key s)
      s.jobs.find? (fun j => match j.2 with | .modelLoad _ n _ => n = pav.val | _ => false) = some (key, .modelLoad id n slot) →
      moving s key = false →
      (hasFailed s key = true → exec (.modelLoadApply pav) s = .next (complete id 0x24 (some 8) 0 (releaseAll key (endJob key s)))) ∧
      (hasFailed s key = false → modelClean s key = true → loadRefused t (fnPort id.fn) [x] = none →
        exec (.modelLoadApply pav) s = .next (loadAll id [x] t)) ∧
      (hasFailed s key = false → modelClean s key = true → (loadRefused t (fnPort id.fn) [x]).isSome = true →
        exec (.modelLoadApply pav) s =
          .next (releaseAll key (loadAll id [x] (onPav n (fun p => { p with models := (pavAt s n).models }) t))))) ∧
    (∀ (r : Req) (object buf : DWord) (tile : Nat) (o : Obj) (s : State),
      let key := objKey r.identity.key object.toNat
      let t := taken s r 0x55
      Takes s r → mget? s.objects key = some o → tile < o.ntiles →
      exec (.mapRead r object tile buf) s = .next (if r.noWrite then fail (takenId s r 0x55) 0x94 t
        else done (takenId s r 0x55) (dmaWrite (fnPort r.fn.key) buf.toNat (mapEntry t key o tile).bytes t))) ∧
    (∀ (r : Req) (tier region granules node : Nat) (base : DWord) (s : State),
      let fn := r.identity.key
      let t := dropRegion fn tier region (lostRegion fn tier region (taken s r 0x53))
      let u := { t with regions := mput t.regions (regionKey fn tier region) { base := base.toNat, granules := granules, node := node } }
      Takes s r → (tier = 3 ∨ tier = 5) → region ≤ 1023 → 0 < granules → granules < 2 ^ 32 →
      (regionOf s fn tier region = none ∨ regionBusy (taken s r 0x53) fn tier region = false) →
      exec (.regionGrant r tier region base granules node) s =
        .next (done (takenId s r 0x53) (if fn = 64 * fnPort fn then adoptShards (fnPort fn) tier region u else u))) ∧
    (∀ (r : Req) (tier region : Nat) (s : State),
      let fn := r.identity.key
      let t := lostRegion fn tier region (taken s r 0x54)
      let u := dropRegion fn tier region t
      Takes s r → (tier = 3 ∨ tier = 5) → region ≤ 1023 → (regionOf s fn tier region).isSome = true →
      regionBusy (taken s r 0x54) fn tier region = false →
      exec (.regionWithdraw r tier region) s = .next (done (takenId s r 0x54) u) ∧
        (mapWf t.regions = true → mget? u.regions (regionKey fn tier region) = none) ∧
        (∀ x ∈ u.records, x.1 / 2 ^ 32 ≠ regionKey fn tier region)))

/-- The shutter engines' commands complete (R139, R140, R148, R150, R157, R159, R168 to R173, R384, R387): an engine in service
fetches an ARRIVING tile whose fetch is due and takes the plain bytes of what it read to its slot, or asks a pool node for it
when its port may; writes a tile whose write is owed in its form to its place, or to another where the record grew; copies a
migrating tile to its new slot; and sends a hand-over's tile in its turn. What cannot be read, decoded or written is a failure
of the transfer. -/
def Obligations.ShutterEnginesMoveTiles : Prop :=
  (∀ (engine : Fin 33) (obj : ObjRef) (tile : Nat) (read : TierRead) (s : State),
    let key := refKey obj
    let t := tileOf s key tile
    let u := noteEngine engine 1 t.loTier t.upTier t.codec t.loAddr t.upAddr key tile t.loGran
      (lastTile s key tile (fun t => t.state = .arriving && ! t.begun))
      (onTile key tile (fun t => { t with begun := true, fetched := storedAt s key t })
        (firstFetch key (if t.loTier = 2 then farAccess t.loAddr s else s)))
    engineOk s engine = true → t.state = .arriving → t.begun = false → earlierFetch s key t = false →
    (∀ x, t.loTier ≠ 5 → spotRead s (key / 2 ^ 64) t.lower = some x →
      (∀ bs, openRead s t.lower x read = .inr bs → exec (.shutterFetch engine obj tile read) s = .next (fetchOut key tile bs u)) ∧
      (∀ c, openRead s t.lower x read = .inl c → exec (.shutterFetch engine obj tile read) s =
        .next (failTransfer key tile c (if c = 5 then countRefusal key u else u)))) ∧
    (t.loTier ≠ 5 → spotRead s (key / 2 ^ 64) t.lower = none →
      exec (.shutterFetch engine obj tile read) s = .next (failTransfer key tile 3 u)) ∧
    (t.loTier = 5 → poolFull s (objPort key) = true → exec (.shutterFetch engine obj tile read) s = .next s) ∧
    (t.loTier = 5 → poolFull s (objPort key) = false → exec (.shutterFetch engine obj tile read) s =
      .next ((poolSend key tile false t.retried t.lower [] u).getD (failTransfer key tile 4 u)))) ∧
  (∀ (engine : Fin 33) (obj : ObjRef) (tile : Nat) (s : State),
    let key := refKey obj
    let t := tileOf s key tile
    let src := if t.upTier = 1 then t.out else t.out.or (tileForm s key tile)
    let n := noteEngine engine 2 (if t.upTier = 0 then t.loTier else t.upTier) (absTier (objPort key) t.newTier) t.newCodec
      (if t.upTier = 0 then t.loAddr else t.upAddr) t.newAddr key tile t.newGran
      (lastTile s key tile (fun t => t.owesWrite && ! t.sent)) s
    engineOk s engine = true → t.owesWrite = true → t.sent = false → (t.upTier = 1 → t.out ≠ none) →
    (t.newTier = 5 → poolFull s (objPort key) = true → exec (.shutterWrite engine obj tile) s = .next s) ∧
    (t.newTier ≠ 5 ∨ poolFull s (objPort key) = false →
      (src = none → exec (.shutterWrite engine obj tile) s = .next (failTransfer key tile 2 n)) ∧
      (∀ f, src = some f → reform (objPort key) f.1 t.newCodec f.2 n = none →
        exec (.shutterWrite engine obj tile) s = .next (failTransfer key tile 5 (countRefusal key n))) ∧
      (∀ f e v, src = some f → reform (objPort key) f.1 t.newCodec f.2 n = some (e, v) →
        let place := if t.newTier = 2 || decide (e.bytes.length + 32 ≤ 256 * t.newGran) then some (t.target, v)
          else spotAlloc (key / 2 ^ 64) t.newTier t.newRegion e.bytes.length (spotFree (key / 2 ^ 64) t.target v)
        (place = none → exec (.shutterWrite engine obj tile) s = .next (failTransfer key tile 3 v)) ∧
        (∀ sp x, place = some (sp, x) →
          let w := onTile key tile (fun y => { y with
            newAddr := sp.addr, newGran := sp.gran, newCodec := e.codec, sent := true, begun := true }) x
          let z := spotWrite key tile t.kd sp e (if sp.tier = 2 then farAccess sp.addr w else w)
          (sp.tier ≠ 5 → exec (.shutterWrite engine obj tile) s = .next z) ∧
          (sp.tier = 5 → exec (.shutterWrite engine obj tile) s = .next ((poolSend key tile true t.retried sp
            (sealRecord w t.kd tile e.codec e.bytes (kdOf w t.kd).counter) z).getD (failTransfer key tile 4 z))))))) ∧
  (∀ (engine : Fin 33) (obj : ObjRef) (tile : Nat) (m : MovePlace) (s : State),
    let key := refKey obj
    let t := tileOf s key tile
    let u := noteEngine engine 3 1 1 0 t.upAddr m.addr key tile 0
      (lastTile s key tile (fun u => u.upTier = 1 && decide (u.upAddr ≠ m.addr))) (snapKeep key tile s)
    let content := (objOf u key).any (fun o => hasSlot o t || t.tail || isTag u key tile) && t.state ≠ .absent && t.state ≠ .failed
    migratePlace s key tile = some m → engineOk s engine = true → t.moved m = false → t.owesWrite = false →
    (content = false → exec (.shutterCopy engine obj tile) s =
      .next (onTile key tile (fun t => { t with upAddr := m.addr, tail := m.tail }) u)) ∧
    (content = true → m.streamed = true → exec (.shutterCopy engine obj tile) s =
      .next (if t.state = .clean then releaseUpper key tile u else (orderWrite key 2 0 0 tile u).getD u)) ∧
    (content = true → m.streamed = false →
      (∀ bs, copyPlain u key tile = some bs → exec (.shutterCopy engine obj tile) s = .next (copyLay key tile m bs u)) ∧
      (copyPlain u key tile = none →
        let whole := ! isTag u key tile && ! t.tail && ! slotDamaged u t && ! (bayAt u (coreBay (addrCore t.upAddr))).fenced
        exec (.shutterCopy engine obj tile) s =
          .next (failTransfer key tile (if whole then 5 else 2) (if whole then countRefusal key u else u))))) ∧
  (∀ (engine : Fin 33) (obj : ObjRef) (tile : Nat) (id : ReqId) (cport node tag fence at0 : Nat) (s : State),
    let key := refKey obj
    let t := tileOf s key tile
    let src := if t.upTier = 0 then t.loTier else t.upTier
    let n := noteEngine engine 4 src 6 t.codec (if t.upTier = 0 then t.loAddr else t.upAddr) 0 key tile t.loGran
      (lastTile s key tile (fun u => sendable u && ! u.sent)) s
    mget? s.jobs key = some (.handOver id cport node tag fence at0 true false) → engineOk s engine = true → sendable t = true →
    t.sent = false → tilesWhere s key (fun u => sendable u && ! u.sent && decide (u.order < t.order)) = [] →
    (tileForm n key tile = none → exec (.shutterSend engine obj tile) s = .next (failTransfer key tile 2 n)) ∧
    (∀ f, tileForm n key tile = some f → reform (objPort key) f.1 (sendCodec n key tile f.1) f.2 n = none →
      exec (.shutterSend engine obj tile) s = .next (failTransfer key tile 5 (countRefusal key n))) ∧
    (∀ f e v, tileForm n key tile = some f → reform (objPort key) f.1 (sendCodec n key tile f.1) f.2 n = some (e, v) →
      let gen := ((sessOfObj v key).map (fun x => x.2.gen)).getD 0
      let record := (sealRecord v t.kd tile e.codec e.bytes (kdOf v t.kd).counter).take (e.bytes.length + 32)
      let head := natLe 4 tile ++ natLe 2 e.bytes.length ++ natLe 1 e.codec ++ natLe 9 0
      let b := bumpCounter t.kd (onTile key tile (fun t => { t with sent := true }) v)
      let u := tierBytes key src 1 e.bytes.length (sendMsg cport (clyReg b cport 0x10 % 8) 0x0B node tag gen (head ++ record) b)
      exec (.shutterSend engine obj tile) s = .next (if allSent u key then sendMsg cport 0 0x0C node tag gen [] u else u)))

/-- The ends of transfers complete (R139, R140, R157, R298, R299, R455): an ARRIVING tile that has landed becomes CLEAN, or DIRTY
where its request frees lower copies or a write of its slot waited for it, and a pushed one that has landed counts as written;
an acknowledged write makes the target the tile's lower copy, DEPARTING becoming CLEAN and REDIRTIED DIRTY, and one of a
snapshot is owed no longer; a transfer's first failure is retried and counted, its second makes the tile FAILED and raises
TILE_INTEGRITY; and a request whose object has nothing left on its way completes. Writes in the pool tier are not acknowledged
so. The stream slots' own moves complete (R127, R128): once the latch point of the layer before has passed, the other layers'
units of the layer's buffer leave it and the LOWER units of the layer are fetched into it; a tail unit that has filled is
written to the far tier when it is DIRTY, once there is room there, and released when it is CLEAN. -/
def Obligations.TransfersEndAndStreamSlots : Prop :=
  ((∀ (obj : ObjRef) (tile : Nat) (s : State),
      let key := refKey obj
      let t := tileOf s key tile
      let n := ((spotRead s (key / 2 ^ 64) t.lower).map (fun x => x.bytes.length)).getD 0
      let a := tierBytes key t.loTier 1 n (onTile key tile (fun t => { t with state := .clean, landed := false, begun := false }) s)
      let b := tierBytes key (if t.upTier = 2 then 2 else 1) 0 16384 a
      let fold (s : State) : State := settle key (if t.upTier = 1 then foldSlot (addrCore t.upAddr) (addrLine t.upAddr) s else s)
      t.landed = true →
      (t.state = .arriving → freesLower b key = false → exec (.tileArrival obj tile) s = .next (fold b)) ∧
      (t.state = .arriving → freesLower b key = true → exec (.tileArrival obj tile) s =
        .next (fold (onTile key tile (fun t => { t.touch with state := .dirty }) (releaseLower key tile b)))) ∧
      (t.state ≠ .arriving →
        exec (.tileArrival obj tile) s = .next (onTile key tile (fun t => { t with landed := false }) (writeTile key tile s)))) ∧
    (∀ (obj : ObjRef) (tile : Nat) (o : Obj) (s : State),
      let key := refKey obj
      let t := tileOf s key tile
      mget? s.objects key = some o → mget? s.jobs key = none → t.owesWrite = true → t.sent = true → t.newTier ≠ 5 →
      t.pending = false →
      ∃ u, exec (.tileWriteAck (.tile obj tile)) s = .next u ∧ tileOf u key tile = { t with
        loTier := absTier (objPort key) t.newTier, loRegion := t.newRegion, loAddr := t.newAddr, loGran := t.newGran
        codec := t.newCodec, newTier := 0, sent := false, out := none, begun := false
        changed := t.changed || decide (t.state = .redirtied), again := t.again || decide (t.state = .redirtied)
        state := if t.state = .departing then .clean else if t.state = .redirtied then .dirty else t.state } ∧
        (∀ i, i ≠ tile → tileOf u key i = tileOf s key i)) ∧
    (∀ (obj : ObjRef) (tile : Nat) (s : State), let t := tileOf s (refKey obj) tile
      (t.newTier = 5 → exec (.tileWriteAck (.tile obj tile)) s = .next s) ∧
      (t.newTier ≠ 5 → exec (.tileWriteAck (.tile obj tile)) s = .next (ackWrite (refKey obj) tile s))) ∧
    (∀ (port : Port) (part : SnapPart) (cause : Fin 6) (s : State),
      (snapInPool s port.idx = false →
        exec (.tileWriteAck (.snap port part)) s = .next (onRun port.idx (fun r => { r with
          outs := r.outs.filter (fun x => decide (x.part ≠ part)) }) s) ∧
        exec (.tileTransferFailure (.snap port part) cause) s = .next (snapMiss port.idx part s)) ∧
      (snapInPool s port.idx = true → exec (.tileWriteAck (.snap port part)) s = .next s ∧
        exec (.tileTransferFailure (.snap port part) cause) s = .next s)) ∧
    (∀ (obj : ObjRef) (tile : Nat) (cause : Fin 6) (s : State),
      let key := refKey obj
      let t := tileOf s key tile
      let fenced := t.upTier = 1 ∧ (bayAt s (coreBay (addrCore t.upAddr))).fenced = true
      ((t.state = .arriving ∧ (t.begun = true ∨ fenced) ∧ t.landed = false) ∨
        (t.owesWrite = true ∧ (t.sent = true ∨ t.begun = true ∨ t.out ≠ none ∨ fenced)) ∨ (t.state = .lower ∧ t.owesWrite = false)) →
      exec (.tileTransferFailure (.tile obj tile) cause) s = .next (settle key (failTransfer key tile cause (farLost t cause s)))) ∧
    (∀ (key tile cause : Nat) (o : Obj) (s : State), mget? s.objects key = some o →
      ((tileOf s key tile).retried = false → (tileOf (failTransfer key tile cause s) key tile).retried = true ∧
        (tileOf (failTransfer key tile cause s) key tile).state = (tileOf s key tile).state) ∧
      ((tileOf s key tile).retried = true → (tileOf (failTransfer key tile cause s) key tile).state = .failed))) ∧
  ((∀ (pav : Fin 80) (slot layer n : Nat) (u : SlotUse) (x : Session) (s : State),
      let p := pavAt s pav
      let obj := sessObj u.sess x
      let t := (tilesWhere s obj (fun t => t.upTier = 1 && ! t.tail && t.state = .clean && t.layer ≠ 0xFFFF
        && decide (t.layer ≠ layer) && t.layer % 2 = layer % 2)).foldl (fun s i => releaseUpper obj i s) s
      mget? p.slots slot = some u → mget? s.sessions u.sess = some x → x.place = .resident n slot → slotKindOf p.desc slot = 2 →
      layer < dLayers p.desc → layerPassed s pav layer = true →
      exec (.streamLayerFetch pav slot layer) s =
        .next (((neededTiles p.desc x.lmax x.length layer).filter (fun i =>
          streamed p.desc x.lmax x.length slot i && (tileOf t obj i).state = .lower)).foldl (fun s i =>
            orderFetch obj i 1 (nearAddr (sessTilePlace p p.desc x.lmax slot i).1 (sessTilePlace p p.desc x.lmax slot i).2) s) t)) ∧
    (∀ (pav : Fin 80) (slot layer group : Nat) (u : SlotUse) (x : Session) (s : State),
      let d := (pavAt s pav).desc
      let obj := sessObj u.sess x
      let full := (tilesWhere s obj (fun t => t.tail)).filter (fun i =>
        (kvOf d x.lmax i).1 = layer && (kvOf d x.lmax i).2.1 = group && ! kvTail d x.lmax x.length i)
      let t := (full.filter (fun i => (tileOf s obj i).state = .clean)).foldl (fun s i => releaseUpper obj i s) s
      mget? (pavAt s pav).slots slot = some u → mget? s.sessions u.sess = some x →
      exec (.tailUnitWriteBack pav slot layer group) s =
        .next ((orderWrites obj 2 0 0 (full.filter (fun i => (tileOf s obj i).state = .dirty)) t).getD t)))

/-! ### The directory -/

/-- The result of a search (R179, R183): of the rows visible at the query epoch whose two key copies agree with the query in every
care bit, a block entry wins over an exact one and the lowest global row over other block entries; with none, or with
IGNORE_BLOCK, the exact entry is the result, and the search misses only when there is neither. -/
def Obligations.SearchResolvesItsMatches : Prop :=
  ∀ (rows : NMap DirRow) (wide : Bool) (q ep : Nat) (ignoreBlock : Bool), mapWf rows = true →
    let hit (e : DirRow) : Prop := e.visible ep = true ∧ e.wide = wide ∧ e.key &&& e.care = q &&& e.care ∧
      e.key2 &&& e.care = q &&& e.care
    (∀ n e, dirSearch rows wide q ep ignoreBlock = some (n, e) → mget? rows n = some e ∧ hit e ∧
      (e.data.state = 4 ∨ e.key = q)) ∧
    (ignoreBlock = false → ∀ n e, mget? rows n = some e → hit e → e.data.state = 4 →
      ∃ m d, dirSearch rows wide q ep ignoreBlock = some (m, d) ∧ d.data.state = 4 ∧ m ≤ n) ∧
    ((ignoreBlock = true ∨ ∀ n e, mget? rows n = some e → hit e → e.data.state ≠ 4) → ∀ n e, mget? rows n = some e → hit e →
      e.data.state ≠ 4 → e.key = q → ∃ m d, dirSearch rows wide q ep ignoreBlock = some (m, d) ∧ d.key = q ∧ d.data.state ≠ 4 ∧ m ≤ n) ∧
    (dirSearch rows wide q ep ignoreBlock = none → ∀ n e, mget? rows n = some e → hit e →
      e.key ≠ q ∨ e.data.state = 4)

/-- Directory requests complete (R182, R186 to R191, R195): with their buffer read and a key well formed a lookup is counted and
issues with the epoch of now; an insert that the directory accepts, a delete of an entry other than a session's and an update
queue their write; a scan answers the header and the lines of the entries it sees and completes. The array's own events complete
(R191 to R194, R198 to R202): 60 HCLK after its issue the oldest search is delivered, or where a row raises a suspect line, or
the winner is SUSPECT or fails its parity, waits for its retry; the retry has the suspect rows rewritten from their shadow
lines, retires those that cannot be read back, and delivers what the search finds then; the oldest write commits, sealed shadow
line and row at the next epoch with the previous record kept for 64 HCLK, and its request completes; the scrubber repairs a row
that differs from its line and moves on; and a copied spare block stands in for its block after 218 µs, with the content of the
shadow and no row of it SUSPECT. -/
def Obligations.DirectoryCommands : Prop :=
  ((∀ (r : Req) (buf user : DWord) (admin ignore : Bool) (bs : List Byte) (s : State),
      let look := takenId s r 0x20
      let ins := takenId s r 0x21
      let del := takenId s r 0x22
      let upd := takenId s r 0x23
      let k := keyBlock look admin bs
      let st := leField (bs.drop 64) 0 1
      Takes s r → buf.toNat % 64 = 0 → (admin = true → r.fn.isPf = true) → keyOk k = true →
      exec (.dirLookup r buf admin ignore (.data bs)) s =
        .next (countSearch (fnPort r.fn.key) { taken s r 0x20 with dir := { s.dir with
          searches := s.dir.searches ++ [⟨look, k.key, k.wide, s.dir.epoch, s.hclk, buf.toNat, ignore⟩] } }) ∧
      (∀ n, insertOk k st = true → (bits k.care 64 70 = 127 ∨ st = 4) → dirAccept s (fnPort r.fn.key) k.wide k.key k.care = .inr n →
        exec (.dirInsert r buf admin (.data bs)) s = .next (dirWrite { row := n, insert := true, id := some ins, entry :=
          { key := k.key, care := k.care, wide := k.wide, data := {
            state := st, tier := if st = 5 then leField (bs.drop 64) 1 1 else 0, kd := leField (bs.drop 64) 4 2 % 4096
            tenant := leField (bs.drop 64) 6 2, object := leField (bs.drop 64) 16 8, user := leField (bs.drop 64) 24 8 } } }
          (taken s r 0x21))) ∧
      (∀ n e, (liveRows (dirFuture s)).find? (fun e => e.2.wide = k.wide && e.2.key = k.key && e.2.care = k.care) = some (n, e) →
        3 < e.data.state →
        exec (.dirDelete r buf admin (.data bs)) s =
          .next (dirWrite { row := n, entry := e, delete := true, id := some del } (taken s r 0x22))) ∧
      (∀ n e, dirExact s k.wide k.key = some (n, e) → exec (.dirUpdate r buf user admin (.data bs)) s =
        .next (dirWrite { row := n, entry := { e with data := { e.data with user := user.toNat } }, id := some upd }
          (taken s r 0x23)))) ∧
    (∀ (r : Req) (first count : Nat) (buf : DWord) (maxLines : Nat) (admin : Bool) (s : State),
      let id := takenId s r 0x24
      let t := taken s r 0x24
      let stop := min (first + count) 4194304
      let rows := s.dir.rows.filter (fun e => decide (first ≤ e.1) && decide (e.1 < stop))
      let out := if maxLines = 0 then ([], first, t) else scanRows id admin s.dir.epoch maxLines stop rows [] t
      Takes s r → first < 4194304 → 0 < count → count ≤ 65536 → buf.toNat % 64 = 0 → (admin = true → r.fn.isPf = true) →
      exec (.dirScan r first count buf maxLines admin) s = .next (if r.noWrite then fail id 0x94 out.2.2
        else done id (dmaWrite (fnPort r.fn.key) buf.toNat
          (natLe 8 s.dir.epoch ++ natLe 4 out.1.length ++ natLe 4 out.2.1 ++ natLe 48 0 ++ out.1.flatten) out.2.2))) ∧
    (∀ (id : ReqId) (admin : Bool) (ep stop maxLines : Nat) (rows : NMap DirRow) (s : State), mapWf rows = true → 0 < maxLines →
      let sees := rows.filter (fun e => e.2.visible ep && scanSees id admin e.2)
      let out := scanRows id admin ep maxLines stop rows [] s
      out.1.length = min maxLines sees.length ∧
      (sees.length < maxLines → out.2.1 = stop) ∧
      (maxLines ≤ sees.length → ∃ e ∈ sees, out.2.1 = e.1 + 1) ∧
      ((∀ e ∈ rows, e.2.whole = true) → out.2.2 = s))) ∧
  ((∀ (q : DirSearch) (rest : List DirSearch) (flips : List DirFlip) (s : State),
      let u := flips.foldl flipRow s
      let t := { u with dir := { u.dir with searches := rest } }
      let ns := searchSuspects t q.wide q.key q.epoch q.ignoreBlock
      s.dir.searches = q :: rest → s.dir.retry = none → q.issued + 60 ≤ s.hclk →
      (ns = [] → exec (.dirSearchResult flips) s =
        .next (deliverSearch q (dirSearch t.dir.rows q.wide q.key q.epoch q.ignoreBlock) t)) ∧
      (ns ≠ [] → ∃ v, exec (.dirSearchResult flips) s = .next v ∧ v.dir.retry = some (q, ns) ∧ v.dir.searches = rest ∧
        ((∀ m ∈ ns, rewrittenNow s m = false) → ∀ n ∈ ns, n ∈ v.dir.suspects))) ∧
    (∀ (q : DirSearch) (rows unread : List Nat) (s : State), s.dir.retry = some (q, rows) →
      let t := regAddBoth 0x80028 1 (rows.foldl (fun s n => mendRow n s) { s with dir := { s.dir with retry := none } })
      let u := (rows.filter unread.contains).foldl (fun s n => retireRow n s) t
      exec (.dirShadowRetry unread) s = .next (deliverSearch q (dirSearch u.dir.rows q.wide q.key q.epoch q.ignoreBlock) u) ∧
      (∀ n ∈ rows, n ∉ t.dir.suspects)) ∧
    (∀ (w : DirWrite) (rest : List DirWrite) (unread : Bool) (s : State), s.dir.writes = w :: rest →
      let old := mget? s.dir.rows w.row
      let prev := if w.insert then none else old.map (·.data)
      let d := { w with entry := { w.entry with prev := prev, holdEnd := s.hclk + 64 } }.row' (s.dir.epoch + 1)
      let far := farAccess (shadowSlot s w.row) s
      let t := { far with dir := { s.dir with writes := rest, epoch := s.dir.epoch + 1
                                              rows := mput s.dir.rows w.row d
                                              shadow := mput s.dir.shadow w.row (sealLine s w.row d) } }
      (∀ e, old = some e → e.prev = none ∨ e.holdEnd ≤ s.hclk) →
      exec (.dirCommit unread) s = .next (commitDone w.id (regSet 0 0x80008 (s.dir.epoch + 1)
        (regSet 1 0x80008 (s.dir.epoch + 1) (if unread then retireRow w.row t else t)))) ∧
      d.commit = s.dir.epoch + 1 ∧ d.key = w.entry.key ∧ d.key2 = w.entry.key ∧ d.care = w.entry.care ∧ d.data = w.entry.data ∧
      d.holdEnd = s.hclk + 64 ∧ d.prev = prev ∧ d.valid = true ∧ d.whole = true ∧
      (w.insert = true → d.ins = s.dir.epoch + 1 ∧ d.del = none) ∧
      (w.insert = false → w.delete = true → d.del = some (s.dir.epoch + 1))) ∧
    (∀ (row : Fin 4194304) (e : DirRow) (s : State), mget? s.dir.rows row = some e → e.prev.isSome = true → e.holdEnd ≤ s.hclk →
      exec (.dirRecordHoldEnd row) s = .next { s with dir := { s.dir with rows := mput s.dir.rows row { e with prev := none } } }) ∧
    (∀ (flips : List DirFlip) (unread : Bool) (x : Trellis) (s : State), s.trellis = some x → x.scrubEnable = true → s.hub.quiet = false →
      let n := s.dir.scrub
      let u := flips.foldl flipRow s
      ∃ t, exec (.dirScrubRow flips unread) s = .next t ∧
        t.dir.scrub = (if n + 1 = 4194304 then 0 else n + 1) ∧
        (rowAgrees u n = true → t.dir.rows = u.dir.rows ∧ t.dir.suspects = s.dir.suspects) ∧
        (rowAgrees u n = false → unread = false → cascaded s (n / 65536) = false → rewrittenNow s n = false →
          mget? t.dir.rewritten n = some s.time ∧ n ∉ t.dir.suspects ∧
          (∀ d, openLine s n = some d → ∃ e, mget? t.dir.rows n = some e ∧ e.key = d.key ∧ e.key2 = d.key ∧ e.care = d.care ∧
            e.data = d.data ∧ e.ins = d.ins ∧ e.del = d.del ∧ e.commit = d.commit ∧ e.valid = d.valid))) ∧
    (∀ (b since : Nat) (s : State), s.dir.spareCopy = some (b, since) → since + 218000 ≤ s.time →
      ∃ t, exec .dirSpareBlockSwitch s = .next t ∧ t.dir.spareCopy = none ∧ t.dir.spareFor = some b ∧
        t.dir.sparesUsed = mdel s.dir.sparesUsed b ∧ (∀ n ∈ t.dir.suspects, n / 65536 ≠ b) ∧
        (∀ n e, n / 65536 = b → cascaded s b = false → mget? s.dir.rows n = some e → ∀ d, openLine s n = some d →
          ∃ f, mget? t.dir.rows n = some f ∧ f.key = d.key ∧ f.data = d.data ∧ f.prev = e.prev) ∧
        (∀ n, n / 65536 ≠ b → n / 65536 + 1 ≠ b → mget? t.dir.rows n = mget? s.dir.rows n)))

/-! ### Text -/

/-- The text requests that name no session complete (R204, R206, R207, R210, R224, R232, R233, R320): a table load of a readable
object under a usable domain, that no session binds, that fits the port's half and that passes its format puts the object's
bytes in the store; an unload of a table that no session binds takes it out; TOKENISE answers the tokens of the text, four bytes
each, with their count as INFO, and DETOKENISE the bytes of the tokens, with their length, or DMA_FAULT where the buffer cannot
be written; the intake counts the bytes it read, the repairs and the insertions. The text requests that name a session complete
between frames (R207, R211, R215, R218 to R226, R230 to R232, R327): an append adds the text's tokens, or the tokens given, at
the end of the prompt ring where they fit and ends the output run; controls in range replace bytes 0 to 63 of the state tile; a
binding that stands is set, and a grammar bound anew or reset stands at START; well-formed stop strings are set; RESAMPLE marks
the last position to run again; INJECT moves the grammar by a token it allows and queues that token; DROP_PENDING discards what
is held; and a state read answers bytes 0 to 0x67F of the state tile, or DMA_FAULT where they cannot be written. What a session
of a SEALED domain is given comes as a sealed record that opens, and its state leaves in one. -/
def Obligations.TextCommands : Prop :=
  ((∀ (r : Req) (kind ident : Nat) (object : DWord) (o : Obj) (bs : List Byte) (s : State),
      let t := taken s r 0x30
      let p := fnPort r.fn.key
      let key := objKey r.identity.key object.toNat
      Takes s r → tablePlace kind ident = none → mget? s.objects key = some o → kdUsable t r.identity.key o.kd = true →
      tableBound s p kind ident = false →
      storeUsed s p - ((tableOf s p kind ident).map (fun t => t.bytes.length)).getD 0 + 16384 * o.ntiles ≤ 33554432 →
      objPlain t key = some bs → (if kind = 1 then tokeniserOk bs else if kind = 2 then grammarOk bs else allowOk bs) = true →
      exec (.txtTableLoad r kind ident object) s =
        .next (done (takenId s r 0x30) { t with tables := mput s.tables (tableKey p kind ident) ⟨key, o.kd, bs⟩ })) ∧
    (∀ (r : Req) (kind ident : Nat) (s : State), Takes s r → tablePlace kind ident = none →
      (tableOf s (fnPort r.fn.key) kind ident).isSome = true → tableBound s (fnPort r.fn.key) kind ident = false →
      exec (.txtTableUnload r kind ident) s = .next (done (takenId s r 0x31)
        { taken s r 0x31 with tables := mdel s.tables (tableKey (fnPort r.fn.key) kind ident) })) ∧
    (∀ (r : Req) (tokeniser bytes capacity : Nat) (special : Bool) (src dst : DWord) (tab : TextTable) (bs : List Byte) (s : State),
      let x := intake tab.bytes special (byteSlice bs 0 bytes)
      let p := fnPort r.fn.key
      Takes s r → tokeniser ≤ 15 → bytes ≤ 16777216 → tableOf s p 1 tokeniser = some tab → x.bad = none → x.toks.length ≤ capacity →
      exec (.txtTokenise r tokeniser special src bytes dst capacity (.data bs)) s =
        .next (if r.noWrite then fail (takenId s r 0x32) 0x94 (countIntake p bytes x (taken s r 0x32))
          else complete (takenId s r 0x32) 0 (some 0) x.toks.length
            (dmaWrite p dst.toNat (x.toks.map (natLe 4)).flatten (countIntake p bytes x (taken s r 0x32))))) ∧
    (∀ (r : Req) (tokeniser count capacity : Nat) (src dst : DWord) (tab : TextTable) (bs : List Byte) (s : State),
      let out := ((List.range count).map (fun i => tokBytes tab.bytes (leField bs (4 * i) 4))).flatten
      Takes s r → tokeniser ≤ 15 → tableOf s (fnPort r.fn.key) 1 tokeniser = some tab → out.length ≤ capacity →
      exec (.txtDetok r tokeniser src count dst capacity (.data bs)) s =
        .next (if r.noWrite then fail (takenId s r 0x34) 0x94 (taken s r 0x34)
          else complete (takenId s r 0x34) 0 (some 0) out.length (dmaWrite (fnPort r.fn.key) dst.toNat out (taken s r 0x34))))) ∧
  (∀ (r : Req) (key : Nat) (x : Session) (s : State), Takes s r → Finds s r key x → Between s key x →
      let run (op : Nat) (y : Session) : State := done (takenId s r op) (setSessTile key y (found s r op))
      (∀ (src : DWord) (bytes : Nat) (special : Bool) (bs text : List Byte) (y : Session), bytes ≤ 1048576 → bytes % 3 ≠ 1 →
        sessInput (found s r 0x33) (takenId s r 0x33) x (byteSlice bs 0 bytes) = .inl (text, y) →
        let toks := (chunks 3 (text.length / 3) text).map leNat
        let put (a : Session × Nat) (t : Nat) : Session × Nat :=
          (a.1.set (0x1000 + 3 * ((y.get 0x58 2 + a.2) % 4096)) 3 t, a.2 + 1)
        let z := ((toks.foldl put (y, y.get 0x5A 2)).1.set 0x5A 2 (y.get 0x5A 2 + toks.length)).endRun
        text.length % 3 = 0 → y.get 0x5A 2 + toks.length ≤ 4096 →
        exec (.txtAppend r src bytes special true (.data bs)) s = .next (run 0x33 (if toks = [] then z else z.set 0x54 4 0))) ∧
      (∀ (src : DWord) (bytes : Nat) (special : Bool) (bs text tk : List Byte) (y : Session), bytes ≤ 1048576 →
        sessInput (found s r 0x33) (takenId s r 0x33) x (byteSlice bs 0 bytes) = .inl (text, y) →
        bound (found s r 0x33) key y 1 = some tk →
        let got := intake tk special text
        let put (a : Session × Nat) (t : Nat) : Session × Nat :=
          (a.1.set (0x1000 + 3 * ((y.get 0x58 2 + a.2) % 4096)) 3 t, a.2 + 1)
        let z := ((got.toks.foldl put (y, y.get 0x5A 2)).1.set 0x5A 2 (y.get 0x5A 2 + got.toks.length)).endRun
        got.bad = none → y.get 0x5A 2 + got.toks.length ≤ 4096 →
        exec (.txtAppend r src bytes special false (.data bs)) s = .next (done (takenId s r 0x33) (setSessTile key
          (if got.toks = [] then z else z.set 0x54 4 0) (countIntake (fnPort r.fn.key) text.length got (found s r 0x33))))) ∧
      (∀ (buf : DWord) (bs : List Byte), controlsOk (byteSlice bs 0 64) = true →
        exec (.txtSamplerSet r buf (.data bs)) s = .next (run 0x35 ((x.put 0 (byteSlice bs 0 64)).set 0x54 4 0))) ∧
      (∀ (grammar allow : Nat) (oneShot reset keepGrammar keepAllow : Bool),
        (keepGrammar = false → bindCheck s (fnPort r.fn.key) 2 grammar (pavVocab s x.pav) = none) →
        (keepAllow = false → bindCheck s (fnPort r.fn.key) 3 allow (pavVocab s x.pav) = none) →
        let g := if keepGrammar then x else x.set 0x42 2 grammar
        let y := if keepAllow then g else (g.set 0x44 2 allow).set 0x46 1 (g.get 0x46 1 / 2 * 2 + b2n oneShot)
        exec (.txtLouverSet r grammar allow oneShot reset keepGrammar keepAllow) s = .next (run 0x36
          (if reset = true ∨ keepGrammar = false ∧ x.get 0x42 2 ≠ grammar
            then y.atState (((bound s key y 2).map grStart).getD 0) [] else y))) ∧
      (∀ (buf : DWord) (exclude : Bool) (bs text : List Byte) (y : Session) (ss : List (List Byte)),
        sessInput (found s r 0x37) (takenId s r 0x37) x bs = .inl (text, y) → parseStops text = some ss →
        exec (.txtStopSet r buf exclude (.data bs)) s = .next (run 0x37
          ((((y.set 0x240 1 ss.length).put 0x241 ((List.range 16).map (fun i => BitVec.ofNat 8 (ss.getD i []).length))).put 0x280
            ((List.range 16).map (fun i => byteSlice (ss.getD i []) 0 64)).flatten).set 0x0E 1 (b2n exclude)))) ∧
      (x.length ≠ 0 → exec (.resample r) s = .next (run 0x38 (x.set 0x46 1 (x.get 0x46 1 ||| 2)))) ∧
      (∀ token, token < 2 ^ 20 →
        (bound s key x 2 = none → exec (.inject r token) s =
          .next (run 0x38 (((x.atState (x.get 0x60 4) x.stack).set 0x4C 4 (2 ^ 31 + token)).endRun))) ∧
        (∀ g m, bound s key x 2 = some g → louverMove g (x.get 0x60 4) x.stack token = some m →
          exec (.inject r token) s = .next (run 0x38 (((x.atState m.1 m.2).set 0x4C 4 (2 ^ 31 + token)).endRun)))) ∧
      exec (.dropPending r) s = .next (run 0x38 (((x.setHeld []).setResume []).set 0x182 1 (x.get 0x183 1))) ∧
      (∀ buf : DWord,
        let u := found s r 0x39
        let out := sealOutput key x (memRead x.tile 0 0x680) u
        (kdSealed s x.kd = false → out = (memRead x.tile 0 0x680, u)) ∧
        exec (.txtStateRead r buf) s = .next (if r.noWrite then fail (takenId s r 0x39) 0x94 u
          else done (takenId s r 0x39) (setSessTile key x (dmaWrite (fnPort r.fn.key) buf.toNat out.1 out.2)))))

/-! ### Recall -/

/-- The requests of recall complete (R235 to R237, R244 to R255, R320): a create with a header in range and room gives a function
that may use a key domain an index in one of them (which one is free: log 105) with its header and every record written and
EPOCH 0; on a placed index that no tier request holds, an insert of free items, a delete of visible ones, a purge of deleted
ones, an edge change of inserted ones and an entry change write their records and commit at the next epoch; a query in range of
an index that is whole in its tiers waits for its walk or its scan; a graph walk re-ranks what it found; and a drop with no
query of the index under way ends the queries that wait for it with BAD_OBJECT and the changes that wait with DONE, and closes
the index. -/
def Obligations.RecallRequests : Prop :=
  (∀ (r : Req) (object buf : DWord) (bs : List Byte) (s u : State),
    let t := taken s r 0x40
    let key := objKey r.identity.key object.toNat
    let h0 := byteSlice bs 0 128
    let h := indexFill h0
    let n := indexTiles h0
    let ntiles := 1 + n.1 + n.2.1 + n.2.2.1 + n.2.2.2
    let kds := kdsOf s r.identity.key
    let kd := kds.getD (Config.freeChoice s.free % kds.length) 0
    Takes s r → mget? s.objects key = none → kds ≠ [] → indexOk h0 = true →
    mapRoom t (ceilDiv (32 * ntiles) 16384) = true →
    placeFar key true (List.range (1 + n.1))
      { drew t with objects := mput t.objects key { kind := .index, ntiles := ntiles, kd := kd } } = some u →
    kdUsable s r.identity.key kd = true ∧
    let v := (List.range n.1).foldl (fun t i => tileWrite key (1 + i) 0 (List.replicate (ixRecPer h) (emptyRec (ixRecBytes h))).flatten t)
      (tileWrite key 0 0 h u)
    exec (.rclCreate r object buf (.data bs)) s =
      .next (done (takenId s r 0x40) { v with indices := mput v.indices key {} })) ∧
  (∀ (r : Req) (object buf : DWord) (count : Nat) (bs : List Byte) (o : Obj) (entries : List Word) (s : State),
    let key := objKey r.identity.key object.toNat
    let h := indexHeader s key
    let e := lastEpoch s key + 1
    let ns := itemList bs count
    let es := insEntries h bs count
    let eds := (List.range count).map (fun i =>
      (leField bs ((4 + 4 * ixDegree h) * i) 4, edgesAt bs ((4 + 4 * ixDegree h) * i + 4) (ixDegree h)))
    let ent := (List.range 4).map (fun i => (entries.getD i 0).toNat)
    Takes s r → mget? s.objects key = some o → o.kind = .index → mget? s.jobs key = none →
    s.held.any (fun h => h.why = .object key) = false → 1 ≤ count → count ≤ 256 → indexReady s key h = true →
    ((∀ x ∈ es, x.item < ixCap h ∧ (∀ d ∈ x.edges, edgeOk h d = true) ∧ insBusy s key h x.item = false) →
      distinctNat (es.map (·.item)) = true →
      exec (.rclInsert r object buf count (.data bs)) s = .next (commitChange key h (takenId s r 0x41)
        (es.map (fun x => (x.item, true))) (es.foldl (fun s x => insertItem key h e x s) (taken s r 0x41)))) ∧
    ((∀ n ∈ ns, n < ixCap h ∧ itVisible (recRead s key h n) (lastEpoch s key) = true) → distinctNat ns = true →
      exec (.rclDelete r object buf count (.data bs)) s = .next (commitChange key h (takenId s r 0x42)
        (ns.map (fun n => (n, false))) (ns.foldl (fun s n => recWrite key h n 16 (natLe 8 e) s) (taken s r 0x42)))) ∧
    ((∀ n ∈ ns, n < ixCap h ∧ itDel (recRead s key h n) ≠ noEpoch) →
      exec (.rclPurge r object buf count (.data bs)) s = .next (commitChange key h (takenId s r 0x43) []
        (ns.foldl (fun s n => onIndex key (fun i => { i with purged := mput i.purged n e }) (recWrite key h n 25 [1] s))
          (taken s r 0x43)))) ∧
    (ixGraph h = true → (∀ x ∈ eds, x.1 < ixCap h ∧ itIns (recRead s key h x.1) ≠ noEpoch ∧ ∀ d ∈ x.2, edgeOk h d = true) →
      exec (.rclEdges r object buf count (.data bs)) s = .next (commitChange key h (takenId s r 0x44) []
        (eds.foldl (fun s x => recWrite key h x.1 (64 + ixBits h / 8) (x.2.map (natLe 4)).flatten s) (taken s r 0x44)))) ∧
    (ixGraph h = true → (∀ d ∈ ent, edgeOk h d = true) →
      exec (.rclEntry r object entries) s = .next (commitChange key h (takenId s r 0x45) []
        (tileWrite key 0 0x10 (ent.map (natLe 4)).flatten (taken s r 0x45))))) ∧
  (∀ (r : Req) (object qbuf rbuf : DWord) (k pick l most : Nat) (bs : List Byte) (o : Obj) (s : State),
    let key := objKey r.identity.key object.toNat
    let h := indexHeader s key
    let q := byteSlice bs 0 (0x100 + 4 * ixDims h)
    Takes s r → mget? s.objects key = some o → o.kind = .index → queryOk h q k pick l most = true → queryReady s key h = true →
    mget? s.jobs key = none → s.held.any (fun h => h.why = .object key) = false → s.queries.length < 1024 →
    exec (.rclQuery r object qbuf rbuf k pick l most (.data bs)) s = .next { taken s r 0x46 with
      queries := s.queries ++ [{ id := takenId s r 0x46, obj := key, graph := ixGraph h, qbuf := q, rbuf := rbuf.toNat
                                 k := k, pick := pick, l := l, maxExpand := most }] }) ∧
  (∀ (r : Req) (object : DWord) (o : Obj) (s : State),
    let key := objKey r.identity.key object.toNat
    let t := taken s r 0x47
    Takes s r → mget? s.objects key = some o → o.kind = .index → mget? s.jobs key = none →
    s.held.any (fun h => h.why = .object key) = false → s.queries.any (fun q => q.obj = key && q.busy) = false →
    let u := (s.queries.filter (fun q => q.obj = key)).foldl (fun s q => fail q.id 0x26 s)
      { t with queries := s.queries.filter (fun q => decide (q.obj ≠ key)) }
    let v := closeObject key ((indexAt s key).pend.foldl (fun s x => done x.1 s) u)
    exec (.rclDrop r object) s = .next (done (takenId s r 0x47) { v with indices := mdel v.indices key })) ∧
  (∀ (port : Port) (q : Query) (s : State),
    let h := indexHeader s q.obj
    let e := (indexAt s q.obj).epoch
    let w := walkIndex s q.obj h q e
    s.queries.find? (fun q => q.graph && fnPort q.id.fn = port.idx) = some q → queryReady s q.obj h = true →
    exec (.rclGraphWalk port) s =
      .next (finishQuery q h e (w.pool.map (·.2)) w.seen.length w.stale (navNext w.nav).isSome s))

/-! ### Pavilions and tenants -/

/-- The pavilion requests complete for the physical function (R74, R75, R259, R260, R268, R276 to R278, R282, R283, R329): a load
whose entries are well formed and pass every check puts each image in its pavilion's inactive bank, where it takes effect
between frames, and one that a check refuses completes with that check's detail and INFO; an unload of a pavilion without a
resident session takes effect between frames, and what it displaces completes; a tenant record in range sets its tenant; a
function's tenant is set for the sessions it opens from then on, but one whose interface is locked or runs keeps its tenant and
moves to ERROR; and an expedited session's queued request, or its next one, goes to level 0. -/
def Obligations.PavilionRequests : Prop :=
  (∀ (r : Req) (buf : DWord) (count : Nat) (bs : List Byte) (s : State),
    let xs := ((List.range count).map (loadEntry bs)).map (loadItem (taken s r 0x80) r.identity.key)
    Takes s r → r.fn.isPf = true → 1 ≤ count → count ≤ 80 → entriesOk ((List.range count).map (loadEntry bs)) = true →
    (∀ c i, loadRefused (taken s r 0x80) (fnPort r.fn.key) xs = some (c, i) →
      exec (.pavLoad r buf count (.data bs)) s =
        .next (complete (takenId s r 0x80) c (if c = 0xB0 then some 8 else none) i (taken s r 0x80))) ∧
    (loadRefused (taken s r 0x80) (fnPort r.fn.key) xs = none →
      exec (.pavLoad r buf count (.data bs)) s = .next ((xs.map (·.pav)).foldl (fun s n => applyIdle n s)
        (xs.foldl (fun s x => stageItem (takenId s r 0x80) x s) (taken s r 0x80))))) ∧
  (∀ (r : Req) (n : Nat) (p : Pav) (s : State), Takes s r → r.fn.isPf = true → n < 80 → mget? s.pavs n = some p →
    p.port = fnPort r.fn.key → p.slots = [] → (p.prog.isSome = true ∨ p.next.isSome = true) →
    let id := takenId s r 0x81
    let t := onPav n (fun p => { p with next := none, nextId := none, unload := some id }) (taken s r 0x81)
    let u := match p.nextId with | some old => loadDone old t | none => t
    exec (.pavUnload r n) s = .next (applyIdle n
      (match p.unload with | some old => if old = id then u else loadDone old u | none => u))) ∧
  (∀ (r : Req) (buf : DWord) (bs : List Byte) (s : State),
    let b := byteSlice bs 0 64
    let key := fnPort r.fn.key * 4096 + leField b 0 2
    Takes s r → r.fn.isPf = true → tenantOk b = true →
    (bitOf (leField b 3 1) 0 = true ∨ bitOf (leField b 3 1) 1 = true →
      tenantRuns s key = false ∧ s.held.any (fun h => h.why = .tenant key) = false) →
    exec (.pavTenantSet r buf (.data bs)) s = .next (done (takenId s r 0x82)
      (onTenant (fnPort r.fn.key) (leField b 0 2) (setTenant b) (taken s r 0x82)))) ∧
  (∀ (r : Req) (function tenant : Nat) (s : State), Takes s r → r.fn.isPf = true → function ≤ 63 → tenant ≤ 4095 →
    let fn := fnPort r.fn.key * 64 + function
    let hit := lockedFns s (fnPort r.fn.key) (2 ^ function)
    (fnTenant s fn = tenant ∨ hit = [] → exec (.pavFuncTenant r function tenant) s = .next (done (takenId s r 0x83)
      { taken s r 0x83 with fnTenant := mput s.fnTenant fn tenant })) ∧
    (fnTenant s fn ≠ tenant → hit ≠ [] → exec (.pavFuncTenant r function tenant) s =
      .next (fail (takenId s r 0x83) 0x89 (tdiError hit (taken s r 0x83))))) ∧
  (∀ (r : Req) (session : DWord) (x : Session) (s : State),
    let key := sessKey r.identity.key session.toNat
    Takes s r → mget? s.sessions key = some x →
    (((pavAt s x.home).queue.any (fun q => q.sess = key)) = false → exec (.pavExpedite r session) s =
      .next (done (takenId s r 0x84) (onSess key (fun x => { x with expedite := true }) (taken s r 0x84)))) ∧
    (((pavAt s x.home).queue.any (fun q => q.sess = key)) = true → exec (.pavExpedite r session) s =
      .next (done (takenId s r 0x84) (fillPav x.home (onPav x.home (fun p => { p with queue := p.queue.map (fun q =>
        if q.sess = key then { q with level := 0, levelAt := s.time, expedited := true } else q) }) (taken s r 0x84))))))

/-! ### Snapshots -/

/-- Snapshot attempts complete (R285 to R301): a take, or a trigger that fires, with no attempt running and a target starts one
under the next number, and a trigger during an attempt is dropped and counted; SNP_CTRL takes its fields, a far target its
manifest slots, and a rising ENABLE restarts both triggers; an included object joins the scope; the cut is recorded once the
port's frame groups stand between frames; a pending tile is stored as it stood at the cut, from its copy where one was taken;
once nothing is owed the shards close and the manifest's body is written; what is not acknowledged holds the attempt; once all
is, the commit record is written; and once that is too the epoch commits: its manifest stands beside those it does not displace
and no attempt runs. Epochs are listed, retired and restored (R301 to R307): a list answers the committed epochs of the target
in ascending order, 32 bytes each; a retire drops the manifests that can be found up to an epoch; a port restore on a port
without sessions brings back every object and entry of the first epoch that qualifies, and a session restore the requester's
session, PARKED in the target, each with its report of what was passed over, which also says when no epoch qualifies; a list or
report that cannot be written is answered with DMA_FAULT. -/
def Obligations.SnapshotsAndRestores : Prop :=
  ((∀ (r : Req) (full : Bool) (x : Nat × Nat) (s : State), Takes s r → r.fn.isPf = true →
      (snapAt s (fnPort r.fn.key)).run = none → snapTarget (taken s r 0x60) (fnPort r.fn.key) = some x →
      exec (.snpTake r full) s = .next (startSnap (fnPort r.fn.key) (some (takenId s r 0x60)) full x (taken s r 0x60))) ∧
    (∀ (port : Port) (s : State),
      let p := port.idx
      let timer := onSnap p (fun x => { x with timerFrom := s.time }) s
      let steps := onSnap p (fun x => { x with frames := 0 }) s
      bitOf (regGet s p 0x70000) 0 = true →
      (bitOf (regGet s p 0x70000) 1 = true → (snapAt s p).timerFrom + snapPeriod s p ≤ s.time →
        (∀ x, (snapAt s p).run = none → snapTarget s p = some x →
          exec (.snpTimerFire port) s = .next (startSnap p none false x timer)) ∧
        ((snapAt s p).run.isSome = true → exec (.snpTimerFire port) s = .next (regAdd p 0x70040 1 timer))) ∧
      (bitOf (regGet s p 0x70000) 2 = true → max 1 (regGet s p 0x7000C) ≤ (snapAt s p).frames →
        (∀ x, (snapAt s p).run = none → snapTarget s p = some x →
          exec (.snpStepTrigger port) s = .next (startSnap p none false x steps)) ∧
        ((snapAt s p).run.isSome = true → exec (.snpStepTrigger port) s = .next (regAdd p 0x70040 1 steps)))) ∧
    (∀ (f : Fn) (v : Word) (s : State),
      let p := f.port.idx
      let new := v.toNat &&& 0x3FF0077
      let t := regSet p 0x70000 new s
      let u := if bits new 4 6 = 2 then (takeManifests p 2 0 t).getD t else t
      f.isPf = true → writeGate s f 0x70000 = .open → exec (.snapshotTargetSet f v) s =
        .next (if bitOf new 0 && ! bitOf (regGet s p 0x70000) 0 then
          onSnap p (fun x => { x with timerFrom := u.time, frames := 0 }) u else u)) ∧
    (∀ (r : Req) (object : DWord) (exclude : Bool) (s : State),
      let key := objKey r.identity.key object.toNat
      Takes s r → r.fn.isPf = true → (mget? s.objects key).isSome = true →
      exec (.snpInclude r object exclude) s = .next (done (takenId s r 0x61) (onSnap (fnPort r.fn.key) (fun x => { x with
        scope := x.scope.filter (· ≠ key) ++ (if exclude then [] else [key]) }) (taken s r 0x61)))) ∧
    (∀ (port : Port) (r : SnapRun) (s t : State), (snapAt s port.idx).run = some r → r.cutAt = none → cutReady s port.idx = true →
      takeManifests port.idx r.tier r.region s = some t → exec (.snapshotCut port) s = .next (recordCut port.idx r t)) ∧
    (∀ (port : Port) (obj : ObjRef) (tile shard : Nat) (r : SnapRun) (o : SnapObj) (plain : List Byte) (s u : State),
      let p := port.idx
      let key := refKey obj
      let cut := beyondCut s o tile
      (snapAt s p).run = some r → r.owed.find? (fun o => o.1 = key && o.2.1 = tile) = some (key, tile, shard) →
      r.objs.find? (fun o => o.obj = key) = some o →
      ((mget? s.cows (cowKey key tile)).map (·.bytes)).or (tilePlain s key tile) = some plain →
      storeRecord p r key tile shard o.kd (cut ≠ []) (keepBits plain cut) s = some u →
      exec (.snapshotTileStored port obj tile) s = .next u ∧
        ∃ q, (snapAt u p).run = some q ∧ q.owed = r.owed.filter (· ≠ (key, tile, shard)) ∧
          ∃ y ∈ q.recs, y.obj = key ∧ y.tile = tile ∧ y.epoch = r.epoch ∧ y.zeroed = decide (cut ≠ []) ∧
            y.data.bytes = (encodeTile (Config.freeChoice s.free % 8) 0 (keepBits plain cut)).bytes) ∧
    (∀ (port : Port) (r : SnapRun) (s : State),
      let p := port.idx
      let own := dedupNat ((r.recs.filter (fun x => x.epoch = r.epoch)).map (·.shard) ++ [20])
      let reg := (regionOf s (64 * p) r.tier r.region).getD {}
      let kept (hs : List SnapShard) : Manifest := {
        epoch := r.epoch, full := r.full, cutTime := r.cutAt.getD 0, dirEpoch := r.dirEpoch, tier := r.tier, region := r.region
        base := reg.base, node := reg.node, keyId := keyTag s (regGet s p 0x70004 % 4096), shards := hs ++ r.carried
        recs := r.recs, objs := r.objs, rows := r.rows, slot := List.replicate 32768 0 }
      (snapAt s p).run = some r →
      (r.man = none → r.cutAt.isSome = true → r.owed = [] → ∀ hs t u, closeShards p r own [] s = some (hs, t) →
        writeBody p (kept hs) t = some u → exec (.snapshotCommit port) s = .next u ∧
          ∃ q m, (snapAt u p).run = some q ∧ q.man = some m ∧ q.committing = false ∧ m.shards = hs ++ r.carried ∧ m.epoch = r.epoch) ∧
      (∀ m, r.man = some m →
        (r.outs ≠ [] → exec (.snapshotCommit port) s = .next s) ∧
        (r.outs = [] → r.committing = false → ∀ u, writeCommit p m s = some u → exec (.snapshotCommit port) s = .next u ∧
          ∃ q, (snapAt u p).run = some q ∧ q.committing = true) ∧
        (r.outs = [] → r.committing = true → exec (.snapshotCommit port) s = .next (commitEpoch p r m s) ∧
          (snapAt (commitEpoch p r m s) p).run = none ∧ m ∈ (snapAt (commitEpoch p r m s) p).manifests)))) ∧
  ((∀ (r : Req) (epoch : DWord) (s : State),
      let t := taken s r 0x63
      Takes s r → r.fn.isPf = true → exec (.snpRetire r epoch) s = .next (done (takenId s r 0x63)
        (dropManifests (fnPort r.fn.key) (fun m => decide (m.epoch ≤ epoch.toNat) && m.found t (fnPort r.fn.key) m.tier m.region) t))) ∧
    (∀ (r : Req) (buf : DWord) (s : State),
      let p := fnPort r.fn.key
      let t := taken s r 0x64
      let tier := bits (regGet t p 0x70000) 4 6
      let region := bits (regGet t p 0x70000) 16 25
      let line (m : Manifest) : List Byte :=
        natLe 8 m.epoch ++ natLe 8 m.cutTime ++ natLe 2 m.shards.length ++ natLe 1 (b2n m.full) ++ natLe 13 0
      Takes s r → r.fn.isPf = true → tierOk t (64 * p) tier region = true → exec (.snpList r buf) s =
        .next (if r.noWrite then fail (takenId s r 0x64) 0x94 t else done (takenId s r 0x64) (dmaWrite p buf.toNat
          (byteSlice (((byEpoch (foundIn t p tier region)).take 16).map line).flatten 0 512) t))) ∧
    (∀ (r : Req) (target region source : Nat) (epoch report : DWord) (bad : List SnapBad) (out : List ReportEntry) (s : State),
      let id := takenId s r 0x62
      let t := taken s r 0x62
      let p := fnPort r.fn.key
      let tier := bits (regGet t p 0x70000) 4 6
      let uses (m : Manifest) (y : SnapRec) : Bool := (m.backs t p).any (fun o => o.obj = y.obj)
      let tried := tryEpochs (portFails t p bad uses) (candidates t p tier source epoch.toNat) []
      Takes s r → r.fn.isPf = true → restoreCheck t id p target region source = none →
      (∀ x ∈ s.sessions, sessPort x.1 ≠ p) → (snapAt s p).run = none →
      (r.noWrite = true → exec (.portRestore r target region source epoch report bad) s = .next (fail id 0x94 t)) ∧
      (r.noWrite = false → tried = (out, none) → exec (.portRestore r target region source epoch report bad) s =
        .next (fail id 0x72 (dmaWrite p report.toNat (reportBytes 0 out) t))) ∧
      (∀ m u v, r.noWrite = false → tried = (out, some m) →
        let w := dmaWrite p report.toNat (reportBytes m.epoch (out ++ m.leftOut t p)) t
        bringAll m p target region (m.backs w p) w = some u → insertAll p id (m.entries w p target) u = some v →
        exec (.portRestore r target region source epoch report bad) s = .next v)) ∧
    (∀ (r : Req) (target region source : Nat) (session epoch report : DWord) (bad : List SnapBad) (out : List ReportEntry) (s : State),
      let id := takenId s r 0x62
      let key := sessKey r.identity.key session.toNat
      let k := sessDirKey (key / 2 ^ 64) (key % 2 ^ 64)
      let t := taken s r 0x62
      let p := fnPort r.fn.key
      let tier := bits (regGet t p 0x70000) 4 6
      let mine (m : Manifest) (y : SnapRec) : Bool := (m.session p key).any (fun z => z.1.obj = y.obj)
      let tried := tryEpochs (sessFails t p bad mine)
        ((candidates t p tier source epoch.toNat).filter (fun m => (m.session p key).isSome)) []
      let cmd := Instr.sessionRestore r target region source session epoch report bad
      Takes s r → (∀ y, mget? s.sessions key = some y → Clear s key y true) → restoreCheck t id p target region source = none →
      (r.noWrite = true → exec cmd s = .next (fail id 0x94 t)) ∧
      (r.noWrite = false → tried = (out, none) → exec cmd s =
        .next (fail id 0x73 (dmaWrite p report.toNat (reportBytes 0 out) t))) ∧
      (∀ m o x v, r.noWrite = false → tried = (out, some m) → m.session p key = some (o, x) →
        let u := dmaWrite p report.toNat (reportBytes m.epoch out) t
        kdUsable u (key / 2 ^ 64) o.kd = true →
        ((mget? s.sessions key).isSome = true → restoreSession id key m o x p target region u = some (v, none) →
          exec cmd s = .next (dirSetDone key (fun d =>
            parkedRec d (absTier p target) (((mget? v.sessions key).map (·.gen)).getD 0)) id v)) ∧
        (∀ d n, mget? s.sessions key = none → mget? s.objects (objKey (key / 2 ^ 64) x.object) = none →
          restoreSession id key m o x p target region u = some (v, some d) → dirAccept u p false k (fullCare false) = .inr n →
          exec cmd s = .next (dirWrite
            { row := n, entry := { key := k, care := fullCare false, data := d }, insert := true, id := some id } v)))))

/-! ### Boot and security -/

/-- The boot's commands complete (R309 to R312, R419): the first GO of a physical function takes the boot and clears FAIL and CAUSE,
and the owner's again after a failure; an image that is read and whose header passes waits for its verification, and one that is
not fails the boot with its cause; an image of matching digest whose signature holds and whose SVN is not below the floor
advances the boot counter, raises the floor when it asks for it, gives key domain 0 the keys of this boot, and runs; one that
fails a check fails the boot with that check's cause, and a part without boots left refuses every image with cause 7. The
security requests and messages complete (R313 to R329, R332): a report's measurements are captured and wait to be signed; a
signature takes the next index of the block in use, reserving a fresh block first, and keeps a pending key for 60 s, and a
report that cannot be signed is refused; a release, a create, a bind and a retire that are allowed give the domain its keys, its
mask, or nothing, and a release whose keys do not unwrap is refused and uses up its pending key; an identity read answers key
and certificate; and IDE and TDISP messages that pass the secured channel of their port make their moves, and others do nothing.
-/
def Obligations.BootAndSecurity : Prop :=
  ((∀ (f : Fn) (v : Word) (s : State), f.isPf = true → bitOf v.toNat 0 = true → s.hub.inReset = false →
      ((s.sec.boot = 0 ∧ s.sec.owner = none) ∨ (s.sec.boot = 4 ∧ s.sec.owner = some f.port.idx)) →
      exec (.bootGo f v) s =
        .next { s with sec := { s.sec with boot := 1, cause := 0, owner := some f.port.idx, image := [] } }) ∧
    (∀ (bs : List Byte) (s : State),
      let len := regGet s 0 0x40010 % 2 ^ 24
      s.sec.boot = 1 →
      (1048576 ≤ s.sec.boots → ∀ mem : Dma, exec (.bootImageReadDone mem) s =
        .next { s with sec := { s.sec with boot := 4, cause := 7, image := [] } }) ∧
      (s.sec.boots < 1048576 →
      exec (.bootImageReadDone .fault) s = .next { s with sec := { s.sec with boot := 4, cause := 2, image := [] } } ∧
      (len < 9893 + 256 ∨ bs.length < len → exec (.bootImageReadDone (.data bs)) s =
        .next { s with sec := { s.sec with boot := 4, cause := 6, image := [] } }) ∧
      (9893 + 256 ≤ len → len ≤ bs.length → bootHeader len (bs.take len) ≠ 0 → exec (.bootImageReadDone (.data bs)) s =
        .next { s with sec := { s.sec with boot := 4, cause := bootHeader len (bs.take len), image := [] } }) ∧
      (9893 + 256 ≤ len → len ≤ bs.length → bootHeader len (bs.take len) = 0 → exec (.bootImageReadDone (.data bs)) s =
        .next { s with sec := { s.sec with boot := 2, image := bs.take len } }))) ∧
    (∀ (floorRead marginal : Bool) (s : State),
      let b := s.sec.image
      let svn := leField b 8 4
      let failed (c : Nat) : State := { s with sec := { s.sec with boot := 4, cause := c, image := [] } }
      let block := if marginal then s.sec.block + 1 else s.sec.block
      s.sec.boot = 2 →
      (1048576 ≤ s.sec.boots → exec (.bootVerifyDone floorRead marginal) s = .next (failed 7)) ∧
      (s.sec.boots < 1048576 →
        (fwDigest b ≠ byteSlice b 0x20 32 → exec (.bootVerifyDone floorRead marginal) s = .next (failed 3)) ∧
        (fwDigest b = byteSlice b 0x20 32 →
          (Config.firmwareSigned b = false → exec (.bootVerifyDone floorRead marginal) s = .next (failed 4)) ∧
          (Config.firmwareSigned b = true → svn < s.sec.floor → exec (.bootVerifyDone floorRead marginal) s = .next (failed 5)) ∧
          (Config.firmwareSigned b = true → s.sec.floor ≤ svn → ∃ t, exec (.bootVerifyDone floorRead marginal) s = .next t ∧
            t.hub.firmware = true ∧ t.sec = { s.sec with
              boot := 3, boots := s.sec.boots + 1, svn := svn, digest := fwDigest b, block := block, next := 64 * block, faulted := false
              floor := (if bitOf (leField b 7 1) 0 = true ∧ floorRead = true then svn else s.sec.floor)
              domains := mput s.sec.domains 0 (ownDomain (s.sec.boots + 1)) }))))) ∧
  ((∀ (r : Req) (buf : DWord) (kem : Bool) (scope : Nat) (nonce : List Byte) (s : State),
      let t := taken s r 0x70
      Takes s r → (scope = 0 ∨ scope = 4) → s.sec.faulted = false → xmssSpent s.sec = false →
      exec (.secAttest r buf kem scope (.data nonce)) s = .next { t with sec := { s.sec with queue := s.sec.queue ++
        [⟨takenId s r 0x70, buf.toNat, kem, captureReport t r.identity.key nonce kem (scope = 4)⟩] } }) ∧
    (∀ (readBack : Bool) (q : AttestReq) (rest : List AttestReq) (s : State),
      let fresh := decide (64 * s.sec.block ≤ s.sec.next)
      let body := splice (splice q.report 0x58 (natLe 8 s.sec.next)) 0xC0
        (if q.kem then byteSlice (Config.kemPublic s.free) 0 1568 else natLe 1568 0)
      let report := body ++ byteSlice (Config.xmssSign s.sec.next body) 0 9893
      let keys := s.sec.pendingKeys ++ [⟨s.sec.next, s.free, shake256 report 32, s.time, q.id.fn⟩]
      let left := { s with sec := { s.sec with queue := rest } }
      s.sec.queue = q :: rest →
      (s.sec.faulted = true → exec (.attestSigned readBack) s = .next (fail q.id 0x81 left)) ∧
      (s.sec.faulted = false → xmssSpent s.sec = true → exec (.attestSigned readBack) s = .next (fail q.id 0x80 left)) ∧
      (s.sec.faulted = false → xmssSpent s.sec = false → fresh = true → readBack = false →
        exec (.attestSigned readBack) s = .next (fail q.id 0x81 { left with sec := { left.sec with faulted := true } })) ∧
      (s.sec.faulted = false → xmssSpent s.sec = false → (fresh = true → readBack = true) →
      let u := { s with free := s.free + 1, sec :=
        { s.sec with queue := rest, block := if fresh then s.sec.block + 1 else s.sec.block, next := s.sec.next + 1
                     pendingKeys := if q.kem then keys.drop (s.sec.pendingKeys.length + 1 - 16) else s.sec.pendingKeys } }
      exec (.attestSigned readBack) s = .next (if q.id.noWrite then fail q.id 0x94 u
        else done q.id (dmaWrite (fnPort q.id.fn) q.buf report u)))) ∧
    (∀ s : State, exec .pendingKeyExpiry s = .next { s with sec := { s.sec with
      pendingKeys := s.sec.pendingKeys.filter (fun p => decide (s.time < p.since + 60000000000)) } }) ∧
    (∀ (r : Req) (buf : DWord) (b : List Byte) (p : PendingKey) (s : State),
      let d := leField b 12 2
      let k := kdOf s d
      let t := { taken s r 0x71 with sec := { s.sec with pendingKeys := s.sec.pendingKeys.filter (· ≠ p) } }
      Takes s r → releaseOk b = true → kdMine k r.identity.key d = true → k.state = 1 →
      s.sec.pendingKeys.find? (fun p => p.index = leField b 4 8 && decide (s.time < p.since + 60000000000)) = some p →
      exec (.secKdRelease r buf (.data b)) s = .next (match Config.gcmOpen (kekOf p (byteSlice b 64 1568) [0x53, 0x58, 0x4B, 0x52])
          (List.replicate 12 0) (byteSlice b 0 64) (byteSlice b 1632 144) with
        | none => fail (takenId s r 0x71) 0x83 t
        | some keys => done (takenId s r 0x71) (setKd d
            { k with state := 2, isSealed := bitOf (leField b 14 1) 0, released := true, keys := byteSlice keys 0 128
                     inst := leField b 16 4, counter := 0 } t))) ∧
    (∀ (r : Req) (kd : Nat) (sealFlag : Bool) (s : State), Takes s r → kd < 4096 → kdMine (kdOf s kd) r.identity.key kd = true →
      (kdOf s kd).state = 1 → exec (.secKdCreate r kd sealFlag) s = .next (done (takenId s r 0x72) (setKd kd
        { kdOf s kd with state := 2, isSealed := sealFlag, released := false, counter := 0
                         keys := byteSlice (Config.randomKeys s.free) 0 128
                         inst := leNat (byteSlice (Config.randomKeys s.free) 128 4) } (drew (taken s r 0x72))))) ∧
    (∀ (r : Req) (kd : Nat) (mask : DWord) (s : State), Takes s r → r.fn.isPf = true → 0 < kd → kd < 4096 →
      ((kdOf s kd).state = 0 → lockedFns s (fnPort r.fn.key) (0 ^^^ mask.toNat) = [] →
        exec (.secKdBind r kd mask) s = .next (done (takenId s r 0x73)
          (setKd kd { port := fnPort r.fn.key, state := 1, mask := mask.toNat } (taken s r 0x73)))) ∧
      ((kdOf s kd).state ≠ 0 → (kdOf s kd).port = fnPort r.fn.key →
        lockedFns s (fnPort r.fn.key) ((kdOf s kd).mask ^^^ mask.toNat) = [] →
        exec (.secKdBind r kd mask) s = .next (done (takenId s r 0x73)
          (setKd kd { kdOf s kd with mask := mask.toNat } (taken s r 0x73)))) ∧
      ((kdOf s kd).state ≠ 0 → (kdOf s kd).port = fnPort r.fn.key → kdUsers s kd = 0 →
        lockedFns s (fnPort r.fn.key) ((kdOf s kd).mask ^^^ 0) = [] →
        exec (.secKdRetire r kd) s = .next (done (takenId s r 0x74)
          { taken s r 0x74 with sec := { s.sec with domains := mdel s.sec.domains kd } }))) ∧
    (∀ (r : Req) (buf : DWord) (s : State), Takes s r → exec (.secIdRead r buf) s =
      .next (if r.noWrite then fail (takenId s r 0x75) 0x94 (taken s r 0x75) else done (takenId s r 0x75)
        (dmaWrite (fnPort r.fn.key) buf.toNat ((idKey ++ Config.idCertificate).take 16384) (taken s r 0x75)))) ∧
    (∀ (port : Port) (msg : Secured) (stream : Fin 9) (b : List Byte) (s t : State),
      let k := port.idx * 16 + stream.val
      openSecured port.idx msg s = some (b, t) →
      exec (.ideKmMessage port msg stream .program) s =
        .next { t with sec := { t.sec with ide := mput s.sec.ide k { key := b.drop (b.length - 32) } } } ∧
      (∀ y, mget? s.sec.ide k = some y → exec (.ideKmMessage port msg stream .start) s =
        .next { t with sec := { t.sec with ide := mput s.sec.ide k { y with started := true } } }) ∧
      (mget? s.sec.ide k = none → exec (.ideKmMessage port msg stream .start) s = .next t) ∧
      exec (.ideKmMessage port msg stream .stop) s = .next { t with sec := { t.sec with ide := mdel s.sec.ide k } }) ∧
    (∀ (f : Fn) (msg : Secured) (act : TdispAct) (b : List Byte) (s t : State), openSecured f.port.idx msg s = some (b, t) →
      let moved (x : Tdi) : State := { t with sec := { t.sec with tdi := mput s.sec.tdi f.key x } }
      (f.isPf = true → exec (.tdispMessage f msg act) s = .next t) ∧
      (f.isPf = false →
        (tdiOf s f.key = .unlocked → exec (.tdispMessage f msg .lock) s = .next (moved .locked)) ∧
        (tdiOf s f.key = .locked → exec (.tdispMessage f msg .start) s = .next (moved .run)) ∧
        (tdiOf s f.key ≠ .unlocked → exec (.tdispMessage f msg .lock) s = .next t) ∧
        (tdiOf s f.key ≠ .locked → exec (.tdispMessage f msg .start) s = .next t) ∧
        exec (.tdispMessage f msg .stop) s = .next { t with sec := { t.sec with tdi := mdel s.sec.tdi f.key } })) ∧
    (∀ (f : Fn) (port : Port) (msg : Secured) (stream : Fin 9) (ide : IdeKm) (act : TdispAct) (s : State),
      (openSecured port.idx msg s = none → exec (.ideKmMessage port msg stream ide) s = .next s) ∧
      (openSecured f.port.idx msg s = none → exec (.tdispMessage f msg act) s = .next s)))

/-! ### The hatch -/

/-- Accesses through a window complete (R24, R80, R143, R323, R353 to R356, R358, R363, R364): a read of lines, in bays not fenced,
answers their stored bytes, zeros for those of a SEALED domain with a record, and one of a damaged line is aborted and recorded;
one of the command area answers its registers and store; a write goes line by line to the cores its offset names; HC_DONE is
answered; hatch data of a bay whose traffic a frame binds, or that follows such data, joins the bay's transom queue in class T4;
an access to a fenced bay is aborted; one that no window maps is unsupported and recorded; bytes of HC_SUBMIT below 63 are held;
a micro-program byte is stored at once or, while a RUN runs, after it; and a held write applies once nothing holds it.
HAT_WINDOW and hatch mode (R353, R357): with the port's registers responding, a window takes a quarter of a pavilion of the port
and, of any other, stays at 0 and is recorded; a request for a bay without a quarter of the other port enters hatch mode at once
when no frame binds the bay, with the registers of its command area at 0; the last request withdrawn asks for the exit, which is
taken once the bay's command queue is empty, and its pavilions may gather again. -/
def Obligations.HatchWindowsAndMode : Prop :=
  ((∀ (port : Port) (off len q : Nat) (bad : Bool) (s : State), winQuarter s port.idx off = some q → winOff off < winNear →
      let t := hatchTouch (q / 4) s
      let parts := hatchParts q (winOff off) (List.replicate len 0)
      let bytes := (parts.map (fun x => byteSlice (hatchLine t x.core x.line) x.off x.bytes.length)).flatten
      ((∃ x ∈ parts, (bayAt t (coreBay x.core)).fenced = true) →
        exec (.hatchRead port off len bad) s = .next { t with reply := .abort }) ∧
      ((∀ x ∈ parts, (bayAt t (coreBay x.core)).fenced = false) →
        (hatchQueues t (q / 4) = true → exec (.hatchRead port off len bad) s =
          .next (queueHatch (q / 4) 1 true (.hatchRead port.idx parts bad) { t with reply := .none })) ∧
        (hatchQueues t (q / 4) = false →
          ((∀ x ∈ parts, hatchSealed t x = false) → bad = false → (∀ x ∈ parts, isDamaged t x.core x.line = false) →
            exec (.hatchRead port off len bad) s = .next { t with reply := .bytes bytes }) ∧
          ((∀ x ∈ parts, hatchSealed t x = false) →
            ∀ x, parts.find? (fun x => bad || isDamaged t x.core x.line) = some x →
              exec (.hatchRead port off len bad) s =
                .next { raiseErr (hatchLost t port.idx x.core x.line) t with reply := .abort }) ∧
          (∀ x, parts.find? (hatchSealed t) = some x → bad = false →
            (∀ y ∈ parts, hatchSealed t y = false → isDamaged t y.core y.line = false) →
            exec (.hatchRead port off len bad) s =
              .next { raiseErr (hatchDiscard port.idx x.addr 2) t with reply := .bytes bytes })))) ∧
    (∀ (port : Port) (off len q : Nat) (data : List Byte) (bad : Bool) (s : State), winQuarter s port.idx off = some q →
      let t := hatchTouch (q / 4) s
      let parts := hatchParts q (winOff off) data
      (winArea (winOff off) = true → exec (.hatchRead port off len bad) s = .next { t with
        reply := .bytes ((List.range len).map (fun i => hcByte (bayAt t (q / 4)) (winOff off - winNear + i))) } ∧
        exec (.hatchWrite port off data bad) s = .next t) ∧
      (winOff off < winNear →
        (hatchQueues t (q / 4) = false → exec (.hatchWrite port off data bad) s =
          .next (parts.foldl (fun s x => hatchPart port.idx bad x s) t)) ∧
        (hatchQueues t (q / 4) = true → exec (.hatchWrite port off data bad) s =
          .next ((parts.filter (fun x => ! (bayAt t (coreBay x.core)).fenced)).foldl (fun s x =>
            queueHatch (q / 4) 1 true (.hatchWrite port.idx x bad) s) t))) ∧
      (winNear ≤ winOff off → winArea (winOff off) = false → exec (.hatchRead port off len bad) s =
          .next { raiseErr (hatchDiscard port.idx (winOff off / 64) 3) s with reply := .unsupported } ∧
        exec (.hatchWrite port off data bad) s = .next (raiseErr (hatchDiscard port.idx (winOff off / 64) 3) t)) ∧
      (hatchQueues s (q / 4) = false →
        exec (.hcDoneRead port off) s = .next { t with reply := .bytes (natLe 4 (bayAt s (q / 4)).hcDone) }) ∧
      (hatchQueues s (q / 4) = true →
        exec (.hcDoneRead port off) s = .next (queueHatch (q / 4) 1 true (.hatchDone port.idx) { t with reply := .none }))) ∧
    (∀ (port : Port) (off len : Nat) (data : List Byte) (bad : Bool) (s : State), winQuarter s port.idx off = none →
      let t := raiseErr (hatchDiscard port.idx (winOff off / 64) 3) s
      exec (.hatchRead port off len bad) s = .next { t with reply := .unsupported } ∧
      exec (.hcDoneRead port off) s = .next { t with reply := .unsupported } ∧
      exec (.hatchWrite port off data bad) s = .next t ∧ exec (.hcSubmitHeldWrite port off data) s = .next t ∧
      exec (.hcStoreWrite port off data) s = .next t) ∧
    (∀ (port : Port) (off q : Nat) (data : List Byte) (s : State), winQuarter s port.idx off = some q →
      let a := winOff off - winNear
      (winArea (winOff off) = true → a < 63 → exec (.hcSubmitHeldWrite port off data) s =
        .next (hatchTouch (q / 4) (onBay (q / 4) (fun b => { b with
          hcHeld := ((data.take (63 - a)).zipIdx).foldl (fun m x => mput m (a + x.2) x.1) b.hcHeld }) s))) ∧
      (0x1000 ≤ a → a < 0x2000 →
        ((bayAt s (q / 4)).hcRun = none → exec (.hcStoreWrite port off data) s = .next (onBay (q / 4) (fun b => { b with
          hcStore := memWrite b.hcStore (a - 0x1000) (data.take (0x2000 - a)) }) s)) ∧
        (∀ e c, (bayAt s (q / 4)).hcRun = some (e, c) → e.op = 0x20 → exec (.hcStoreWrite port off data) s =
          .next (onBay (q / 4) (fun b => { b with storeHeld := b.storeHeld ++ [(a - 0x1000, data.take (0x2000 - a))] }) s)))) ∧
    (∀ (port : Port) (h : HeldWrite) (s : State), s.hatchHeld = [h] → h.port = port.idx →
      (∀ t, h.arrive = some t → (tileOf s t.1 t.2).state ≠ .failed) →
      hatchFate { s with hatchHeld := [] } h.core h.line = .apply →
      exec (.heldHatchWriteApply port) s =
        .next (hatchApply port.idx ⟨h.core, h.line, h.off, h.bytes, h.addr⟩ false { s with hatchHeld := [] }))) ∧
  ((∀ (port : Port) (n : Fin 8) (v : Word) (s : State), responds s 0x100010 = true →
      let mine := s.pavs.any (fun x => x.2.port = port.idx && x.2.quarters.contains (bits v.toNat 0 6))
      (mine = true → exec (.hatWindowWrite port n v) s =
        .next (regSet port.idx (0x100010 + 4 * n) (v.toNat &&& 0x8000007F) s)) ∧
      (mine = false → exec (.hatWindowWrite port n v) s =
        .next (raiseErr (hatchRefused port.idx 2) (regSet port.idx (0x100010 + 4 * n) 0 s)))) ∧
    (∀ (port : Port) (bay : Fin 20) (s : State), responds s 0x100000 = true →
      (∀ x ∈ s.pavs, x.2.port ≠ port.idx → x.2.bays.contains bay.val = false) → frameOf s bay = none →
      (bayAt s bay).hatch = false → (bayAt s bay).fenced = false →
      ∃ t, exec (.hatchModeRequest port bay) s = .next t ∧ { bayAt t bay with hatchExit := (bayAt s bay).hatchExit } =
        { bayAt s bay with hatch := true, hcDone := 0, hcSubmitted := 0, hcErrSeq := 0, hcErrCause := 0, hcFull := 0 } ∧
        regGet t port.idx 0x100000 = (regGet s port.idx 0x100000 ||| 2 ^ bay.val) % 2 ^ 32 ∧
        { t with regs := s.regs, bays := s.bays } = s) ∧
    (∀ (port : Port) (bay : Fin 20) (s : State), responds s 0x100000 = true →
      let t := regClear port.idx 0x100000 (2 ^ bay.val) s
      ((bayAt s bay).hatch = true → hatchWanted t bay = false →
        exec (.hatchExitRequest port bay) s = .next (onBay bay (fun x => { x with hatchExit := true }) t)) ∧
      (hatchWanted t bay = true → exec (.hatchExitRequest port bay) s = .next t)) ∧
    (∀ (bay : Fin 20) (s : State), (bayAt s bay).hatch = true → (bayAt s bay).hatchExit = true → (bayAt s bay).hcQueue = [] →
      (bayAt s bay).hcRun = none →
      exec (.hatchModeExit bay) s = .next (noteReadyAll (onBay bay (fun x => { x with hatch := false, hatchExit := false }) s))))

/-- Hatch commands (R358 to R363): on an idle bay a submitted command takes the next SEQ and starts if R361 refuses it nowhere, its
effect taking place as it starts (log 60); a refused one completes at once with its cause, an unallocated OP with cause 2;
behind a running command it waits in the queue, and beyond 64 it is discarded and counted, whatever its OP; and the running
command completes when its time has passed and not before: its deferred store writes and held hatch writes follow and the next
command starts. -/
def Obligations.HatchCommandsRun : Prop :=
  (∀ x ∈ ([(0x01, .hatchAdd), (0x02, .hatchSub), (0x03, .hatchMul), (0x04, .hatchMulh), (0x05, .hatchMadd), (0x06, .hatchScale),
      (0x07, .hatchShl), (0x08, .hatchSar), (0x0B, .hatchFill), (0x0C, .hatchCopy), (0x10, .hatchSeth), (0x20, .hatchRun)] :
      List (Nat × (Port → Fin 20 → HcCmd → Option HcBad → Instr))),
    ∀ (port : Port) (bay : Fin 20) (c : HcCmd) (bad : Option HcBad) (s : State),
      let b := bayAt s bay
      let e : HcEntry := ⟨(b.hcSubmitted + 1) % 2 ^ 32, port.idx, x.1, c⟩
      let queued := onBay bay (fun y => { y with hcSubmitted := e.seq, hcQueue := b.hcQueue ++ [e], hcHeld := [] }) s
      let t := onBay bay (fun y => { y with hcQueue := [] }) queued
      let r := hcPerform port.idx bay x.1 c bad t
      (b.hcRun = none → b.hcQueue = [] → hcCheck t port.idx bay x.1 false c = 0 →
        exec (x.2 port bay c bad) s = .next (onBay bay (fun y => { y with hcRun := some (e, r.1) }) r.2)) ∧
      (b.hcRun = none → b.hcQueue = [] → hcCheck t port.idx bay x.1 false c ≠ 0 →
        exec (x.2 port bay c bad) s = .next (hcFinish bay e (hcCheck t port.idx bay x.1 false c) t)) ∧
      (b.hcRun.isSome = true → b.hcQueue.length < 63 → exec (x.2 port bay c bad) s = .next queued) ∧
      (64 ≤ b.hcQueue.length + b2n b.hcRun.isSome → exec (x.2 port bay c bad) s =
        .next (onBay bay (fun y => { y with hcFull := (y.hcFull + 1) % 2 ^ 32, hcHeld := [] }) s))) ∧
  (∀ (port : Port) (bay : Fin 20) (op : Byte) (c : HcCmd) (s : State),
    let b := bayAt s bay
    let e : HcEntry := ⟨(b.hcSubmitted + 1) % 2 ^ 32, port.idx, op.toNat, c⟩
    let queued := onBay bay (fun y => { y with hcSubmitted := e.seq, hcQueue := b.hcQueue ++ [e], hcHeld := [] }) s
    hcAllocated op.toNat false = false →
    (b.hcRun = none → b.hcQueue = [] → exec (.hatchUnallocatedOp port bay op c) s =
      .next (hcFinish bay e (if b.hatch then 2 else 1) (onBay bay (fun y => { y with hcQueue := [] }) queued))) ∧
    (b.hcRun.isSome = true → b.hcQueue.length < 63 → exec (.hatchUnallocatedOp port bay op c) s = .next queued) ∧
    (64 ≤ b.hcQueue.length + b2n b.hcRun.isSome → exec (.hatchUnallocatedOp port bay op c) s =
      .next (onBay bay (fun y => { y with hcFull := (y.hcFull + 1) % 2 ^ 32, hcHeld := [] }) s))) ∧
  (∀ (bay : Fin 20) (bad : Option HcBad) (e : HcEntry) (cause : Nat) (s : State), (bayAt s bay).hcRun = some (e, cause) →
    (9 * s.time < (bayAt s bay).hcEnd → exec (.hatchCommandDone bay bad) s = .next s) ∧
    let t := releaseHatch 1 (releaseHatch 0 (onBay bay (fun x => { x with
      hcRun := none, storeHeld := [], hcStore := x.storeHeld.foldl (fun m w => memWrite m w.1 w.2) x.hcStore })
      (hcFinish bay e cause s)))
    ((bayAt s bay).hcEnd ≤ 9 * s.time →
      exec (.hatchCommandDone bay bad) s = .next (hcStart bay bad (bayAt t bay).hcQueue.length t)))

/-! ### Celay -/

/-- Celay links (R366 to R373, R388 to R390). A port that is up sends the next flit: a flit to be replayed goes first and is
counted; otherwise, or to carry LANE_SWAP, a new one takes the next of 4,096 sequence numbers and joins the replay buffer, which
holds 512; one that carries LANE_SWAP has all of the buffer sent again. A received flit whose CRC matches and whose SEQ is next
is accepted: SEQ moves to it, the flits its ACK covers leave the replay buffer, and a NAK in it, or a lane swap, has the rest
sent again; the ninth NAK of one flit takes the port down; any other, and one whose codewords do not correct, changes nothing
but the NAK that the next flit carries. ENABLE written 1 begins bring-up, ends with the port up when eight lanes pass, and down
with fewer; written 0 it takes a port that is up down and disables any other; a port down for 100 ms tries again; and a lane in
service that fails moves its traffic to the spare once, and takes the port down the second time. -/
def Obligations.CelayLinksCarryFlits : Prop :=
  (∀ (c : Fin 4) (f : Flit) (fs : List Flit) (s : State), (clyAt s c).state = 2 → (clyAt s c).resend = f :: fs →
    (clyAt s c).swap = false ∨ 512 ≤ (clyAt s c).replay.length →
    exec (.flitTransmit c) s = .next (clyAdd c 0x108 1 (onCly c (fun x => { x with resend := fs }) s))) ∧
  (∀ (c : Fin 4) (s : State), (clyAt s c).state = 2 → (clyAt s c).resend = [] ∨ (clyAt s c).swap = true →
    (clyAt s c).replay.length < 512 →
    ∃ t, exec (.flitTransmit c) s = .next t ∧ (clyAt t c).txSeq = ((clyAt s c).txSeq + 1) % 4096 ∧
      (clyAt t c).replay.length = (clyAt s c).replay.length + 1 ∧ (clyAt t c).nak = false ∧ (clyAt t c).rx = (clyAt s c).rx ∧
      (clyAt t c).swap = false ∧ (clyAt t c).resend = (if (clyAt s c).swap then (clyAt t c).replay else []) ∧
      ∀ q, q ≠ c.val → clyAt t q = clyAt s q) ∧
  (∀ (c : Fin 4) (k : Nat) (b : Option (List Byte)) (s : State), (clyAt s c).state = 2 →
    (∀ y, b = some y → flitGood (clyAt s c) y = false) →
    ∃ t, exec (.flitReceive c b k) s = .next t ∧ clyAt t c = { clyAt s c with nak := true } ∧
      { t with celay := s.celay, regs := s.regs } = s) ∧
  (∀ (c : Fin 4) (k : Nat) (b : List Byte) (s : State), (clyAt s c).state = 2 → flitGood (clyAt s c) b = true →
    let x := clyAt s c
    let kept := ackFlits (leField b 2 2 % 4096) x.replay
    let nak := bitOf (leField b 2 2) 15
    let fails := if nak = false then 0 else if kept.length ≠ x.replay.length then 1
      else if x.fails ≠ 0 ∧ x.resend = kept then x.fails else x.fails + 1
    ∃ t, (clyAt t c).rxSeq = leField b 0 2 ∧ (clyAt t c).fails = fails ∧ (clyAt t c).replay = kept ∧ (clyAt t c).state = 2 ∧
      (clyAt t c).resend = (if nak = true ∨ bitOf (leField b 5 1) 0 = true then kept else x.resend) ∧
      (fails < 9 → exec (.flitReceive c (some b) k) s = .next t) ∧
      (9 ≤ fails → exec (.flitReceive c (some b) k) s = .next (portDown c 3 0xFF t))) ∧
  (∀ (c : Fin 4) (i left : Nat) (s : State), bitOf (clyReg s c 0) 1 = true → gateNow s c = some (i, left) →
    exec (.gateEntryAdvance c) s = .next (onCly c (fun x => { x with gate := i }) s)) ∧
  (∀ (f : Fn) (c : Fin 4) (v : Word) (s : State), clyController s f c = true → responds s (clyOff c 0) = true →
    (bitOf v.toNat 0 = true → bitOf (clyReg s c 0) 0 = false → ∃ t, exec (.celayEnable f c v) s = .next t ∧ (clyAt t c).state = 1) ∧
    (bitOf v.toNat 0 = false → bitOf (clyReg s c 0) 0 = true →
      let u := regClear 0 (clyOff c 0) 1 (setFields f.port.idx (clyOff c 0) v.toNat s)
      exec (.celayDisable f c v) s = .next (if (clyAt u c).state = 2 then portDown c 0 0xFF u
        else onCly c (fun x => { x with state := 0 }) u))) ∧
  (∀ (c : Fin 4) (lanes : BitVec 9) (s : State), (clyAt s c).state = 1 →
    let n := ((List.range 9).filter (fun l => bitOf lanes.toNat l)).length
    (n < 8 → exec (.celayLinkUp c lanes) s =
      .next (onCly c (fun x => { x with state := 3, lanesOk := lanes.toNat, downAt := s.time }) s)) ∧
    (8 ≤ n → ∃ t, exec (.celayLinkUp c lanes) s = .next t ∧ (clyAt t c).state = 2 ∧ (clyAt t c).txSeq = 0 ∧ (clyAt t c).rxSeq = 4095 ∧
      (clyAt t c).replay = [] ∧ ∀ i < 8, mgetD (clyAt t c).owed i 0 = rxShare s c i)) ∧
  (∀ (c : Fin 4) (s : State), (clyAt s c).state = 3 → bitOf (clyReg s c 0) 0 = true →
    (clyAt s c).downAt + 100000000 ≤ s.time →
    exec (.celayBringupRetry c) s = .next (onCly c (fun x => { x with state := 1 }) s)) ∧
  (∀ (c : Fin 4) (lane : Fin 9) (s : State), (clyAt s c).state = 2 → laneUsed (clyAt s c) lane = true →
    let spare := (clyAt s c).outLane = 15 ∧ bitOf (clyAt s c).lanesOk 8 = true
    (spare → ∃ t, exec (.laneSwap c lane) s = .next t ∧
      clyAt t c = { clyAt s c with outLane := lane, swap := true, resend := (clyAt s c).replay }) ∧
    (¬ spare → exec (.laneSwap c lane) s = .next (portDown c 3 lane s)))

/-- State pushes (R157, R169, R378 to R383). With a message of its type complete in the port's receive buffer, each row takes it: a
push opens when nothing refuses it, and is refused with the REASON otherwise; a tile of the push that opens under the session's
key starts on its way to its slot, one of another tile or whose seal or form fails aborts the push with reason 6 or 8; a push
whose needed tiles have all landed is charged and closed, another is aborted with reason 9; the sender's abort closes the stream
with its reason; messages of an aborted push or an older generation are dropped and counted; a message of no stream counts its
cells as stray; and a stream without a cell for the idle limit is aborted. -/
def Obligations.PushesOpenLandAndEnd : Prop :=
  (∀ (c : Fin 4) (m : Cell) (s t : State), takeMsg c 1 s = some (m, t) →
    let p := leField m.payload 8 1 % 2
    let u := searchNow false (sessDirKey (pushFn m) (leField m.payload 0 8)) (countSearch p t)
    (∀ r, pushRefused u m = some r → r ≠ 3 → exec (.pushOpen c) s = .next (sendMsg c 0 3 m.src m.tag m.gen (natLe 1 r) u)) ∧
    (pushRefused u m = some 3 → exec (.pushOpen c) s =
      .next (sendMsg c 0 3 m.src m.tag m.gen (natLe 1 3) (regAdd p 0xB0010 m.count u))) ∧
    (pushRefused u m = none → ∃ y : Stream, y.hand = false ∧ y.cport = c.val ∧ y.node = m.src ∧ y.tag = m.tag ∧
      y.sess = sessKey (pushFn m) (leField m.payload 0 8) ∧ y.first = pushFirst m ∧ y.count = pushCount m ∧ y.aborted = false ∧
      exec (.pushOpen c) s = .next (openPushes (sendMsg c 0 2 m.src m.tag m.gen [] { u with streams := u.streams ++ [y] })))) ∧
  (∀ x ∈ ([(4, .pushData), (5, .pushEnd), (6, .pushAbort)] : List (Nat × (Fin 4 → Instr))),
    ∀ (c : Fin 4) (m : Cell) (s t : State), takeMsg c x.1 s = some (m, t) → findStream t false c m = none →
      exec (x.2 c) s = .next (strayCells c m t)) ∧
  (∀ (c : Fin 4) (m : Cell) (y : Stream) (x : Session) (s t : State), takeMsg c 4 s = some (m, t) →
    findStream t false c m = some y →
    let u := (touchStream y t).2
    let z := (touchStream y t).1
    let i := leField m.payload 0 4
    let key := sessObj y.sess x
    (y.aborted = true ∨ staleMsg u y m = true → exec (.pushData c) s = .next (dropCells z m u)) ∧
    (y.aborted = false → mget? t.sessions y.sess = some x → x.gen = m.gen →
      (tileHolds (pavAt t x.pav).desc x.lmax i y.first y.count = false → exec (.pushData c) s = .next (abortStream z 6 true u)) ∧
      (tileHolds (pavAt t x.pav).desc x.lmax i y.first y.count = true → exec (.pushData c) s =
        .next (match openTileMsg u x.kd m with
          | none => abortStream z 8 true u
          | some none => abortStream z 8 true (countRefusal key u)
          | some (some bs) => streamTile key i bs u)))) ∧
  (∀ (c : Fin 4) (m : Cell) (y : Stream) (x : Session) (s t : State), takeMsg c 5 s = some (m, t) →
    findStream t false c m = some y →
    let p := sessPort y.sess
    (y.aborted = true ∨ staleMsg t y m = true → exec (.pushEnd c) s = .next (closeStream y (dropCells y m t))) ∧
    (y.aborted = false → mget? t.sessions y.sess = some x → x.gen = m.gen →
      (pushWhole t y x = true → exec (.pushEnd c) s = .next (regAdd p 0xD8310 1 (closeStream y (applyCharge (some {
        port := p, tenant := x.tenant, tokensIn := y.count, cost := y.count * (tenantOf t p x.tenant).inCost }) t)))) ∧
      (pushWhole t y x = false → exec (.pushEnd c) s = .next (abortStream y 9 true (closeStream y t))))) ∧
  (∀ (c : Fin 4) (m : Cell) (y : Stream) (s t : State), takeMsg c 6 s = some (m, t) → findStream t false c m = some y →
    (y.aborted = false → exec (.pushAbort c) s = .next (abortStream y (leField m.payload 0 1) false (closeStream y t))) ∧
    (y.aborted = true → exec (.pushAbort c) s = .next (closeStream y (dropCells y m t)))) ∧
  (∀ (c : Fin 4) (tag : Nat) (y : Stream) (s : State), y ∈ s.streams → y.cport = c.val → y.tag = tag →
    y.lastAt + streamIdle s (sessPort y.sess) ≤ s.time → (∀ z ∈ s.streams, z.cport = c.val → z.tag = tag → z = y) →
    (y.aborted = false → exec (.streamIdleTimeout c tag) s = .next (abortStream y 16 true (if y.hand then s else closeStream y s))) ∧
    (y.aborted = true → y.hand = false → exec (.streamIdleTimeout c tag) s = .next (closeStream y s)))

/-- Hand-over (R156, R169, R384 to R386). At the receiver an offer nothing refuses makes the session resident and is accepted, and
another is refused with its REASON; a tile that opens starts on its way, one that does not aborts with reason 8, and one of an
older generation is dropped; HAND_END marks the stream, and either of no stream is stray. At the source an acceptance advances
the generation, marks the entry migrating and starts the fence; a refusal ends the request with NO_SLOT, LENGTH_EXCEEDS or
PEER_REFUSED; HAND_DONE says the peer holds every tile; and an abort, or an offer without an answer for the idle limit, ends it
as cut: before the acceptance nothing has changed, after it the session has left. Pool transactions (R139, R140, R169, R298,
R326, R387): an acknowledged write ends with its record held in the pool's memory, a tile's or a snapshot's; read data as long
as the record that opens brings its tile, and data that does not open, shorter data, an error or no answer within the port's
limit fails the transaction, which is retried once by the next port and counted; an answer to no transaction changes nothing
more. -/
def Obligations.HandOversAndPool : Prop :=
  ((∀ (c : Fin 4) (tables : Bool) (m : Cell) (s t : State), takeMsg c 8 s = some (m, t) →
      (∀ r, handRefused t m tables = some r → exec (.handOffer c tables) s = .next (sendMsg c 0 0x0A m.src m.tag m.gen (natLe 1 r) t)) ∧
      (∀ e, handRefused t m tables = none → handEntry t m.src = some e →
        exec (.handOffer c tables) s = .next (sendMsg c 0 9 m.src m.tag m.gen [] (regAdd (fnPort e.1) 0xD831C 1 (handTake c m t))))) ∧
    (∀ (c : Fin 4) (m : Cell) (y : Stream) (x : Session) (s t : State), takeMsg c 0x0B s = some (m, t) →
      findStream t true c m = some y → mget? t.sessions y.sess = some x →
      let u := (touchStream y t).2
      let z := (touchStream y t).1
      let key := sessObj y.sess x
      (x.gen = m.gen → exec (.handData c) s = .next (match openTileMsg u x.kd m with
        | none => abortStream z 8 true u
        | some none => abortStream z 8 true (countRefusal key u)
        | some (some bs) => streamTile key (leField m.payload 0 4) bs u)) ∧
      (x.gen ≠ m.gen → exec (.handData c) s = .next (dropCells z m u))) ∧
    (∀ x ∈ ([(0x0B, .handData), (0x0C, .handEnd)] : List (Nat × (Fin 4 → Instr))),
      ∀ (c : Fin 4) (m : Cell) (s t : State), takeMsg c x.1 s = some (m, t) → findStream t true c m = none →
        exec (x.2 c) s = .next (strayCells c m t)) ∧
    (∀ (c : Fin 4) (m : Cell) (y : Stream) (s t : State), takeMsg c 0x0C s = some (m, t) → findStream t true c m = some y →
      exec (.handEnd c) s = .next (onStream y (fun y => { y with ended := true, lastAt := t.time }) t)) ∧
    (∀ (c : Fin 4) (m : Cell) (key node tag fence since : Nat) (id : ReqId) (posted : Bool) (sk : Nat) (x : Session) (s t : State),
      takeMsg c 9 s = some (m, t) → handJob t c m = some (key, .handOver id c node tag fence since false posted) →
      sessOfObj t key = some (sk, x) →
      let g := (x.gen + 1) % 65536
      let u := onSess sk (fun x => { x with gen := g, place := match x.place with | .resident n k => .migrating n k | p => p })
        (movedPushes sk t)
      exec (.handAccept c) s = .next (dirSetSession sk (fun r => { r with state := 3, tier := 0, gen := g }) none
        { u with jobs := mput u.jobs key (.handOver id c node tag (u.time + fence) since true posted) })) ∧
    (∀ (c : Fin 4) (m : Cell) (key node tag fence since : Nat) (id : ReqId) (posted : Bool) (s t : State),
      takeMsg c 0x0A s = some (m, t) → handJob t c m = some (key, .handOver id c node tag fence since false posted) →
      let r := leField m.payload 0 1
      (r = 13 → exec (.handRefuse c) s = .next (complete id 0x21 (some 7) 0 (endJob key t))) ∧
      (r = 14 → exec (.handRefuse c) s = .next (complete id 0x27 none 0 (endJob key t))) ∧
      (r ≠ 13 → r ≠ 14 → exec (.handRefuse c) s = .next (complete id 0xA0 none 0 (endJob key t)))) ∧
    (∀ (c : Fin 4) (m : Cell) (key node tag fence since : Nat) (id : ReqId) (posted : Bool) (s t : State),
      takeMsg c 0x0D s = some (m, t) → handJob t c m = some (key, .handOver id c node tag fence since true posted) →
      exec (.handDone c) s = .next { t with jobs := mput t.jobs key (.handOver id c node tag fence since true true) }) ∧
    (∀ (c : Fin 4) (m : Cell) (y : Stream) (s t : State), takeMsg c 0x0E s = some (m, t) → findStream t true c m = some y →
      exec (.handAbort c) s = .next (abortStream y (leField m.payload 0 1) false t)) ∧
    (∀ (c : Fin 4) (m : Cell) (key node tag fence since : Nat) (id : ReqId) (posted : Bool) (s t : State),
      takeMsg c 0x0E s = some (m, t) → findStream t true c m = none →
      (handJob t c m = some (key, .handOver id c node tag fence since false posted) →
        exec (.handAbort c) s = .next (complete id 0xA1 none 0 (endJob key t))) ∧
      (handJob t c m = some (key, .handOver id c node tag fence since true posted) →
        exec (.handAbort c) s = .next (handOver key id 0xA2 (some 8) t))) ∧
    (∀ (c : Fin 4) (key node tag fence since : Nat) (id : ReqId) (posted : Bool) (s : State),
      (∀ y ∈ s.streams, y.cport = c.val → y.tag ≠ tag) →
      s.jobs.find? (fun j => match j.2 with
        | .handOver _ d _ t _ since false _ => d = c.val && t = tag && decide (since + streamIdle s (objPort j.1) ≤ s.time)
        | _ => false) = some (key, .handOver id c node tag fence since false posted) →
      exec (.streamIdleTimeout c tag) s = .next (complete id 0xA1 none 0 (endJob key s)))) ∧
  ((∀ (c : Fin 4) (m : Cell) (x : PoolTx) (s t : State), takeMsg c 0x11 s = some (m, t) → poolOf t c m.tag = some x →
      (∀ part, x.snap = some part → exec (.poolWriteAck c) s = .next (snapAck x.port part (endPool x t))) ∧
      (x.snap = none → x.write = true → exec (.poolWriteAck c) s = .next (ackWrite x.obj x.tile (endPool x t)))) ∧
    (∀ (c : Fin 4) (m : Cell) (x : PoolTx) (s t : State), takeMsg c 0x13 s = some (m, t) → poolOf t c m.tag = some x → x.write = false →
      let r := spotRead t (x.obj / 2 ^ 64) (tileOf t x.obj x.tile).lower
      let got := m.payload.take (256 * x.gran)
      (m.payload.length < 256 * x.gran → exec (.poolReadData c) s = .next (failPool x t)) ∧
      (256 * x.gran ≤ m.payload.length →
        (r = none → exec (.poolReadData c) s = .next (settle x.obj (failTransfer x.obj x.tile 4 (endPool x t)))) ∧
        (∀ y bs, r = some y → openRecord t y got = .inr bs →
          exec (.poolReadData c) s = .next (fetchOut x.obj x.tile bs (endPool x t))) ∧
        (∀ y k, r = some y → openRecord t y got = .inl k → exec (.poolReadData c) s =
          .next (settle x.obj (failTransfer x.obj x.tile k (endPool x (if k = 5 then countRefusal x.obj t else t))))))) ∧
    (∀ (c : Fin 4) (m : Cell) (x : PoolTx) (s t : State), takeMsg c 0x14 s = some (m, t) → poolOf t c m.tag = some x →
      exec (.poolError c) s = .next (failPool x t)) ∧
    (∀ x ∈ ([(0x11, .poolWriteAck), (0x13, .poolReadData), (0x14, .poolError)] : List (Nat × (Fin 4 → Instr))),
      ∀ (c : Fin 4) (m : Cell) (s t : State), takeMsg c x.1 s = some (m, t) → poolOf t c m.tag = none → exec (x.2 c) s = .next t) ∧
    (∀ (tag : Nat) (x : PoolTx) (s : State), x ∈ s.pools → x.tag = tag → (∀ z ∈ s.pools, z.tag = tag → z = x) →
      x.since + 1000 * max 1 (regGet s x.port 0xD8300 % 65536) ≤ s.time → exec (.poolTimeout tag) s = .next (failPool x s)) ∧
    (∀ (x : PoolTx) (s : State),
      (x.snap = none → x.write = false → (tileOf s x.obj x.tile).retried = false →
        failPool x s = settle x.obj (failTransfer x.obj x.tile 4 (endPool x (regAdd x.port 0xD8320 1 s)))) ∧
      (∀ part, x.snap = some part → failPool x s = snapMiss x.port part (endPool x s))))

/-! ### Profiles, the board and the gatehouse -/

/-- Profile commands (R398 to R402). While the TRL_ region responds, a source without authority gets NOT_AUTHORISED's code 2, and an
authorised one, while another command runs, code 1; otherwise a write whose slot is the one in force gets 0x0F, a read fault
0x13, a refused image its code, and a good image empties the slot and runs until its commit record makes the slot valid; an
erase empties its slot; SET_NEXT and CLEAR_NEXT set and clear the next slot; a select waits until every consenting port has
joined it, one of another slot gives way to it with 0x10, as does one not joined within 1 s; and a joined one is applied when
its conditions hold within 100 ms, or ends with the code of the one that does not. -/
def Obligations.ProfileCommands : Prop :=
  (∀ (src : ProfileSource) (slot : Fin 4) (mem : Dma) (fault : Bool) (s : State), responds s 0x30000 = true →
    ∀ c ∈ ([.profileWrite src slot mem, .profileErase src slot fault, .setNext src slot, .clearNext src, .selectWarm src slot] :
        List Instr),
      (trlAllowed s (profSrc src) = false → exec c s = .next (trlRefuse (profSrc src) 2 s)) ∧
      (trlAllowed s (profSrc src) = true → s.store.running.isSome = true → exec c s = .next (trlRefuse (profSrc src) 1 s))) ∧
  (∀ (src : ProfileSource) (slot : Fin 4) (s : State), responds s 0x30000 = true → trlAllowed s (profSrc src) = true →
    s.store.running = none →
    let p := profSrc src
    (slotInForce s slot = true → (∀ mem, exec (.profileWrite src slot mem) s = .next (trlDone p 0x0F s)) ∧
      ∀ b, exec (.profileErase src slot b) s = .next (trlDone p 0x0F s)) ∧
    (slotInForce s slot = false → exec (.profileWrite src slot .fault) s = .next (trlDone p 0x13 s) ∧
      exec (.profileErase src slot true) s = .next (trlDone p 0x11 s) ∧
      exec (.profileErase src slot false) s = .next (trlDone p 0 { s with store := { s.store with slots := mdel s.store.slots slot } }) ∧
      ∀ bs,
        let b := if p = 2 then bs else bs.take (regGet s 0 0x30010)
        exec (.profileWrite src slot (.data bs)) s = .next (if trlCheck s b ≠ 0 then trlDone p (trlCheck s b) s else
          trlBusy p { s with store := { s.store with slots := mdel s.store.slots slot
                                                     running := some { source := p, op := 1, slot := slot, image := b, since := s.time } } })) ∧
    exec (.setNext src slot) s = .next (trlDone p 0 { s with store := { s.store with nextSet := true, nextSlot := slot } }) ∧
    exec (.clearNext src) s = .next (trlDone p 0 { s with store := { s.store with nextSet := false } }) ∧
    (∀ c : ProfileCmd,
      (s.store.waiting = none ∧ c = { source := p, op := 3, slot := slot, since := s.time, joined := [p] } ∨
        ∃ w, s.store.waiting = some w ∧ w.slot = slot ∧ c = { w with joined := w.joined.filter (· ≠ p) ++ [p] }) →
      ((∀ q ∈ consentPorts s, q ∈ c.joined) → exec (.selectWarm src slot) s = .next (c.joined.foldl (fun s p => trlBusy p s) { s with
        hub := { s.hub with quiesce := true }
        store := { s.store with waiting := none, running := some { c with since := s.time, quiescing := true } } })) ∧
      ((∃ q ∈ consentPorts s, q ∉ c.joined) → ∃ t, exec (.selectWarm src slot) s = .next t ∧
        t.store = { s.store with waiting := some c } ∧ { t with store := s.store, regs := s.regs } = s)) ∧
    (∀ w, s.store.waiting = some w → w.slot ≠ slot → exec (.selectWarm src slot) s = exec (.selectWarm src slot)
      (w.joined.foldl (fun s p => trlDone p 0x10 s) { s with store := { s.store with waiting := none } }))) ∧
  (∀ (c : ProfileCmd) (fault : Bool) (s : State), s.store.running = some c → c.op = 1 →
    exec (.profileWriteCommit fault) s = .next (trlDone c.source (if fault then 0x11 else 0) { s with store := { s.store with
      running := none, slots := if fault then s.store.slots else mput s.store.slots c.slot ⟨c.image, true⟩ } })) ∧
  (∀ (c : ProfileCmd) (s : State), s.store.waiting = some c → c.since + 1000000000 ≤ s.time →
    exec .consentTimeout s = .next (c.joined.foldl (fun s p => trlDone p 0x10 s) { s with store := { s.store with waiting := none } })) ∧
  (∀ (c : ProfileCmd) (s : State), s.store.running = some c → c.quiescing = true →
    ((mget? s.store.slots c.slot).filter (fun x => x.valid) = none → exec .selectWarmApply s = .next (warmEnd c 3 s)) ∧
    (∀ x, mget? s.store.slots c.slot = some x → x.valid = true →
      let code := warmCheck s x.image
      (code = 0xC → s.time < c.since + 100000000 → exec .selectWarmApply s = .next s) ∧
      ((code ≠ 0xC ∨ c.since + 100000000 ≤ s.time) → exec .selectWarmApply s = .next (warmEnd c code (if code = 0 then
        applyImage c.slot x.image 3 s.trellis.isNone s else s))))) ∧
  (∀ (port : Port) (op : Nat) (s : State), responds s 0x30000 = true → (op = 0 ∨ 5 < op) →
    exec (.trlCmdBadOp port op) s = .next (trlRefuse port.idx 0x12 s))

/-- Module reset and start (R400, R419, R470 to R473, R481). Every condition joins those that hold and holds the module in reset,
keeping device time and GH_TRIP; the always-on rail's coming up starts device time at 0; 1 ms later the module is released, the
test access port back in its reset state and the PROFILE_SEL level taken; then the PLL locks, and a port whose PERST is high may
train 1 ms later; and when far training ends the first slot in order whose image passes is applied, those before it that fail
are recorded, and with none no image is. While the module is held in reset with its rails valid, each boundary-scan instruction
is taken and its bits leave TDO. -/
def Obligations.ModuleResetAndStart : Prop :=
  (∀ (cause : ResetCause) (s : State), ∃ t, exec (.moduleResetEntry cause) s = .next t ∧ t.hub.inReset = true ∧
    cause ∈ t.hub.causes ∧ (∀ c ∈ s.hub.causes, c ∈ t.hub.causes) ∧ t.time = s.time ∧ regGet t 0 0x10048 = regGet s 0 0x10048 % 2 ^ 32 ∧
    regGet t 0 0x20030 = regGet s 0 0x20030 % 2 ^ 32 ∧ t.sessions = [] ∧ t.hostMem = s.hostMem ∧ t.store.slots = s.store.slots) ∧
  (∀ s : State, ∃ t, exec .aonPowerUp s = .next t ∧ t.time = 0 ∧ t.hub.inReset = true ∧ t.hub.causes = [.aonSupply] ∧
    t.store.slots = s.store.slots) ∧
  (∀ s : State, s.hub.inReset = true → s.hub.resetAt + 1000000 ≤ s.time →
    (ResetCause.trip ∈ s.hub.causes → allCool s = true) → exec .moduleResetRelease s =
      .next { s with hub := { releasedAt := s.time, idleSince := s.time, pinsTaken := (pinAt s 2).accepted }
                     gate := { s.gate with thermtrip := false }, tap := {} }) ∧
  (∀ s : State, s.hub.inReset = false → exec .hubPllLock s = .next { s with hub := { s.hub with pll := true } }) ∧
  (∀ (port : Port) (s : State), s.hub.inReset = false → pinActs s port.idx = false →
    max s.hub.releasedAt ((pinAt s port.idx).changedAt.getD 0) + 1000000 ≤ s.time →
    exec (.portTrainEnable port) s =
      .next { s with hub := if port.idx = 0 then { s.hub with ableA := true } else { s.hub with ableB := true } }) ∧
  (∀ (sites density rate : Nat) (s : State), s.hub.firmware = true → s.hub.inReset = false → s.farCal.start = none →
    let t : State := { s with farCal := { s.farCal with start := some s.time, found := (sites, density, rate) }
                              store := { s.store with nextSet := false } }
    let first := if s.store.nextSet then s.store.nextSlot else s.hub.pinsTaken
    let order := first :: ([0, 1, 2, 3] : List Nat).filter (· ≠ first)
    let held (n : Nat) : Option (List Byte) := ((mget? s.store.slots n).filter (fun x => x.valid)).map (fun x => x.image)
    let logged (ns : List Nat) : State := ns.foldl (fun t n => match held n with
      | none => t
      | some b => raiseErr { source := srcId 0xB 0, cls := 3, code := 0x33, detail := n + 256 * applyCheck t b } t) t
    (∀ pre n post b, order = pre ++ n :: post → (∀ k ∈ pre, ∀ x, held k = some x → applyCheck t x ≠ 0) → held n = some b →
      applyCheck t b = 0 → exec (.farTrainingDone sites density rate) s =
        .next (applyImage n b (if n = first then b2n s.store.nextSet else 2) true (logged pre))) ∧
    ((∀ k ∈ order, ∀ x, held k = some x → applyCheck t x ≠ 0) →
      exec (.farTrainingDone sites density rate) s = .next (logged order))) ∧
  (∀ s : State, tapWorks s = true →
    exec .tapIdcode s = .next { s with tap := ⟨.idcode, s.tap.cells⟩, reply := .bits idcode } ∧
    (∀ x ∈ ([(.bypass, .tapBypass), (.clamp, .tapClamp), (.highz, .tapHighz)] : List (TapIns × (List Bool → Instr))),
      ∀ tdi, exec (x.2 tdi) s = .next { s with tap := ⟨x.1, s.tap.cells⟩, reply := .bits (scanOut (false :: tdi)) }) ∧
    (∀ x ∈ ([(.samplePreload, .tapSamplePreload), (.extest, .tapExtest), (.extestPulse, .tapExtestPulse),
        (.extestTrain, .tapExtestTrain)] : List (TapIns × (List Bool → List Bool → Instr))),
      ∀ pins data, exec (x.2 pins data) s = .next { s with tap := ⟨x.1, data⟩, reply := .bits (scanOut pins) }))

/-- Bay power (R407 to R412). An idle bay dozes after DOZE_IDLE and rests after REST_IDLE unless a pre-wake is near; 5 µs after the
entry began its cores' contents are lost; a bay that a frame to start or its own work needs is woken; a wake is complete 0.5 µs
from doze and 20 µs from rest after it began; bays at rest begin to wake at most ten in any 2 µs; a port's request switches an
unused bay off, or is refused with its notice; and the last request withdrawn brings the bay back, its near tier written with
zeros. -/
def Obligations.BayPowerStates : Prop :=
  (∀ (bay : Fin 20) (s : State), (bayAt s bay).power = .run → (bayAt s bay).fenced = false → bayBusy s bay = false →
    (bayAt s bay).idleSince + 40 * bayCtrl s bay 0 7 ≤ s.time →
    exec (.dozeEntry bay) s = .next (onBay bay (fun x => { x with power := .doze, idleSince := s.time }) s)) ∧
  (∀ (bay : Fin 20) (s : State), (bayAt s bay).power = .doze → (bayAt s bay).wake = none → bayBusy s bay = false →
    prewakeSoon s bay = false → (bayAt s bay).idleSince + 1000 * bayCtrl s bay 20 31 ≤ s.time →
    exec (.restEntry bay) s = .next (onBay bay (fun x => { x with power := .resting s.time, idleSince := s.time }) s)) ∧
  (∀ (bay : Fin 20) (t : Nat) (s : State), (bayAt s bay).power = .resting t → t + 5000 ≤ s.time →
    exec (.restEntryDone bay) s =
      .next (beginWakes (loseCores bay (onBay bay (fun x => { x with power := .rest, idleSince := s.time }) s)))) ∧
  (∀ s : State, ∃ t, exec .wakeDecision s = .next t ∧ t.hub.wake = (s.hub.quiet && hubCalled s) ∧
    ∀ b < 20, (b ∈ frameBays s ∨ bayBusy s b = true) → bayUsed s b = true → (bayAt s b).fenced = false →
      ((bayAt s b).power = .doze → (bayAt t b).power = .waking s.time false false) ∧
      ((bayAt s b).power = .rest → ((bayAt t b).power = .rest ∧ (bayAt t b).wake = some true) ∨
        (bayAt t b).power = .waking s.time true false)) ∧
  (∀ s : State, exec .bayWakeStart s = .next (beginWakes s) ∧
    (s.gate.wakes.filter (fun t => decide (s.time < t + 2000))).length ≤ 10 → (beginWakes s).gate.wakes.length ≤ 10) ∧
  (∀ (bay : Fin 20) (t : Nat) (cold toDoze : Bool) (passes : List LinePass) (s : State),
    (bayAt s bay).power = .waking t cold toDoze → t + (if cold then 20000 else 500) ≤ s.time →
    let t := onBay bay (fun x => { x with wake := none, idleSince := s.time
                                          power := if toDoze = true ∧ x.wake ≠ some true then .doze else .run }) s
    exec (.bayRunReady bay passes) s = .next (if cold then
      deskewPass bay 64 false passes (onBay bay (fun x => { x with refreshAt := 9 * s.time }) t) else t)) ∧
  (∀ (port : Port) (bay : Fin 20) (s : State), responds s 0x10028 = true → bitOf (regGet s port.idx 0x10028) bay = false →
    (offAllowed s port.idx bay = false → exec (.bayOffRequest port bay) s = .next (ghNotice port.idx 32 s)) ∧
    (offAllowed s port.idx bay = true → exec (.bayOffRequest port bay) s = .next (clearNear bay (loseCores bay
      (onBay bay (fun x => { x with power := .off, wake := none, transom := [], bond := [], offPort := port.idx })
        (regOr port.idx 0x10028 (2 ^ bay.val) s)))))) ∧
  (∀ (port : Port) (bay : Fin 20) (s : State), responds s 0x10028 = true → bitOf (regGet s port.idx 0x10028) bay = true →
    (bayAt s bay).power = .off →
    let t := regClear port.idx 0x10028 (2 ^ bay.val) s
    (bitOf (regGet t (1 - port.idx) 0x10028) bay = true → exec (.bayOffRelease port bay) s = .next t) ∧
    (bitOf (regGet t (1 - port.idx) 0x10028) bay = false → exec (.bayOffRelease port bay) s =
      .next (beginReturns (onBay bay (fun x => { x with wake := some true, offPort := port.idx }) t)))) ∧
  (∀ (bay : Fin 20) (passes : List LinePass) (t : Nat) (s : State), (bayAt s bay).power = .returning t →
    let u := clearNear bay (onBay bay (fun x => { x with power := if bayUsed s bay then .run else .rest, idleSince := s.time }) s)
    let v := deskewPass bay 64 false passes (onBay bay (fun x => { x with refreshAt := 9 * s.time, owed := 0, wake := none }) u)
    exec (.bayOffDone bay passes) s = .next (beginReturns (ghNotice (bayAt v bay).offPort 64 v)))

/-- The gatehouse's events complete (R352, R410, R411, R416, R418 to R424): an idle hub goes quiet after HUB_QUIET with every bay at
rest or off, and returns when called; a change of the effective cap is noticed on both ports, and it is never above the image's
envelope; at a multiple of 100 µs every sensor is read, and one that enters its TRIP level puts the module in reset with
THERMTRIP_N and GH_TRIP set; an accepted pin level is acted on when 1 ms has passed since the last change, or held or counted; a
pin stuck past its limit is noticed, recorded and treated as inactive; an armed wake timer fires at its deadline and wakes its
bays to doze ahead of it; and GH_NOTICE, GH_NOTICE_EN and GH_FIRED take their writes. Management over PLDM and the power reading
(R330, R416, R422, R425, R445). A sensor answers its reading, 1 the coarsened power or under MGMT_RAW the raw one, an unknown
one that it is not supported; effecter 100 sets the management cap, 101 the PWRCAP_N cap and 102 to 106 a pin row's stuck limit;
the log is read newest first; and the end of a power window stores the coarsened mean with the window's number for both ports.
-/
def Obligations.GatehouseAndManagement : Prop :=
  ((∀ s : State, s.hub.quiet = false → hubServes s = true → hubBusy s = false →
      ((List.range 20).all (fun b => (bayAt s b).power = .rest || (bayAt s b).power = .off)) = true →
      s.hub.idleSince + hubQuietNs s ≤ s.time →
      exec .hubQuietEntry s = .next { s with hub := { s.hub with quiet := true, wake := false } }) ∧
    (∀ s : State, s.hub.quiet = true → hubCalled s = true →
      exec .hubReturn s = .next { s with hub := { s.hub with quiet := false, wake := false, idleSince := s.time } }) ∧
    (∀ (t : Trellis) (s : State), s.trellis = some t → effectiveCap s t ≤ t.envelope ∧
      (effectiveCap s t ≠ s.gate.effective → exec .effectiveCapChange s =
        .next (ghNoticeBoth 8 { s with gate := { s.gate with effective := effectiveCap s t } }))) ∧
    (∀ (rs : List (Nat × Nat)) (s : State), s.time % 100000 = 0 → s.gate.readAt ≠ some s.time →
      let val (id : Nat) : Nat := ((rs.find? (fun r => r.1 = id)).map (·.2)).getD (mgetD s.gate.sensors id {}).reading
      let t := sensorIds.foldl (fun t id => readSensor id (val id) t) { s with gate := { s.gate with readAt := some s.time } }
      ((∀ id ∈ sensorIds, sensorAt s id 4 = false → sensorAt t id 4 = false) → exec (.sensorReading rs) s = .next t) ∧
      (∀ id ∈ sensorIds, sensorAt s id 4 = false → sensorAt t id 4 = true →
        ∃ u, exec (.sensorReading rs) s = .next u ∧ u.hub.inReset = true ∧ ResetCause.trip ∈ u.hub.causes ∧
          u.gate.thermtrip = true ∧ bitOf (regGet u 0 0x10048) 31 = true)) ∧
    (∀ (pin : PinId) (level : Fin 4) (s : State),
      let n := pinIdx pin
      let x := pinAt s n
      let v := if n = 2 then level.val else level.val % 2
      let t := setPin n { x with accepted := v, stuck := x.stuck && v = 0 } s
      v ≠ x.accepted →
      (v = x.acted → exec (.pinLevelAccepted pin level) s = .next (regAdd 0 0x10044 1 t)) ∧
      (v ≠ x.acted → pinFree t x = true → exec (.pinLevelAccepted pin level) s = .next (pinAct n t)) ∧
      (v ≠ x.acted → pinFree t x = false → pinHeld n = true → exec (.pinLevelAccepted pin level) s = .next t) ∧
      (v ≠ x.acted → pinFree t x = false → pinHeld n = false →
        exec (.pinLevelAccepted pin level) s = .next (pinAct n (regAdd 0 0x10044 1 t)))) ∧
    (∀ (pin : PinId) (s : State), pinHeld (pinIdx pin) = true → (pinAt s (pinIdx pin)).accepted ≠ (pinAt s (pinIdx pin)).acted →
      pinFree s (pinAt s (pinIdx pin)) = true → exec (.fastToggleHoldExpiry pin) s = .next (pinAct (pinIdx pin) s)) ∧
    (∀ (pin : PinId) (s : State),
      let n := pinIdx pin
      let x := pinAt s n
      n ≠ 2 → mgetD s.gate.limits n 0 ≠ 0 → x.acted = 0 → x.stuck = false →
      x.changedAt.getD 0 + mgetD s.gate.limits n 0 * 1000000000 < s.time →
      exec (.pinStuck pin) s = .next (raiseErr { source := srcId 0xA 0, cls := 5, code := 0x30, unit := n }
        (ghNoticeBoth 16 (setPin n { x with stuck := true } s)))) ∧
    (∀ (port : Port) (timer : Fin 256) (s : State), bitOf (timerCtrl s port.idx timer) 31 = true →
      timerDeadline s port.idx timer ≤ s.time →
      let t := regOr port.idx (0x10100 + 4 * (timer.val / 32)) (2 ^ (timer.val % 32))
        (regClear port.idx (0x11008 + 16 * timer.val) (2 ^ 31) s)
      exec (.wakeTimerFire port timer) s =
        .next (ghNotice port.idx 1 { t with hub := { t.hub with wake := s.hub.wake || s.hub.quiet } })) ∧
    (∀ (port : Port) (timer : Fin 256) (t : Nat) (bays : List Nat) (s : State), timerPrewake s port.idx timer = some (t, bays) →
      t ≤ s.time → s.time ≤ timerDeadline s port.idx timer →
      exec (.wakeTimerPrewake port timer) s = .next (beginWakes (bays.foldl (fun s b => wakeBay false b s) s))) ∧
    (∀ (port : Port) (v : Word) (s : State), responds s 0x10030 = true →
      exec (.ghNoticeClear port v) s = .next (regClear port.idx 0x10030 (v.toNat % 128) s)) ∧
    (∀ (port : Port) (v : Word) (s : State), responds s 0x10034 = true →
      let new := v.toNat % 128
      let old := regGet s port.idx 0x10034
      let t := regSet port.idx 0x10034 new s
      ((new - (new &&& old)) &&& regGet s port.idx 0x10030 = 0 → exec (.ghNoticeEnWrite port v) s = .next t) ∧
      ((new - (new &&& old)) &&& regGet s port.idx 0x10030 ≠ 0 → exec (.ghNoticeEnWrite port v) s = .next (noticeIrq port.idx t))) ∧
    (∀ (port : Port) (word : Fin 8) (v : Word) (s : State), responds s 0x10100 = true →
      exec (.ghFiredClear port word v) s = .next (regClear port.idx (0x10100 + 4 * word) v.toNat s))) ∧
  ((∀ (ident measured : Nat) (s : State),
      let word (v : Nat) : Host.Outcome State Fault Refusal := .next { s with reply := .word (BitVec.ofNat 32 v) }
      (ident = 1 → (∀ t, s.trellis = some t → t.mgmtRaw = true → exec (.pldmSensorRead ident measured) s = word measured) ∧
        ((∀ t, s.trellis = some t → t.mgmtRaw = false) → exec (.pldmSensorRead ident measured) s = word s.gate.coarse)) ∧
      (ident = 2 → exec (.pldmSensorRead ident measured) s = word measured) ∧
      (ident ∈ sensorIds → exec (.pldmSensorRead ident measured) s = word (mgetD s.gate.sensors ident {}).reading) ∧
      (ident = 60 → exec (.pldmSensorRead ident measured) s = word (regGet s 0 0x10048)) ∧
      (60 < ident → exec (.pldmSensorRead ident measured) s = .next { s with reply := .unsupported })) ∧
    (∀ (v : Nat) (s : State), exec (.pldmEffecterSet 100 v) s = .next { s with gate := { s.gate with mgmtCap := v } } ∧
      exec (.pldmEffecterSet 101 v) s = .next { s with gate := { s.gate with pwrCap := v } } ∧
      exec (.pldmEffecterSet 102 v) s = .next { s with gate := { s.gate with limits := mput (mput s.gate.limits 0 v) 1 v } } ∧
      (∀ n, 103 ≤ n → n ≤ 106 →
        exec (.pldmEffecterSet n v) s = .next { s with gate := { s.gate with limits := mput s.gate.limits (n - 101) v } }) ∧
      (∀ n, 106 < n → exec (.pldmEffecterSet n v) s = .next { s with reply := .unsupported })) ∧
    (∀ s : State, exec (.pldmErrorLogRead false) s = .next { s with reply := .bytes (s.modLog.map ErrRec.bytes).flatten } ∧
      exec (.pldmErrorLogRead true) s = .next { s with reply := .bytes (s.store.repairs.map (natLe 8)).flatten }) ∧
    (∀ (watts : Nat) (t : Trellis) (s : State), s.trellis = some t → s.gate.window < s.time / (max 1 t.windowMs * 1000000) →
      let now := s.time / (max 1 t.windowMs * 1000000)
      let w := watts / 2 ^ t.kp * 2 ^ t.kp
      ∃ u, exec (.powerWindowEnd watts) s = .next u ∧ u.gate = { s.gate with window := now, coarse := w } ∧
        (∀ p < 2, regGet u p 0x10014 = ((now - 1) % 65536 * 65536 + w % 8192) % 2 ^ 32 ∧ regGet u p 0x10018 = ghTemp s p % 2 ^ 32) ∧
        { u with regs := s.regs, gate := s.gate } = s))

/-! ### The whole block -/

/-- What reset leaves: the clocks at 0 (R406), nothing waiting, every register of the map at the reset value of R490, and the near
tier empty (R471). That reset is the release of the module, with every field the spec gives no value at 0, is the model's choice
(logs 4 and 7). -/
def Obligations.ResetLeavesItsValues : Prop :=
  State.reset.time = 0 ∧ State.reset.pending = [] ∧ State.reset.near = [] ∧ State.reset.sessions = [] ∧
    State.reset.trellis = none ∧ State.reset.hub.firmware = false ∧
    (∀ (p off : Nat) (row : RegRow), regRow off = some row → regGet State.reset p off = row.reset) ∧
    (∀ p < 2, regGet State.reset p 0x0 = 0x5320B000 ∧ regGet State.reset p 0x10008 = 0x1F43E832 ∧
      regGet State.reset p 0x50000 = 0x00320014 ∧ regGet State.reset p 0x70008 = 0xE10 ∧ regGet State.reset p 0xB0000 = 0x02710001)

/-- The invariant holds at reset. -/
def Obligations.SoundAtReset : Prop := Sound State.reset

/-- Every step keeps the invariant (R312, R405, R406): HCLK runs at one and a half cycles to each nanosecond of device time, device
time advances in whole ACLK cycles, host memory and the near tier keep their canonical form, and the next signing index lies in
the block of 64 that the counter B reserved last. -/
def Obligations.EveryStepKeepsItSound : Prop := ∀ s t : State, Sound s → step s = .next t → Sound t

/-- Device time never moves back while the always-on rail stays up (R406): no command moves it or the queue, but AON_POWER_UP, which
starts it at 0, and a step moves it forward by one ACLK cycle at most, with a command waiting not at all. -/
def Obligations.DeviceTimeNeverMovesBack : Prop :=
  (∀ (c : Instr) (s t : State), c ≠ .aonPowerUp → exec c s = .next t →
    t.time = s.time ∧ t.hclk = s.hclk ∧ t.pending = s.pending) ∧
  (∀ s t : State, s.pending.head? ≠ some .aonPowerUp → (∀ h ∈ s.held, h.cmd ≠ .aonPowerUp) → step s = .next t →
    s.time ≤ t.time ∧ t.time ≤ s.time + 40 ∧ (s.pending ≠ [] → t.time = s.time))

/-- What is fused never falls and no signing index is used twice (R310, R312): in every step the security floor, the boot counter,
the block counter B and the foundation floor stay or rise, and so does the next index of the identity key, which no step returns
to; a report takes that index and leaves the next one above it, across every reset too. -/
def Obligations.FusedCountersNeverFall : Prop :=
  (∀ s t : State, InBlock s.sec → step s = .next t →
    s.sec.floor ≤ t.sec.floor ∧ s.sec.boots ≤ t.sec.boots ∧ s.sec.block ≤ t.sec.block ∧ s.store.floor ≤ t.store.floor ∧
      s.sec.next ≤ t.sec.next ∧ InBlock t.sec) ∧
  (∀ (q : AttestReq) (qs : List AttestReq) (s : State), s.sec.queue = q :: qs → s.sec.faulted = false → xmssSpent s.sec = false →
    InBlock s.sec → ∃ t, exec (.attestSigned true) s = .next t ∧ t.sec.next = s.sec.next + 1 ∧
      64 * (t.sec.block - 1) ≤ s.sec.next ∧ s.sec.next < 64 * t.sec.block)
end

