-- ==== Sys2Proof/Laws/Data.lean ====
section
/-! SUPPORT. Laws of the sparse maps and of the byte memories: what is read after a write, and that every operation keeps the
canonical form. -/

namespace Sys2Proof.Machine

variable {α : Type}

@[simp] theorem mget_mput_self (m : NMap α) (x : Nat) (w : α) : mget? (mput m x w) x = some w := by
  induction m with
  | nil => simp [mput, mget?]
  | cons c m ih =>
    obtain ⟨k, v⟩ := c
    simp only [mput]
    split
    · simp [mget?]
    · split
      · simp [mget?]
      · simp_all [mget?]

@[simp] theorem mget_mput_ne (m : NMap α) (x y : Nat) (w : α) (h : y ≠ x) : mget? (mput m x w) y = mget? m y := by
  induction m with
  | nil => simp [mput, mget?, h]
  | cons c m ih =>
    obtain ⟨k, v⟩ := c
    simp only [mput]
    split
    · simp [mget?, h]
    · split
      · rename_i h1 h2
        subst h2
        simp [mget?, h]
      · simp [mget?, ih]

theorem mget_mput (m : NMap α) (x y : Nat) (w : α) :
    mget? (mput m x w) y = if y = x then some w else mget? m y := by
  by_cases h : y = x
  · subst h; simp
  · simp [h]

@[simp] theorem mgetD_mput_self (m : NMap α) (x : Nat) (w d : α) : mgetD (mput m x w) x d = w := by simp [mgetD]

@[simp] theorem mgetD_mput_ne (m : NMap α) (x y : Nat) (w d : α) (h : y ≠ x) : mgetD (mput m x w) y d = mgetD m y d := by
  simp [mgetD, h]

@[simp] theorem mget_mdel_ne (m : NMap α) (x y : Nat) (h : y ≠ x) : mget? (mdel m x) y = mget? m y := by
  induction m with
  | nil => rfl
  | cons c m ih =>
    obtain ⟨k, v⟩ := c
    simp only [mdel]
    split
    · rename_i h2; subst h2; simp [mget?, h]
    · simp [mget?, ih]

theorem mapWfFrom_cons (lo : Option Nat) (k : Nat) (v : α) (m : NMap α) :
    mapWfFrom lo ((k, v) :: m) = true ↔ (∀ b, lo = some b → b < k) ∧ mapWfFrom (some k) m = true := by
  cases lo <;> simp [mapWfFrom]

/-- A well-formed map above a bound holds nothing at or below it. -/
theorem mget_below {m : NMap α} {b x : Nat} (h : mapWfFrom (some b) m = true) (hx : x ≤ b) : mget? m x = none := by
  induction m generalizing b with
  | nil => rfl
  | cons c m ih =>
    obtain ⟨k, v⟩ := c
    rw [mapWfFrom_cons] at h
    have := h.1 b rfl
    have hne : x ≠ k := by omega
    simp only [mget?, hne, if_false]
    exact ih h.2 (by omega)

theorem mapWfFrom_weaken {m : NMap α} {b : Nat} {lo : Option Nat} (h : mapWfFrom (some b) m = true)
    (hl : ∀ c, lo = some c → c ≤ b) : mapWfFrom lo m = true := by
  cases m with
  | nil => rfl
  | cons c m =>
    obtain ⟨k, v⟩ := c
    rw [mapWfFrom_cons] at h ⊢
    exact ⟨fun c hc => Nat.lt_of_le_of_lt (hl c hc) (h.1 b rfl), h.2⟩

theorem mapWfFrom_mput {m : NMap α} {lo : Option Nat} (x : Nat) (w : α) (h : mapWfFrom lo m = true)
    (hx : ∀ b, lo = some b → b < x) : mapWfFrom lo (mput m x w) = true := by
  induction m generalizing lo with
  | nil => simp only [mput]; rw [mapWfFrom_cons]; exact ⟨hx, rfl⟩
  | cons c m ih =>
    obtain ⟨k, v⟩ := c
    rw [mapWfFrom_cons] at h
    simp only [mput]
    split
    · rename_i hlt
      rw [mapWfFrom_cons, mapWfFrom_cons]
      exact ⟨hx, fun b hb => by cases hb; exact hlt, h.2⟩
    · split
      · rename_i he
        subst he
        rw [mapWfFrom_cons]
        exact h
      · rename_i h1 h2
        rw [mapWfFrom_cons]
        exact ⟨h.1, ih h.2 (fun b hb => by cases hb; omega)⟩

/-- Putting a value keeps a map's canonical form. -/
theorem mapWf_mput {m : NMap α} (x : Nat) (w : α) (h : mapWf m = true) : mapWf (mput m x w) = true :=
  mapWfFrom_mput x w h (by simp)

theorem mapWfFrom_mdel {m : NMap α} {lo : Option Nat} (x : Nat) (h : mapWfFrom lo m = true) :
    mapWfFrom lo (mdel m x) = true := by
  induction m generalizing lo with
  | nil => rfl
  | cons c m ih =>
    obtain ⟨k, v⟩ := c
    rw [mapWfFrom_cons] at h
    simp only [mdel]
    split
    · exact mapWfFrom_weaken h.2 (fun c hc => Nat.le_of_lt (h.1 c hc))
    · rw [mapWfFrom_cons]
      exact ⟨h.1, ih h.2⟩

/-- Removing a key keeps a map's canonical form. -/
theorem mapWf_mdel {m : NMap α} (x : Nat) (h : mapWf m = true) : mapWf (mdel m x) = true := mapWfFrom_mdel x h

theorem mget_mdel_self_from {m : NMap α} {lo : Option Nat} (x : Nat) (h : mapWfFrom lo m = true) :
    mget? (mdel m x) x = none := by
  induction m generalizing lo with
  | nil => rfl
  | cons c m ih =>
    obtain ⟨k, v⟩ := c
    rw [mapWfFrom_cons] at h
    simp only [mdel]
    split
    · rename_i he; subst he; exact mget_below h.2 (Nat.le_refl _)
    · rename_i hne; simp only [mget?, hne, if_false]; exact ih h.2

/-- A key removed from a map in canonical form is not there. -/
theorem mget_mdel_self {m : NMap α} (x : Nat) (h : mapWf m = true) : mget? (mdel m x) x = none :=
  mget_mdel_self_from x h

/-! ### Memories -/

theorem all_mput {p : Nat × α → Bool} {m : NMap α} {x : Nat} {w : α} (h : m.all p = true) (hw : p (x, w) = true) :
    (mput m x w).all p = true := by
  induction m with
  | nil => simp [mput, hw]
  | cons c m ih =>
    obtain ⟨k, v⟩ := c
    simp only [List.all_cons, Bool.and_eq_true] at h
    simp only [mput]
    split
    · simp only [List.all_cons, Bool.and_eq_true]; exact ⟨hw, h.1, h.2⟩
    · split
      · simp only [List.all_cons, Bool.and_eq_true]; exact ⟨hw, h.2⟩
      · simp only [List.all_cons, Bool.and_eq_true]; exact ⟨h.1, ih h.2⟩

theorem all_mdel {p : Nat × α → Bool} {m : NMap α} (x : Nat) (h : m.all p = true) : (mdel m x).all p = true := by
  induction m with
  | nil => rfl
  | cons c m ih =>
    obtain ⟨k, v⟩ := c
    simp only [List.all_cons, Bool.and_eq_true] at h
    simp only [mdel]
    split
    · exact h.2
    · simp only [List.all_cons, Bool.and_eq_true]; exact ⟨h.1, ih h.2⟩

/-- A one-byte write keeps the canonical form. -/
theorem Memory.wf_memPut {m : Memory} (a : Nat) (b : Byte) (h : Memory.wf m = true) : Memory.wf (memPut m a b) = true := by
  simp only [Memory.wf, Bool.and_eq_true] at h
  simp only [memPut]
  split
  · simp only [Memory.wf, Bool.and_eq_true]
    exact ⟨mapWf_mdel a h.1, all_mdel a h.2⟩
  · rename_i hb
    simp only [Memory.wf, Bool.and_eq_true]
    exact ⟨mapWf_mput a b h.1, all_mput h.2 (by simpa using hb)⟩

/-- A write keeps the canonical form. -/
theorem Memory.wf_memWrite {m : Memory} (a : Nat) (bs : List Byte) (h : Memory.wf m = true) :
    Memory.wf (memWrite m a bs) = true := by
  induction bs generalizing m a with
  | nil => exact h
  | cons b bs ih => exact ih (a + 1) (Memory.wf_memPut a b h)

theorem mapWfFrom_filter {m : NMap α} {lo : Option Nat} (p : Nat × α → Bool) (h : mapWfFrom lo m = true) :
    mapWfFrom lo (m.filter p) = true := by
  induction m generalizing lo with
  | nil => rfl
  | cons c m ih =>
    obtain ⟨k, v⟩ := c
    rw [mapWfFrom_cons] at h
    simp only [List.filter]
    split
    · rw [mapWfFrom_cons]; exact ⟨h.1, ih h.2⟩
    · exact mapWfFrom_weaken (ih h.2) (fun c hc => Nat.le_of_lt (h.1 c hc))

/-- Clearing keeps the canonical form. -/
theorem Memory.wf_memClear {m : Memory} (a n : Nat) (h : Memory.wf m = true) : Memory.wf (memClear m a n) = true := by
  simp only [Memory.wf, Bool.and_eq_true] at h
  simp only [Memory.wf, Bool.and_eq_true, memClear]
  refine ⟨mapWfFrom_filter _ h.1, ?_⟩
  rw [List.all_eq_true] at h ⊢
  intro c hc
  exact h.2 c (List.mem_filter.mp hc).1

/-- A byte read back after it is written. -/
theorem memByte_memPut_self {m : Memory} (a : Nat) (b : Byte) (h : Memory.wf m = true) : memByte (memPut m a b) a = b := by
  simp only [Memory.wf, Bool.and_eq_true] at h
  simp only [memPut, memByte]
  split
  · rename_i hb; simp [mgetD, mget_mdel_self a h.1, hb]
  · simp

/-- A one-byte write leaves every other byte alone. -/
theorem memByte_memPut_ne (m : Memory) (a c : Nat) (b : Byte) (h : c ≠ a) : memByte (memPut m a b) c = memByte m c := by
  simp only [memPut, memByte]
  split <;> simp [mgetD, h]

/-- A write leaves the bytes outside it alone. -/
theorem memByte_memWrite_out (m : Memory) (a c : Nat) (bs : List Byte) (h : c < a ∨ a + bs.length ≤ c) :
    memByte (memWrite m a bs) c = memByte m c := by
  induction bs generalizing m a with
  | nil => rfl
  | cons b bs ih =>
    simp only [List.length_cons] at h
    simp only [memWrite]
    rw [ih (memPut m a b) (a + 1) (by omega), memByte_memPut_ne m a c b (by omega)]

/-- A written byte reads back. -/
theorem memByte_memWrite_in {m : Memory} (a i : Nat) (bs : List Byte) (h : Memory.wf m = true) (hi : i < bs.length) :
    memByte (memWrite m a bs) (a + i) = bs[i] := by
  induction bs generalizing m a i with
  | nil => simp at hi
  | cons b bs ih =>
    simp only [memWrite]
    cases i with
    | zero =>
      rw [Nat.add_zero, memByte_memWrite_out _ _ _ _ (by omega)]
      exact memByte_memPut_self a b h
    | succ i =>
      simp only [List.length_cons] at hi
      have := ih (a + 1) i (Memory.wf_memPut a b h) (by omega)
      rw [show a + 1 + i = a + (i + 1) by omega] at this
      simpa using this

end Sys2Proof.Machine
end

