-- ==== Sys2Proof/Laws/Dispatch.lean ====
section
/-! SUPPORT. exec on each command is its meaning, by rfl, so that no proof unfolds the dispatch over every command. -/

namespace Sys2Proof.Machine

@[simp] theorem exec_misalignedRegisterAccess (f : Fn) (off size : Nat) (write : Bool) (s : State) :
    exec (.misalignedRegisterAccess f off size write) s = execMisalignedRegisterAccess f off size write s := rfl

@[simp] theorem exec_lowHalfRead (f : Fn) (bar : Bar) (off : Nat) (s : State) :
    exec (.lowHalfRead f bar off) s = execLowHalfRead f bar off s := rfl

@[simp] theorem exec_lowHalfWrite (f : Fn) (bar : Bar) (off : Nat) (v : Word) (s : State) :
    exec (.lowHalfWrite f bar off v) s = execLowHalfWrite f bar off v s := rfl

@[simp] theorem exec_highHalfWrite (f : Fn) (bar : Bar) (off : Nat) (v : Word) (s : State) :
    exec (.highHalfWrite f bar off v) s = execHighHalfWrite f bar off v s := rfl

@[simp] theorem exec_registerWrite (f : Fn) (bar : Bar) (off : Nat) (v : Word) (s : State) :
    exec (.registerWrite f bar off v) s = execRegisterWrite f bar off v s := rfl

@[simp] theorem exec_undecodedAccess (f : Fn) (bar : Bar) (off : Nat) (write : Bool) (s : State) :
    exec (.undecodedAccess f bar off write) s = execUndecodedAccess f bar off write s := rfl

@[simp] theorem exec_vfBar0Write (f : Fn) (off size : Nat) (s : State) :
    exec (.vfBar0Write f off size) s = execVfBar0Write f off size s := rfl

@[simp] theorem exec_bayArithFlagsClear (f : Fn) (pbay : Fin 21) (v : Word) (s : State) :
    exec (.bayArithFlagsClear f pbay v) s = execBayArithFlagsClear f pbay v s := rfl

@[simp] theorem exec_mmaK4 (k : Fin 10240) (cyc : Nat) (acc : Fin 8) (col : Fin 32) (a scale : PAddr) (bFmt : BFmt)
    (b : PAddr) (ktA ktB : Fin 8) (z : Bool) (s : State) :
    exec (.mmaK4 k cyc acc col a scale bFmt b ktA ktB z) s = execMmaK4 k cyc acc col a scale bFmt b ktA ktB z s := rfl

@[simp] theorem exec_mmaK4s (k : Fin 10240) (cyc : Nat) (acc : Fin 8) (col : Fin 32) (a scale : PAddr) (bFmt : BFmt)
    (b : PAddr) (ktA ktB : Fin 8) (z : Bool) (s : State) :
    exec (.mmaK4s k cyc acc col a scale bFmt b ktA ktB z) s =
      execMmaK4s k cyc acc col a scale bFmt b ktA ktB z s := rfl

@[simp] theorem exec_mmaF8 (k : Fin 10240) (cyc : Nat) (acc : Fin 8) (col : Fin 32) (a b : PAddr) (aEnc bEnc : F8)
    (z : Bool) (s : State) :
    exec (.mmaF8 k cyc acc col a b aEnc bEnc z) s = execMmaF8 k cyc acc col a b aEnc bEnc z s := rfl

@[simp] theorem exec_mmaBf16 (k : Fin 10240) (cyc : Nat) (acc : Fin 8) (col : Fin 32) (a b : PAddr) (z : Bool)
    (s : State) :
    exec (.mmaBf16 k cyc acc col a b z) s = execMmaBf16 k cyc acc col a b z s := rfl

@[simp] theorem exec_accrd (k : Fin 10240) (cyc : Nat) (acc : Fin 8) (col : Fin 32) (vd : Fin 32) (fmt : Fmt)
    (nonsat : Bool) (s : State) :
    exec (.accrd k cyc acc col vd fmt nonsat) s = execAccrd k cyc acc col vd fmt nonsat s := rfl

@[simp] theorem exec_vadd (k : Fin 10240) (cyc : Nat) (vd va vb : Fin 32) (mask : Mask) (s : State) :
    exec (.vadd k cyc vd va vb mask) s = execVadd k cyc vd va vb mask s := rfl

@[simp] theorem exec_vsub (k : Fin 10240) (cyc : Nat) (vd va vb : Fin 32) (mask : Mask) (s : State) :
    exec (.vsub k cyc vd va vb mask) s = execVsub k cyc vd va vb mask s := rfl

@[simp] theorem exec_vmul (k : Fin 10240) (cyc : Nat) (vd va vb : Fin 32) (mask : Mask) (s : State) :
    exec (.vmul k cyc vd va vb mask) s = execVmul k cyc vd va vb mask s := rfl

@[simp] theorem exec_vfma (k : Fin 10240) (cyc : Nat) (vd va vb vc : Fin 32) (mask : Mask) (s : State) :
    exec (.vfma k cyc vd va vb vc mask) s = execVfma k cyc vd va vb vc mask s := rfl

@[simp] theorem exec_vmax (k : Fin 10240) (cyc : Nat) (vd va vb : Fin 32) (mask : Mask) (s : State) :
    exec (.vmax k cyc vd va vb mask) s = execVmax k cyc vd va vb mask s := rfl

@[simp] theorem exec_vmin (k : Fin 10240) (cyc : Nat) (vd va vb : Fin 32) (mask : Mask) (s : State) :
    exec (.vmin k cyc vd va vb mask) s = execVmin k cyc vd va vb mask s := rfl

@[simp] theorem exec_vabs (k : Fin 10240) (cyc : Nat) (vd va : Fin 32) (mask : Mask) (s : State) :
    exec (.vabs k cyc vd va mask) s = execVabs k cyc vd va mask s := rfl

@[simp] theorem exec_vcvt (k : Fin 10240) (cyc : Nat) (vd va : Fin 32) (src dst : Fmt) (nonsat : Bool) (kt : Fin 8)
    (s : State) :
    exec (.vcvt k cyc vd va src dst nonsat kt) s = execVcvt k cyc vd va src dst nonsat kt s := rfl

@[simp] theorem exec_vaddI16 (k : Fin 10240) (cyc : Nat) (vd va vb : Fin 32) (mask : Mask) (s : State) :
    exec (.vaddI16 k cyc vd va vb mask) s = execVaddI16 k cyc vd va vb mask s := rfl

@[simp] theorem exec_vsubI16 (k : Fin 10240) (cyc : Nat) (vd va vb : Fin 32) (mask : Mask) (s : State) :
    exec (.vsubI16 k cyc vd va vb mask) s = execVsubI16 k cyc vd va vb mask s := rfl

@[simp] theorem exec_vmulI16 (k : Fin 10240) (cyc : Nat) (vd va vb : Fin 32) (mask : Mask) (s : State) :
    exec (.vmulI16 k cyc vd va vb mask) s = execVmulI16 k cyc vd va vb mask s := rfl

@[simp] theorem exec_vmulhI16 (k : Fin 10240) (cyc : Nat) (vd va vb : Fin 32) (mask : Mask) (s : State) :
    exec (.vmulhI16 k cyc vd va vb mask) s = execVmulhI16 k cyc vd va vb mask s := rfl

@[simp] theorem exec_vmaddI16 (k : Fin 10240) (cyc : Nat) (vd va vb vc : Fin 32) (mask : Mask) (s : State) :
    exec (.vmaddI16 k cyc vd va vb vc mask) s = execVmaddI16 k cyc vd va vb vc mask s := rfl

@[simp] theorem exec_vshlI16 (k : Fin 10240) (cyc : Nat) (vd va vb : Fin 32) (mask : Mask) (s : State) :
    exec (.vshlI16 k cyc vd va vb mask) s = execVshlI16 k cyc vd va vb mask s := rfl

@[simp] theorem exec_vshrI16 (k : Fin 10240) (cyc : Nat) (vd va vb : Fin 32) (mask : Mask) (s : State) :
    exec (.vshrI16 k cyc vd va vb mask) s = execVshrI16 k cyc vd va vb mask s := rfl

@[simp] theorem exec_vaddI16W (k : Fin 10240) (cyc : Nat) (vd va vb : Fin 32) (mask : Mask) (s : State) :
    exec (.vaddI16W k cyc vd va vb mask) s = execVaddI16W k cyc vd va vb mask s := rfl

@[simp] theorem exec_vsubI16W (k : Fin 10240) (cyc : Nat) (vd va vb : Fin 32) (mask : Mask) (s : State) :
    exec (.vsubI16W k cyc vd va vb mask) s = execVsubI16W k cyc vd va vb mask s := rfl

@[simp] theorem exec_vmulI16W (k : Fin 10240) (cyc : Nat) (vd va vb : Fin 32) (mask : Mask) (s : State) :
    exec (.vmulI16W k cyc vd va vb mask) s = execVmulI16W k cyc vd va vb mask s := rfl

@[simp] theorem exec_vsumr (k : Fin 10240) (cyc : Nat) (rd : RedDest) (va : Fin 32) (s : State) :
    exec (.vsumr k cyc rd va) s = execVsumr k cyc rd va s := rfl

@[simp] theorem exec_vmaxr (k : Fin 10240) (cyc : Nat) (rd : RedDest) (va : Fin 32) (s : State) :
    exec (.vmaxr k cyc rd va) s = execVmaxr k cyc rd va s := rfl

@[simp] theorem exec_vexp2 (k : Fin 10240) (cyc : Nat) (vd va : Fin 32) (mask : Mask) (s : State) :
    exec (.vexp2 k cyc vd va mask) s = execVexp2 k cyc vd va mask s := rfl

@[simp] theorem exec_vexp (k : Fin 10240) (cyc : Nat) (vd va : Fin 32) (mask : Mask) (s : State) :
    exec (.vexp k cyc vd va mask) s = execVexp k cyc vd va mask s := rfl

@[simp] theorem exec_vexpsub (k : Fin 10240) (cyc : Nat) (vd va vm : Fin 32) (mask : Mask) (s : State) :
    exec (.vexpsub k cyc vd va vm mask) s = execVexpsub k cyc vd va vm mask s := rfl

@[simp] theorem exec_vrcp (k : Fin 10240) (cyc : Nat) (vd va : Fin 32) (mask : Mask) (s : State) :
    exec (.vrcp k cyc vd va mask) s = execVrcp k cyc vd va mask s := rfl

@[simp] theorem exec_vrsqrt (k : Fin 10240) (cyc : Nat) (vd va : Fin 32) (mask : Mask) (s : State) :
    exec (.vrsqrt k cyc vd va mask) s = execVrsqrt k cyc vd va mask s := rfl

@[simp] theorem exec_vsigm (k : Fin 10240) (cyc : Nat) (vd va : Fin 32) (mask : Mask) (s : State) :
    exec (.vsigm k cyc vd va mask) s = execVsigm k cyc vd va mask s := rfl

@[simp] theorem exec_vsilu (k : Fin 10240) (cyc : Nat) (vd va : Fin 32) (mask : Mask) (s : State) :
    exec (.vsilu k cyc vd va mask) s = execVsilu k cyc vd va mask s := rfl

@[simp] theorem exec_vtanh (k : Fin 10240) (cyc : Nat) (vd va : Fin 32) (mask : Mask) (s : State) :
    exec (.vtanh k cyc vd va mask) s = execVtanh k cyc vd va mask s := rfl

@[simp] theorem exec_verf (k : Fin 10240) (cyc : Nat) (vd va : Fin 32) (mask : Mask) (s : State) :
    exec (.verf k cyc vd va mask) s = execVerf k cyc vd va mask s := rfl

@[simp] theorem exec_scAdd (k : Fin 10240) (cyc : Nat) (sd sa : Fin 16) (sb : SOperand) (s : State) :
    exec (.scAdd k cyc sd sa sb) s = execScAdd k cyc sd sa sb s := rfl

@[simp] theorem exec_scSub (k : Fin 10240) (cyc : Nat) (sd sa : Fin 16) (sb : SOperand) (s : State) :
    exec (.scSub k cyc sd sa sb) s = execScSub k cyc sd sa sb s := rfl

@[simp] theorem exec_scMul (k : Fin 10240) (cyc : Nat) (sd sa : Fin 16) (sb : SOperand) (s : State) :
    exec (.scMul k cyc sd sa sb) s = execScMul k cyc sd sa sb s := rfl

@[simp] theorem exec_scShl (k : Fin 10240) (cyc : Nat) (sd sa : Fin 16) (sb : SOperand) (s : State) :
    exec (.scShl k cyc sd sa sb) s = execScShl k cyc sd sa sb s := rfl

@[simp] theorem exec_scShr (k : Fin 10240) (cyc : Nat) (sd sa : Fin 16) (sb : SOperand) (s : State) :
    exec (.scShr k cyc sd sa sb) s = execScShr k cyc sd sa sb s := rfl

@[simp] theorem exec_scSar (k : Fin 10240) (cyc : Nat) (sd sa : Fin 16) (sb : SOperand) (s : State) :
    exec (.scSar k cyc sd sa sb) s = execScSar k cyc sd sa sb s := rfl

@[simp] theorem exec_scAnd (k : Fin 10240) (cyc : Nat) (sd sa : Fin 16) (sb : SOperand) (s : State) :
    exec (.scAnd k cyc sd sa sb) s = execScAnd k cyc sd sa sb s := rfl

@[simp] theorem exec_scOr (k : Fin 10240) (cyc : Nat) (sd sa : Fin 16) (sb : SOperand) (s : State) :
    exec (.scOr k cyc sd sa sb) s = execScOr k cyc sd sa sb s := rfl

@[simp] theorem exec_scXor (k : Fin 10240) (cyc : Nat) (sd sa : Fin 16) (sb : SOperand) (s : State) :
    exec (.scXor k cyc sd sa sb) s = execScXor k cyc sd sa sb s := rfl

@[simp] theorem exec_scNot (k : Fin 10240) (cyc : Nat) (sd sa : Fin 16) (s : State) :
    exec (.scNot k cyc sd sa) s = execScNot k cyc sd sa s := rfl

@[simp] theorem exec_scCeq (k : Fin 10240) (cyc : Nat) (sd sa : Fin 16) (sb : SOperand) (s : State) :
    exec (.scCeq k cyc sd sa sb) s = execScCeq k cyc sd sa sb s := rfl

@[simp] theorem exec_scClt (k : Fin 10240) (cyc : Nat) (sd sa : Fin 16) (sb : SOperand) (s : State) :
    exec (.scClt k cyc sd sa sb) s = execScClt k cyc sd sa sb s := rfl

@[simp] theorem exec_scCltu (k : Fin 10240) (cyc : Nat) (sd sa : Fin 16) (sb : SOperand) (s : State) :
    exec (.scCltu k cyc sd sa sb) s = execScCltu k cyc sd sa sb s := rfl

@[simp] theorem exec_scMovi (k : Fin 10240) (cyc : Nat) (sd : Fin 16) (imm : Word) (s : State) :
    exec (.scMovi k cyc sd imm) s = execScMovi k cyc sd imm s := rfl

@[simp] theorem exec_scMov (k : Fin 10240) (cyc : Nat) (sd sa : Fin 16) (s : State) :
    exec (.scMov k cyc sd sa) s = execScMov k cyc sd sa s := rfl

@[simp] theorem exec_loop (k : Fin 10240) (cyc : Nat) (level : Fin 8) (trip last : Nat) (s : State) :
    exec (.loop k cyc level trip last) s = execLoop k cyc level trip last s := rfl

@[simp] theorem exec_vld (k : Fin 10240) (cyc : Nat) (v : Fin 32) (addr : PAddr) (bad : Option CoreMem) (s : State) :
    exec (.vld k cyc v addr bad) s = execVld k cyc v addr bad s := rfl

@[simp] theorem exec_vst (k : Fin 10240) (cyc : Nat) (v : Fin 32) (addr : PAddr) (s : State) :
    exec (.vst k cyc v addr) s = execVst k cyc v addr s := rfl

@[simp] theorem exec_tld (k : Fin 10240) (cyc : Nat) (kt : Fin 8) (addr : PAddr) (s : State) :
    exec (.tld k cyc kt addr) s = execTld k cyc kt addr s := rfl

@[simp] theorem exec_sld (k : Fin 10240) (cyc : Nat) (sr : Fin 16) (addr : PAddr) (s : State) :
    exec (.sld k cyc sr addr) s = execSld k cyc sr addr s := rfl

@[simp] theorem exec_sst (k : Fin 10240) (cyc : Nat) (sr : Fin 16) (addr : PAddr) (s : State) :
    exec (.sst k cyc sr addr) s = execSst k cyc sr addr s := rfl

@[simp] theorem exec_bld (k : Fin 10240) (cyc : Nat) (pane sliver : PAddr) (lines : Nat) (mode : Fin 8)
    (bad : List Nat) (s : State) :
    exec (.bld k cyc pane sliver lines mode bad) s = execBld k cyc pane sliver lines mode bad s := rfl

@[simp] theorem exec_bst (k : Fin 10240) (cyc : Nat) (pane sliver : PAddr) (lines : Nat) (mode : Fin 8)
    (tag : Option (Fin 1024)) (s : State) :
    exec (.bst k cyc pane sliver lines mode tag) s = execBst k cyc pane sliver lines mode tag s := rfl

@[simp] theorem exec_lsend (k : Fin 10240) (cyc : Nat) (pane : PAddr) (dst : Fin 512) (beats : Nat) (s : State) :
    exec (.lsend k cyc pane dst beats) s = execLsend k cyc pane dst beats s := rfl

@[simp] theorem exec_lrecv (k : Fin 10240) (cyc : Nat) (pane : PAddr) (beats : Nat) (s : State) :
    exec (.lrecv k cyc pane beats) s = execLrecv k cyc pane beats s := rfl

@[simp] theorem exec_colonnadeTransfer (cyc : Nat) (src : ColSource) (dsts : List PanePlace) (path : ColPath)
    (beats : Nat) (s : State) :
    exec (.colonnadeTransfer cyc src dsts path beats) s = execColonnadeTransfer cyc src dsts path beats s := rfl

@[simp] theorem exec_colonnadeBeatArrival (k : Fin 10240) (cyc : Nat) (s : State) :
    exec (.colonnadeBeatArrival k cyc) s = execColonnadeBeatArrival k cyc s := rfl

@[simp] theorem exec_frameStart (bay : Fin 20) (rates : List LeadRate) (s : State) :
    exec (.frameStart bay rates) s = execFrameStart bay rates s := rfl

@[simp] theorem exec_columnInputWrite (pav : Fin 80) (slot : Nat) (s : State) :
    exec (.columnInputWrite pav slot) s = execColumnInputWrite pav slot s := rfl

@[simp] theorem exec_maskWrite (pav : Fin 80) (slot : Nat) (s : State) :
    exec (.maskWrite pav slot) s = execMaskWrite pav slot s := rfl

@[simp] theorem exec_latchDecision (pav : Fin 80) (index : Nat) (s : State) :
    exec (.latchDecision pav index) s = execLatchDecision pav index s := rfl

@[simp] theorem exec_frameEnd (bay : Fin 20) (results : List SlotResult) (minima : List ScanResult) (s : State) :
    exec (.frameEnd bay results minima) s = execFrameEnd bay results minima s := rfl

@[simp] theorem exec_refreshSlot (bay : Fin 20) (start : Nat) (s : State) :
    exec (.refreshSlot bay start) s = execRefreshSlot bay start s := rfl

@[simp] theorem exec_deskewSlot (bay : Fin 20) (start : Nat) (passes : List LinePass) (s : State) :
    exec (.deskewSlot bay start passes) s = execDeskewSlot bay start passes s := rfl

@[simp] theorem exec_hubBondSlot (bay : Fin 20) (start : Nat) (s : State) :
    exec (.hubBondSlot bay start) s = execHubBondSlot bay start s := rfl

@[simp] theorem exec_transomWindowBeat (bay : Fin 20) (cport : Fin 2) (toBay : Bool) (cyc : Nat) (s : State) :
    exec (.transomWindowBeat bay cport toBay cyc) s = execTransomWindowBeat bay cport toBay cyc s := rfl

@[simp] theorem exec_betweenFrameHubTransfer (bay : Fin 20) (s : State) :
    exec (.betweenFrameHubTransfer bay) s = execBetweenFrameHubTransfer bay s := rfl

@[simp] theorem exec_bayIdleRefresh (bay : Fin 20) (passes : List LinePass) (s : State) :
    exec (.bayIdleRefresh bay passes) s = execBayIdleRefresh bay passes s := rfl

@[simp] theorem exec_refreshIntervalElapse (bay : Fin 20) (s : State) :
    exec (.refreshIntervalElapse bay) s = execRefreshIntervalElapse bay s := rfl

@[simp] theorem exec_holdRequest (bay : Fin 20) (cause : HoldCause) (cyc : Nat) (s : State) :
    exec (.holdRequest bay cause cyc) s = execHoldRequest bay cause cyc s := rfl

@[simp] theorem exec_holdFreeze (bay : Fin 20) (s : State) :
    exec (.holdFreeze bay) s = execHoldFreeze bay s := rfl

@[simp] theorem exec_holdEnd (bay : Fin 20) (passes : List LinePass) (s : State) :
    exec (.holdEnd bay passes) s = execHoldEnd bay passes s := rfl

@[simp] theorem exec_gatherExpiry (pav : Fin 80) (s : State) :
    exec (.gatherExpiry pav) s = execGatherExpiry pav s := rfl

@[simp] theorem exec_tagClearV (r : Req) (first count segment : Nat) (s : State) :
    exec (.tagClearV r first count segment) s = execTagClearV r first count segment s := rfl

@[simp] theorem exec_tagSetV (r : Req) (first count segment : Nat) (s : State) :
    exec (.tagSetV r first count segment) s = execTagSetV r first count segment s := rfl

@[simp] theorem exec_tagSetSegment (r : Req) (first count segment : Nat) (s : State) :
    exec (.tagSetSegment r first count segment) s = execTagSetSegment r first count segment s := rfl

@[simp] theorem exec_setMaskMode (r : Req) (first count segment : Nat) (s : State) :
    exec (.setMaskMode r first count segment) s = execSetMaskMode r first count segment s := rfl

@[simp] theorem exec_setCurrentSegment (r : Req) (first count segment : Nat) (s : State) :
    exec (.setCurrentSegment r first count segment) s = execSetCurrentSegment r first count segment s := rfl

@[simp] theorem exec_preemptionSwap (pav : Fin 80) (slot : Nat) (s : State) :
    exec (.preemptionSwap pav slot) s = execPreemptionSwap pav slot s := rfl

@[simp] theorem exec_streamLayerFetch (pav : Fin 80) (slot layer : Nat) (s : State) :
    exec (.streamLayerFetch pav slot layer) s = execStreamLayerFetch pav slot layer s := rfl

@[simp] theorem exec_tailUnitWriteBack (pav : Fin 80) (slot layer group : Nat) (s : State) :
    exec (.tailUnitWriteBack pav slot layer group) s = execTailUnitWriteBack pav slot layer group s := rfl

@[simp] theorem exec_park (r : Req) (target : Nat) (keep checkGen : Bool) (expectGen region codec : Nat) (s : State) :
    exec (.park r target keep checkGen expectGen region codec) s =
      execPark r target keep checkGen expectGen region codec s := rfl

@[simp] theorem exec_parkRelease (f : Fn) (session : DWord) (s : State) :
    exec (.parkRelease f session) s = execParkRelease f session s := rfl

@[simp] theorem exec_revive (r : Req) (early releaseLower checkGen : Bool) (expectGen : Nat) (s : State) :
    exec (.revive r early releaseLower checkGen expectGen) s =
      execRevive r early releaseLower checkGen expectGen s := rfl

@[simp] theorem exec_reviveComplete (f : Fn) (session : DWord) (s : State) :
    exec (.reviveComplete f session) s = execReviveComplete f session s := rfl

@[simp] theorem exec_migrate (r : Req) (dest : Nat) (checkGen : Bool)
    (expectGen pavilion celayPort kind peerNode fenceUs : Nat) (s : State) :
    exec (.migrate r dest checkGen expectGen pavilion celayPort kind peerNode fenceUs) s =
      execMigrate r dest checkGen expectGen pavilion celayPort kind peerNode fenceUs s := rfl

@[simp] theorem exec_migrationDrained (f : Fn) (session : DWord) (s : State) :
    exec (.migrationDrained f session) s = execMigrationDrained f session s := rfl

@[simp] theorem exec_migrationFenceTimeout (f : Fn) (session : DWord) (s : State) :
    exec (.migrationFenceTimeout f session) s = execMigrationFenceTimeout f session s := rfl

@[simp] theorem exec_place (r : Req) (object : DWord) (target : Nat) (keepLower : Bool)
    (region nearBase cores : Nat) (s : State) :
    exec (.place r object target keepLower region nearBase cores) s =
      execPlace r object target keepLower region nearBase cores s := rfl

@[simp] theorem exec_modelLoad (r : Req) (slot pavilion : Nat) (object : DWord) (replace : Bool) (s : State) :
    exec (.modelLoad r slot pavilion object replace) s = execModelLoad r slot pavilion object replace s := rfl

@[simp] theorem exec_modelLoadApply (pav : Fin 80) (s : State) :
    exec (.modelLoadApply pav) s = execModelLoadApply pav s := rfl

@[simp] theorem exec_writeBack (r : Req) (object : DWord) (first count : Nat) (s : State) :
    exec (.writeBack r object first count) s = execWriteBack r object first count s := rfl

@[simp] theorem exec_regionGrant (r : Req) (tier region : Nat) (base : DWord) (granules poolNode : Nat) (s : State) :
    exec (.regionGrant r tier region base granules poolNode) s =
      execRegionGrant r tier region base granules poolNode s := rfl

@[simp] theorem exec_regionWithdraw (r : Req) (tier region : Nat) (s : State) :
    exec (.regionWithdraw r tier region) s = execRegionWithdraw r tier region s := rfl

@[simp] theorem exec_mapRead (r : Req) (object : DWord) (tile : Nat) (buf : DWord) (s : State) :
    exec (.mapRead r object tile buf) s = execMapRead r object tile buf s := rfl

@[simp] theorem exec_shutterFetch (engine : Fin 33) (obj : ObjRef) (tile : Nat) (read : TierRead) (s : State) :
    exec (.shutterFetch engine obj tile read) s = execShutterFetch engine obj tile read s := rfl

@[simp] theorem exec_shutterWrite (engine : Fin 33) (obj : ObjRef) (tile : Nat) (s : State) :
    exec (.shutterWrite engine obj tile) s = execShutterWrite engine obj tile s := rfl

@[simp] theorem exec_shutterCopy (engine : Fin 33) (obj : ObjRef) (tile : Nat) (s : State) :
    exec (.shutterCopy engine obj tile) s = execShutterCopy engine obj tile s := rfl

@[simp] theorem exec_shutterSend (engine : Fin 33) (obj : ObjRef) (tile : Nat) (s : State) :
    exec (.shutterSend engine obj tile) s = execShutterSend engine obj tile s := rfl

@[simp] theorem exec_tileArrival (obj : ObjRef) (tile : Nat) (s : State) :
    exec (.tileArrival obj tile) s = execTileArrival obj tile s := rfl

@[simp] theorem exec_tileWriteAck (w : TierWrite) (s : State) :
    exec (.tileWriteAck w) s = execTileWriteAck w s := rfl

@[simp] theorem exec_tileTransferFailure (w : TierWrite) (cause : Fin 6) (s : State) :
    exec (.tileTransferFailure w cause) s = execTileTransferFailure w cause s := rfl

@[simp] theorem exec_heldHatchWriteApply (port : Port) (s : State) :
    exec (.heldHatchWriteApply port) s = execHeldHatchWriteApply port s := rfl

@[simp] theorem exec_k4TableHeldWrite (f : Fn) (table : Fin 16) (word : Fin 3) (v : Word) (s : State) :
    exec (.k4TableHeldWrite f table word v) s = execK4TableHeldWrite f table word v s := rfl

@[simp] theorem exec_k4TableCommitWrite (f : Fn) (table : Fin 16) (v : Word) (s : State) :
    exec (.k4TableCommitWrite f table v) s = execK4TableCommitWrite f table v s := rfl

@[simp] theorem exec_dirLookup (r : Req) (buf : DWord) (admin ignoreBlock : Bool) (mem : Dma) (s : State) :
    exec (.dirLookup r buf admin ignoreBlock mem) s = execDirLookup r buf admin ignoreBlock mem s := rfl

@[simp] theorem exec_dirInsert (r : Req) (buf : DWord) (admin : Bool) (mem : Dma) (s : State) :
    exec (.dirInsert r buf admin mem) s = execDirInsert r buf admin mem s := rfl

@[simp] theorem exec_dirDelete (r : Req) (buf : DWord) (admin : Bool) (mem : Dma) (s : State) :
    exec (.dirDelete r buf admin mem) s = execDirDelete r buf admin mem s := rfl

@[simp] theorem exec_dirUpdate (r : Req) (buf user : DWord) (admin : Bool) (mem : Dma) (s : State) :
    exec (.dirUpdate r buf user admin mem) s = execDirUpdate r buf user admin mem s := rfl

@[simp] theorem exec_dirScan (r : Req) (first count : Nat) (buf : DWord) (maxLines : Nat) (admin : Bool) (s : State) :
    exec (.dirScan r first count buf maxLines admin) s = execDirScan r first count buf maxLines admin s := rfl

@[simp] theorem exec_dirSearchResult (flips : List DirFlip) (s : State) :
    exec (.dirSearchResult flips) s = execDirSearchResult flips s := rfl

@[simp] theorem exec_dirShadowRetry (unread : List Nat) (s : State) :
    exec (.dirShadowRetry unread) s = execDirShadowRetry unread s := rfl

@[simp] theorem exec_dirCommit (unread : Bool) (s : State) :
    exec (.dirCommit unread) s = execDirCommit unread s := rfl

@[simp] theorem exec_dirRecordHoldEnd (row : Fin 4194304) (s : State) :
    exec (.dirRecordHoldEnd row) s = execDirRecordHoldEnd row s := rfl

@[simp] theorem exec_dirScrubRow (flips : List DirFlip) (unread : Bool) (s : State) :
    exec (.dirScrubRow flips unread) s = execDirScrubRow flips unread s := rfl

@[simp] theorem exec_dirSpareBlockSwitch (s : State) :
    exec (.dirSpareBlockSwitch) s = execDirSpareBlockSwitch s := rfl

@[simp] theorem exec_txtTableLoad (r : Req) (kind ident : Nat) (object : DWord) (s : State) :
    exec (.txtTableLoad r kind ident object) s = execTxtTableLoad r kind ident object s := rfl

@[simp] theorem exec_txtTableUnload (r : Req) (kind ident : Nat) (s : State) :
    exec (.txtTableUnload r kind ident) s = execTxtTableUnload r kind ident s := rfl

@[simp] theorem exec_txtTokenise (r : Req) (tokeniser : Nat) (special : Bool) (src : DWord) (bytes : Nat)
    (dst : DWord) (capacity : Nat) (mem : Dma) (s : State) :
    exec (.txtTokenise r tokeniser special src bytes dst capacity mem) s =
      execTxtTokenise r tokeniser special src bytes dst capacity mem s := rfl

@[simp] theorem exec_txtAppend (r : Req) (src : DWord) (bytes : Nat) (special tokens : Bool) (mem : Dma) (s : State) :
    exec (.txtAppend r src bytes special tokens mem) s = execTxtAppend r src bytes special tokens mem s := rfl

@[simp] theorem exec_txtDetok (r : Req) (tokeniser : Nat) (src : DWord) (count : Nat) (dst : DWord) (capacity : Nat)
    (mem : Dma) (s : State) :
    exec (.txtDetok r tokeniser src count dst capacity mem) s =
      execTxtDetok r tokeniser src count dst capacity mem s := rfl

@[simp] theorem exec_txtSamplerSet (r : Req) (buf : DWord) (mem : Dma) (s : State) :
    exec (.txtSamplerSet r buf mem) s = execTxtSamplerSet r buf mem s := rfl

@[simp] theorem exec_txtLouverSet (r : Req) (grammar allow : Nat) (oneShot reset keepGrammar keepAllow : Bool)
    (s : State) :
    exec (.txtLouverSet r grammar allow oneShot reset keepGrammar keepAllow) s =
      execTxtLouverSet r grammar allow oneShot reset keepGrammar keepAllow s := rfl

@[simp] theorem exec_txtStopSet (r : Req) (buf : DWord) (excludeStop : Bool) (mem : Dma) (s : State) :
    exec (.txtStopSet r buf excludeStop mem) s = execTxtStopSet r buf excludeStop mem s := rfl

@[simp] theorem exec_resample (r : Req) (s : State) :
    exec (.resample r) s = execResample r s := rfl

@[simp] theorem exec_inject (r : Req) (token : Nat) (s : State) :
    exec (.inject r token) s = execInject r token s := rfl

@[simp] theorem exec_dropPending (r : Req) (s : State) :
    exec (.dropPending r) s = execDropPending r s := rfl

@[simp] theorem exec_txtStateRead (r : Req) (buf : DWord) (s : State) :
    exec (.txtStateRead r buf) s = execTxtStateRead r buf s := rfl

@[simp] theorem exec_rclCreate (r : Req) (object buf : DWord) (mem : Dma) (s : State) :
    exec (.rclCreate r object buf mem) s = execRclCreate r object buf mem s := rfl

@[simp] theorem exec_rclInsert (r : Req) (object buf : DWord) (count : Nat) (mem : Dma) (s : State) :
    exec (.rclInsert r object buf count mem) s = execRclInsert r object buf count mem s := rfl

@[simp] theorem exec_rclDelete (r : Req) (object buf : DWord) (count : Nat) (mem : Dma) (s : State) :
    exec (.rclDelete r object buf count mem) s = execRclDelete r object buf count mem s := rfl

@[simp] theorem exec_rclPurge (r : Req) (object buf : DWord) (count : Nat) (mem : Dma) (s : State) :
    exec (.rclPurge r object buf count mem) s = execRclPurge r object buf count mem s := rfl

@[simp] theorem exec_rclEdges (r : Req) (object buf : DWord) (count : Nat) (mem : Dma) (s : State) :
    exec (.rclEdges r object buf count mem) s = execRclEdges r object buf count mem s := rfl

@[simp] theorem exec_rclEntry (r : Req) (object : DWord) (entries : List Word) (s : State) :
    exec (.rclEntry r object entries) s = execRclEntry r object entries s := rfl

@[simp] theorem exec_rclQuery (r : Req) (object qbuf rbuf : DWord) (k pick l maxExpand : Nat) (mem : Dma)
    (s : State) :
    exec (.rclQuery r object qbuf rbuf k pick l maxExpand mem) s =
      execRclQuery r object qbuf rbuf k pick l maxExpand mem s := rfl

@[simp] theorem exec_rclDrop (r : Req) (object : DWord) (s : State) :
    exec (.rclDrop r object) s = execRclDrop r object s := rfl

@[simp] theorem exec_rclGraphWalk (port : Port) (s : State) :
    exec (.rclGraphWalk port) s = execRclGraphWalk port s := rfl

@[simp] theorem exec_pavLoad (r : Req) (buf : DWord) (count : Nat) (mem : Dma) (s : State) :
    exec (.pavLoad r buf count mem) s = execPavLoad r buf count mem s := rfl

@[simp] theorem exec_pavUnload (r : Req) (pavilion : Nat) (s : State) :
    exec (.pavUnload r pavilion) s = execPavUnload r pavilion s := rfl

@[simp] theorem exec_pavTenantSet (r : Req) (buf : DWord) (mem : Dma) (s : State) :
    exec (.pavTenantSet r buf mem) s = execPavTenantSet r buf mem s := rfl

@[simp] theorem exec_pavFuncTenant (r : Req) (function tenant : Nat) (s : State) :
    exec (.pavFuncTenant r function tenant) s = execPavFuncTenant r function tenant s := rfl

@[simp] theorem exec_pavExpedite (r : Req) (session : DWord) (s : State) :
    exec (.pavExpedite r session) s = execPavExpedite r session s := rfl

@[simp] theorem exec_admissionWaitTimeout (pav : Fin 80) (f : Fn) (session : DWord) (s : State) :
    exec (.admissionWaitTimeout pav f session) s = execAdmissionWaitTimeout pav f session s := rfl

@[simp] theorem exec_levelPromotion (s : State) :
    exec (.levelPromotion) s = execLevelPromotion s := rfl

@[simp] theorem exec_snpTake (r : Req) (full : Bool) (s : State) :
    exec (.snpTake r full) s = execSnpTake r full s := rfl

@[simp] theorem exec_snpInclude (r : Req) (object : DWord) (exclude : Bool) (s : State) :
    exec (.snpInclude r object exclude) s = execSnpInclude r object exclude s := rfl

@[simp] theorem exec_portRestore (r : Req) (target region sourceRegion : Nat) (epoch report : DWord)
    (bad : List SnapBad) (s : State) :
    exec (.portRestore r target region sourceRegion epoch report bad) s =
      execPortRestore r target region sourceRegion epoch report bad s := rfl

@[simp] theorem exec_sessionRestore (r : Req) (target region sourceRegion : Nat) (session epoch report : DWord)
    (bad : List SnapBad) (s : State) :
    exec (.sessionRestore r target region sourceRegion session epoch report bad) s =
      execSessionRestore r target region sourceRegion session epoch report bad s := rfl

@[simp] theorem exec_snpRetire (r : Req) (epoch : DWord) (s : State) :
    exec (.snpRetire r epoch) s = execSnpRetire r epoch s := rfl

@[simp] theorem exec_snpList (r : Req) (buf : DWord) (s : State) :
    exec (.snpList r buf) s = execSnpList r buf s := rfl

@[simp] theorem exec_snpTimerFire (port : Port) (s : State) :
    exec (.snpTimerFire port) s = execSnpTimerFire port s := rfl

@[simp] theorem exec_snpStepTrigger (port : Port) (s : State) :
    exec (.snpStepTrigger port) s = execSnpStepTrigger port s := rfl

@[simp] theorem exec_snapshotCut (port : Port) (s : State) :
    exec (.snapshotCut port) s = execSnapshotCut port s := rfl

@[simp] theorem exec_snapshotTileStored (port : Port) (obj : ObjRef) (tile : Nat) (s : State) :
    exec (.snapshotTileStored port obj tile) s = execSnapshotTileStored port obj tile s := rfl

@[simp] theorem exec_snapshotCommit (port : Port) (s : State) :
    exec (.snapshotCommit port) s = execSnapshotCommit port s := rfl

@[simp] theorem exec_bootGo (f : Fn) (v : Word) (s : State) :
    exec (.bootGo f v) s = execBootGo f v s := rfl

@[simp] theorem exec_bootImageReadDone (mem : Dma) (s : State) :
    exec (.bootImageReadDone mem) s = execBootImageReadDone mem s := rfl

@[simp] theorem exec_bootVerifyDone (floorRead marginal : Bool) (s : State) :
    exec (.bootVerifyDone floorRead marginal) s = execBootVerifyDone floorRead marginal s := rfl

@[simp] theorem exec_secAttest (r : Req) (buf : DWord) (kem : Bool) (scope : Nat) (mem : Dma) (s : State) :
    exec (.secAttest r buf kem scope mem) s = execSecAttest r buf kem scope mem s := rfl

@[simp] theorem exec_attestSigned (readBack : Bool) (s : State) :
    exec (.attestSigned readBack) s = execAttestSigned readBack s := rfl

@[simp] theorem exec_pendingKeyExpiry (s : State) :
    exec (.pendingKeyExpiry) s = execPendingKeyExpiry s := rfl

@[simp] theorem exec_secKdRelease (r : Req) (buf : DWord) (mem : Dma) (s : State) :
    exec (.secKdRelease r buf mem) s = execSecKdRelease r buf mem s := rfl

@[simp] theorem exec_secKdCreate (r : Req) (kd : Nat) (sealFlag : Bool) (s : State) :
    exec (.secKdCreate r kd sealFlag) s = execSecKdCreate r kd sealFlag s := rfl

@[simp] theorem exec_secKdBind (r : Req) (kd : Nat) (mask : DWord) (s : State) :
    exec (.secKdBind r kd mask) s = execSecKdBind r kd mask s := rfl

@[simp] theorem exec_secKdRetire (r : Req) (kd : Nat) (s : State) :
    exec (.secKdRetire r kd) s = execSecKdRetire r kd s := rfl

@[simp] theorem exec_secIdRead (r : Req) (buf : DWord) (s : State) :
    exec (.secIdRead r buf) s = execSecIdRead r buf s := rfl

@[simp] theorem exec_ideKmMessage (port : Port) (msg : Secured) (stream : Fin 9) (act : IdeKm) (s : State) :
    exec (.ideKmMessage port msg stream act) s = execIdeKmMessage port msg stream act s := rfl

@[simp] theorem exec_tdispMessage (f : Fn) (msg : Secured) (act : TdispAct) (s : State) :
    exec (.tdispMessage f msg act) s = execTdispMessage f msg act s := rfl

@[simp] theorem exec_portReset (port : Port) (cause : PortResetCause) (s : State) :
    exec (.portReset port cause) s = execPortReset port cause s := rfl

@[simp] theorem exec_vfFlr (f : Fn) (s : State) :
    exec (.vfFlr f) s = execVfFlr f s := rfl

@[simp] theorem exec_ringStart (f : Fn) (v : Word) (s : State) :
    exec (.ringStart f v) s = execRingStart f v s := rfl

@[simp] theorem exec_ringStop (f : Fn) (v : Word) (s : State) :
    exec (.ringStop f v) s = execRingStop f v s := rfl

@[simp] theorem exec_rqTailDoorbell (f : Fn) (v : Word) (s : State) :
    exec (.rqTailDoorbell f v) s = execRqTailDoorbell f v s := rfl

@[simp] theorem exec_requestFetchFault (f : Fn) (s : State) :
    exec (.requestFetchFault f) s = execRequestFetchFault f s := rfl

@[simp] theorem exec_cqHeadDoorbell (f : Fn) (v : Word) (s : State) :
    exec (.cqHeadDoorbell f v) s = execCqHeadDoorbell f v s := rfl

@[simp] theorem exec_coalTimeout (f : Fn) (s : State) :
    exec (.coalTimeout f) s = execCoalTimeout f s := rfl

@[simp] theorem exec_badOpcode (r : Req) (opcode : Nat) (s : State) :
    exec (.badOpcode r opcode) s = execBadOpcode r opcode s := rfl

@[simp] theorem exec_nop (r : Req) (s : State) :
    exec (.nop r) s = execNop r s := rfl

@[simp] theorem exec_ringFence (r : Req) (s : State) :
    exec (.ringFence r) s = execRingFence r s := rfl

@[simp] theorem exec_openSession (r : Req) (object : DWord) (kd pavilion slotKind modelSlot lmax tokeniser : Nat)
    (s : State) :
    exec (.openSession r object kd pavilion slotKind modelSlot lmax tokeniser) s =
      execOpenSession r object kd pavilion slotKind modelSlot lmax tokeniser s := rfl

@[simp] theorem exec_stepSession (r : Req) (checkGen : Bool) (expectGen : Nat) (outBase : DWord) (outSize : Nat)
    (s : State) :
    exec (.stepSession r checkGen expectGen outBase outSize) s =
      execStepSession r checkGen expectGen outBase outSize s := rfl

@[simp] theorem exec_closeSession (r : Req) (checkGen : Bool) (expectGen : Nat) (s : State) :
    exec (.closeSession r checkGen expectGen) s = execCloseSession r checkGen expectGen s := rfl

@[simp] theorem exec_haltSession (r : Req) (s : State) :
    exec (.haltSession r) s = execHaltSession r s := rfl

@[simp] theorem exec_hatchRead (port : Port) (off len : Nat) (bad : Bool) (s : State) :
    exec (.hatchRead port off len bad) s = execHatchRead port off len bad s := rfl

@[simp] theorem exec_hatchWrite (port : Port) (off : Nat) (data : List Byte) (bad : Bool) (s : State) :
    exec (.hatchWrite port off data bad) s = execHatchWrite port off data bad s := rfl

@[simp] theorem exec_hcDoneRead (port : Port) (off : Nat) (s : State) :
    exec (.hcDoneRead port off) s = execHcDoneRead port off s := rfl

@[simp] theorem exec_hatchModeRequest (port : Port) (bay : Fin 20) (s : State) :
    exec (.hatchModeRequest port bay) s = execHatchModeRequest port bay s := rfl

@[simp] theorem exec_hatchExitRequest (port : Port) (bay : Fin 20) (s : State) :
    exec (.hatchExitRequest port bay) s = execHatchExitRequest port bay s := rfl

@[simp] theorem exec_hatchModeExit (bay : Fin 20) (s : State) :
    exec (.hatchModeExit bay) s = execHatchModeExit bay s := rfl

@[simp] theorem exec_hatWindowWrite (port : Port) (n : Fin 8) (v : Word) (s : State) :
    exec (.hatWindowWrite port n v) s = execHatWindowWrite port n v s := rfl

@[simp] theorem exec_hcStoreWrite (port : Port) (off : Nat) (data : List Byte) (s : State) :
    exec (.hcStoreWrite port off data) s = execHcStoreWrite port off data s := rfl

@[simp] theorem exec_hatchAdd (port : Port) (bay : Fin 20) (c : HcCmd) (bad : Option HcBad) (s : State) :
    exec (.hatchAdd port bay c bad) s = execHatchAdd port bay c bad s := rfl

@[simp] theorem exec_hatchSub (port : Port) (bay : Fin 20) (c : HcCmd) (bad : Option HcBad) (s : State) :
    exec (.hatchSub port bay c bad) s = execHatchSub port bay c bad s := rfl

@[simp] theorem exec_hatchMul (port : Port) (bay : Fin 20) (c : HcCmd) (bad : Option HcBad) (s : State) :
    exec (.hatchMul port bay c bad) s = execHatchMul port bay c bad s := rfl

@[simp] theorem exec_hatchMulh (port : Port) (bay : Fin 20) (c : HcCmd) (bad : Option HcBad) (s : State) :
    exec (.hatchMulh port bay c bad) s = execHatchMulh port bay c bad s := rfl

@[simp] theorem exec_hatchMadd (port : Port) (bay : Fin 20) (c : HcCmd) (bad : Option HcBad) (s : State) :
    exec (.hatchMadd port bay c bad) s = execHatchMadd port bay c bad s := rfl

@[simp] theorem exec_hatchScale (port : Port) (bay : Fin 20) (c : HcCmd) (bad : Option HcBad) (s : State) :
    exec (.hatchScale port bay c bad) s = execHatchScale port bay c bad s := rfl

@[simp] theorem exec_hatchShl (port : Port) (bay : Fin 20) (c : HcCmd) (bad : Option HcBad) (s : State) :
    exec (.hatchShl port bay c bad) s = execHatchShl port bay c bad s := rfl

@[simp] theorem exec_hatchSar (port : Port) (bay : Fin 20) (c : HcCmd) (bad : Option HcBad) (s : State) :
    exec (.hatchSar port bay c bad) s = execHatchSar port bay c bad s := rfl

@[simp] theorem exec_hatchFill (port : Port) (bay : Fin 20) (c : HcCmd) (bad : Option HcBad) (s : State) :
    exec (.hatchFill port bay c bad) s = execHatchFill port bay c bad s := rfl

@[simp] theorem exec_hatchCopy (port : Port) (bay : Fin 20) (c : HcCmd) (bad : Option HcBad) (s : State) :
    exec (.hatchCopy port bay c bad) s = execHatchCopy port bay c bad s := rfl

@[simp] theorem exec_hatchSeth (port : Port) (bay : Fin 20) (c : HcCmd) (bad : Option HcBad) (s : State) :
    exec (.hatchSeth port bay c bad) s = execHatchSeth port bay c bad s := rfl

@[simp] theorem exec_hatchRun (port : Port) (bay : Fin 20) (c : HcCmd) (bad : Option HcBad) (s : State) :
    exec (.hatchRun port bay c bad) s = execHatchRun port bay c bad s := rfl

@[simp] theorem exec_hatchCommandDone (bay : Fin 20) (bad : Option HcBad) (s : State) :
    exec (.hatchCommandDone bay bad) s = execHatchCommandDone bay bad s := rfl

@[simp] theorem exec_flitTransmit (cport : Fin 4) (s : State) :
    exec (.flitTransmit cport) s = execFlitTransmit cport s := rfl

@[simp] theorem exec_flitReceive (cport : Fin 4) (flit : Option (List Byte)) (corrected : Nat) (s : State) :
    exec (.flitReceive cport flit corrected) s = execFlitReceive cport flit corrected s := rfl

@[simp] theorem exec_gateEntryAdvance (cport : Fin 4) (s : State) :
    exec (.gateEntryAdvance cport) s = execGateEntryAdvance cport s := rfl

@[simp] theorem exec_pushOpen (cport : Fin 4) (s : State) :
    exec (.pushOpen cport) s = execPushOpen cport s := rfl

@[simp] theorem exec_pushData (cport : Fin 4) (s : State) :
    exec (.pushData cport) s = execPushData cport s := rfl

@[simp] theorem exec_pushEnd (cport : Fin 4) (s : State) :
    exec (.pushEnd cport) s = execPushEnd cport s := rfl

@[simp] theorem exec_pushAbort (cport : Fin 4) (s : State) :
    exec (.pushAbort cport) s = execPushAbort cport s := rfl

@[simp] theorem exec_streamIdleTimeout (cport : Fin 4) (tag : Nat) (s : State) :
    exec (.streamIdleTimeout cport tag) s = execStreamIdleTimeout cport tag s := rfl

@[simp] theorem exec_handOffer (cport : Fin 4) (tables : Bool) (s : State) :
    exec (.handOffer cport tables) s = execHandOffer cport tables s := rfl

@[simp] theorem exec_handAccept (cport : Fin 4) (s : State) :
    exec (.handAccept cport) s = execHandAccept cport s := rfl

@[simp] theorem exec_handRefuse (cport : Fin 4) (s : State) :
    exec (.handRefuse cport) s = execHandRefuse cport s := rfl

@[simp] theorem exec_handData (cport : Fin 4) (s : State) :
    exec (.handData cport) s = execHandData cport s := rfl

@[simp] theorem exec_handEnd (cport : Fin 4) (s : State) :
    exec (.handEnd cport) s = execHandEnd cport s := rfl

@[simp] theorem exec_handDone (cport : Fin 4) (s : State) :
    exec (.handDone cport) s = execHandDone cport s := rfl

@[simp] theorem exec_handAbort (cport : Fin 4) (s : State) :
    exec (.handAbort cport) s = execHandAbort cport s := rfl

@[simp] theorem exec_poolWriteAck (cport : Fin 4) (s : State) :
    exec (.poolWriteAck cport) s = execPoolWriteAck cport s := rfl

@[simp] theorem exec_poolReadData (cport : Fin 4) (s : State) :
    exec (.poolReadData cport) s = execPoolReadData cport s := rfl

@[simp] theorem exec_poolError (cport : Fin 4) (s : State) :
    exec (.poolError cport) s = execPoolError cport s := rfl

@[simp] theorem exec_poolTimeout (tag : Nat) (s : State) :
    exec (.poolTimeout tag) s = execPoolTimeout tag s := rfl

@[simp] theorem exec_celayEnable (f : Fn) (cport : Fin 4) (v : Word) (s : State) :
    exec (.celayEnable f cport v) s = execCelayEnable f cport v s := rfl

@[simp] theorem exec_celayDisable (f : Fn) (cport : Fin 4) (v : Word) (s : State) :
    exec (.celayDisable f cport v) s = execCelayDisable f cport v s := rfl

@[simp] theorem exec_celayLinkUp (cport : Fin 4) (lanes : BitVec 9) (s : State) :
    exec (.celayLinkUp cport lanes) s = execCelayLinkUp cport lanes s := rfl

@[simp] theorem exec_celayBringupRetry (cport : Fin 4) (s : State) :
    exec (.celayBringupRetry cport) s = execCelayBringupRetry cport s := rfl

@[simp] theorem exec_laneSwap (cport : Fin 4) (lane : Fin 9) (s : State) :
    exec (.laneSwap cport lane) s = execLaneSwap cport lane s := rfl

@[simp] theorem exec_profileWrite (src : ProfileSource) (slot : Fin 4) (mem : Dma) (s : State) :
    exec (.profileWrite src slot mem) s = execProfileWrite src slot mem s := rfl

@[simp] theorem exec_profileWriteCommit (fault : Bool) (s : State) :
    exec (.profileWriteCommit fault) s = execProfileWriteCommit fault s := rfl

@[simp] theorem exec_profileErase (src : ProfileSource) (slot : Fin 4) (fault : Bool) (s : State) :
    exec (.profileErase src slot fault) s = execProfileErase src slot fault s := rfl

@[simp] theorem exec_selectWarm (src : ProfileSource) (slot : Fin 4) (s : State) :
    exec (.selectWarm src slot) s = execSelectWarm src slot s := rfl

@[simp] theorem exec_consentTimeout (s : State) :
    exec (.consentTimeout) s = execConsentTimeout s := rfl

@[simp] theorem exec_selectWarmApply (s : State) :
    exec (.selectWarmApply) s = execSelectWarmApply s := rfl

@[simp] theorem exec_setNext (src : ProfileSource) (slot : Fin 4) (s : State) :
    exec (.setNext src slot) s = execSetNext src slot s := rfl

@[simp] theorem exec_clearNext (src : ProfileSource) (s : State) :
    exec (.clearNext src) s = execClearNext src s := rfl

@[simp] theorem exec_farTrainingDone (sites density rate : Nat) (s : State) :
    exec (.farTrainingDone sites density rate) s = execFarTrainingDone sites density rate s := rfl

@[simp] theorem exec_aonPowerUp (s : State) :
    exec (.aonPowerUp) s = execAonPowerUp s := rfl

@[simp] theorem exec_dozeEntry (bay : Fin 20) (s : State) :
    exec (.dozeEntry bay) s = execDozeEntry bay s := rfl

@[simp] theorem exec_restEntry (bay : Fin 20) (s : State) :
    exec (.restEntry bay) s = execRestEntry bay s := rfl

@[simp] theorem exec_restEntryDone (bay : Fin 20) (s : State) :
    exec (.restEntryDone bay) s = execRestEntryDone bay s := rfl

@[simp] theorem exec_wakeDecision (s : State) :
    exec (.wakeDecision) s = execWakeDecision s := rfl

@[simp] theorem exec_bayWakeStart (s : State) :
    exec (.bayWakeStart) s = execBayWakeStart s := rfl

@[simp] theorem exec_bayRunReady (bay : Fin 20) (passes : List LinePass) (s : State) :
    exec (.bayRunReady bay passes) s = execBayRunReady bay passes s := rfl

@[simp] theorem exec_bayOffRequest (port : Port) (bay : Fin 20) (s : State) :
    exec (.bayOffRequest port bay) s = execBayOffRequest port bay s := rfl

@[simp] theorem exec_bayOffRelease (port : Port) (bay : Fin 20) (s : State) :
    exec (.bayOffRelease port bay) s = execBayOffRelease port bay s := rfl

@[simp] theorem exec_bayOffDone (bay : Fin 20) (passes : List LinePass) (s : State) :
    exec (.bayOffDone bay passes) s = execBayOffDone bay passes s := rfl

@[simp] theorem exec_hubQuietEntry (s : State) :
    exec (.hubQuietEntry) s = execHubQuietEntry s := rfl

@[simp] theorem exec_hubReturn (s : State) :
    exec (.hubReturn) s = execHubReturn s := rfl

@[simp] theorem exec_effectiveCapChange (s : State) :
    exec (.effectiveCapChange) s = execEffectiveCapChange s := rfl

@[simp] theorem exec_sensorReading (readings : List (Nat × Nat)) (s : State) :
    exec (.sensorReading readings) s = execSensorReading readings s := rfl

@[simp] theorem exec_pinLevelAccepted (pin : PinId) (level : Fin 4) (s : State) :
    exec (.pinLevelAccepted pin level) s = execPinLevelAccepted pin level s := rfl

@[simp] theorem exec_fastToggleHoldExpiry (pin : PinId) (s : State) :
    exec (.fastToggleHoldExpiry pin) s = execFastToggleHoldExpiry pin s := rfl

@[simp] theorem exec_pinStuck (pin : PinId) (s : State) :
    exec (.pinStuck pin) s = execPinStuck pin s := rfl

@[simp] theorem exec_wakeTimerFire (port : Port) (timer : Fin 256) (s : State) :
    exec (.wakeTimerFire port timer) s = execWakeTimerFire port timer s := rfl

@[simp] theorem exec_wakeTimerPrewake (port : Port) (timer : Fin 256) (s : State) :
    exec (.wakeTimerPrewake port timer) s = execWakeTimerPrewake port timer s := rfl

@[simp] theorem exec_ghNoticeClear (port : Port) (v : Word) (s : State) :
    exec (.ghNoticeClear port v) s = execGhNoticeClear port v s := rfl

@[simp] theorem exec_ghNoticeEnWrite (port : Port) (v : Word) (s : State) :
    exec (.ghNoticeEnWrite port v) s = execGhNoticeEnWrite port v s := rfl

@[simp] theorem exec_ghFiredClear (port : Port) (word : Fin 8) (v : Word) (s : State) :
    exec (.ghFiredClear port word v) s = execGhFiredClear port word v s := rfl

@[simp] theorem exec_pldmSensorRead (ident measured : Nat) (s : State) :
    exec (.pldmSensorRead ident measured) s = execPldmSensorRead ident measured s := rfl

@[simp] theorem exec_pldmEffecterSet (ident v : Nat) (s : State) :
    exec (.pldmEffecterSet ident v) s = execPldmEffecterSet ident v s := rfl

@[simp] theorem exec_pldmErrorLogRead (repairs : Bool) (s : State) :
    exec (.pldmErrorLogRead repairs) s = execPldmErrorLogRead repairs s := rfl

@[simp] theorem exec_deskewPhaseAlarm (core : Fin 10240) (line : Fin 1648) (error : Int) (cyc : Nat) (s : State) :
    exec (.deskewPhaseAlarm core line error cyc) s = execDeskewPhaseAlarm core line error cyc s := rfl

@[simp] theorem exec_farRetrainWindow (s : State) :
    exec (.farRetrainWindow) s = execFarRetrainWindow s := rfl

@[simp] theorem exec_farRetrainBurst (s : State) :
    exec (.farRetrainBurst) s = execFarRetrainBurst s := rfl

@[simp] theorem exec_farBurstEnd (s : State) :
    exec (.farBurstEnd) s = execFarBurstEnd s := rfl

@[simp] theorem exec_farDeviceTempChange (channel : Fin 64) (s : State) :
    exec (.farDeviceTempChange channel) s = execFarDeviceTempChange channel s := rfl

@[simp] theorem exec_clockMonitorWindow (bay : Fin 20) (ppm : Nat) (lockLost : Bool) (cyc : Nat) (s : State) :
    exec (.clockMonitorWindow bay ppm lockLost cyc) s = execClockMonitorWindow bay ppm lockLost cyc s := rfl

@[simp] theorem exec_hubClockFault (fault : HubClock) (s : State) :
    exec (.hubClockFault fault) s = execHubClockFault fault s := rfl

@[simp] theorem exec_errorRecordRetire (source : Nat) (s : State) :
    exec (.errorRecordRetire source) s = execErrorRecordRetire source s := rfl

@[simp] theorem exec_errorMuteEnd (source : Nat) (s : State) :
    exec (.errorMuteEnd source) s = execErrorMuteEnd source s := rfl

@[simp] theorem exec_errPop (port : Port) (s : State) :
    exec (.errPop port) s = execErrPop port s := rfl

@[simp] theorem exec_correctedLineRewrite (place : LinePlace) (corrected : Nat) (again : Option RepairElem)
    (s : State) :
    exec (.correctedLineRewrite place corrected again) s = execCorrectedLineRewrite place corrected again s := rfl

@[simp] theorem exec_nearScrubRead (bay : Fin 20) (bad : Option LineRead) (s : State) :
    exec (.nearScrubRead bay bad) s = execNearScrubRead bay bad s := rfl

@[simp] theorem exec_farScrubRead (bad : Option LineRead) (line : Fin 256) (s : State) :
    exec (.farScrubRead bad line) s = execFarScrubRead bad line s := rfl

@[simp] theorem exec_engineSpareSwitch (kind : EngineKind) (engine : Nat) (s : State) :
    exec (.engineSpareSwitch kind engine) s = execEngineSpareSwitch kind engine s := rfl

@[simp] theorem exec_moduleResetEntry (cause : ResetCause) (s : State) :
    exec (.moduleResetEntry cause) s = execModuleResetEntry cause s := rfl

@[simp] theorem exec_moduleResetRelease (s : State) :
    exec (.moduleResetRelease) s = execModuleResetRelease s := rfl

@[simp] theorem exec_hubPllLock (s : State) :
    exec (.hubPllLock) s = execHubPllLock s := rfl

@[simp] theorem exec_portTrainEnable (port : Port) (s : State) :
    exec (.portTrainEnable port) s = execPortTrainEnable port s := rfl

@[simp] theorem exec_tapBypass (tdi : List Bool) (s : State) :
    exec (.tapBypass tdi) s = execTapBypass tdi s := rfl

@[simp] theorem exec_tapIdcode (s : State) :
    exec (.tapIdcode) s = execTapIdcode s := rfl

@[simp] theorem exec_tapSamplePreload (pins data : List Bool) (s : State) :
    exec (.tapSamplePreload pins data) s = execTapSamplePreload pins data s := rfl

@[simp] theorem exec_tapExtest (pins data : List Bool) (s : State) :
    exec (.tapExtest pins data) s = execTapExtest pins data s := rfl

@[simp] theorem exec_tapClamp (tdi : List Bool) (s : State) :
    exec (.tapClamp tdi) s = execTapClamp tdi s := rfl

@[simp] theorem exec_tapHighz (tdi : List Bool) (s : State) :
    exec (.tapHighz tdi) s = execTapHighz tdi s := rfl

@[simp] theorem exec_tapExtestPulse (pins data : List Bool) (s : State) :
    exec (.tapExtestPulse pins data) s = execTapExtestPulse pins data s := rfl

@[simp] theorem exec_tapExtestTrain (pins data : List Bool) (s : State) :
    exec (.tapExtestTrain pins data) s = execTapExtestTrain pins data s := rfl

@[simp] theorem exec_irqEnableSet (f : Fn) (v : Word) (s : State) :
    exec (.irqEnableSet f v) s = execIrqEnableSet f v s := rfl

@[simp] theorem exec_completionWriteFault (f : Fn) (s : State) :
    exec (.completionWriteFault f) s = execCompletionWriteFault f s := rfl

@[simp] theorem exec_trlCmdBadOp (port : Port) (op : Nat) (s : State) :
    exec (.trlCmdBadOp port op) s = execTrlCmdBadOp port op s := rfl

@[simp] theorem exec_snapshotTargetSet (f : Fn) (v : Word) (s : State) :
    exec (.snapshotTargetSet f v) s = execSnapshotTargetSet f v s := rfl

@[simp] theorem exec_hcSubmitHeldWrite (port : Port) (off : Nat) (data : List Byte) (s : State) :
    exec (.hcSubmitHeldWrite port off data) s = execHcSubmitHeldWrite port off data s := rfl

@[simp] theorem exec_hatchUnallocatedOp (port : Port) (bay : Fin 20) (op : Byte) (c : HcCmd) (s : State) :
    exec (.hatchUnallocatedOp port bay op c) s = execHatchUnallocatedOp port bay op c s := rfl

@[simp] theorem exec_powerWindowEnd (watts : Nat) (s : State) :
    exec (.powerWindowEnd watts) s = execPowerWindowEnd watts s := rfl

end Sys2Proof.Machine
end

