-- ==== Sys2Proof/Laws/FarSlots.lean ====
section
/-! SUPPORT. A far slot is found whenever the pool has a free one, whatever the part's choice (R134). -/

namespace Sys2Proof.Machine

theorem firstFrom_isSome (p : Nat → Bool) (n i j : Nat) (hi : i ≤ j) (hj : j < i + n) (hp : p j = true) :
    (firstFrom p n i).isSome = true := by
  induction n generalizing i with
  | zero => omega
  | succ n ih =>
    by_cases hpi : p i = true
    · simp [firstFrom, hpi]
    · have : i ≠ j := fun h => hpi (h ▸ hp)
      simp only [firstFrom, hpi]
      exact ih (i + 1) (by omega) (by omega)

theorem firstBelow_isSome (p : Nat → Bool) (n j : Nat) (hj : j < n) (hp : p j = true) : (firstBelow n p).isSome = true :=
  firstFrom_isSome p n 0 j (Nat.zero_le _) (by omega) hp

/-- Every remainder is reached from every start. -/
theorem exists_mod_eq (c m n : Nat) (h : m < n) : ∃ i, i < n ∧ (c + i) % n = m := by
  have hc : c % n < n := Nat.mod_lt _ (by omega)
  by_cases hl : c % n ≤ m
  · refine ⟨m - c % n, by omega, ?_⟩
    rw [Nat.add_mod, Nat.mod_eq_of_lt (a := m - c % n) (by omega), show c % n + (m - c % n) = m by omega, Nat.mod_eq_of_lt h]
  · refine ⟨m + n - c % n, by omega, ?_⟩
    rw [Nat.add_mod, Nat.mod_eq_of_lt (a := m + n - c % n) (by omega), show c % n + (m + n - c % n) = m + n by omega,
      Nat.add_mod_right, Nat.mod_eq_of_lt h]

theorem farSites_pos (s : State) : 0 < farSites s := by
  unfold farSites; split <;> omega

/-- A free slot of the pool is enough for a slot to be taken, one that was free. -/
theorem farAlloc_isSome (s : State) (m : Nat) (h : farFree s m = true) (hd : farTotal s % farSites s = 0) :
    ∃ n site, farAlloc s = some (n, { drew s with far := mput s.far n { intact := false }, farNext := (site + 1) % farSites s }) := by
  have hs := farSites_pos s
  have hm : m < farTotal s := by simp [farFree] at h; omega
  have hper : m / farSites s < farTotal s / farSites s :=
    Nat.div_lt_div_of_lt_of_dvd (Nat.dvd_of_mod_eq_zero hd) hm
  obtain ⟨i, hi, hci⟩ := exists_mod_eq (Config.freeChoice s.free) _ _ hper
  obtain ⟨j, hj, hcj⟩ := exists_mod_eq s.farNext (m % farSites s) (farSites s) (Nat.mod_lt _ hs)
  have hpick : (farPick s (m % farSites s)).isSome = true := by
    simp only [farPick, Option.isSome_map]
    refine firstBelow_isSome _ _ i hi ?_
    rw [hci, Nat.mul_comm, Nat.div_add_mod]; exact h
  cases hf : ((List.range (farSites s)).map (fun i => (s.farNext + i) % farSites s)).findSome?
      (fun site => (farPick s site).map (fun n => (n, site))) with
  | none =>
    rw [List.findSome?_eq_none_iff] at hf
    have := hf (m % farSites s) (List.mem_map.2 ⟨j, List.mem_range.2 hj, hcj⟩)
    rw [Option.map_eq_none_iff] at this
    rw [this] at hpick; cases hpick
  | some x => exact ⟨x.1, x.2, by unfold farAlloc; simp only [hf]⟩

/-- Among more numbers than a map has entries, one is not listed. -/
theorem exists_unlisted {α : Type} (lo n : Nat) (m : NMap α) (h : m.length < n) : ∃ x, lo ≤ x ∧ x < lo + n ∧ mget? m x = none := by
  induction n generalizing m with
  | zero => omega
  | succ n ih =>
    by_cases hx : mget? m (lo + n) = none
    · exact ⟨lo + n, by omega, by omega, hx⟩
    · have hmem : ∃ e ∈ m, e.1 = lo + n := by
        clear ih h
        induction m with
        | nil => simp [mget?] at hx
        | cons e m ih =>
          by_cases he : lo + n = e.1
          · exact ⟨e, by simp, he.symm⟩
          · simp only [mget?, he, if_false] at hx
            obtain ⟨y, hy, h1⟩ := ih hx
            exact ⟨y, by simp [hy], h1⟩
      have hlen : (m.filter (fun e => decide (e.1 ≠ lo + n))).length < m.length := by
        obtain ⟨e, he, h1⟩ := hmem
        exact List.length_filter_lt_length_iff_exists.2 ⟨e, he, by simp [h1]⟩
      obtain ⟨x, h1, h2, h3⟩ := ih (m.filter (fun e => decide (e.1 ≠ lo + n))) (by omega)
      refine ⟨x, h1, by omega, ?_⟩
      have hne : x ≠ lo + n := by omega
      clear ih h hx hmem hlen
      induction m with
      | nil => rfl
      | cons e m ih =>
        by_cases he : e.1 = lo + n
        · simp only [List.filter_cons, he, ne_eq, not_true, decide_false] at h3
          simp only [mget?, he, hne, if_false]; exact ih (by simpa using h3)
        · simp only [List.filter_cons, ne_eq, he, not_false_eq_true, decide_true, if_true, mget?] at h3 ⊢
          by_cases hxe : x = e.1
          · simp [hxe] at h3
          · simp only [hxe, if_false] at h3 ⊢; exact ih (by simpa using h3)

theorem length_mput {α : Type} (m : NMap α) (x : Nat) (v : α) : (mput m x v).length ≤ m.length + 1 := by
  induction m with
  | nil => simp [mput]
  | cons e m ih =>
    simp only [mput]
    split
    · simp
    · split
      · simp
      · simp only [List.length_cons]; omega

/-- Tiles without a copy all find far slots while the pool has room for them. -/
theorem placeFar_isSome (key : Nat) (keep : Bool) (is : List Nat) (s : State) (o : Obj) (ho : mget? s.objects key = some o)
    (hab : ∀ i, (o.tile i).state = .absent) (hout : s.farOut = []) (hgone : s.farGone = []) (hd : farTotal s % farSites s = 0)
    (hroom : s.far.length + is.length ≤ farTotal s - farPool s) : (placeFar key keep is s).isSome = true := by
  induction is generalizing s o with
  | nil => rfl
  | cons i is ih =>
    rw [List.length_cons] at hroom
    obtain ⟨x, h1, h2, h3⟩ := exists_unlisted (farPool s) (farTotal s - farPool s) s.far (by omega)
    have hfree : farFree s x = true := by
      simp only [farFree, hout, hgone, h3]; simp; omega
    obtain ⟨n, site, hn⟩ := farAlloc_isSome s x hfree hd
    simp only [placeFar, hn]
    refine ih _ { o with tiles := mput o.tiles i { o.tile i with upTier := 2, upAddr := n } } ?_ ?_ ?_ ?_ ?_ ?_
    all_goals
      simp only [placeUpper, tileOf, onTile, objOf, drew, ho, hab, mget_mput_self, hout, hgone]
    · intro j
      by_cases hj : j = i
      · subst hj; simp [Obj.tile]
      · simp only [Obj.tile, mgetD_mput_ne _ _ _ _ _ hj]; exact hab j
    · exact hd
    · have := length_mput s.far n { intact := false }
      show (mput s.far n { intact := false }).length + is.length ≤ farTotal s - farPool s
      omega

end Sys2Proof.Machine
end

