-- ==== Sys2Proof/Laws/State.lean ====
section
/-! SUPPORT. The frames of the updates of State: for each update every other field keeps its value, by rfl, so that no proof
unfolds a record update. -/

namespace Sys2Proof.Machine

/-- regSet changes no field of the state but regs. -/
@[simp] theorem regSet_frame (p off v : Nat) (s : State) :
    (regSet p off v s).pending = s.pending ∧ (regSet p off v s).held = s.held ∧
    (regSet p off v s).releasing = s.releasing ∧ (regSet p off v s).reply = s.reply ∧
    (regSet p off v s).irqs = s.irqs ∧ (regSet p off v s).hostMem = s.hostMem ∧ (regSet p off v s).time = s.time ∧
    (regSet p off v s).hclk = s.hclk ∧ (regSet p off v s).free = s.free ∧ (regSet p off v s).readHold = s.readHold ∧
    (regSet p off v s).writeHold = s.writeHold ∧ (regSet p off v s).k4Held = s.k4Held ∧
    (regSet p off v s).rings = s.rings ∧ (regSet p off v s).tenants = s.tenants ∧
    (regSet p off v s).fnTenant = s.fnTenant ∧ (regSet p off v s).hub = s.hub ∧
    (regSet p off v s).trellis = s.trellis ∧ (regSet p off v s).spares = s.spares ∧
    (regSet p off v s).store = s.store ∧ (regSet p off v s).errSources = s.errSources ∧
    (regSet p off v s).errQueueA = s.errQueueA ∧ (regSet p off v s).errQueueB = s.errQueueB ∧
    (regSet p off v s).modLog = s.modLog ∧ (regSet p off v s).bays = s.bays ∧ (regSet p off v s).cores = s.cores ∧
    (regSet p off v s).near = s.near ∧ (regSet p off v s).slotDirty = s.slotDirty ∧
    (regSet p off v s).slotForm = s.slotForm ∧ (regSet p off v s).lattice = s.lattice ∧
    (regSet p off v s).colonnade = s.colonnade ∧ (regSet p off v s).arithAt = s.arithAt ∧
    (regSet p off v s).pavs = s.pavs ∧ (regSet p off v s).ropes = s.ropes ∧ (regSet p off v s).frames = s.frames ∧
    (regSet p off v s).sessions = s.sessions ∧ (regSet p off v s).objects = s.objects ∧
    (regSet p off v s).far = s.far ∧ (regSet p off v s).regions = s.regions ∧
    (regSet p off v s).records = s.records ∧ (regSet p off v s).farOut = s.farOut ∧
    (regSet p off v s).farNext = s.farNext ∧ (regSet p off v s).farGone = s.farGone ∧
    (regSet p off v s).farScrub = s.farScrub ∧ (regSet p off v s).jobs = s.jobs ∧ (regSet p off v s).dir = s.dir ∧
    (regSet p off v s).cows = s.cows ∧ (regSet p off v s).poolWait = s.poolWait ∧
    (regSet p off v s).tails = s.tails ∧ (regSet p off v s).cutLen = s.cutLen ∧
    (regSet p off v s).recents = s.recents ∧ (regSet p off v s).engines = s.engines ∧
    (regSet p off v s).sec = s.sec ∧ (regSet p off v s).tables = s.tables ∧ (regSet p off v s).celay = s.celay ∧
    (regSet p off v s).streams = s.streams ∧ (regSet p off v s).pools = s.pools ∧
    (regSet p off v s).poolTag = s.poolTag ∧ (regSet p off v s).indices = s.indices ∧
    (regSet p off v s).queries = s.queries ∧ (regSet p off v s).snaps = s.snaps ∧
    (regSet p off v s).hatchHeld = s.hatchHeld ∧ (regSet p off v s).gate = s.gate ∧
    (regSet p off v s).farCal = s.farCal ∧ (regSet p off v s).tap = s.tap :=
  ⟨rfl, rfl, rfl, rfl, rfl, rfl, rfl, rfl, rfl, rfl, rfl, rfl, rfl, rfl, rfl, rfl, rfl, rfl, rfl, rfl, rfl, rfl, rfl,
    rfl, rfl, rfl, rfl, rfl, rfl, rfl, rfl, rfl, rfl, rfl, rfl, rfl, rfl, rfl, rfl, rfl, rfl, rfl, rfl, rfl, rfl,
    rfl, rfl, rfl, rfl, rfl, rfl, rfl, rfl, rfl, rfl, rfl, rfl, rfl, rfl, rfl, rfl, rfl, rfl, rfl⟩

/-- sendIrq changes no field of the state but irqs. -/
@[simp] theorem sendIrq_frame (fn vec : Nat) (s : State) :
    (sendIrq fn vec s).pending = s.pending ∧ (sendIrq fn vec s).held = s.held ∧
    (sendIrq fn vec s).releasing = s.releasing ∧ (sendIrq fn vec s).reply = s.reply ∧
    (sendIrq fn vec s).hostMem = s.hostMem ∧ (sendIrq fn vec s).time = s.time ∧ (sendIrq fn vec s).hclk = s.hclk ∧
    (sendIrq fn vec s).free = s.free ∧ (sendIrq fn vec s).regs = s.regs ∧ (sendIrq fn vec s).readHold = s.readHold ∧
    (sendIrq fn vec s).writeHold = s.writeHold ∧ (sendIrq fn vec s).k4Held = s.k4Held ∧
    (sendIrq fn vec s).rings = s.rings ∧ (sendIrq fn vec s).tenants = s.tenants ∧
    (sendIrq fn vec s).fnTenant = s.fnTenant ∧ (sendIrq fn vec s).hub = s.hub ∧
    (sendIrq fn vec s).trellis = s.trellis ∧ (sendIrq fn vec s).spares = s.spares ∧
    (sendIrq fn vec s).store = s.store ∧ (sendIrq fn vec s).errSources = s.errSources ∧
    (sendIrq fn vec s).errQueueA = s.errQueueA ∧ (sendIrq fn vec s).errQueueB = s.errQueueB ∧
    (sendIrq fn vec s).modLog = s.modLog ∧ (sendIrq fn vec s).bays = s.bays ∧ (sendIrq fn vec s).cores = s.cores ∧
    (sendIrq fn vec s).near = s.near ∧ (sendIrq fn vec s).slotDirty = s.slotDirty ∧
    (sendIrq fn vec s).slotForm = s.slotForm ∧ (sendIrq fn vec s).lattice = s.lattice ∧
    (sendIrq fn vec s).colonnade = s.colonnade ∧ (sendIrq fn vec s).arithAt = s.arithAt ∧
    (sendIrq fn vec s).pavs = s.pavs ∧ (sendIrq fn vec s).ropes = s.ropes ∧ (sendIrq fn vec s).frames = s.frames ∧
    (sendIrq fn vec s).sessions = s.sessions ∧ (sendIrq fn vec s).objects = s.objects ∧
    (sendIrq fn vec s).far = s.far ∧ (sendIrq fn vec s).regions = s.regions ∧
    (sendIrq fn vec s).records = s.records ∧ (sendIrq fn vec s).farOut = s.farOut ∧
    (sendIrq fn vec s).farNext = s.farNext ∧ (sendIrq fn vec s).farGone = s.farGone ∧
    (sendIrq fn vec s).farScrub = s.farScrub ∧ (sendIrq fn vec s).jobs = s.jobs ∧ (sendIrq fn vec s).dir = s.dir ∧
    (sendIrq fn vec s).cows = s.cows ∧ (sendIrq fn vec s).poolWait = s.poolWait ∧
    (sendIrq fn vec s).tails = s.tails ∧ (sendIrq fn vec s).cutLen = s.cutLen ∧
    (sendIrq fn vec s).recents = s.recents ∧ (sendIrq fn vec s).engines = s.engines ∧
    (sendIrq fn vec s).sec = s.sec ∧ (sendIrq fn vec s).tables = s.tables ∧ (sendIrq fn vec s).celay = s.celay ∧
    (sendIrq fn vec s).streams = s.streams ∧ (sendIrq fn vec s).pools = s.pools ∧
    (sendIrq fn vec s).poolTag = s.poolTag ∧ (sendIrq fn vec s).indices = s.indices ∧
    (sendIrq fn vec s).queries = s.queries ∧ (sendIrq fn vec s).snaps = s.snaps ∧
    (sendIrq fn vec s).hatchHeld = s.hatchHeld ∧ (sendIrq fn vec s).gate = s.gate ∧
    (sendIrq fn vec s).farCal = s.farCal ∧ (sendIrq fn vec s).tap = s.tap :=
  ⟨rfl, rfl, rfl, rfl, rfl, rfl, rfl, rfl, rfl, rfl, rfl, rfl, rfl, rfl, rfl, rfl, rfl, rfl, rfl, rfl, rfl, rfl, rfl,
    rfl, rfl, rfl, rfl, rfl, rfl, rfl, rfl, rfl, rfl, rfl, rfl, rfl, rfl, rfl, rfl, rfl, rfl, rfl, rfl, rfl, rfl,
    rfl, rfl, rfl, rfl, rfl, rfl, rfl, rfl, rfl, rfl, rfl, rfl, rfl, rfl, rfl, rfl, rfl, rfl, rfl⟩

/-- setErrSource changes no field of the state but errSources. -/
@[simp] theorem setErrSource_frame (src : Nat) (x : ErrSource) (s : State) :
    (setErrSource src x s).pending = s.pending ∧ (setErrSource src x s).held = s.held ∧
    (setErrSource src x s).releasing = s.releasing ∧ (setErrSource src x s).reply = s.reply ∧
    (setErrSource src x s).irqs = s.irqs ∧ (setErrSource src x s).hostMem = s.hostMem ∧
    (setErrSource src x s).time = s.time ∧ (setErrSource src x s).hclk = s.hclk ∧
    (setErrSource src x s).free = s.free ∧ (setErrSource src x s).regs = s.regs ∧
    (setErrSource src x s).readHold = s.readHold ∧ (setErrSource src x s).writeHold = s.writeHold ∧
    (setErrSource src x s).k4Held = s.k4Held ∧ (setErrSource src x s).rings = s.rings ∧
    (setErrSource src x s).tenants = s.tenants ∧ (setErrSource src x s).fnTenant = s.fnTenant ∧
    (setErrSource src x s).hub = s.hub ∧ (setErrSource src x s).trellis = s.trellis ∧
    (setErrSource src x s).spares = s.spares ∧ (setErrSource src x s).store = s.store ∧
    (setErrSource src x s).errQueueA = s.errQueueA ∧ (setErrSource src x s).errQueueB = s.errQueueB ∧
    (setErrSource src x s).modLog = s.modLog ∧ (setErrSource src x s).bays = s.bays ∧
    (setErrSource src x s).cores = s.cores ∧ (setErrSource src x s).near = s.near ∧
    (setErrSource src x s).slotDirty = s.slotDirty ∧ (setErrSource src x s).slotForm = s.slotForm ∧
    (setErrSource src x s).lattice = s.lattice ∧ (setErrSource src x s).colonnade = s.colonnade ∧
    (setErrSource src x s).arithAt = s.arithAt ∧ (setErrSource src x s).pavs = s.pavs ∧
    (setErrSource src x s).ropes = s.ropes ∧ (setErrSource src x s).frames = s.frames ∧
    (setErrSource src x s).sessions = s.sessions ∧ (setErrSource src x s).objects = s.objects ∧
    (setErrSource src x s).far = s.far ∧ (setErrSource src x s).regions = s.regions ∧
    (setErrSource src x s).records = s.records ∧ (setErrSource src x s).farOut = s.farOut ∧
    (setErrSource src x s).farNext = s.farNext ∧ (setErrSource src x s).farGone = s.farGone ∧
    (setErrSource src x s).farScrub = s.farScrub ∧ (setErrSource src x s).jobs = s.jobs ∧
    (setErrSource src x s).dir = s.dir ∧ (setErrSource src x s).cows = s.cows ∧
    (setErrSource src x s).poolWait = s.poolWait ∧ (setErrSource src x s).tails = s.tails ∧
    (setErrSource src x s).cutLen = s.cutLen ∧ (setErrSource src x s).recents = s.recents ∧
    (setErrSource src x s).engines = s.engines ∧ (setErrSource src x s).sec = s.sec ∧
    (setErrSource src x s).tables = s.tables ∧ (setErrSource src x s).celay = s.celay ∧
    (setErrSource src x s).streams = s.streams ∧ (setErrSource src x s).pools = s.pools ∧
    (setErrSource src x s).poolTag = s.poolTag ∧ (setErrSource src x s).indices = s.indices ∧
    (setErrSource src x s).queries = s.queries ∧ (setErrSource src x s).snaps = s.snaps ∧
    (setErrSource src x s).hatchHeld = s.hatchHeld ∧ (setErrSource src x s).gate = s.gate ∧
    (setErrSource src x s).farCal = s.farCal ∧ (setErrSource src x s).tap = s.tap :=
  ⟨rfl, rfl, rfl, rfl, rfl, rfl, rfl, rfl, rfl, rfl, rfl, rfl, rfl, rfl, rfl, rfl, rfl, rfl, rfl, rfl, rfl, rfl, rfl,
    rfl, rfl, rfl, rfl, rfl, rfl, rfl, rfl, rfl, rfl, rfl, rfl, rfl, rfl, rfl, rfl, rfl, rfl, rfl, rfl, rfl, rfl,
    rfl, rfl, rfl, rfl, rfl, rfl, rfl, rfl, rfl, rfl, rfl, rfl, rfl, rfl, rfl, rfl, rfl, rfl, rfl⟩

/-- setRing changes no field of the state but rings. -/
@[simp] theorem setRing_frame (fn : Nat) (r : Ring) (s : State) :
    (setRing fn r s).pending = s.pending ∧ (setRing fn r s).held = s.held ∧
    (setRing fn r s).releasing = s.releasing ∧ (setRing fn r s).reply = s.reply ∧ (setRing fn r s).irqs = s.irqs ∧
    (setRing fn r s).hostMem = s.hostMem ∧ (setRing fn r s).time = s.time ∧ (setRing fn r s).hclk = s.hclk ∧
    (setRing fn r s).free = s.free ∧ (setRing fn r s).regs = s.regs ∧ (setRing fn r s).readHold = s.readHold ∧
    (setRing fn r s).writeHold = s.writeHold ∧ (setRing fn r s).k4Held = s.k4Held ∧
    (setRing fn r s).tenants = s.tenants ∧ (setRing fn r s).fnTenant = s.fnTenant ∧ (setRing fn r s).hub = s.hub ∧
    (setRing fn r s).trellis = s.trellis ∧ (setRing fn r s).spares = s.spares ∧ (setRing fn r s).store = s.store ∧
    (setRing fn r s).errSources = s.errSources ∧ (setRing fn r s).errQueueA = s.errQueueA ∧
    (setRing fn r s).errQueueB = s.errQueueB ∧ (setRing fn r s).modLog = s.modLog ∧ (setRing fn r s).bays = s.bays ∧
    (setRing fn r s).cores = s.cores ∧ (setRing fn r s).near = s.near ∧ (setRing fn r s).slotDirty = s.slotDirty ∧
    (setRing fn r s).slotForm = s.slotForm ∧ (setRing fn r s).lattice = s.lattice ∧
    (setRing fn r s).colonnade = s.colonnade ∧ (setRing fn r s).arithAt = s.arithAt ∧
    (setRing fn r s).pavs = s.pavs ∧ (setRing fn r s).ropes = s.ropes ∧ (setRing fn r s).frames = s.frames ∧
    (setRing fn r s).sessions = s.sessions ∧ (setRing fn r s).objects = s.objects ∧ (setRing fn r s).far = s.far ∧
    (setRing fn r s).regions = s.regions ∧ (setRing fn r s).records = s.records ∧
    (setRing fn r s).farOut = s.farOut ∧ (setRing fn r s).farNext = s.farNext ∧
    (setRing fn r s).farGone = s.farGone ∧ (setRing fn r s).farScrub = s.farScrub ∧ (setRing fn r s).jobs = s.jobs ∧
    (setRing fn r s).dir = s.dir ∧ (setRing fn r s).cows = s.cows ∧ (setRing fn r s).poolWait = s.poolWait ∧
    (setRing fn r s).tails = s.tails ∧ (setRing fn r s).cutLen = s.cutLen ∧ (setRing fn r s).recents = s.recents ∧
    (setRing fn r s).engines = s.engines ∧ (setRing fn r s).sec = s.sec ∧ (setRing fn r s).tables = s.tables ∧
    (setRing fn r s).celay = s.celay ∧ (setRing fn r s).streams = s.streams ∧ (setRing fn r s).pools = s.pools ∧
    (setRing fn r s).poolTag = s.poolTag ∧ (setRing fn r s).indices = s.indices ∧
    (setRing fn r s).queries = s.queries ∧ (setRing fn r s).snaps = s.snaps ∧
    (setRing fn r s).hatchHeld = s.hatchHeld ∧ (setRing fn r s).gate = s.gate ∧ (setRing fn r s).farCal = s.farCal ∧
    (setRing fn r s).tap = s.tap :=
  ⟨rfl, rfl, rfl, rfl, rfl, rfl, rfl, rfl, rfl, rfl, rfl, rfl, rfl, rfl, rfl, rfl, rfl, rfl, rfl, rfl, rfl, rfl, rfl,
    rfl, rfl, rfl, rfl, rfl, rfl, rfl, rfl, rfl, rfl, rfl, rfl, rfl, rfl, rfl, rfl, rfl, rfl, rfl, rfl, rfl, rfl,
    rfl, rfl, rfl, rfl, rfl, rfl, rfl, rfl, rfl, rfl, rfl, rfl, rfl, rfl, rfl, rfl, rfl, rfl, rfl⟩

/-- onRing changes no field of the state but rings. -/
@[simp] theorem onRing_frame (fn : Nat) (f : Ring → Ring) (s : State) :
    (onRing fn f s).pending = s.pending ∧ (onRing fn f s).held = s.held ∧ (onRing fn f s).releasing = s.releasing ∧
    (onRing fn f s).reply = s.reply ∧ (onRing fn f s).irqs = s.irqs ∧ (onRing fn f s).hostMem = s.hostMem ∧
    (onRing fn f s).time = s.time ∧ (onRing fn f s).hclk = s.hclk ∧ (onRing fn f s).free = s.free ∧
    (onRing fn f s).regs = s.regs ∧ (onRing fn f s).readHold = s.readHold ∧ (onRing fn f s).writeHold = s.writeHold ∧
    (onRing fn f s).k4Held = s.k4Held ∧ (onRing fn f s).tenants = s.tenants ∧ (onRing fn f s).fnTenant = s.fnTenant ∧
    (onRing fn f s).hub = s.hub ∧ (onRing fn f s).trellis = s.trellis ∧ (onRing fn f s).spares = s.spares ∧
    (onRing fn f s).store = s.store ∧ (onRing fn f s).errSources = s.errSources ∧
    (onRing fn f s).errQueueA = s.errQueueA ∧ (onRing fn f s).errQueueB = s.errQueueB ∧
    (onRing fn f s).modLog = s.modLog ∧ (onRing fn f s).bays = s.bays ∧ (onRing fn f s).cores = s.cores ∧
    (onRing fn f s).near = s.near ∧ (onRing fn f s).slotDirty = s.slotDirty ∧ (onRing fn f s).slotForm = s.slotForm ∧
    (onRing fn f s).lattice = s.lattice ∧ (onRing fn f s).colonnade = s.colonnade ∧
    (onRing fn f s).arithAt = s.arithAt ∧ (onRing fn f s).pavs = s.pavs ∧ (onRing fn f s).ropes = s.ropes ∧
    (onRing fn f s).frames = s.frames ∧ (onRing fn f s).sessions = s.sessions ∧ (onRing fn f s).objects = s.objects ∧
    (onRing fn f s).far = s.far ∧ (onRing fn f s).regions = s.regions ∧ (onRing fn f s).records = s.records ∧
    (onRing fn f s).farOut = s.farOut ∧ (onRing fn f s).farNext = s.farNext ∧ (onRing fn f s).farGone = s.farGone ∧
    (onRing fn f s).farScrub = s.farScrub ∧ (onRing fn f s).jobs = s.jobs ∧ (onRing fn f s).dir = s.dir ∧
    (onRing fn f s).cows = s.cows ∧ (onRing fn f s).poolWait = s.poolWait ∧ (onRing fn f s).tails = s.tails ∧
    (onRing fn f s).cutLen = s.cutLen ∧ (onRing fn f s).recents = s.recents ∧ (onRing fn f s).engines = s.engines ∧
    (onRing fn f s).sec = s.sec ∧ (onRing fn f s).tables = s.tables ∧ (onRing fn f s).celay = s.celay ∧
    (onRing fn f s).streams = s.streams ∧ (onRing fn f s).pools = s.pools ∧ (onRing fn f s).poolTag = s.poolTag ∧
    (onRing fn f s).indices = s.indices ∧ (onRing fn f s).queries = s.queries ∧ (onRing fn f s).snaps = s.snaps ∧
    (onRing fn f s).hatchHeld = s.hatchHeld ∧ (onRing fn f s).gate = s.gate ∧ (onRing fn f s).farCal = s.farCal ∧
    (onRing fn f s).tap = s.tap :=
  ⟨rfl, rfl, rfl, rfl, rfl, rfl, rfl, rfl, rfl, rfl, rfl, rfl, rfl, rfl, rfl, rfl, rfl, rfl, rfl, rfl, rfl, rfl, rfl,
    rfl, rfl, rfl, rfl, rfl, rfl, rfl, rfl, rfl, rfl, rfl, rfl, rfl, rfl, rfl, rfl, rfl, rfl, rfl, rfl, rfl, rfl,
    rfl, rfl, rfl, rfl, rfl, rfl, rfl, rfl, rfl, rfl, rfl, rfl, rfl, rfl, rfl, rfl, rfl, rfl, rfl⟩

/-- dmaWrite changes no field of the state but hostMem. -/
@[simp] theorem dmaWrite_frame (p addr : Nat) (bs : List Byte) (s : State) :
    (dmaWrite p addr bs s).pending = s.pending ∧ (dmaWrite p addr bs s).held = s.held ∧
    (dmaWrite p addr bs s).releasing = s.releasing ∧ (dmaWrite p addr bs s).reply = s.reply ∧
    (dmaWrite p addr bs s).irqs = s.irqs ∧ (dmaWrite p addr bs s).time = s.time ∧
    (dmaWrite p addr bs s).hclk = s.hclk ∧ (dmaWrite p addr bs s).free = s.free ∧
    (dmaWrite p addr bs s).regs = s.regs ∧ (dmaWrite p addr bs s).readHold = s.readHold ∧
    (dmaWrite p addr bs s).writeHold = s.writeHold ∧ (dmaWrite p addr bs s).k4Held = s.k4Held ∧
    (dmaWrite p addr bs s).rings = s.rings ∧ (dmaWrite p addr bs s).tenants = s.tenants ∧
    (dmaWrite p addr bs s).fnTenant = s.fnTenant ∧ (dmaWrite p addr bs s).hub = s.hub ∧
    (dmaWrite p addr bs s).trellis = s.trellis ∧ (dmaWrite p addr bs s).spares = s.spares ∧
    (dmaWrite p addr bs s).store = s.store ∧ (dmaWrite p addr bs s).errSources = s.errSources ∧
    (dmaWrite p addr bs s).errQueueA = s.errQueueA ∧ (dmaWrite p addr bs s).errQueueB = s.errQueueB ∧
    (dmaWrite p addr bs s).modLog = s.modLog ∧ (dmaWrite p addr bs s).bays = s.bays ∧
    (dmaWrite p addr bs s).cores = s.cores ∧ (dmaWrite p addr bs s).near = s.near ∧
    (dmaWrite p addr bs s).slotDirty = s.slotDirty ∧ (dmaWrite p addr bs s).slotForm = s.slotForm ∧
    (dmaWrite p addr bs s).lattice = s.lattice ∧ (dmaWrite p addr bs s).colonnade = s.colonnade ∧
    (dmaWrite p addr bs s).arithAt = s.arithAt ∧ (dmaWrite p addr bs s).pavs = s.pavs ∧
    (dmaWrite p addr bs s).ropes = s.ropes ∧ (dmaWrite p addr bs s).frames = s.frames ∧
    (dmaWrite p addr bs s).sessions = s.sessions ∧ (dmaWrite p addr bs s).objects = s.objects ∧
    (dmaWrite p addr bs s).far = s.far ∧ (dmaWrite p addr bs s).regions = s.regions ∧
    (dmaWrite p addr bs s).records = s.records ∧ (dmaWrite p addr bs s).farOut = s.farOut ∧
    (dmaWrite p addr bs s).farNext = s.farNext ∧ (dmaWrite p addr bs s).farGone = s.farGone ∧
    (dmaWrite p addr bs s).farScrub = s.farScrub ∧ (dmaWrite p addr bs s).jobs = s.jobs ∧
    (dmaWrite p addr bs s).dir = s.dir ∧ (dmaWrite p addr bs s).cows = s.cows ∧
    (dmaWrite p addr bs s).poolWait = s.poolWait ∧ (dmaWrite p addr bs s).tails = s.tails ∧
    (dmaWrite p addr bs s).cutLen = s.cutLen ∧ (dmaWrite p addr bs s).recents = s.recents ∧
    (dmaWrite p addr bs s).engines = s.engines ∧ (dmaWrite p addr bs s).sec = s.sec ∧
    (dmaWrite p addr bs s).tables = s.tables ∧ (dmaWrite p addr bs s).celay = s.celay ∧
    (dmaWrite p addr bs s).streams = s.streams ∧ (dmaWrite p addr bs s).pools = s.pools ∧
    (dmaWrite p addr bs s).poolTag = s.poolTag ∧ (dmaWrite p addr bs s).indices = s.indices ∧
    (dmaWrite p addr bs s).queries = s.queries ∧ (dmaWrite p addr bs s).snaps = s.snaps ∧
    (dmaWrite p addr bs s).hatchHeld = s.hatchHeld ∧ (dmaWrite p addr bs s).gate = s.gate ∧
    (dmaWrite p addr bs s).farCal = s.farCal ∧ (dmaWrite p addr bs s).tap = s.tap :=
  ⟨rfl, rfl, rfl, rfl, rfl, rfl, rfl, rfl, rfl, rfl, rfl, rfl, rfl, rfl, rfl, rfl, rfl, rfl, rfl, rfl, rfl, rfl, rfl,
    rfl, rfl, rfl, rfl, rfl, rfl, rfl, rfl, rfl, rfl, rfl, rfl, rfl, rfl, rfl, rfl, rfl, rfl, rfl, rfl, rfl, rfl,
    rfl, rfl, rfl, rfl, rfl, rfl, rfl, rfl, rfl, rfl, rfl, rfl, rfl, rfl, rfl, rfl, rfl, rfl, rfl⟩

/-- onTenant changes no field of the state but tenants. -/
@[simp] theorem onTenant_frame (p t : Nat) (f : Tenant → Tenant) (s : State) :
    (onTenant p t f s).pending = s.pending ∧ (onTenant p t f s).held = s.held ∧
    (onTenant p t f s).releasing = s.releasing ∧ (onTenant p t f s).reply = s.reply ∧
    (onTenant p t f s).irqs = s.irqs ∧ (onTenant p t f s).hostMem = s.hostMem ∧ (onTenant p t f s).time = s.time ∧
    (onTenant p t f s).hclk = s.hclk ∧ (onTenant p t f s).free = s.free ∧ (onTenant p t f s).regs = s.regs ∧
    (onTenant p t f s).readHold = s.readHold ∧ (onTenant p t f s).writeHold = s.writeHold ∧
    (onTenant p t f s).k4Held = s.k4Held ∧ (onTenant p t f s).rings = s.rings ∧
    (onTenant p t f s).fnTenant = s.fnTenant ∧ (onTenant p t f s).hub = s.hub ∧
    (onTenant p t f s).trellis = s.trellis ∧ (onTenant p t f s).spares = s.spares ∧
    (onTenant p t f s).store = s.store ∧ (onTenant p t f s).errSources = s.errSources ∧
    (onTenant p t f s).errQueueA = s.errQueueA ∧ (onTenant p t f s).errQueueB = s.errQueueB ∧
    (onTenant p t f s).modLog = s.modLog ∧ (onTenant p t f s).bays = s.bays ∧ (onTenant p t f s).cores = s.cores ∧
    (onTenant p t f s).near = s.near ∧ (onTenant p t f s).slotDirty = s.slotDirty ∧
    (onTenant p t f s).slotForm = s.slotForm ∧ (onTenant p t f s).lattice = s.lattice ∧
    (onTenant p t f s).colonnade = s.colonnade ∧ (onTenant p t f s).arithAt = s.arithAt ∧
    (onTenant p t f s).pavs = s.pavs ∧ (onTenant p t f s).ropes = s.ropes ∧ (onTenant p t f s).frames = s.frames ∧
    (onTenant p t f s).sessions = s.sessions ∧ (onTenant p t f s).objects = s.objects ∧
    (onTenant p t f s).far = s.far ∧ (onTenant p t f s).regions = s.regions ∧
    (onTenant p t f s).records = s.records ∧ (onTenant p t f s).farOut = s.farOut ∧
    (onTenant p t f s).farNext = s.farNext ∧ (onTenant p t f s).farGone = s.farGone ∧
    (onTenant p t f s).farScrub = s.farScrub ∧ (onTenant p t f s).jobs = s.jobs ∧ (onTenant p t f s).dir = s.dir ∧
    (onTenant p t f s).cows = s.cows ∧ (onTenant p t f s).poolWait = s.poolWait ∧
    (onTenant p t f s).tails = s.tails ∧ (onTenant p t f s).cutLen = s.cutLen ∧
    (onTenant p t f s).recents = s.recents ∧ (onTenant p t f s).engines = s.engines ∧
    (onTenant p t f s).sec = s.sec ∧ (onTenant p t f s).tables = s.tables ∧ (onTenant p t f s).celay = s.celay ∧
    (onTenant p t f s).streams = s.streams ∧ (onTenant p t f s).pools = s.pools ∧
    (onTenant p t f s).poolTag = s.poolTag ∧ (onTenant p t f s).indices = s.indices ∧
    (onTenant p t f s).queries = s.queries ∧ (onTenant p t f s).snaps = s.snaps ∧
    (onTenant p t f s).hatchHeld = s.hatchHeld ∧ (onTenant p t f s).gate = s.gate ∧
    (onTenant p t f s).farCal = s.farCal ∧ (onTenant p t f s).tap = s.tap :=
  ⟨rfl, rfl, rfl, rfl, rfl, rfl, rfl, rfl, rfl, rfl, rfl, rfl, rfl, rfl, rfl, rfl, rfl, rfl, rfl, rfl, rfl, rfl, rfl,
    rfl, rfl, rfl, rfl, rfl, rfl, rfl, rfl, rfl, rfl, rfl, rfl, rfl, rfl, rfl, rfl, rfl, rfl, rfl, rfl, rfl, rfl,
    rfl, rfl, rfl, rfl, rfl, rfl, rfl, rfl, rfl, rfl, rfl, rfl, rfl, rfl, rfl, rfl, rfl, rfl, rfl⟩

/-- holdReq changes no field of the state but held. -/
@[simp] theorem holdReq_frame (id : ReqId) (why : HeldFor) (cmd : Instr) (s : State) :
    (holdReq id why cmd s).pending = s.pending ∧ (holdReq id why cmd s).releasing = s.releasing ∧
    (holdReq id why cmd s).reply = s.reply ∧ (holdReq id why cmd s).irqs = s.irqs ∧
    (holdReq id why cmd s).hostMem = s.hostMem ∧ (holdReq id why cmd s).time = s.time ∧
    (holdReq id why cmd s).hclk = s.hclk ∧ (holdReq id why cmd s).free = s.free ∧
    (holdReq id why cmd s).regs = s.regs ∧ (holdReq id why cmd s).readHold = s.readHold ∧
    (holdReq id why cmd s).writeHold = s.writeHold ∧ (holdReq id why cmd s).k4Held = s.k4Held ∧
    (holdReq id why cmd s).rings = s.rings ∧ (holdReq id why cmd s).tenants = s.tenants ∧
    (holdReq id why cmd s).fnTenant = s.fnTenant ∧ (holdReq id why cmd s).hub = s.hub ∧
    (holdReq id why cmd s).trellis = s.trellis ∧ (holdReq id why cmd s).spares = s.spares ∧
    (holdReq id why cmd s).store = s.store ∧ (holdReq id why cmd s).errSources = s.errSources ∧
    (holdReq id why cmd s).errQueueA = s.errQueueA ∧ (holdReq id why cmd s).errQueueB = s.errQueueB ∧
    (holdReq id why cmd s).modLog = s.modLog ∧ (holdReq id why cmd s).bays = s.bays ∧
    (holdReq id why cmd s).cores = s.cores ∧ (holdReq id why cmd s).near = s.near ∧
    (holdReq id why cmd s).slotDirty = s.slotDirty ∧ (holdReq id why cmd s).slotForm = s.slotForm ∧
    (holdReq id why cmd s).lattice = s.lattice ∧ (holdReq id why cmd s).colonnade = s.colonnade ∧
    (holdReq id why cmd s).arithAt = s.arithAt ∧ (holdReq id why cmd s).pavs = s.pavs ∧
    (holdReq id why cmd s).ropes = s.ropes ∧ (holdReq id why cmd s).frames = s.frames ∧
    (holdReq id why cmd s).sessions = s.sessions ∧ (holdReq id why cmd s).objects = s.objects ∧
    (holdReq id why cmd s).far = s.far ∧ (holdReq id why cmd s).regions = s.regions ∧
    (holdReq id why cmd s).records = s.records ∧ (holdReq id why cmd s).farOut = s.farOut ∧
    (holdReq id why cmd s).farNext = s.farNext ∧ (holdReq id why cmd s).farGone = s.farGone ∧
    (holdReq id why cmd s).farScrub = s.farScrub ∧ (holdReq id why cmd s).jobs = s.jobs ∧
    (holdReq id why cmd s).dir = s.dir ∧ (holdReq id why cmd s).cows = s.cows ∧
    (holdReq id why cmd s).poolWait = s.poolWait ∧ (holdReq id why cmd s).tails = s.tails ∧
    (holdReq id why cmd s).cutLen = s.cutLen ∧ (holdReq id why cmd s).recents = s.recents ∧
    (holdReq id why cmd s).engines = s.engines ∧ (holdReq id why cmd s).sec = s.sec ∧
    (holdReq id why cmd s).tables = s.tables ∧ (holdReq id why cmd s).celay = s.celay ∧
    (holdReq id why cmd s).streams = s.streams ∧ (holdReq id why cmd s).pools = s.pools ∧
    (holdReq id why cmd s).poolTag = s.poolTag ∧ (holdReq id why cmd s).indices = s.indices ∧
    (holdReq id why cmd s).queries = s.queries ∧ (holdReq id why cmd s).snaps = s.snaps ∧
    (holdReq id why cmd s).hatchHeld = s.hatchHeld ∧ (holdReq id why cmd s).gate = s.gate ∧
    (holdReq id why cmd s).farCal = s.farCal ∧ (holdReq id why cmd s).tap = s.tap :=
  ⟨rfl, rfl, rfl, rfl, rfl, rfl, rfl, rfl, rfl, rfl, rfl, rfl, rfl, rfl, rfl, rfl, rfl, rfl, rfl, rfl, rfl, rfl, rfl,
    rfl, rfl, rfl, rfl, rfl, rfl, rfl, rfl, rfl, rfl, rfl, rfl, rfl, rfl, rfl, rfl, rfl, rfl, rfl, rfl, rfl, rfl,
    rfl, rfl, rfl, rfl, rfl, rfl, rfl, rfl, rfl, rfl, rfl, rfl, rfl, rfl, rfl, rfl, rfl, rfl, rfl⟩

/-- setCore changes no field of the state but cores. -/
@[simp] theorem setCore_frame (k : Nat) (c : Core) (s : State) :
    (setCore k c s).pending = s.pending ∧ (setCore k c s).held = s.held ∧ (setCore k c s).releasing = s.releasing ∧
    (setCore k c s).reply = s.reply ∧ (setCore k c s).irqs = s.irqs ∧ (setCore k c s).hostMem = s.hostMem ∧
    (setCore k c s).time = s.time ∧ (setCore k c s).hclk = s.hclk ∧ (setCore k c s).free = s.free ∧
    (setCore k c s).regs = s.regs ∧ (setCore k c s).readHold = s.readHold ∧ (setCore k c s).writeHold = s.writeHold ∧
    (setCore k c s).k4Held = s.k4Held ∧ (setCore k c s).rings = s.rings ∧ (setCore k c s).tenants = s.tenants ∧
    (setCore k c s).fnTenant = s.fnTenant ∧ (setCore k c s).hub = s.hub ∧ (setCore k c s).trellis = s.trellis ∧
    (setCore k c s).spares = s.spares ∧ (setCore k c s).store = s.store ∧ (setCore k c s).errSources = s.errSources ∧
    (setCore k c s).errQueueA = s.errQueueA ∧ (setCore k c s).errQueueB = s.errQueueB ∧
    (setCore k c s).modLog = s.modLog ∧ (setCore k c s).bays = s.bays ∧ (setCore k c s).near = s.near ∧
    (setCore k c s).slotDirty = s.slotDirty ∧ (setCore k c s).slotForm = s.slotForm ∧
    (setCore k c s).lattice = s.lattice ∧ (setCore k c s).colonnade = s.colonnade ∧
    (setCore k c s).arithAt = s.arithAt ∧ (setCore k c s).pavs = s.pavs ∧ (setCore k c s).ropes = s.ropes ∧
    (setCore k c s).frames = s.frames ∧ (setCore k c s).sessions = s.sessions ∧ (setCore k c s).objects = s.objects ∧
    (setCore k c s).far = s.far ∧ (setCore k c s).regions = s.regions ∧ (setCore k c s).records = s.records ∧
    (setCore k c s).farOut = s.farOut ∧ (setCore k c s).farNext = s.farNext ∧ (setCore k c s).farGone = s.farGone ∧
    (setCore k c s).farScrub = s.farScrub ∧ (setCore k c s).jobs = s.jobs ∧ (setCore k c s).dir = s.dir ∧
    (setCore k c s).cows = s.cows ∧ (setCore k c s).poolWait = s.poolWait ∧ (setCore k c s).tails = s.tails ∧
    (setCore k c s).cutLen = s.cutLen ∧ (setCore k c s).recents = s.recents ∧ (setCore k c s).engines = s.engines ∧
    (setCore k c s).sec = s.sec ∧ (setCore k c s).tables = s.tables ∧ (setCore k c s).celay = s.celay ∧
    (setCore k c s).streams = s.streams ∧ (setCore k c s).pools = s.pools ∧ (setCore k c s).poolTag = s.poolTag ∧
    (setCore k c s).indices = s.indices ∧ (setCore k c s).queries = s.queries ∧ (setCore k c s).snaps = s.snaps ∧
    (setCore k c s).hatchHeld = s.hatchHeld ∧ (setCore k c s).gate = s.gate ∧ (setCore k c s).farCal = s.farCal ∧
    (setCore k c s).tap = s.tap :=
  ⟨rfl, rfl, rfl, rfl, rfl, rfl, rfl, rfl, rfl, rfl, rfl, rfl, rfl, rfl, rfl, rfl, rfl, rfl, rfl, rfl, rfl, rfl, rfl,
    rfl, rfl, rfl, rfl, rfl, rfl, rfl, rfl, rfl, rfl, rfl, rfl, rfl, rfl, rfl, rfl, rfl, rfl, rfl, rfl, rfl, rfl,
    rfl, rfl, rfl, rfl, rfl, rfl, rfl, rfl, rfl, rfl, rfl, rfl, rfl, rfl, rfl, rfl, rfl, rfl, rfl⟩

/-- setBay changes no field of the state but bays. -/
@[simp] theorem setBay_frame (b : Nat) (x : Bay) (s : State) :
    (setBay b x s).pending = s.pending ∧ (setBay b x s).held = s.held ∧ (setBay b x s).releasing = s.releasing ∧
    (setBay b x s).reply = s.reply ∧ (setBay b x s).irqs = s.irqs ∧ (setBay b x s).hostMem = s.hostMem ∧
    (setBay b x s).time = s.time ∧ (setBay b x s).hclk = s.hclk ∧ (setBay b x s).free = s.free ∧
    (setBay b x s).regs = s.regs ∧ (setBay b x s).readHold = s.readHold ∧ (setBay b x s).writeHold = s.writeHold ∧
    (setBay b x s).k4Held = s.k4Held ∧ (setBay b x s).rings = s.rings ∧ (setBay b x s).tenants = s.tenants ∧
    (setBay b x s).fnTenant = s.fnTenant ∧ (setBay b x s).hub = s.hub ∧ (setBay b x s).trellis = s.trellis ∧
    (setBay b x s).spares = s.spares ∧ (setBay b x s).store = s.store ∧ (setBay b x s).errSources = s.errSources ∧
    (setBay b x s).errQueueA = s.errQueueA ∧ (setBay b x s).errQueueB = s.errQueueB ∧
    (setBay b x s).modLog = s.modLog ∧ (setBay b x s).cores = s.cores ∧ (setBay b x s).near = s.near ∧
    (setBay b x s).slotDirty = s.slotDirty ∧ (setBay b x s).slotForm = s.slotForm ∧
    (setBay b x s).lattice = s.lattice ∧ (setBay b x s).colonnade = s.colonnade ∧
    (setBay b x s).arithAt = s.arithAt ∧ (setBay b x s).pavs = s.pavs ∧ (setBay b x s).ropes = s.ropes ∧
    (setBay b x s).frames = s.frames ∧ (setBay b x s).sessions = s.sessions ∧ (setBay b x s).objects = s.objects ∧
    (setBay b x s).far = s.far ∧ (setBay b x s).regions = s.regions ∧ (setBay b x s).records = s.records ∧
    (setBay b x s).farOut = s.farOut ∧ (setBay b x s).farNext = s.farNext ∧ (setBay b x s).farGone = s.farGone ∧
    (setBay b x s).farScrub = s.farScrub ∧ (setBay b x s).jobs = s.jobs ∧ (setBay b x s).dir = s.dir ∧
    (setBay b x s).cows = s.cows ∧ (setBay b x s).poolWait = s.poolWait ∧ (setBay b x s).tails = s.tails ∧
    (setBay b x s).cutLen = s.cutLen ∧ (setBay b x s).recents = s.recents ∧ (setBay b x s).engines = s.engines ∧
    (setBay b x s).sec = s.sec ∧ (setBay b x s).tables = s.tables ∧ (setBay b x s).celay = s.celay ∧
    (setBay b x s).streams = s.streams ∧ (setBay b x s).pools = s.pools ∧ (setBay b x s).poolTag = s.poolTag ∧
    (setBay b x s).indices = s.indices ∧ (setBay b x s).queries = s.queries ∧ (setBay b x s).snaps = s.snaps ∧
    (setBay b x s).hatchHeld = s.hatchHeld ∧ (setBay b x s).gate = s.gate ∧ (setBay b x s).farCal = s.farCal ∧
    (setBay b x s).tap = s.tap :=
  ⟨rfl, rfl, rfl, rfl, rfl, rfl, rfl, rfl, rfl, rfl, rfl, rfl, rfl, rfl, rfl, rfl, rfl, rfl, rfl, rfl, rfl, rfl, rfl,
    rfl, rfl, rfl, rfl, rfl, rfl, rfl, rfl, rfl, rfl, rfl, rfl, rfl, rfl, rfl, rfl, rfl, rfl, rfl, rfl, rfl, rfl,
    rfl, rfl, rfl, rfl, rfl, rfl, rfl, rfl, rfl, rfl, rfl, rfl, rfl, rfl, rfl, rfl, rfl, rfl, rfl⟩

/-- onBay changes no field of the state but bays. -/
@[simp] theorem onBay_frame (b : Nat) (f : Bay → Bay) (s : State) :
    (onBay b f s).pending = s.pending ∧ (onBay b f s).held = s.held ∧ (onBay b f s).releasing = s.releasing ∧
    (onBay b f s).reply = s.reply ∧ (onBay b f s).irqs = s.irqs ∧ (onBay b f s).hostMem = s.hostMem ∧
    (onBay b f s).time = s.time ∧ (onBay b f s).hclk = s.hclk ∧ (onBay b f s).free = s.free ∧
    (onBay b f s).regs = s.regs ∧ (onBay b f s).readHold = s.readHold ∧ (onBay b f s).writeHold = s.writeHold ∧
    (onBay b f s).k4Held = s.k4Held ∧ (onBay b f s).rings = s.rings ∧ (onBay b f s).tenants = s.tenants ∧
    (onBay b f s).fnTenant = s.fnTenant ∧ (onBay b f s).hub = s.hub ∧ (onBay b f s).trellis = s.trellis ∧
    (onBay b f s).spares = s.spares ∧ (onBay b f s).store = s.store ∧ (onBay b f s).errSources = s.errSources ∧
    (onBay b f s).errQueueA = s.errQueueA ∧ (onBay b f s).errQueueB = s.errQueueB ∧ (onBay b f s).modLog = s.modLog ∧
    (onBay b f s).cores = s.cores ∧ (onBay b f s).near = s.near ∧ (onBay b f s).slotDirty = s.slotDirty ∧
    (onBay b f s).slotForm = s.slotForm ∧ (onBay b f s).lattice = s.lattice ∧ (onBay b f s).colonnade = s.colonnade ∧
    (onBay b f s).arithAt = s.arithAt ∧ (onBay b f s).pavs = s.pavs ∧ (onBay b f s).ropes = s.ropes ∧
    (onBay b f s).frames = s.frames ∧ (onBay b f s).sessions = s.sessions ∧ (onBay b f s).objects = s.objects ∧
    (onBay b f s).far = s.far ∧ (onBay b f s).regions = s.regions ∧ (onBay b f s).records = s.records ∧
    (onBay b f s).farOut = s.farOut ∧ (onBay b f s).farNext = s.farNext ∧ (onBay b f s).farGone = s.farGone ∧
    (onBay b f s).farScrub = s.farScrub ∧ (onBay b f s).jobs = s.jobs ∧ (onBay b f s).dir = s.dir ∧
    (onBay b f s).cows = s.cows ∧ (onBay b f s).poolWait = s.poolWait ∧ (onBay b f s).tails = s.tails ∧
    (onBay b f s).cutLen = s.cutLen ∧ (onBay b f s).recents = s.recents ∧ (onBay b f s).engines = s.engines ∧
    (onBay b f s).sec = s.sec ∧ (onBay b f s).tables = s.tables ∧ (onBay b f s).celay = s.celay ∧
    (onBay b f s).streams = s.streams ∧ (onBay b f s).pools = s.pools ∧ (onBay b f s).poolTag = s.poolTag ∧
    (onBay b f s).indices = s.indices ∧ (onBay b f s).queries = s.queries ∧ (onBay b f s).snaps = s.snaps ∧
    (onBay b f s).hatchHeld = s.hatchHeld ∧ (onBay b f s).gate = s.gate ∧ (onBay b f s).farCal = s.farCal ∧
    (onBay b f s).tap = s.tap :=
  ⟨rfl, rfl, rfl, rfl, rfl, rfl, rfl, rfl, rfl, rfl, rfl, rfl, rfl, rfl, rfl, rfl, rfl, rfl, rfl, rfl, rfl, rfl, rfl,
    rfl, rfl, rfl, rfl, rfl, rfl, rfl, rfl, rfl, rfl, rfl, rfl, rfl, rfl, rfl, rfl, rfl, rfl, rfl, rfl, rfl, rfl,
    rfl, rfl, rfl, rfl, rfl, rfl, rfl, rfl, rfl, rfl, rfl, rfl, rfl, rfl, rfl, rfl, rfl, rfl, rfl⟩

/-- setFrame changes no field of the state but frames. -/
@[simp] theorem setFrame_frame (key : Nat) (f : Frame) (s : State) :
    (setFrame key f s).pending = s.pending ∧ (setFrame key f s).held = s.held ∧
    (setFrame key f s).releasing = s.releasing ∧ (setFrame key f s).reply = s.reply ∧
    (setFrame key f s).irqs = s.irqs ∧ (setFrame key f s).hostMem = s.hostMem ∧ (setFrame key f s).time = s.time ∧
    (setFrame key f s).hclk = s.hclk ∧ (setFrame key f s).free = s.free ∧ (setFrame key f s).regs = s.regs ∧
    (setFrame key f s).readHold = s.readHold ∧ (setFrame key f s).writeHold = s.writeHold ∧
    (setFrame key f s).k4Held = s.k4Held ∧ (setFrame key f s).rings = s.rings ∧
    (setFrame key f s).tenants = s.tenants ∧ (setFrame key f s).fnTenant = s.fnTenant ∧
    (setFrame key f s).hub = s.hub ∧ (setFrame key f s).trellis = s.trellis ∧ (setFrame key f s).spares = s.spares ∧
    (setFrame key f s).store = s.store ∧ (setFrame key f s).errSources = s.errSources ∧
    (setFrame key f s).errQueueA = s.errQueueA ∧ (setFrame key f s).errQueueB = s.errQueueB ∧
    (setFrame key f s).modLog = s.modLog ∧ (setFrame key f s).bays = s.bays ∧ (setFrame key f s).cores = s.cores ∧
    (setFrame key f s).near = s.near ∧ (setFrame key f s).slotDirty = s.slotDirty ∧
    (setFrame key f s).slotForm = s.slotForm ∧ (setFrame key f s).lattice = s.lattice ∧
    (setFrame key f s).colonnade = s.colonnade ∧ (setFrame key f s).arithAt = s.arithAt ∧
    (setFrame key f s).pavs = s.pavs ∧ (setFrame key f s).ropes = s.ropes ∧
    (setFrame key f s).sessions = s.sessions ∧ (setFrame key f s).objects = s.objects ∧
    (setFrame key f s).far = s.far ∧ (setFrame key f s).regions = s.regions ∧
    (setFrame key f s).records = s.records ∧ (setFrame key f s).farOut = s.farOut ∧
    (setFrame key f s).farNext = s.farNext ∧ (setFrame key f s).farGone = s.farGone ∧
    (setFrame key f s).farScrub = s.farScrub ∧ (setFrame key f s).jobs = s.jobs ∧ (setFrame key f s).dir = s.dir ∧
    (setFrame key f s).cows = s.cows ∧ (setFrame key f s).poolWait = s.poolWait ∧
    (setFrame key f s).tails = s.tails ∧ (setFrame key f s).cutLen = s.cutLen ∧
    (setFrame key f s).recents = s.recents ∧ (setFrame key f s).engines = s.engines ∧
    (setFrame key f s).sec = s.sec ∧ (setFrame key f s).tables = s.tables ∧ (setFrame key f s).celay = s.celay ∧
    (setFrame key f s).streams = s.streams ∧ (setFrame key f s).pools = s.pools ∧
    (setFrame key f s).poolTag = s.poolTag ∧ (setFrame key f s).indices = s.indices ∧
    (setFrame key f s).queries = s.queries ∧ (setFrame key f s).snaps = s.snaps ∧
    (setFrame key f s).hatchHeld = s.hatchHeld ∧ (setFrame key f s).gate = s.gate ∧
    (setFrame key f s).farCal = s.farCal ∧ (setFrame key f s).tap = s.tap :=
  ⟨rfl, rfl, rfl, rfl, rfl, rfl, rfl, rfl, rfl, rfl, rfl, rfl, rfl, rfl, rfl, rfl, rfl, rfl, rfl, rfl, rfl, rfl, rfl,
    rfl, rfl, rfl, rfl, rfl, rfl, rfl, rfl, rfl, rfl, rfl, rfl, rfl, rfl, rfl, rfl, rfl, rfl, rfl, rfl, rfl, rfl,
    rfl, rfl, rfl, rfl, rfl, rfl, rfl, rfl, rfl, rfl, rfl, rfl, rfl, rfl, rfl, rfl, rfl, rfl, rfl⟩

/-- onCal changes no field of the state but farCal. -/
@[simp] theorem onCal_frame (f : FarCal → FarCal) (s : State) :
    (onCal f s).pending = s.pending ∧ (onCal f s).held = s.held ∧ (onCal f s).releasing = s.releasing ∧
    (onCal f s).reply = s.reply ∧ (onCal f s).irqs = s.irqs ∧ (onCal f s).hostMem = s.hostMem ∧
    (onCal f s).time = s.time ∧ (onCal f s).hclk = s.hclk ∧ (onCal f s).free = s.free ∧ (onCal f s).regs = s.regs ∧
    (onCal f s).readHold = s.readHold ∧ (onCal f s).writeHold = s.writeHold ∧ (onCal f s).k4Held = s.k4Held ∧
    (onCal f s).rings = s.rings ∧ (onCal f s).tenants = s.tenants ∧ (onCal f s).fnTenant = s.fnTenant ∧
    (onCal f s).hub = s.hub ∧ (onCal f s).trellis = s.trellis ∧ (onCal f s).spares = s.spares ∧
    (onCal f s).store = s.store ∧ (onCal f s).errSources = s.errSources ∧ (onCal f s).errQueueA = s.errQueueA ∧
    (onCal f s).errQueueB = s.errQueueB ∧ (onCal f s).modLog = s.modLog ∧ (onCal f s).bays = s.bays ∧
    (onCal f s).cores = s.cores ∧ (onCal f s).near = s.near ∧ (onCal f s).slotDirty = s.slotDirty ∧
    (onCal f s).slotForm = s.slotForm ∧ (onCal f s).lattice = s.lattice ∧ (onCal f s).colonnade = s.colonnade ∧
    (onCal f s).arithAt = s.arithAt ∧ (onCal f s).pavs = s.pavs ∧ (onCal f s).ropes = s.ropes ∧
    (onCal f s).frames = s.frames ∧ (onCal f s).sessions = s.sessions ∧ (onCal f s).objects = s.objects ∧
    (onCal f s).far = s.far ∧ (onCal f s).regions = s.regions ∧ (onCal f s).records = s.records ∧
    (onCal f s).farOut = s.farOut ∧ (onCal f s).farNext = s.farNext ∧ (onCal f s).farGone = s.farGone ∧
    (onCal f s).farScrub = s.farScrub ∧ (onCal f s).jobs = s.jobs ∧ (onCal f s).dir = s.dir ∧
    (onCal f s).cows = s.cows ∧ (onCal f s).poolWait = s.poolWait ∧ (onCal f s).tails = s.tails ∧
    (onCal f s).cutLen = s.cutLen ∧ (onCal f s).recents = s.recents ∧ (onCal f s).engines = s.engines ∧
    (onCal f s).sec = s.sec ∧ (onCal f s).tables = s.tables ∧ (onCal f s).celay = s.celay ∧
    (onCal f s).streams = s.streams ∧ (onCal f s).pools = s.pools ∧ (onCal f s).poolTag = s.poolTag ∧
    (onCal f s).indices = s.indices ∧ (onCal f s).queries = s.queries ∧ (onCal f s).snaps = s.snaps ∧
    (onCal f s).hatchHeld = s.hatchHeld ∧ (onCal f s).gate = s.gate ∧ (onCal f s).tap = s.tap :=
  ⟨rfl, rfl, rfl, rfl, rfl, rfl, rfl, rfl, rfl, rfl, rfl, rfl, rfl, rfl, rfl, rfl, rfl, rfl, rfl, rfl, rfl, rfl, rfl,
    rfl, rfl, rfl, rfl, rfl, rfl, rfl, rfl, rfl, rfl, rfl, rfl, rfl, rfl, rfl, rfl, rfl, rfl, rfl, rfl, rfl, rfl,
    rfl, rfl, rfl, rfl, rfl, rfl, rfl, rfl, rfl, rfl, rfl, rfl, rfl, rfl, rfl, rfl, rfl, rfl, rfl⟩

/-- onCly changes no field of the state but celay. -/
@[simp] theorem onCly_frame (p : Nat) (f : CelayPort → CelayPort) (s : State) :
    (onCly p f s).pending = s.pending ∧ (onCly p f s).held = s.held ∧ (onCly p f s).releasing = s.releasing ∧
    (onCly p f s).reply = s.reply ∧ (onCly p f s).irqs = s.irqs ∧ (onCly p f s).hostMem = s.hostMem ∧
    (onCly p f s).time = s.time ∧ (onCly p f s).hclk = s.hclk ∧ (onCly p f s).free = s.free ∧
    (onCly p f s).regs = s.regs ∧ (onCly p f s).readHold = s.readHold ∧ (onCly p f s).writeHold = s.writeHold ∧
    (onCly p f s).k4Held = s.k4Held ∧ (onCly p f s).rings = s.rings ∧ (onCly p f s).tenants = s.tenants ∧
    (onCly p f s).fnTenant = s.fnTenant ∧ (onCly p f s).hub = s.hub ∧ (onCly p f s).trellis = s.trellis ∧
    (onCly p f s).spares = s.spares ∧ (onCly p f s).store = s.store ∧ (onCly p f s).errSources = s.errSources ∧
    (onCly p f s).errQueueA = s.errQueueA ∧ (onCly p f s).errQueueB = s.errQueueB ∧ (onCly p f s).modLog = s.modLog ∧
    (onCly p f s).bays = s.bays ∧ (onCly p f s).cores = s.cores ∧ (onCly p f s).near = s.near ∧
    (onCly p f s).slotDirty = s.slotDirty ∧ (onCly p f s).slotForm = s.slotForm ∧ (onCly p f s).lattice = s.lattice ∧
    (onCly p f s).colonnade = s.colonnade ∧ (onCly p f s).arithAt = s.arithAt ∧ (onCly p f s).pavs = s.pavs ∧
    (onCly p f s).ropes = s.ropes ∧ (onCly p f s).frames = s.frames ∧ (onCly p f s).sessions = s.sessions ∧
    (onCly p f s).objects = s.objects ∧ (onCly p f s).far = s.far ∧ (onCly p f s).regions = s.regions ∧
    (onCly p f s).records = s.records ∧ (onCly p f s).farOut = s.farOut ∧ (onCly p f s).farNext = s.farNext ∧
    (onCly p f s).farGone = s.farGone ∧ (onCly p f s).farScrub = s.farScrub ∧ (onCly p f s).jobs = s.jobs ∧
    (onCly p f s).dir = s.dir ∧ (onCly p f s).cows = s.cows ∧ (onCly p f s).poolWait = s.poolWait ∧
    (onCly p f s).tails = s.tails ∧ (onCly p f s).cutLen = s.cutLen ∧ (onCly p f s).recents = s.recents ∧
    (onCly p f s).engines = s.engines ∧ (onCly p f s).sec = s.sec ∧ (onCly p f s).tables = s.tables ∧
    (onCly p f s).streams = s.streams ∧ (onCly p f s).pools = s.pools ∧ (onCly p f s).poolTag = s.poolTag ∧
    (onCly p f s).indices = s.indices ∧ (onCly p f s).queries = s.queries ∧ (onCly p f s).snaps = s.snaps ∧
    (onCly p f s).hatchHeld = s.hatchHeld ∧ (onCly p f s).gate = s.gate ∧ (onCly p f s).farCal = s.farCal ∧
    (onCly p f s).tap = s.tap :=
  ⟨rfl, rfl, rfl, rfl, rfl, rfl, rfl, rfl, rfl, rfl, rfl, rfl, rfl, rfl, rfl, rfl, rfl, rfl, rfl, rfl, rfl, rfl, rfl,
    rfl, rfl, rfl, rfl, rfl, rfl, rfl, rfl, rfl, rfl, rfl, rfl, rfl, rfl, rfl, rfl, rfl, rfl, rfl, rfl, rfl, rfl,
    rfl, rfl, rfl, rfl, rfl, rfl, rfl, rfl, rfl, rfl, rfl, rfl, rfl, rfl, rfl, rfl, rfl, rfl, rfl⟩

/-- drew changes no field of the state but free. -/
@[simp] theorem drew_frame (s : State) :
    (drew s).pending = s.pending ∧ (drew s).held = s.held ∧ (drew s).releasing = s.releasing ∧
    (drew s).reply = s.reply ∧ (drew s).irqs = s.irqs ∧ (drew s).hostMem = s.hostMem ∧ (drew s).time = s.time ∧
    (drew s).hclk = s.hclk ∧ (drew s).regs = s.regs ∧ (drew s).readHold = s.readHold ∧
    (drew s).writeHold = s.writeHold ∧ (drew s).k4Held = s.k4Held ∧ (drew s).rings = s.rings ∧
    (drew s).tenants = s.tenants ∧ (drew s).fnTenant = s.fnTenant ∧ (drew s).hub = s.hub ∧
    (drew s).trellis = s.trellis ∧ (drew s).spares = s.spares ∧ (drew s).store = s.store ∧
    (drew s).errSources = s.errSources ∧ (drew s).errQueueA = s.errQueueA ∧ (drew s).errQueueB = s.errQueueB ∧
    (drew s).modLog = s.modLog ∧ (drew s).bays = s.bays ∧ (drew s).cores = s.cores ∧ (drew s).near = s.near ∧
    (drew s).slotDirty = s.slotDirty ∧ (drew s).slotForm = s.slotForm ∧ (drew s).lattice = s.lattice ∧
    (drew s).colonnade = s.colonnade ∧ (drew s).arithAt = s.arithAt ∧ (drew s).pavs = s.pavs ∧
    (drew s).ropes = s.ropes ∧ (drew s).frames = s.frames ∧ (drew s).sessions = s.sessions ∧
    (drew s).objects = s.objects ∧ (drew s).far = s.far ∧ (drew s).regions = s.regions ∧
    (drew s).records = s.records ∧ (drew s).farOut = s.farOut ∧ (drew s).farNext = s.farNext ∧
    (drew s).farGone = s.farGone ∧ (drew s).farScrub = s.farScrub ∧ (drew s).jobs = s.jobs ∧ (drew s).dir = s.dir ∧
    (drew s).cows = s.cows ∧ (drew s).poolWait = s.poolWait ∧ (drew s).tails = s.tails ∧ (drew s).cutLen = s.cutLen ∧
    (drew s).recents = s.recents ∧ (drew s).engines = s.engines ∧ (drew s).sec = s.sec ∧ (drew s).tables = s.tables ∧
    (drew s).celay = s.celay ∧ (drew s).streams = s.streams ∧ (drew s).pools = s.pools ∧
    (drew s).poolTag = s.poolTag ∧ (drew s).indices = s.indices ∧ (drew s).queries = s.queries ∧
    (drew s).snaps = s.snaps ∧ (drew s).hatchHeld = s.hatchHeld ∧ (drew s).gate = s.gate ∧
    (drew s).farCal = s.farCal ∧ (drew s).tap = s.tap :=
  ⟨rfl, rfl, rfl, rfl, rfl, rfl, rfl, rfl, rfl, rfl, rfl, rfl, rfl, rfl, rfl, rfl, rfl, rfl, rfl, rfl, rfl, rfl, rfl,
    rfl, rfl, rfl, rfl, rfl, rfl, rfl, rfl, rfl, rfl, rfl, rfl, rfl, rfl, rfl, rfl, rfl, rfl, rfl, rfl, rfl, rfl,
    rfl, rfl, rfl, rfl, rfl, rfl, rfl, rfl, rfl, rfl, rfl, rfl, rfl, rfl, rfl, rfl, rfl, rfl, rfl⟩

/-- dirWrite changes no field of the state but dir. -/
@[simp] theorem dirWrite_frame (w : DirWrite) (s : State) :
    (dirWrite w s).pending = s.pending ∧ (dirWrite w s).held = s.held ∧ (dirWrite w s).releasing = s.releasing ∧
    (dirWrite w s).reply = s.reply ∧ (dirWrite w s).irqs = s.irqs ∧ (dirWrite w s).hostMem = s.hostMem ∧
    (dirWrite w s).time = s.time ∧ (dirWrite w s).hclk = s.hclk ∧ (dirWrite w s).free = s.free ∧
    (dirWrite w s).regs = s.regs ∧ (dirWrite w s).readHold = s.readHold ∧ (dirWrite w s).writeHold = s.writeHold ∧
    (dirWrite w s).k4Held = s.k4Held ∧ (dirWrite w s).rings = s.rings ∧ (dirWrite w s).tenants = s.tenants ∧
    (dirWrite w s).fnTenant = s.fnTenant ∧ (dirWrite w s).hub = s.hub ∧ (dirWrite w s).trellis = s.trellis ∧
    (dirWrite w s).spares = s.spares ∧ (dirWrite w s).store = s.store ∧ (dirWrite w s).errSources = s.errSources ∧
    (dirWrite w s).errQueueA = s.errQueueA ∧ (dirWrite w s).errQueueB = s.errQueueB ∧
    (dirWrite w s).modLog = s.modLog ∧ (dirWrite w s).bays = s.bays ∧ (dirWrite w s).cores = s.cores ∧
    (dirWrite w s).near = s.near ∧ (dirWrite w s).slotDirty = s.slotDirty ∧ (dirWrite w s).slotForm = s.slotForm ∧
    (dirWrite w s).lattice = s.lattice ∧ (dirWrite w s).colonnade = s.colonnade ∧
    (dirWrite w s).arithAt = s.arithAt ∧ (dirWrite w s).pavs = s.pavs ∧ (dirWrite w s).ropes = s.ropes ∧
    (dirWrite w s).frames = s.frames ∧ (dirWrite w s).sessions = s.sessions ∧ (dirWrite w s).objects = s.objects ∧
    (dirWrite w s).far = s.far ∧ (dirWrite w s).regions = s.regions ∧ (dirWrite w s).records = s.records ∧
    (dirWrite w s).farOut = s.farOut ∧ (dirWrite w s).farNext = s.farNext ∧ (dirWrite w s).farGone = s.farGone ∧
    (dirWrite w s).farScrub = s.farScrub ∧ (dirWrite w s).jobs = s.jobs ∧ (dirWrite w s).cows = s.cows ∧
    (dirWrite w s).poolWait = s.poolWait ∧ (dirWrite w s).tails = s.tails ∧ (dirWrite w s).cutLen = s.cutLen ∧
    (dirWrite w s).recents = s.recents ∧ (dirWrite w s).engines = s.engines ∧ (dirWrite w s).sec = s.sec ∧
    (dirWrite w s).tables = s.tables ∧ (dirWrite w s).celay = s.celay ∧ (dirWrite w s).streams = s.streams ∧
    (dirWrite w s).pools = s.pools ∧ (dirWrite w s).poolTag = s.poolTag ∧ (dirWrite w s).indices = s.indices ∧
    (dirWrite w s).queries = s.queries ∧ (dirWrite w s).snaps = s.snaps ∧ (dirWrite w s).hatchHeld = s.hatchHeld ∧
    (dirWrite w s).gate = s.gate ∧ (dirWrite w s).farCal = s.farCal ∧ (dirWrite w s).tap = s.tap :=
  ⟨rfl, rfl, rfl, rfl, rfl, rfl, rfl, rfl, rfl, rfl, rfl, rfl, rfl, rfl, rfl, rfl, rfl, rfl, rfl, rfl, rfl, rfl, rfl,
    rfl, rfl, rfl, rfl, rfl, rfl, rfl, rfl, rfl, rfl, rfl, rfl, rfl, rfl, rfl, rfl, rfl, rfl, rfl, rfl, rfl, rfl,
    rfl, rfl, rfl, rfl, rfl, rfl, rfl, rfl, rfl, rfl, rfl, rfl, rfl, rfl, rfl, rfl, rfl, rfl, rfl⟩

/-- onRows changes no field of the state but dir. -/
@[simp] theorem onRows_frame (f : NMap DirRow → NMap DirRow) (s : State) :
    (onRows f s).pending = s.pending ∧ (onRows f s).held = s.held ∧ (onRows f s).releasing = s.releasing ∧
    (onRows f s).reply = s.reply ∧ (onRows f s).irqs = s.irqs ∧ (onRows f s).hostMem = s.hostMem ∧
    (onRows f s).time = s.time ∧ (onRows f s).hclk = s.hclk ∧ (onRows f s).free = s.free ∧
    (onRows f s).regs = s.regs ∧ (onRows f s).readHold = s.readHold ∧ (onRows f s).writeHold = s.writeHold ∧
    (onRows f s).k4Held = s.k4Held ∧ (onRows f s).rings = s.rings ∧ (onRows f s).tenants = s.tenants ∧
    (onRows f s).fnTenant = s.fnTenant ∧ (onRows f s).hub = s.hub ∧ (onRows f s).trellis = s.trellis ∧
    (onRows f s).spares = s.spares ∧ (onRows f s).store = s.store ∧ (onRows f s).errSources = s.errSources ∧
    (onRows f s).errQueueA = s.errQueueA ∧ (onRows f s).errQueueB = s.errQueueB ∧ (onRows f s).modLog = s.modLog ∧
    (onRows f s).bays = s.bays ∧ (onRows f s).cores = s.cores ∧ (onRows f s).near = s.near ∧
    (onRows f s).slotDirty = s.slotDirty ∧ (onRows f s).slotForm = s.slotForm ∧ (onRows f s).lattice = s.lattice ∧
    (onRows f s).colonnade = s.colonnade ∧ (onRows f s).arithAt = s.arithAt ∧ (onRows f s).pavs = s.pavs ∧
    (onRows f s).ropes = s.ropes ∧ (onRows f s).frames = s.frames ∧ (onRows f s).sessions = s.sessions ∧
    (onRows f s).objects = s.objects ∧ (onRows f s).far = s.far ∧ (onRows f s).regions = s.regions ∧
    (onRows f s).records = s.records ∧ (onRows f s).farOut = s.farOut ∧ (onRows f s).farNext = s.farNext ∧
    (onRows f s).farGone = s.farGone ∧ (onRows f s).farScrub = s.farScrub ∧ (onRows f s).jobs = s.jobs ∧
    (onRows f s).cows = s.cows ∧ (onRows f s).poolWait = s.poolWait ∧ (onRows f s).tails = s.tails ∧
    (onRows f s).cutLen = s.cutLen ∧ (onRows f s).recents = s.recents ∧ (onRows f s).engines = s.engines ∧
    (onRows f s).sec = s.sec ∧ (onRows f s).tables = s.tables ∧ (onRows f s).celay = s.celay ∧
    (onRows f s).streams = s.streams ∧ (onRows f s).pools = s.pools ∧ (onRows f s).poolTag = s.poolTag ∧
    (onRows f s).indices = s.indices ∧ (onRows f s).queries = s.queries ∧ (onRows f s).snaps = s.snaps ∧
    (onRows f s).hatchHeld = s.hatchHeld ∧ (onRows f s).gate = s.gate ∧ (onRows f s).farCal = s.farCal ∧
    (onRows f s).tap = s.tap :=
  ⟨rfl, rfl, rfl, rfl, rfl, rfl, rfl, rfl, rfl, rfl, rfl, rfl, rfl, rfl, rfl, rfl, rfl, rfl, rfl, rfl, rfl, rfl, rfl,
    rfl, rfl, rfl, rfl, rfl, rfl, rfl, rfl, rfl, rfl, rfl, rfl, rfl, rfl, rfl, rfl, rfl, rfl, rfl, rfl, rfl, rfl,
    rfl, rfl, rfl, rfl, rfl, rfl, rfl, rfl, rfl, rfl, rfl, rfl, rfl, rfl, rfl, rfl, rfl, rfl, rfl⟩

/-- onSess changes no field of the state but sessions. -/
@[simp] theorem onSess_frame (key : Nat) (f : Session → Session) (s : State) :
    (onSess key f s).pending = s.pending ∧ (onSess key f s).held = s.held ∧
    (onSess key f s).releasing = s.releasing ∧ (onSess key f s).reply = s.reply ∧ (onSess key f s).irqs = s.irqs ∧
    (onSess key f s).hostMem = s.hostMem ∧ (onSess key f s).time = s.time ∧ (onSess key f s).hclk = s.hclk ∧
    (onSess key f s).free = s.free ∧ (onSess key f s).regs = s.regs ∧ (onSess key f s).readHold = s.readHold ∧
    (onSess key f s).writeHold = s.writeHold ∧ (onSess key f s).k4Held = s.k4Held ∧
    (onSess key f s).rings = s.rings ∧ (onSess key f s).tenants = s.tenants ∧
    (onSess key f s).fnTenant = s.fnTenant ∧ (onSess key f s).hub = s.hub ∧ (onSess key f s).trellis = s.trellis ∧
    (onSess key f s).spares = s.spares ∧ (onSess key f s).store = s.store ∧
    (onSess key f s).errSources = s.errSources ∧ (onSess key f s).errQueueA = s.errQueueA ∧
    (onSess key f s).errQueueB = s.errQueueB ∧ (onSess key f s).modLog = s.modLog ∧ (onSess key f s).bays = s.bays ∧
    (onSess key f s).cores = s.cores ∧ (onSess key f s).near = s.near ∧ (onSess key f s).slotDirty = s.slotDirty ∧
    (onSess key f s).slotForm = s.slotForm ∧ (onSess key f s).lattice = s.lattice ∧
    (onSess key f s).colonnade = s.colonnade ∧ (onSess key f s).arithAt = s.arithAt ∧
    (onSess key f s).pavs = s.pavs ∧ (onSess key f s).ropes = s.ropes ∧ (onSess key f s).frames = s.frames ∧
    (onSess key f s).objects = s.objects ∧ (onSess key f s).far = s.far ∧ (onSess key f s).regions = s.regions ∧
    (onSess key f s).records = s.records ∧ (onSess key f s).farOut = s.farOut ∧
    (onSess key f s).farNext = s.farNext ∧ (onSess key f s).farGone = s.farGone ∧
    (onSess key f s).farScrub = s.farScrub ∧ (onSess key f s).jobs = s.jobs ∧ (onSess key f s).dir = s.dir ∧
    (onSess key f s).cows = s.cows ∧ (onSess key f s).poolWait = s.poolWait ∧ (onSess key f s).tails = s.tails ∧
    (onSess key f s).cutLen = s.cutLen ∧ (onSess key f s).recents = s.recents ∧
    (onSess key f s).engines = s.engines ∧ (onSess key f s).sec = s.sec ∧ (onSess key f s).tables = s.tables ∧
    (onSess key f s).celay = s.celay ∧ (onSess key f s).streams = s.streams ∧ (onSess key f s).pools = s.pools ∧
    (onSess key f s).poolTag = s.poolTag ∧ (onSess key f s).indices = s.indices ∧
    (onSess key f s).queries = s.queries ∧ (onSess key f s).snaps = s.snaps ∧
    (onSess key f s).hatchHeld = s.hatchHeld ∧ (onSess key f s).gate = s.gate ∧ (onSess key f s).farCal = s.farCal ∧
    (onSess key f s).tap = s.tap :=
  ⟨rfl, rfl, rfl, rfl, rfl, rfl, rfl, rfl, rfl, rfl, rfl, rfl, rfl, rfl, rfl, rfl, rfl, rfl, rfl, rfl, rfl, rfl, rfl,
    rfl, rfl, rfl, rfl, rfl, rfl, rfl, rfl, rfl, rfl, rfl, rfl, rfl, rfl, rfl, rfl, rfl, rfl, rfl, rfl, rfl, rfl,
    rfl, rfl, rfl, rfl, rfl, rfl, rfl, rfl, rfl, rfl, rfl, rfl, rfl, rfl, rfl, rfl, rfl, rfl, rfl⟩

/-- setPin changes no field of the state but gate. -/
@[simp] theorem setPin_frame (n : Nat) (x : Pin) (s : State) :
    (setPin n x s).pending = s.pending ∧ (setPin n x s).held = s.held ∧ (setPin n x s).releasing = s.releasing ∧
    (setPin n x s).reply = s.reply ∧ (setPin n x s).irqs = s.irqs ∧ (setPin n x s).hostMem = s.hostMem ∧
    (setPin n x s).time = s.time ∧ (setPin n x s).hclk = s.hclk ∧ (setPin n x s).free = s.free ∧
    (setPin n x s).regs = s.regs ∧ (setPin n x s).readHold = s.readHold ∧ (setPin n x s).writeHold = s.writeHold ∧
    (setPin n x s).k4Held = s.k4Held ∧ (setPin n x s).rings = s.rings ∧ (setPin n x s).tenants = s.tenants ∧
    (setPin n x s).fnTenant = s.fnTenant ∧ (setPin n x s).hub = s.hub ∧ (setPin n x s).trellis = s.trellis ∧
    (setPin n x s).spares = s.spares ∧ (setPin n x s).store = s.store ∧ (setPin n x s).errSources = s.errSources ∧
    (setPin n x s).errQueueA = s.errQueueA ∧ (setPin n x s).errQueueB = s.errQueueB ∧
    (setPin n x s).modLog = s.modLog ∧ (setPin n x s).bays = s.bays ∧ (setPin n x s).cores = s.cores ∧
    (setPin n x s).near = s.near ∧ (setPin n x s).slotDirty = s.slotDirty ∧ (setPin n x s).slotForm = s.slotForm ∧
    (setPin n x s).lattice = s.lattice ∧ (setPin n x s).colonnade = s.colonnade ∧
    (setPin n x s).arithAt = s.arithAt ∧ (setPin n x s).pavs = s.pavs ∧ (setPin n x s).ropes = s.ropes ∧
    (setPin n x s).frames = s.frames ∧ (setPin n x s).sessions = s.sessions ∧ (setPin n x s).objects = s.objects ∧
    (setPin n x s).far = s.far ∧ (setPin n x s).regions = s.regions ∧ (setPin n x s).records = s.records ∧
    (setPin n x s).farOut = s.farOut ∧ (setPin n x s).farNext = s.farNext ∧ (setPin n x s).farGone = s.farGone ∧
    (setPin n x s).farScrub = s.farScrub ∧ (setPin n x s).jobs = s.jobs ∧ (setPin n x s).dir = s.dir ∧
    (setPin n x s).cows = s.cows ∧ (setPin n x s).poolWait = s.poolWait ∧ (setPin n x s).tails = s.tails ∧
    (setPin n x s).cutLen = s.cutLen ∧ (setPin n x s).recents = s.recents ∧ (setPin n x s).engines = s.engines ∧
    (setPin n x s).sec = s.sec ∧ (setPin n x s).tables = s.tables ∧ (setPin n x s).celay = s.celay ∧
    (setPin n x s).streams = s.streams ∧ (setPin n x s).pools = s.pools ∧ (setPin n x s).poolTag = s.poolTag ∧
    (setPin n x s).indices = s.indices ∧ (setPin n x s).queries = s.queries ∧ (setPin n x s).snaps = s.snaps ∧
    (setPin n x s).hatchHeld = s.hatchHeld ∧ (setPin n x s).farCal = s.farCal ∧ (setPin n x s).tap = s.tap :=
  ⟨rfl, rfl, rfl, rfl, rfl, rfl, rfl, rfl, rfl, rfl, rfl, rfl, rfl, rfl, rfl, rfl, rfl, rfl, rfl, rfl, rfl, rfl, rfl,
    rfl, rfl, rfl, rfl, rfl, rfl, rfl, rfl, rfl, rfl, rfl, rfl, rfl, rfl, rfl, rfl, rfl, rfl, rfl, rfl, rfl, rfl,
    rfl, rfl, rfl, rfl, rfl, rfl, rfl, rfl, rfl, rfl, rfl, rfl, rfl, rfl, rfl, rfl, rfl, rfl, rfl⟩

/-- tdiError changes no field of the state but sec. -/
@[simp] theorem tdiError_frame (fns : List Nat) (s : State) :
    (tdiError fns s).pending = s.pending ∧ (tdiError fns s).held = s.held ∧
    (tdiError fns s).releasing = s.releasing ∧ (tdiError fns s).reply = s.reply ∧ (tdiError fns s).irqs = s.irqs ∧
    (tdiError fns s).hostMem = s.hostMem ∧ (tdiError fns s).time = s.time ∧ (tdiError fns s).hclk = s.hclk ∧
    (tdiError fns s).free = s.free ∧ (tdiError fns s).regs = s.regs ∧ (tdiError fns s).readHold = s.readHold ∧
    (tdiError fns s).writeHold = s.writeHold ∧ (tdiError fns s).k4Held = s.k4Held ∧
    (tdiError fns s).rings = s.rings ∧ (tdiError fns s).tenants = s.tenants ∧
    (tdiError fns s).fnTenant = s.fnTenant ∧ (tdiError fns s).hub = s.hub ∧ (tdiError fns s).trellis = s.trellis ∧
    (tdiError fns s).spares = s.spares ∧ (tdiError fns s).store = s.store ∧
    (tdiError fns s).errSources = s.errSources ∧ (tdiError fns s).errQueueA = s.errQueueA ∧
    (tdiError fns s).errQueueB = s.errQueueB ∧ (tdiError fns s).modLog = s.modLog ∧ (tdiError fns s).bays = s.bays ∧
    (tdiError fns s).cores = s.cores ∧ (tdiError fns s).near = s.near ∧ (tdiError fns s).slotDirty = s.slotDirty ∧
    (tdiError fns s).slotForm = s.slotForm ∧ (tdiError fns s).lattice = s.lattice ∧
    (tdiError fns s).colonnade = s.colonnade ∧ (tdiError fns s).arithAt = s.arithAt ∧
    (tdiError fns s).pavs = s.pavs ∧ (tdiError fns s).ropes = s.ropes ∧ (tdiError fns s).frames = s.frames ∧
    (tdiError fns s).sessions = s.sessions ∧ (tdiError fns s).objects = s.objects ∧ (tdiError fns s).far = s.far ∧
    (tdiError fns s).regions = s.regions ∧ (tdiError fns s).records = s.records ∧
    (tdiError fns s).farOut = s.farOut ∧ (tdiError fns s).farNext = s.farNext ∧
    (tdiError fns s).farGone = s.farGone ∧ (tdiError fns s).farScrub = s.farScrub ∧ (tdiError fns s).jobs = s.jobs ∧
    (tdiError fns s).dir = s.dir ∧ (tdiError fns s).cows = s.cows ∧ (tdiError fns s).poolWait = s.poolWait ∧
    (tdiError fns s).tails = s.tails ∧ (tdiError fns s).cutLen = s.cutLen ∧ (tdiError fns s).recents = s.recents ∧
    (tdiError fns s).engines = s.engines ∧ (tdiError fns s).tables = s.tables ∧ (tdiError fns s).celay = s.celay ∧
    (tdiError fns s).streams = s.streams ∧ (tdiError fns s).pools = s.pools ∧ (tdiError fns s).poolTag = s.poolTag ∧
    (tdiError fns s).indices = s.indices ∧ (tdiError fns s).queries = s.queries ∧ (tdiError fns s).snaps = s.snaps ∧
    (tdiError fns s).hatchHeld = s.hatchHeld ∧ (tdiError fns s).gate = s.gate ∧ (tdiError fns s).farCal = s.farCal ∧
    (tdiError fns s).tap = s.tap :=
  ⟨rfl, rfl, rfl, rfl, rfl, rfl, rfl, rfl, rfl, rfl, rfl, rfl, rfl, rfl, rfl, rfl, rfl, rfl, rfl, rfl, rfl, rfl, rfl,
    rfl, rfl, rfl, rfl, rfl, rfl, rfl, rfl, rfl, rfl, rfl, rfl, rfl, rfl, rfl, rfl, rfl, rfl, rfl, rfl, rfl, rfl,
    rfl, rfl, rfl, rfl, rfl, rfl, rfl, rfl, rfl, rfl, rfl, rfl, rfl, rfl, rfl, rfl, rfl, rfl, rfl⟩

/-- endRuns changes no field of the state but sessions. -/
@[simp] theorem endRuns_frame (p : ReqId → Bool) (s : State) :
    (endRuns p s).pending = s.pending ∧ (endRuns p s).held = s.held ∧ (endRuns p s).releasing = s.releasing ∧
    (endRuns p s).reply = s.reply ∧ (endRuns p s).irqs = s.irqs ∧ (endRuns p s).hostMem = s.hostMem ∧
    (endRuns p s).time = s.time ∧ (endRuns p s).hclk = s.hclk ∧ (endRuns p s).free = s.free ∧
    (endRuns p s).regs = s.regs ∧ (endRuns p s).readHold = s.readHold ∧ (endRuns p s).writeHold = s.writeHold ∧
    (endRuns p s).k4Held = s.k4Held ∧ (endRuns p s).rings = s.rings ∧ (endRuns p s).tenants = s.tenants ∧
    (endRuns p s).fnTenant = s.fnTenant ∧ (endRuns p s).hub = s.hub ∧ (endRuns p s).trellis = s.trellis ∧
    (endRuns p s).spares = s.spares ∧ (endRuns p s).store = s.store ∧ (endRuns p s).errSources = s.errSources ∧
    (endRuns p s).errQueueA = s.errQueueA ∧ (endRuns p s).errQueueB = s.errQueueB ∧ (endRuns p s).modLog = s.modLog ∧
    (endRuns p s).bays = s.bays ∧ (endRuns p s).cores = s.cores ∧ (endRuns p s).near = s.near ∧
    (endRuns p s).slotDirty = s.slotDirty ∧ (endRuns p s).slotForm = s.slotForm ∧ (endRuns p s).lattice = s.lattice ∧
    (endRuns p s).colonnade = s.colonnade ∧ (endRuns p s).arithAt = s.arithAt ∧ (endRuns p s).pavs = s.pavs ∧
    (endRuns p s).ropes = s.ropes ∧ (endRuns p s).frames = s.frames ∧ (endRuns p s).objects = s.objects ∧
    (endRuns p s).far = s.far ∧ (endRuns p s).regions = s.regions ∧ (endRuns p s).records = s.records ∧
    (endRuns p s).farOut = s.farOut ∧ (endRuns p s).farNext = s.farNext ∧ (endRuns p s).farGone = s.farGone ∧
    (endRuns p s).farScrub = s.farScrub ∧ (endRuns p s).jobs = s.jobs ∧ (endRuns p s).dir = s.dir ∧
    (endRuns p s).cows = s.cows ∧ (endRuns p s).poolWait = s.poolWait ∧ (endRuns p s).tails = s.tails ∧
    (endRuns p s).cutLen = s.cutLen ∧ (endRuns p s).recents = s.recents ∧ (endRuns p s).engines = s.engines ∧
    (endRuns p s).sec = s.sec ∧ (endRuns p s).tables = s.tables ∧ (endRuns p s).celay = s.celay ∧
    (endRuns p s).streams = s.streams ∧ (endRuns p s).pools = s.pools ∧ (endRuns p s).poolTag = s.poolTag ∧
    (endRuns p s).indices = s.indices ∧ (endRuns p s).queries = s.queries ∧ (endRuns p s).snaps = s.snaps ∧
    (endRuns p s).hatchHeld = s.hatchHeld ∧ (endRuns p s).gate = s.gate ∧ (endRuns p s).farCal = s.farCal ∧
    (endRuns p s).tap = s.tap :=
  ⟨rfl, rfl, rfl, rfl, rfl, rfl, rfl, rfl, rfl, rfl, rfl, rfl, rfl, rfl, rfl, rfl, rfl, rfl, rfl, rfl, rfl, rfl, rfl,
    rfl, rfl, rfl, rfl, rfl, rfl, rfl, rfl, rfl, rfl, rfl, rfl, rfl, rfl, rfl, rfl, rfl, rfl, rfl, rfl, rfl, rfl,
    rfl, rfl, rfl, rfl, rfl, rfl, rfl, rfl, rfl, rfl, rfl, rfl, rfl, rfl, rfl, rfl, rfl, rfl, rfl⟩

/-- onStream changes no field of the state but streams. -/
@[simp] theorem onStream_frame (y : Stream) (f : Stream → Stream) (s : State) :
    (onStream y f s).pending = s.pending ∧ (onStream y f s).held = s.held ∧
    (onStream y f s).releasing = s.releasing ∧ (onStream y f s).reply = s.reply ∧ (onStream y f s).irqs = s.irqs ∧
    (onStream y f s).hostMem = s.hostMem ∧ (onStream y f s).time = s.time ∧ (onStream y f s).hclk = s.hclk ∧
    (onStream y f s).free = s.free ∧ (onStream y f s).regs = s.regs ∧ (onStream y f s).readHold = s.readHold ∧
    (onStream y f s).writeHold = s.writeHold ∧ (onStream y f s).k4Held = s.k4Held ∧
    (onStream y f s).rings = s.rings ∧ (onStream y f s).tenants = s.tenants ∧
    (onStream y f s).fnTenant = s.fnTenant ∧ (onStream y f s).hub = s.hub ∧ (onStream y f s).trellis = s.trellis ∧
    (onStream y f s).spares = s.spares ∧ (onStream y f s).store = s.store ∧
    (onStream y f s).errSources = s.errSources ∧ (onStream y f s).errQueueA = s.errQueueA ∧
    (onStream y f s).errQueueB = s.errQueueB ∧ (onStream y f s).modLog = s.modLog ∧ (onStream y f s).bays = s.bays ∧
    (onStream y f s).cores = s.cores ∧ (onStream y f s).near = s.near ∧ (onStream y f s).slotDirty = s.slotDirty ∧
    (onStream y f s).slotForm = s.slotForm ∧ (onStream y f s).lattice = s.lattice ∧
    (onStream y f s).colonnade = s.colonnade ∧ (onStream y f s).arithAt = s.arithAt ∧
    (onStream y f s).pavs = s.pavs ∧ (onStream y f s).ropes = s.ropes ∧ (onStream y f s).frames = s.frames ∧
    (onStream y f s).sessions = s.sessions ∧ (onStream y f s).objects = s.objects ∧ (onStream y f s).far = s.far ∧
    (onStream y f s).regions = s.regions ∧ (onStream y f s).records = s.records ∧
    (onStream y f s).farOut = s.farOut ∧ (onStream y f s).farNext = s.farNext ∧
    (onStream y f s).farGone = s.farGone ∧ (onStream y f s).farScrub = s.farScrub ∧ (onStream y f s).jobs = s.jobs ∧
    (onStream y f s).dir = s.dir ∧ (onStream y f s).cows = s.cows ∧ (onStream y f s).poolWait = s.poolWait ∧
    (onStream y f s).tails = s.tails ∧ (onStream y f s).cutLen = s.cutLen ∧ (onStream y f s).recents = s.recents ∧
    (onStream y f s).engines = s.engines ∧ (onStream y f s).sec = s.sec ∧ (onStream y f s).tables = s.tables ∧
    (onStream y f s).celay = s.celay ∧ (onStream y f s).pools = s.pools ∧ (onStream y f s).poolTag = s.poolTag ∧
    (onStream y f s).indices = s.indices ∧ (onStream y f s).queries = s.queries ∧ (onStream y f s).snaps = s.snaps ∧
    (onStream y f s).hatchHeld = s.hatchHeld ∧ (onStream y f s).gate = s.gate ∧ (onStream y f s).farCal = s.farCal ∧
    (onStream y f s).tap = s.tap :=
  ⟨rfl, rfl, rfl, rfl, rfl, rfl, rfl, rfl, rfl, rfl, rfl, rfl, rfl, rfl, rfl, rfl, rfl, rfl, rfl, rfl, rfl, rfl, rfl,
    rfl, rfl, rfl, rfl, rfl, rfl, rfl, rfl, rfl, rfl, rfl, rfl, rfl, rfl, rfl, rfl, rfl, rfl, rfl, rfl, rfl, rfl,
    rfl, rfl, rfl, rfl, rfl, rfl, rfl, rfl, rfl, rfl, rfl, rfl, rfl, rfl, rfl, rfl, rfl, rfl, rfl⟩

/-- closeStream changes no field of the state but streams. -/
@[simp] theorem closeStream_frame (y : Stream) (s : State) :
    (closeStream y s).pending = s.pending ∧ (closeStream y s).held = s.held ∧
    (closeStream y s).releasing = s.releasing ∧ (closeStream y s).reply = s.reply ∧ (closeStream y s).irqs = s.irqs ∧
    (closeStream y s).hostMem = s.hostMem ∧ (closeStream y s).time = s.time ∧ (closeStream y s).hclk = s.hclk ∧
    (closeStream y s).free = s.free ∧ (closeStream y s).regs = s.regs ∧ (closeStream y s).readHold = s.readHold ∧
    (closeStream y s).writeHold = s.writeHold ∧ (closeStream y s).k4Held = s.k4Held ∧
    (closeStream y s).rings = s.rings ∧ (closeStream y s).tenants = s.tenants ∧
    (closeStream y s).fnTenant = s.fnTenant ∧ (closeStream y s).hub = s.hub ∧ (closeStream y s).trellis = s.trellis ∧
    (closeStream y s).spares = s.spares ∧ (closeStream y s).store = s.store ∧
    (closeStream y s).errSources = s.errSources ∧ (closeStream y s).errQueueA = s.errQueueA ∧
    (closeStream y s).errQueueB = s.errQueueB ∧ (closeStream y s).modLog = s.modLog ∧
    (closeStream y s).bays = s.bays ∧ (closeStream y s).cores = s.cores ∧ (closeStream y s).near = s.near ∧
    (closeStream y s).slotDirty = s.slotDirty ∧ (closeStream y s).slotForm = s.slotForm ∧
    (closeStream y s).lattice = s.lattice ∧ (closeStream y s).colonnade = s.colonnade ∧
    (closeStream y s).arithAt = s.arithAt ∧ (closeStream y s).pavs = s.pavs ∧ (closeStream y s).ropes = s.ropes ∧
    (closeStream y s).frames = s.frames ∧ (closeStream y s).sessions = s.sessions ∧
    (closeStream y s).objects = s.objects ∧ (closeStream y s).far = s.far ∧ (closeStream y s).regions = s.regions ∧
    (closeStream y s).records = s.records ∧ (closeStream y s).farOut = s.farOut ∧
    (closeStream y s).farNext = s.farNext ∧ (closeStream y s).farGone = s.farGone ∧
    (closeStream y s).farScrub = s.farScrub ∧ (closeStream y s).jobs = s.jobs ∧ (closeStream y s).dir = s.dir ∧
    (closeStream y s).cows = s.cows ∧ (closeStream y s).poolWait = s.poolWait ∧ (closeStream y s).tails = s.tails ∧
    (closeStream y s).cutLen = s.cutLen ∧ (closeStream y s).recents = s.recents ∧
    (closeStream y s).engines = s.engines ∧ (closeStream y s).sec = s.sec ∧ (closeStream y s).tables = s.tables ∧
    (closeStream y s).celay = s.celay ∧ (closeStream y s).pools = s.pools ∧ (closeStream y s).poolTag = s.poolTag ∧
    (closeStream y s).indices = s.indices ∧ (closeStream y s).queries = s.queries ∧
    (closeStream y s).snaps = s.snaps ∧ (closeStream y s).hatchHeld = s.hatchHeld ∧ (closeStream y s).gate = s.gate ∧
    (closeStream y s).farCal = s.farCal ∧ (closeStream y s).tap = s.tap :=
  ⟨rfl, rfl, rfl, rfl, rfl, rfl, rfl, rfl, rfl, rfl, rfl, rfl, rfl, rfl, rfl, rfl, rfl, rfl, rfl, rfl, rfl, rfl, rfl,
    rfl, rfl, rfl, rfl, rfl, rfl, rfl, rfl, rfl, rfl, rfl, rfl, rfl, rfl, rfl, rfl, rfl, rfl, rfl, rfl, rfl, rfl,
    rfl, rfl, rfl, rfl, rfl, rfl, rfl, rfl, rfl, rfl, rfl, rfl, rfl, rfl, rfl, rfl, rfl, rfl, rfl⟩

/-- onIndex changes no field of the state but indices. -/
@[simp] theorem onIndex_frame (key : Nat) (f : IndexState → IndexState) (s : State) :
    (onIndex key f s).pending = s.pending ∧ (onIndex key f s).held = s.held ∧
    (onIndex key f s).releasing = s.releasing ∧ (onIndex key f s).reply = s.reply ∧ (onIndex key f s).irqs = s.irqs ∧
    (onIndex key f s).hostMem = s.hostMem ∧ (onIndex key f s).time = s.time ∧ (onIndex key f s).hclk = s.hclk ∧
    (onIndex key f s).free = s.free ∧ (onIndex key f s).regs = s.regs ∧ (onIndex key f s).readHold = s.readHold ∧
    (onIndex key f s).writeHold = s.writeHold ∧ (onIndex key f s).k4Held = s.k4Held ∧
    (onIndex key f s).rings = s.rings ∧ (onIndex key f s).tenants = s.tenants ∧
    (onIndex key f s).fnTenant = s.fnTenant ∧ (onIndex key f s).hub = s.hub ∧ (onIndex key f s).trellis = s.trellis ∧
    (onIndex key f s).spares = s.spares ∧ (onIndex key f s).store = s.store ∧
    (onIndex key f s).errSources = s.errSources ∧ (onIndex key f s).errQueueA = s.errQueueA ∧
    (onIndex key f s).errQueueB = s.errQueueB ∧ (onIndex key f s).modLog = s.modLog ∧
    (onIndex key f s).bays = s.bays ∧ (onIndex key f s).cores = s.cores ∧ (onIndex key f s).near = s.near ∧
    (onIndex key f s).slotDirty = s.slotDirty ∧ (onIndex key f s).slotForm = s.slotForm ∧
    (onIndex key f s).lattice = s.lattice ∧ (onIndex key f s).colonnade = s.colonnade ∧
    (onIndex key f s).arithAt = s.arithAt ∧ (onIndex key f s).pavs = s.pavs ∧ (onIndex key f s).ropes = s.ropes ∧
    (onIndex key f s).frames = s.frames ∧ (onIndex key f s).sessions = s.sessions ∧
    (onIndex key f s).objects = s.objects ∧ (onIndex key f s).far = s.far ∧ (onIndex key f s).regions = s.regions ∧
    (onIndex key f s).records = s.records ∧ (onIndex key f s).farOut = s.farOut ∧
    (onIndex key f s).farNext = s.farNext ∧ (onIndex key f s).farGone = s.farGone ∧
    (onIndex key f s).farScrub = s.farScrub ∧ (onIndex key f s).jobs = s.jobs ∧ (onIndex key f s).dir = s.dir ∧
    (onIndex key f s).cows = s.cows ∧ (onIndex key f s).poolWait = s.poolWait ∧ (onIndex key f s).tails = s.tails ∧
    (onIndex key f s).cutLen = s.cutLen ∧ (onIndex key f s).recents = s.recents ∧
    (onIndex key f s).engines = s.engines ∧ (onIndex key f s).sec = s.sec ∧ (onIndex key f s).tables = s.tables ∧
    (onIndex key f s).celay = s.celay ∧ (onIndex key f s).streams = s.streams ∧ (onIndex key f s).pools = s.pools ∧
    (onIndex key f s).poolTag = s.poolTag ∧ (onIndex key f s).queries = s.queries ∧
    (onIndex key f s).snaps = s.snaps ∧ (onIndex key f s).hatchHeld = s.hatchHeld ∧ (onIndex key f s).gate = s.gate ∧
    (onIndex key f s).farCal = s.farCal ∧ (onIndex key f s).tap = s.tap :=
  ⟨rfl, rfl, rfl, rfl, rfl, rfl, rfl, rfl, rfl, rfl, rfl, rfl, rfl, rfl, rfl, rfl, rfl, rfl, rfl, rfl, rfl, rfl, rfl,
    rfl, rfl, rfl, rfl, rfl, rfl, rfl, rfl, rfl, rfl, rfl, rfl, rfl, rfl, rfl, rfl, rfl, rfl, rfl, rfl, rfl, rfl,
    rfl, rfl, rfl, rfl, rfl, rfl, rfl, rfl, rfl, rfl, rfl, rfl, rfl, rfl, rfl, rfl, rfl, rfl, rfl⟩

/-- nearPoke changes no field of the state but near. -/
@[simp] theorem nearPoke_frame (k line : Nat) (bs : List Byte) (s : State) :
    (nearPoke k line bs s).pending = s.pending ∧ (nearPoke k line bs s).held = s.held ∧
    (nearPoke k line bs s).releasing = s.releasing ∧ (nearPoke k line bs s).reply = s.reply ∧
    (nearPoke k line bs s).irqs = s.irqs ∧ (nearPoke k line bs s).hostMem = s.hostMem ∧
    (nearPoke k line bs s).time = s.time ∧ (nearPoke k line bs s).hclk = s.hclk ∧
    (nearPoke k line bs s).free = s.free ∧ (nearPoke k line bs s).regs = s.regs ∧
    (nearPoke k line bs s).readHold = s.readHold ∧ (nearPoke k line bs s).writeHold = s.writeHold ∧
    (nearPoke k line bs s).k4Held = s.k4Held ∧ (nearPoke k line bs s).rings = s.rings ∧
    (nearPoke k line bs s).tenants = s.tenants ∧ (nearPoke k line bs s).fnTenant = s.fnTenant ∧
    (nearPoke k line bs s).hub = s.hub ∧ (nearPoke k line bs s).trellis = s.trellis ∧
    (nearPoke k line bs s).spares = s.spares ∧ (nearPoke k line bs s).store = s.store ∧
    (nearPoke k line bs s).errSources = s.errSources ∧ (nearPoke k line bs s).errQueueA = s.errQueueA ∧
    (nearPoke k line bs s).errQueueB = s.errQueueB ∧ (nearPoke k line bs s).modLog = s.modLog ∧
    (nearPoke k line bs s).bays = s.bays ∧ (nearPoke k line bs s).cores = s.cores ∧
    (nearPoke k line bs s).slotDirty = s.slotDirty ∧ (nearPoke k line bs s).slotForm = s.slotForm ∧
    (nearPoke k line bs s).lattice = s.lattice ∧ (nearPoke k line bs s).colonnade = s.colonnade ∧
    (nearPoke k line bs s).arithAt = s.arithAt ∧ (nearPoke k line bs s).pavs = s.pavs ∧
    (nearPoke k line bs s).ropes = s.ropes ∧ (nearPoke k line bs s).frames = s.frames ∧
    (nearPoke k line bs s).sessions = s.sessions ∧ (nearPoke k line bs s).objects = s.objects ∧
    (nearPoke k line bs s).far = s.far ∧ (nearPoke k line bs s).regions = s.regions ∧
    (nearPoke k line bs s).records = s.records ∧ (nearPoke k line bs s).farOut = s.farOut ∧
    (nearPoke k line bs s).farNext = s.farNext ∧ (nearPoke k line bs s).farGone = s.farGone ∧
    (nearPoke k line bs s).farScrub = s.farScrub ∧ (nearPoke k line bs s).jobs = s.jobs ∧
    (nearPoke k line bs s).dir = s.dir ∧ (nearPoke k line bs s).cows = s.cows ∧
    (nearPoke k line bs s).poolWait = s.poolWait ∧ (nearPoke k line bs s).tails = s.tails ∧
    (nearPoke k line bs s).cutLen = s.cutLen ∧ (nearPoke k line bs s).recents = s.recents ∧
    (nearPoke k line bs s).engines = s.engines ∧ (nearPoke k line bs s).sec = s.sec ∧
    (nearPoke k line bs s).tables = s.tables ∧ (nearPoke k line bs s).celay = s.celay ∧
    (nearPoke k line bs s).streams = s.streams ∧ (nearPoke k line bs s).pools = s.pools ∧
    (nearPoke k line bs s).poolTag = s.poolTag ∧ (nearPoke k line bs s).indices = s.indices ∧
    (nearPoke k line bs s).queries = s.queries ∧ (nearPoke k line bs s).snaps = s.snaps ∧
    (nearPoke k line bs s).hatchHeld = s.hatchHeld ∧ (nearPoke k line bs s).gate = s.gate ∧
    (nearPoke k line bs s).farCal = s.farCal ∧ (nearPoke k line bs s).tap = s.tap :=
  ⟨rfl, rfl, rfl, rfl, rfl, rfl, rfl, rfl, rfl, rfl, rfl, rfl, rfl, rfl, rfl, rfl, rfl, rfl, rfl, rfl, rfl, rfl, rfl,
    rfl, rfl, rfl, rfl, rfl, rfl, rfl, rfl, rfl, rfl, rfl, rfl, rfl, rfl, rfl, rfl, rfl, rfl, rfl, rfl, rfl, rfl,
    rfl, rfl, rfl, rfl, rfl, rfl, rfl, rfl, rfl, rfl, rfl, rfl, rfl, rfl, rfl, rfl, rfl, rfl, rfl⟩

/-- setDirty changes no field of the state but slotDirty. -/
@[simp] theorem setDirty_frame (k : Nat) (slots : List Nat) (s : State) :
    (setDirty k slots s).pending = s.pending ∧ (setDirty k slots s).held = s.held ∧
    (setDirty k slots s).releasing = s.releasing ∧ (setDirty k slots s).reply = s.reply ∧
    (setDirty k slots s).irqs = s.irqs ∧ (setDirty k slots s).hostMem = s.hostMem ∧
    (setDirty k slots s).time = s.time ∧ (setDirty k slots s).hclk = s.hclk ∧ (setDirty k slots s).free = s.free ∧
    (setDirty k slots s).regs = s.regs ∧ (setDirty k slots s).readHold = s.readHold ∧
    (setDirty k slots s).writeHold = s.writeHold ∧ (setDirty k slots s).k4Held = s.k4Held ∧
    (setDirty k slots s).rings = s.rings ∧ (setDirty k slots s).tenants = s.tenants ∧
    (setDirty k slots s).fnTenant = s.fnTenant ∧ (setDirty k slots s).hub = s.hub ∧
    (setDirty k slots s).trellis = s.trellis ∧ (setDirty k slots s).spares = s.spares ∧
    (setDirty k slots s).store = s.store ∧ (setDirty k slots s).errSources = s.errSources ∧
    (setDirty k slots s).errQueueA = s.errQueueA ∧ (setDirty k slots s).errQueueB = s.errQueueB ∧
    (setDirty k slots s).modLog = s.modLog ∧ (setDirty k slots s).bays = s.bays ∧
    (setDirty k slots s).cores = s.cores ∧ (setDirty k slots s).near = s.near ∧
    (setDirty k slots s).slotForm = s.slotForm ∧ (setDirty k slots s).lattice = s.lattice ∧
    (setDirty k slots s).colonnade = s.colonnade ∧ (setDirty k slots s).arithAt = s.arithAt ∧
    (setDirty k slots s).pavs = s.pavs ∧ (setDirty k slots s).ropes = s.ropes ∧
    (setDirty k slots s).frames = s.frames ∧ (setDirty k slots s).sessions = s.sessions ∧
    (setDirty k slots s).objects = s.objects ∧ (setDirty k slots s).far = s.far ∧
    (setDirty k slots s).regions = s.regions ∧ (setDirty k slots s).records = s.records ∧
    (setDirty k slots s).farOut = s.farOut ∧ (setDirty k slots s).farNext = s.farNext ∧
    (setDirty k slots s).farGone = s.farGone ∧ (setDirty k slots s).farScrub = s.farScrub ∧
    (setDirty k slots s).jobs = s.jobs ∧ (setDirty k slots s).dir = s.dir ∧ (setDirty k slots s).cows = s.cows ∧
    (setDirty k slots s).poolWait = s.poolWait ∧ (setDirty k slots s).tails = s.tails ∧
    (setDirty k slots s).cutLen = s.cutLen ∧ (setDirty k slots s).recents = s.recents ∧
    (setDirty k slots s).engines = s.engines ∧ (setDirty k slots s).sec = s.sec ∧
    (setDirty k slots s).tables = s.tables ∧ (setDirty k slots s).celay = s.celay ∧
    (setDirty k slots s).streams = s.streams ∧ (setDirty k slots s).pools = s.pools ∧
    (setDirty k slots s).poolTag = s.poolTag ∧ (setDirty k slots s).indices = s.indices ∧
    (setDirty k slots s).queries = s.queries ∧ (setDirty k slots s).snaps = s.snaps ∧
    (setDirty k slots s).hatchHeld = s.hatchHeld ∧ (setDirty k slots s).gate = s.gate ∧
    (setDirty k slots s).farCal = s.farCal ∧ (setDirty k slots s).tap = s.tap :=
  ⟨rfl, rfl, rfl, rfl, rfl, rfl, rfl, rfl, rfl, rfl, rfl, rfl, rfl, rfl, rfl, rfl, rfl, rfl, rfl, rfl, rfl, rfl, rfl,
    rfl, rfl, rfl, rfl, rfl, rfl, rfl, rfl, rfl, rfl, rfl, rfl, rfl, rfl, rfl, rfl, rfl, rfl, rfl, rfl, rfl, rfl,
    rfl, rfl, rfl, rfl, rfl, rfl, rfl, rfl, rfl, rfl, rfl, rfl, rfl, rfl, rfl, rfl, rfl, rfl, rfl⟩

/-- clearDirty changes no field of the state but slotDirty. -/
@[simp] theorem clearDirty_frame (k line : Nat) (s : State) :
    (clearDirty k line s).pending = s.pending ∧ (clearDirty k line s).held = s.held ∧
    (clearDirty k line s).releasing = s.releasing ∧ (clearDirty k line s).reply = s.reply ∧
    (clearDirty k line s).irqs = s.irqs ∧ (clearDirty k line s).hostMem = s.hostMem ∧
    (clearDirty k line s).time = s.time ∧ (clearDirty k line s).hclk = s.hclk ∧ (clearDirty k line s).free = s.free ∧
    (clearDirty k line s).regs = s.regs ∧ (clearDirty k line s).readHold = s.readHold ∧
    (clearDirty k line s).writeHold = s.writeHold ∧ (clearDirty k line s).k4Held = s.k4Held ∧
    (clearDirty k line s).rings = s.rings ∧ (clearDirty k line s).tenants = s.tenants ∧
    (clearDirty k line s).fnTenant = s.fnTenant ∧ (clearDirty k line s).hub = s.hub ∧
    (clearDirty k line s).trellis = s.trellis ∧ (clearDirty k line s).spares = s.spares ∧
    (clearDirty k line s).store = s.store ∧ (clearDirty k line s).errSources = s.errSources ∧
    (clearDirty k line s).errQueueA = s.errQueueA ∧ (clearDirty k line s).errQueueB = s.errQueueB ∧
    (clearDirty k line s).modLog = s.modLog ∧ (clearDirty k line s).bays = s.bays ∧
    (clearDirty k line s).cores = s.cores ∧ (clearDirty k line s).near = s.near ∧
    (clearDirty k line s).slotForm = s.slotForm ∧ (clearDirty k line s).lattice = s.lattice ∧
    (clearDirty k line s).colonnade = s.colonnade ∧ (clearDirty k line s).arithAt = s.arithAt ∧
    (clearDirty k line s).pavs = s.pavs ∧ (clearDirty k line s).ropes = s.ropes ∧
    (clearDirty k line s).frames = s.frames ∧ (clearDirty k line s).sessions = s.sessions ∧
    (clearDirty k line s).objects = s.objects ∧ (clearDirty k line s).far = s.far ∧
    (clearDirty k line s).regions = s.regions ∧ (clearDirty k line s).records = s.records ∧
    (clearDirty k line s).farOut = s.farOut ∧ (clearDirty k line s).farNext = s.farNext ∧
    (clearDirty k line s).farGone = s.farGone ∧ (clearDirty k line s).farScrub = s.farScrub ∧
    (clearDirty k line s).jobs = s.jobs ∧ (clearDirty k line s).dir = s.dir ∧ (clearDirty k line s).cows = s.cows ∧
    (clearDirty k line s).poolWait = s.poolWait ∧ (clearDirty k line s).tails = s.tails ∧
    (clearDirty k line s).cutLen = s.cutLen ∧ (clearDirty k line s).recents = s.recents ∧
    (clearDirty k line s).engines = s.engines ∧ (clearDirty k line s).sec = s.sec ∧
    (clearDirty k line s).tables = s.tables ∧ (clearDirty k line s).celay = s.celay ∧
    (clearDirty k line s).streams = s.streams ∧ (clearDirty k line s).pools = s.pools ∧
    (clearDirty k line s).poolTag = s.poolTag ∧ (clearDirty k line s).indices = s.indices ∧
    (clearDirty k line s).queries = s.queries ∧ (clearDirty k line s).snaps = s.snaps ∧
    (clearDirty k line s).hatchHeld = s.hatchHeld ∧ (clearDirty k line s).gate = s.gate ∧
    (clearDirty k line s).farCal = s.farCal ∧ (clearDirty k line s).tap = s.tap :=
  ⟨rfl, rfl, rfl, rfl, rfl, rfl, rfl, rfl, rfl, rfl, rfl, rfl, rfl, rfl, rfl, rfl, rfl, rfl, rfl, rfl, rfl, rfl, rfl,
    rfl, rfl, rfl, rfl, rfl, rfl, rfl, rfl, rfl, rfl, rfl, rfl, rfl, rfl, rfl, rfl, rfl, rfl, rfl, rfl, rfl, rfl,
    rfl, rfl, rfl, rfl, rfl, rfl, rfl, rfl, rfl, rfl, rfl, rfl, rfl, rfl, rfl, rfl, rfl, rfl, rfl⟩

/-- onStore changes no field of the state but store. -/
@[simp] theorem onStore_frame (f : Store → Store) (s : State) :
    (onStore f s).pending = s.pending ∧ (onStore f s).held = s.held ∧ (onStore f s).releasing = s.releasing ∧
    (onStore f s).reply = s.reply ∧ (onStore f s).irqs = s.irqs ∧ (onStore f s).hostMem = s.hostMem ∧
    (onStore f s).time = s.time ∧ (onStore f s).hclk = s.hclk ∧ (onStore f s).free = s.free ∧
    (onStore f s).regs = s.regs ∧ (onStore f s).readHold = s.readHold ∧ (onStore f s).writeHold = s.writeHold ∧
    (onStore f s).k4Held = s.k4Held ∧ (onStore f s).rings = s.rings ∧ (onStore f s).tenants = s.tenants ∧
    (onStore f s).fnTenant = s.fnTenant ∧ (onStore f s).hub = s.hub ∧ (onStore f s).trellis = s.trellis ∧
    (onStore f s).spares = s.spares ∧ (onStore f s).errSources = s.errSources ∧
    (onStore f s).errQueueA = s.errQueueA ∧ (onStore f s).errQueueB = s.errQueueB ∧ (onStore f s).modLog = s.modLog ∧
    (onStore f s).bays = s.bays ∧ (onStore f s).cores = s.cores ∧ (onStore f s).near = s.near ∧
    (onStore f s).slotDirty = s.slotDirty ∧ (onStore f s).slotForm = s.slotForm ∧ (onStore f s).lattice = s.lattice ∧
    (onStore f s).colonnade = s.colonnade ∧ (onStore f s).arithAt = s.arithAt ∧ (onStore f s).pavs = s.pavs ∧
    (onStore f s).ropes = s.ropes ∧ (onStore f s).frames = s.frames ∧ (onStore f s).sessions = s.sessions ∧
    (onStore f s).objects = s.objects ∧ (onStore f s).far = s.far ∧ (onStore f s).regions = s.regions ∧
    (onStore f s).records = s.records ∧ (onStore f s).farOut = s.farOut ∧ (onStore f s).farNext = s.farNext ∧
    (onStore f s).farGone = s.farGone ∧ (onStore f s).farScrub = s.farScrub ∧ (onStore f s).jobs = s.jobs ∧
    (onStore f s).dir = s.dir ∧ (onStore f s).cows = s.cows ∧ (onStore f s).poolWait = s.poolWait ∧
    (onStore f s).tails = s.tails ∧ (onStore f s).cutLen = s.cutLen ∧ (onStore f s).recents = s.recents ∧
    (onStore f s).engines = s.engines ∧ (onStore f s).sec = s.sec ∧ (onStore f s).tables = s.tables ∧
    (onStore f s).celay = s.celay ∧ (onStore f s).streams = s.streams ∧ (onStore f s).pools = s.pools ∧
    (onStore f s).poolTag = s.poolTag ∧ (onStore f s).indices = s.indices ∧ (onStore f s).queries = s.queries ∧
    (onStore f s).snaps = s.snaps ∧ (onStore f s).hatchHeld = s.hatchHeld ∧ (onStore f s).gate = s.gate ∧
    (onStore f s).farCal = s.farCal ∧ (onStore f s).tap = s.tap :=
  ⟨rfl, rfl, rfl, rfl, rfl, rfl, rfl, rfl, rfl, rfl, rfl, rfl, rfl, rfl, rfl, rfl, rfl, rfl, rfl, rfl, rfl, rfl, rfl,
    rfl, rfl, rfl, rfl, rfl, rfl, rfl, rfl, rfl, rfl, rfl, rfl, rfl, rfl, rfl, rfl, rfl, rfl, rfl, rfl, rfl, rfl,
    rfl, rfl, rfl, rfl, rfl, rfl, rfl, rfl, rfl, rfl, rfl, rfl, rfl, rfl, rfl, rfl, rfl, rfl, rfl⟩

/-- onSnap changes no field of the state but snaps. -/
@[simp] theorem onSnap_frame (p : Nat) (f : SnapPort → SnapPort) (s : State) :
    (onSnap p f s).pending = s.pending ∧ (onSnap p f s).held = s.held ∧ (onSnap p f s).releasing = s.releasing ∧
    (onSnap p f s).reply = s.reply ∧ (onSnap p f s).irqs = s.irqs ∧ (onSnap p f s).hostMem = s.hostMem ∧
    (onSnap p f s).time = s.time ∧ (onSnap p f s).hclk = s.hclk ∧ (onSnap p f s).free = s.free ∧
    (onSnap p f s).regs = s.regs ∧ (onSnap p f s).readHold = s.readHold ∧ (onSnap p f s).writeHold = s.writeHold ∧
    (onSnap p f s).k4Held = s.k4Held ∧ (onSnap p f s).rings = s.rings ∧ (onSnap p f s).tenants = s.tenants ∧
    (onSnap p f s).fnTenant = s.fnTenant ∧ (onSnap p f s).hub = s.hub ∧ (onSnap p f s).trellis = s.trellis ∧
    (onSnap p f s).spares = s.spares ∧ (onSnap p f s).store = s.store ∧ (onSnap p f s).errSources = s.errSources ∧
    (onSnap p f s).errQueueA = s.errQueueA ∧ (onSnap p f s).errQueueB = s.errQueueB ∧
    (onSnap p f s).modLog = s.modLog ∧ (onSnap p f s).bays = s.bays ∧ (onSnap p f s).cores = s.cores ∧
    (onSnap p f s).near = s.near ∧ (onSnap p f s).slotDirty = s.slotDirty ∧ (onSnap p f s).slotForm = s.slotForm ∧
    (onSnap p f s).lattice = s.lattice ∧ (onSnap p f s).colonnade = s.colonnade ∧
    (onSnap p f s).arithAt = s.arithAt ∧ (onSnap p f s).pavs = s.pavs ∧ (onSnap p f s).ropes = s.ropes ∧
    (onSnap p f s).frames = s.frames ∧ (onSnap p f s).sessions = s.sessions ∧ (onSnap p f s).objects = s.objects ∧
    (onSnap p f s).far = s.far ∧ (onSnap p f s).regions = s.regions ∧ (onSnap p f s).records = s.records ∧
    (onSnap p f s).farOut = s.farOut ∧ (onSnap p f s).farNext = s.farNext ∧ (onSnap p f s).farGone = s.farGone ∧
    (onSnap p f s).farScrub = s.farScrub ∧ (onSnap p f s).jobs = s.jobs ∧ (onSnap p f s).dir = s.dir ∧
    (onSnap p f s).cows = s.cows ∧ (onSnap p f s).poolWait = s.poolWait ∧ (onSnap p f s).tails = s.tails ∧
    (onSnap p f s).cutLen = s.cutLen ∧ (onSnap p f s).recents = s.recents ∧ (onSnap p f s).engines = s.engines ∧
    (onSnap p f s).sec = s.sec ∧ (onSnap p f s).tables = s.tables ∧ (onSnap p f s).celay = s.celay ∧
    (onSnap p f s).streams = s.streams ∧ (onSnap p f s).pools = s.pools ∧ (onSnap p f s).poolTag = s.poolTag ∧
    (onSnap p f s).indices = s.indices ∧ (onSnap p f s).queries = s.queries ∧
    (onSnap p f s).hatchHeld = s.hatchHeld ∧ (onSnap p f s).gate = s.gate ∧ (onSnap p f s).farCal = s.farCal ∧
    (onSnap p f s).tap = s.tap :=
  ⟨rfl, rfl, rfl, rfl, rfl, rfl, rfl, rfl, rfl, rfl, rfl, rfl, rfl, rfl, rfl, rfl, rfl, rfl, rfl, rfl, rfl, rfl, rfl,
    rfl, rfl, rfl, rfl, rfl, rfl, rfl, rfl, rfl, rfl, rfl, rfl, rfl, rfl, rfl, rfl, rfl, rfl, rfl, rfl, rfl, rfl,
    rfl, rfl, rfl, rfl, rfl, rfl, rfl, rfl, rfl, rfl, rfl, rfl, rfl, rfl, rfl, rfl, rfl, rfl, rfl⟩

/-- onPav changes no field of the state but pavs. -/
@[simp] theorem onPav_frame (n : Nat) (f : Pav → Pav) (s : State) :
    (onPav n f s).pending = s.pending ∧ (onPav n f s).held = s.held ∧ (onPav n f s).releasing = s.releasing ∧
    (onPav n f s).reply = s.reply ∧ (onPav n f s).irqs = s.irqs ∧ (onPav n f s).hostMem = s.hostMem ∧
    (onPav n f s).time = s.time ∧ (onPav n f s).hclk = s.hclk ∧ (onPav n f s).free = s.free ∧
    (onPav n f s).regs = s.regs ∧ (onPav n f s).readHold = s.readHold ∧ (onPav n f s).writeHold = s.writeHold ∧
    (onPav n f s).k4Held = s.k4Held ∧ (onPav n f s).rings = s.rings ∧ (onPav n f s).tenants = s.tenants ∧
    (onPav n f s).fnTenant = s.fnTenant ∧ (onPav n f s).hub = s.hub ∧ (onPav n f s).trellis = s.trellis ∧
    (onPav n f s).spares = s.spares ∧ (onPav n f s).store = s.store ∧ (onPav n f s).errSources = s.errSources ∧
    (onPav n f s).errQueueA = s.errQueueA ∧ (onPav n f s).errQueueB = s.errQueueB ∧ (onPav n f s).modLog = s.modLog ∧
    (onPav n f s).bays = s.bays ∧ (onPav n f s).cores = s.cores ∧ (onPav n f s).near = s.near ∧
    (onPav n f s).slotDirty = s.slotDirty ∧ (onPav n f s).slotForm = s.slotForm ∧ (onPav n f s).lattice = s.lattice ∧
    (onPav n f s).colonnade = s.colonnade ∧ (onPav n f s).arithAt = s.arithAt ∧ (onPav n f s).ropes = s.ropes ∧
    (onPav n f s).frames = s.frames ∧ (onPav n f s).sessions = s.sessions ∧ (onPav n f s).objects = s.objects ∧
    (onPav n f s).far = s.far ∧ (onPav n f s).regions = s.regions ∧ (onPav n f s).records = s.records ∧
    (onPav n f s).farOut = s.farOut ∧ (onPav n f s).farNext = s.farNext ∧ (onPav n f s).farGone = s.farGone ∧
    (onPav n f s).farScrub = s.farScrub ∧ (onPav n f s).jobs = s.jobs ∧ (onPav n f s).dir = s.dir ∧
    (onPav n f s).cows = s.cows ∧ (onPav n f s).poolWait = s.poolWait ∧ (onPav n f s).tails = s.tails ∧
    (onPav n f s).cutLen = s.cutLen ∧ (onPav n f s).recents = s.recents ∧ (onPav n f s).engines = s.engines ∧
    (onPav n f s).sec = s.sec ∧ (onPav n f s).tables = s.tables ∧ (onPav n f s).celay = s.celay ∧
    (onPav n f s).streams = s.streams ∧ (onPav n f s).pools = s.pools ∧ (onPav n f s).poolTag = s.poolTag ∧
    (onPav n f s).indices = s.indices ∧ (onPav n f s).queries = s.queries ∧ (onPav n f s).snaps = s.snaps ∧
    (onPav n f s).hatchHeld = s.hatchHeld ∧ (onPav n f s).gate = s.gate ∧ (onPav n f s).farCal = s.farCal ∧
    (onPav n f s).tap = s.tap :=
  ⟨rfl, rfl, rfl, rfl, rfl, rfl, rfl, rfl, rfl, rfl, rfl, rfl, rfl, rfl, rfl, rfl, rfl, rfl, rfl, rfl, rfl, rfl, rfl,
    rfl, rfl, rfl, rfl, rfl, rfl, rfl, rfl, rfl, rfl, rfl, rfl, rfl, rfl, rfl, rfl, rfl, rfl, rfl, rfl, rfl, rfl,
    rfl, rfl, rfl, rfl, rfl, rfl, rfl, rfl, rfl, rfl, rfl, rfl, rfl, rfl, rfl, rfl, rfl, rfl, rfl⟩

/-- onSec changes no field of the state but sec. -/
@[simp] theorem onSec_frame (f : Security → Security) (s : State) :
    (onSec f s).pending = s.pending ∧ (onSec f s).held = s.held ∧ (onSec f s).releasing = s.releasing ∧
    (onSec f s).reply = s.reply ∧ (onSec f s).irqs = s.irqs ∧ (onSec f s).hostMem = s.hostMem ∧
    (onSec f s).time = s.time ∧ (onSec f s).hclk = s.hclk ∧ (onSec f s).free = s.free ∧ (onSec f s).regs = s.regs ∧
    (onSec f s).readHold = s.readHold ∧ (onSec f s).writeHold = s.writeHold ∧ (onSec f s).k4Held = s.k4Held ∧
    (onSec f s).rings = s.rings ∧ (onSec f s).tenants = s.tenants ∧ (onSec f s).fnTenant = s.fnTenant ∧
    (onSec f s).hub = s.hub ∧ (onSec f s).trellis = s.trellis ∧ (onSec f s).spares = s.spares ∧
    (onSec f s).store = s.store ∧ (onSec f s).errSources = s.errSources ∧ (onSec f s).errQueueA = s.errQueueA ∧
    (onSec f s).errQueueB = s.errQueueB ∧ (onSec f s).modLog = s.modLog ∧ (onSec f s).bays = s.bays ∧
    (onSec f s).cores = s.cores ∧ (onSec f s).near = s.near ∧ (onSec f s).slotDirty = s.slotDirty ∧
    (onSec f s).slotForm = s.slotForm ∧ (onSec f s).lattice = s.lattice ∧ (onSec f s).colonnade = s.colonnade ∧
    (onSec f s).arithAt = s.arithAt ∧ (onSec f s).pavs = s.pavs ∧ (onSec f s).ropes = s.ropes ∧
    (onSec f s).frames = s.frames ∧ (onSec f s).sessions = s.sessions ∧ (onSec f s).objects = s.objects ∧
    (onSec f s).far = s.far ∧ (onSec f s).regions = s.regions ∧ (onSec f s).records = s.records ∧
    (onSec f s).farOut = s.farOut ∧ (onSec f s).farNext = s.farNext ∧ (onSec f s).farGone = s.farGone ∧
    (onSec f s).farScrub = s.farScrub ∧ (onSec f s).jobs = s.jobs ∧ (onSec f s).dir = s.dir ∧
    (onSec f s).cows = s.cows ∧ (onSec f s).poolWait = s.poolWait ∧ (onSec f s).tails = s.tails ∧
    (onSec f s).cutLen = s.cutLen ∧ (onSec f s).recents = s.recents ∧ (onSec f s).engines = s.engines ∧
    (onSec f s).tables = s.tables ∧ (onSec f s).celay = s.celay ∧ (onSec f s).streams = s.streams ∧
    (onSec f s).pools = s.pools ∧ (onSec f s).poolTag = s.poolTag ∧ (onSec f s).indices = s.indices ∧
    (onSec f s).queries = s.queries ∧ (onSec f s).snaps = s.snaps ∧ (onSec f s).hatchHeld = s.hatchHeld ∧
    (onSec f s).gate = s.gate ∧ (onSec f s).farCal = s.farCal ∧ (onSec f s).tap = s.tap :=
  ⟨rfl, rfl, rfl, rfl, rfl, rfl, rfl, rfl, rfl, rfl, rfl, rfl, rfl, rfl, rfl, rfl, rfl, rfl, rfl, rfl, rfl, rfl, rfl,
    rfl, rfl, rfl, rfl, rfl, rfl, rfl, rfl, rfl, rfl, rfl, rfl, rfl, rfl, rfl, rfl, rfl, rfl, rfl, rfl, rfl, rfl,
    rfl, rfl, rfl, rfl, rfl, rfl, rfl, rfl, rfl, rfl, rfl, rfl, rfl, rfl, rfl, rfl, rfl, rfl, rfl⟩

/-- endJob changes no field of the state but jobs. -/
@[simp] theorem endJob_frame (key : Nat) (s : State) :
    (endJob key s).pending = s.pending ∧ (endJob key s).held = s.held ∧ (endJob key s).releasing = s.releasing ∧
    (endJob key s).reply = s.reply ∧ (endJob key s).irqs = s.irqs ∧ (endJob key s).hostMem = s.hostMem ∧
    (endJob key s).time = s.time ∧ (endJob key s).hclk = s.hclk ∧ (endJob key s).free = s.free ∧
    (endJob key s).regs = s.regs ∧ (endJob key s).readHold = s.readHold ∧ (endJob key s).writeHold = s.writeHold ∧
    (endJob key s).k4Held = s.k4Held ∧ (endJob key s).rings = s.rings ∧ (endJob key s).tenants = s.tenants ∧
    (endJob key s).fnTenant = s.fnTenant ∧ (endJob key s).hub = s.hub ∧ (endJob key s).trellis = s.trellis ∧
    (endJob key s).spares = s.spares ∧ (endJob key s).store = s.store ∧ (endJob key s).errSources = s.errSources ∧
    (endJob key s).errQueueA = s.errQueueA ∧ (endJob key s).errQueueB = s.errQueueB ∧
    (endJob key s).modLog = s.modLog ∧ (endJob key s).bays = s.bays ∧ (endJob key s).cores = s.cores ∧
    (endJob key s).near = s.near ∧ (endJob key s).slotDirty = s.slotDirty ∧ (endJob key s).slotForm = s.slotForm ∧
    (endJob key s).lattice = s.lattice ∧ (endJob key s).colonnade = s.colonnade ∧
    (endJob key s).arithAt = s.arithAt ∧ (endJob key s).pavs = s.pavs ∧ (endJob key s).ropes = s.ropes ∧
    (endJob key s).frames = s.frames ∧ (endJob key s).sessions = s.sessions ∧ (endJob key s).objects = s.objects ∧
    (endJob key s).far = s.far ∧ (endJob key s).regions = s.regions ∧ (endJob key s).records = s.records ∧
    (endJob key s).farOut = s.farOut ∧ (endJob key s).farNext = s.farNext ∧ (endJob key s).farGone = s.farGone ∧
    (endJob key s).farScrub = s.farScrub ∧ (endJob key s).dir = s.dir ∧ (endJob key s).cows = s.cows ∧
    (endJob key s).poolWait = s.poolWait ∧ (endJob key s).tails = s.tails ∧ (endJob key s).cutLen = s.cutLen ∧
    (endJob key s).recents = s.recents ∧ (endJob key s).engines = s.engines ∧ (endJob key s).sec = s.sec ∧
    (endJob key s).tables = s.tables ∧ (endJob key s).celay = s.celay ∧ (endJob key s).streams = s.streams ∧
    (endJob key s).pools = s.pools ∧ (endJob key s).poolTag = s.poolTag ∧ (endJob key s).indices = s.indices ∧
    (endJob key s).queries = s.queries ∧ (endJob key s).snaps = s.snaps ∧ (endJob key s).hatchHeld = s.hatchHeld ∧
    (endJob key s).gate = s.gate ∧ (endJob key s).farCal = s.farCal ∧ (endJob key s).tap = s.tap :=
  ⟨rfl, rfl, rfl, rfl, rfl, rfl, rfl, rfl, rfl, rfl, rfl, rfl, rfl, rfl, rfl, rfl, rfl, rfl, rfl, rfl, rfl, rfl, rfl,
    rfl, rfl, rfl, rfl, rfl, rfl, rfl, rfl, rfl, rfl, rfl, rfl, rfl, rfl, rfl, rfl, rfl, rfl, rfl, rfl, rfl, rfl,
    rfl, rfl, rfl, rfl, rfl, rfl, rfl, rfl, rfl, rfl, rfl, rfl, rfl, rfl, rfl, rfl, rfl, rfl, rfl⟩

end Sys2Proof.Machine
end

