-- ==== Sys2Proof/Laws/Kept.lean ====
section
/-! SUPPORT. `Kept`: what every command keeps of the queue, the clocks, the memories and the counters that never fall; the lemmas
for each operation stand in the files beside this one. -/

namespace Sys2Proof.Machine

/-- What a command keeps, whatever else it does, from `a` to `b`: the queue, the clocks, the canonical form of host memory and of
the near tier, and that the fused floors, the boot and block counters and the next signing index never fall. AON_POWER_UP alone sets
the clocks. -/
structure Kept (a b : State) : Prop where
  pending : b.pending = a.pending
  time : b.time = a.time
  hclk : b.hclk = a.hclk
  host : Memory.wf a.hostMem = true → Memory.wf b.hostMem = true
  near : Memory.wf a.near = true → Memory.wf b.near = true
  floor : a.sec.floor ≤ b.sec.floor
  boots : a.sec.boots ≤ b.sec.boots
  block : a.sec.block ≤ b.sec.block
  signed : InBlock a.sec → a.sec.next ≤ b.sec.next ∧ InBlock b.sec
  serial : a.store.floor ≤ b.store.floor

/-- What every command keeps, of an outcome. -/
structure KeptR (a : State) (o : Host.Outcome State Fault Refusal) : Prop where
  kept : ∀ t, o = .next t → Kept a t

/-- What every command keeps, of an operation that may answer no state. -/
structure KeptO (a : State) (o : Option State) : Prop where
  kept : ∀ t, o = some t → Kept a t

/-- What every command keeps, of an operation that may answer a value and a state. -/
structure KeptP {α : Type} (a : State) (o : Option (α × State)) : Prop where
  kept : ∀ x t, o = some (x, t) → Kept a t

/-- What every command keeps, of an operation that may answer a state and a value. -/
structure KeptQ {α : Type} (a : State) (o : Option (State × α)) : Prop where
  kept : ∀ x t, o = some (t, x) → Kept a t

/-- A change of the security block that lets no counter fall. -/
structure SecOk (x y : Security) : Prop where
  floor : x.floor ≤ y.floor
  boots : x.boots ≤ y.boots
  block : x.block ≤ y.block
  signed : InBlock x → x.next ≤ y.next ∧ InBlock y

theorem SecOk.of {x y : Security} (h1 : y.floor = x.floor) (h2 : y.boots = x.boots) (h3 : y.block = x.block) (h4 : y.next = x.next) : SecOk x y :=
  ⟨h1.ge, h2.ge, h3.ge, fun h => by unfold InBlock at *; rw [h3, h4]; exact ⟨le_rfl, h⟩⟩

theorem Kept.refl (a : State) : Kept a a := ⟨rfl, rfl, rfl, id, id, le_rfl, le_rfl, le_rfl, fun h => ⟨le_rfl, h⟩, le_rfl⟩

/-- What every command keeps, of a text request's body. -/
structure KeptS {α : Type} (a : State) (o : (α × State) ⊕ State) : Prop where
  inl : ∀ x t, o = .inl (x, t) → Kept a t
  inr : ∀ t, o = .inr t → Kept a t

theorem KeptS.left {α : Type} {a t : State} {x : α} (h : Kept a t) : KeptS a (.inl (x, t)) := ⟨by rintro _ _ ⟨⟩; exact h, by rintro _ ⟨⟩⟩

theorem KeptS.right {α : Type} {a t : State} (h : Kept a t) : KeptS (α := α) a (.inr t) := ⟨by rintro _ _ ⟨⟩, by rintro _ ⟨⟩; exact h⟩

theorem KeptS.ite {α : Type} {a : State} {s t : (α × State) ⊕ State} {c : Prop} [Decidable c] (h1 : c → KeptS a s) (h2 : ¬ c → KeptS a t) : KeptS a (if c then s else t) := by
  split
  · exact h1 ‹_›
  · exact h2 ‹_›

theorem KeptR.next {a t : State} (h : Kept a t) : KeptR a (.next t) := ⟨by rintro _ ⟨⟩; exact h⟩

theorem KeptR.fault {a : State} {x : Fault} : KeptR a (.fault x) := ⟨by rintro _ ⟨⟩⟩

theorem KeptR.refused {a : State} {x : Refusal} : KeptR a (.refused x) := ⟨by rintro _ ⟨⟩⟩

theorem KeptO.some {a t : State} (h : Kept a t) : KeptO a (.some t) := ⟨by rintro _ ⟨⟩; exact h⟩

theorem KeptP.some {α : Type} {a t : State} {x : α} (h : Kept a t) : KeptP a (.some (x, t)) := ⟨by rintro _ _ ⟨⟩; exact h⟩

theorem KeptP.some2 {α : Type} {a : State} {x : α × State} (h : Kept a x.2) : KeptP a (.some x) := ⟨by rintro _ _ ⟨⟩; exact h⟩

theorem KeptQ.some {α : Type} {a t : State} {x : α} (h : Kept a t) : KeptQ a (.some (t, x)) := ⟨by rintro _ _ ⟨⟩; exact h⟩

theorem KeptO.none {a : State} : KeptO a .none := ⟨by rintro _ ⟨⟩⟩

theorem KeptP.none {α : Type} {a : State} : KeptP a (.none : Option (α × State)) := ⟨by rintro _ _ ⟨⟩⟩

theorem KeptQ.none {α : Type} {a : State} : KeptQ a (.none : Option (State × α)) := ⟨by rintro _ _ ⟨⟩⟩

theorem KeptO.get {a t : State} {o : Option State} (h : KeptO a o) (e : o = .some t) : Kept a t := h.1 t e

theorem KeptP.get {α : Type} {a t : State} {x : α} {o : Option (α × State)} (h : KeptP a o) (e : o = .some (x, t)) : Kept a t := h.1 x t e

theorem KeptP.get2 {α : Type} {a : State} {x : α × State} {o : Option (α × State)} (h : KeptP a o) (e : o = .some x) : Kept a x.2 := h.1 x.1 x.2 e

theorem KeptP.findSome {α β : Type} {a : State} {l : List β} {f : β → Option (α × State)} (h : ∀ x, KeptP a (f x)) : KeptP a (l.findSome? f) := by
  refine ⟨fun x t e => ?_⟩
  obtain ⟨y, -, hy⟩ := List.exists_of_findSome?_eq_some e
  exact (h y).get hy

theorem KeptP.pair {α : Type} {a : State} {x : α} {o : Option State} (h : KeptO a o) : KeptP a (o.map (fun t => (x, t))) := by
  cases o with
  | none => exact .none
  | some t => exact .some (h.1 t rfl)

theorem KeptO.foldl {α : Type} {a : State} {l : List α} {f : Option State → α → Option State} {o : Option State} (h : KeptO a o)
    (hf : ∀ o x, KeptO a o → KeptO a (f o x)) : KeptO a (l.foldl f o) := by
  induction l generalizing o with
  | nil => exact h
  | cons x l ih => exact ih (hf _ _ h)

theorem KeptQ.get {α : Type} {a t : State} {x : α} {o : Option (State × α)} (h : KeptQ a o) (e : o = .some (t, x)) : Kept a t := h.1 x t e

theorem KeptO.getD {a s : State} {o : Option State} (h : KeptO a o) (hs : Kept a s) : Kept a (o.getD s) := by
  cases o with
  | none => exact hs
  | some t => exact h.1 t rfl

theorem KeptO.bind {α : Type} {a : State} {o : Option α} {f : α → Option State} (h : ∀ x, o = .some x → KeptO a (f x)) : KeptO a (o.bind f) := by
  cases o with
  | none => exact .none
  | some x => exact h x rfl

theorem KeptO.map {α : Type} {a : State} {o : Option α} {f : α → State} (h : ∀ x, o = .some x → Kept a (f x)) : KeptO a (o.map f) := by
  cases o with
  | none => exact .none
  | some x => exact .some (h x rfl)

theorem KeptP.map {α β : Type} {a : State} {o : Option α} {f : α → β × State} (h : ∀ x, o = .some x → Kept a (f x).2) : KeptP a (o.map f) := by
  cases o with
  | none => exact .none
  | some x => exact .some2 (h x rfl)

theorem KeptP.bind {α β : Type} {a : State} {o : Option α} {f : α → Option (β × State)} (h : ∀ x, o = .some x → KeptP a (f x)) : KeptP a (o.bind f) := by
  cases o with
  | none => exact .none
  | some x => exact h x rfl

theorem KeptQ.bind {α β : Type} {a : State} {o : Option α} {f : α → Option (State × β)} (h : ∀ x, o = .some x → KeptQ a (f x)) : KeptQ a (o.bind f) := by
  cases o with
  | none => exact .none
  | some x => exact h x rfl

theorem KeptQ.map {α β : Type} {a : State} {o : Option α} {f : α → State × β} (h : ∀ x, o = .some x → Kept a (f x).1) : KeptQ a (o.map f) := by
  cases o with
  | none => exact .none
  | some x => exact .some (h x rfl)

theorem KeptR.ite {a : State} {s t : Host.Outcome State Fault Refusal} {c : Prop} [Decidable c] (h1 : c → KeptR a s) (h2 : ¬ c → KeptR a t) : KeptR a (if c then s else t) := by
  split
  · exact h1 ‹_›
  · exact h2 ‹_›

theorem KeptO.ite {a : State} {s t : Option State} {c : Prop} [Decidable c] (h1 : c → KeptO a s) (h2 : ¬ c → KeptO a t) : KeptO a (if c then s else t) := by
  split
  · exact h1 ‹_›
  · exact h2 ‹_›

theorem KeptP.ite {α : Type} {a : State} {s t : Option (α × State)} {c : Prop} [Decidable c] (h1 : c → KeptP a s) (h2 : ¬ c → KeptP a t) : KeptP a (if c then s else t) := by
  split
  · exact h1 ‹_›
  · exact h2 ‹_›

theorem KeptQ.ite {α : Type} {a : State} {s t : Option (State × α)} {c : Prop} [Decidable c] (h1 : c → KeptQ a s) (h2 : ¬ c → KeptQ a t) : KeptQ a (if c then s else t) := by
  split
  · exact h1 ‹_›
  · exact h2 ‹_›

theorem Kept.get {α : Type} {a t : State} {x : α} {o : α × State} (h : Kept a o.2) (e : o = (x, t)) : Kept a t := by subst e; exact h

theorem Kept.ite {a s t : State} {c : Prop} [Decidable c] (h1 : c → Kept a s) (h2 : ¬ c → Kept a t) : Kept a (if c then s else t) := by
  split <;> simp_all

theorem Kept.foldl {α : Type} {a s : State} {l : List α} {f : State → α → State} (h : Kept a s) (hf : ∀ s x, Kept a s → Kept a (f s x)) :
    Kept a (l.foldl f s) := by
  induction l generalizing s with
  | nil => exact h
  | cons x l ih => exact ih (hf _ _ h)

theorem Kept.upd {a s : State} (h : Kept a s) {x_held : List Held} {x_releasing : Option ReqId} {x_reply : Reply} {x_irqs : List (Nat × Nat)} {x_free : Nat} {x_regs : NMap Nat} {x_readHold : NMap HalfHold} {x_writeHold : NMap HalfHold} {x_k4Held : NMap Nat} {x_rings : NMap Ring} {x_tenants : NMap Tenant} {x_fnTenant : NMap Nat} {x_hub : Hub} {x_trellis : Option Trellis} {x_spares : Spares} {x_errSources : NMap ErrSource} {x_errQueueA : ErrQueue} {x_errQueueB : ErrQueue} {x_modLog : List ErrRec} {x_bays : NMap Bay} {x_cores : NMap Core} {x_slotDirty : NMap Bool} {x_slotForm : NMap Nat} {x_lattice : List LatticeMsg} {x_colonnade : List ColBeat} {x_arithAt : NMap Nat} {x_pavs : NMap Pav} {x_ropes : NMap (List Byte)} {x_frames : NMap Frame} {x_sessions : NMap Session} {x_objects : NMap Obj} {x_far : NMap Stored} {x_regions : NMap Region} {x_records : NMap Stored} {x_farOut : List Nat} {x_farNext : Nat} {x_farGone : List Nat} {x_farScrub : Nat} {x_jobs : NMap Job} {x_dir : Dir} {x_cows : NMap Cow} {x_poolWait : List PoolWait} {x_tails : NMap (List Byte)} {x_cutLen : NMap Nat} {x_recents : NMap (List Byte)} {x_engines : NMap ShutterCmd} {x_tables : NMap TextTable} {x_celay : NMap CelayPort} {x_streams : List Stream} {x_pools : List PoolTx} {x_poolTag : Nat} {x_indices : NMap IndexState} {x_queries : List Query} {x_snaps : NMap SnapPort} {x_hatchHeld : List HeldWrite} {x_gate : Gatehouse} {x_farCal : FarCal} {x_tap : Tap} :
    Kept a { s with held := x_held, releasing := x_releasing, reply := x_reply, irqs := x_irqs, free := x_free, regs := x_regs, readHold := x_readHold, writeHold := x_writeHold, k4Held := x_k4Held, rings := x_rings, tenants := x_tenants, fnTenant := x_fnTenant, hub := x_hub, trellis := x_trellis, spares := x_spares, errSources := x_errSources, errQueueA := x_errQueueA, errQueueB := x_errQueueB, modLog := x_modLog, bays := x_bays, cores := x_cores, slotDirty := x_slotDirty, slotForm := x_slotForm, lattice := x_lattice, colonnade := x_colonnade, arithAt := x_arithAt, pavs := x_pavs, ropes := x_ropes, frames := x_frames, sessions := x_sessions, objects := x_objects, far := x_far, regions := x_regions, records := x_records, farOut := x_farOut, farNext := x_farNext, farGone := x_farGone, farScrub := x_farScrub, jobs := x_jobs, dir := x_dir, cows := x_cows, poolWait := x_poolWait, tails := x_tails, cutLen := x_cutLen, recents := x_recents, engines := x_engines, tables := x_tables, celay := x_celay, streams := x_streams, pools := x_pools, poolTag := x_poolTag, indices := x_indices, queries := x_queries, snaps := x_snaps, hatchHeld := x_hatchHeld, gate := x_gate, farCal := x_farCal, tap := x_tap } :=
  ⟨h.pending, h.time, h.hclk, h.host, h.near, h.floor, h.boots, h.block, h.signed, h.serial⟩

theorem noticeIrq_sec (p : Nat) (s : State) : (noticeIrq p s).sec = s.sec := by
  rfl

theorem ite_sec {c : Prop} [Decidable c] {s t : State} {x : Security} (h1 : s.sec = x) (h2 : t.sec = x) : (if c then s else t).sec = x := by
  split <;> assumption

theorem setErrQueue_sec (p : Nat) (q : ErrQueue) (s : State) : (setErrQueue p q s).sec = s.sec := by
  unfold setErrQueue; split <;> rfl

theorem queueErr_sec (p : Nat) (e : ErrRec) (s : State) : (queueErr p e s).sec = s.sec := by
  have h : ∀ (c : Bool) q, (setErrQueue p q (if c then regAdd p 0x2000C 1 (regAdd p (0x20010 + 4 * e.cls) 1 s) else regAdd p (0x20010 + 4 * e.cls) 1 s)).sec = s.sec :=
    fun c q => (setErrQueue_sec _ _ _).trans (ite_sec rfl rfl)
  exact ite_sec rfl (ite_sec ((noticeIrq_sec _ _).trans (h _ _)) (h _ _))

theorem deliverErr_sec (e : ErrRec) (s : State) : (deliverErr e s).sec = s.sec := by
  unfold deliverErr
  dsimp only
  split
  · rw [queueErr_sec, queueErr_sec]
  · rw [queueErr_sec]

theorem raiseErr_sec (e : ErrRec) (s : State) : (raiseErr e s).sec = s.sec := by
  unfold raiseErr
  dsimp only
  split
  · rfl
  · split
    · rw [deliverErr_sec]; rfl
    · rfl
    · split <;> rfl

theorem Kept.sec {a s : State} {x : Security} (h : Kept a s) (hx : SecOk s.sec x) : Kept a { s with sec := x } :=
  ⟨h.pending, h.time, h.hclk, h.host, h.near, h.floor.trans hx.floor, h.boots.trans hx.boots, h.block.trans hx.block,
   fun g => let u := h.signed g; let v := hx.signed u.2; ⟨u.1.trans v.1, v.2⟩, h.serial⟩

theorem Kept.store {a s : State} {x : Store} (h : Kept a s) (hx : s.store.floor ≤ x.floor) : Kept a { s with store := x } :=
  ⟨h.pending, h.time, h.hclk, h.host, h.near, h.floor, h.boots, h.block, h.signed, h.serial.trans hx⟩

theorem Kept.nearSet {a s : State} {m : Memory} (h : Kept a s) (hm : Memory.wf s.near = true → Memory.wf m = true) :
    Kept a { s with near := m } :=
  ⟨h.pending, h.time, h.hclk, h.host, fun g => hm (h.near g), h.floor, h.boots, h.block, h.signed, h.serial⟩

theorem Kept.hostWrite {a s : State} {x : Nat} {bs : List Byte} (h : Kept a s) : Kept a { s with hostMem := memWrite s.hostMem x bs } :=
  ⟨h.pending, h.time, h.hclk, fun g => Memory.wf_memWrite _ _ (h.host g), h.near, h.floor, h.boots, h.block, h.signed, h.serial⟩

end Sys2Proof.Machine
end

