-- ==== Sys2Proof/Laws/KeptRings.lean ====
section
/-! SUPPORT. What commands of the rings, errors, cores, records, host registers, directory and security keep (`Kept`): one lemma for each operation,
cited instead of unfolding it. -/

namespace Sys2Proof.Machine

/-! ### Regs -/

theorem kept_regSet {a0 : State} (p : Nat) (off : Nat) (v : Nat) (s : State) (hs : Kept a0 s) :
    Kept a0 (regSet p off v s) := by
  unfold regSet
  repeat' first
    | assumption | intro _ | with_reducible apply Kept.ite | fail_if_no_progress with_reducible apply Kept.upd

theorem kept_regAdd {a0 : State} (p : Nat) (off : Nat) (n : Nat) (s : State) (hs : Kept a0 s) :
    Kept a0 (regAdd p off n s) := by
  unfold regAdd
  repeat' first
    | assumption | intro _ | with_reducible apply kept_regSet

theorem kept_regOr {a0 : State} (p : Nat) (off : Nat) (m : Nat) (s : State) (hs : Kept a0 s) :
    Kept a0 (regOr p off m s) := by
  unfold regOr
  repeat' first
    | assumption | intro _ | with_reducible apply kept_regSet

theorem kept_regClear {a0 : State} (p : Nat) (off : Nat) (m : Nat) (s : State) (hs : Kept a0 s) :
    Kept a0 (regClear p off m s) := by
  unfold regClear
  repeat' first
    | assumption | intro _ | with_reducible apply kept_regSet

theorem kept_regField {a0 : State} (p : Nat) (off : Nat) (lo : Nat) (hi : Nat) (v : Nat) (s : State) (hs : Kept a0 s) :
    Kept a0 (regField p off lo hi v s) := by
  unfold regField
  repeat' first
    | assumption | intro _ | with_reducible apply kept_regSet

theorem kept_regAddBoth {a0 : State} (off : Nat) (n : Nat) (s : State) (hs : Kept a0 s) :
    Kept a0 (regAddBoth off n s) := by
  unfold regAddBoth
  repeat' first
    | assumption | intro _ | with_reducible apply kept_regAdd

theorem kept_sendIrq {a0 : State} (fn : Nat) (vec : Nat) (s : State) (hs : Kept a0 s) :
    Kept a0 (sendIrq fn vec s) := by
  unfold sendIrq
  repeat' first
    | assumption | intro _ | fail_if_no_progress with_reducible apply Kept.upd

theorem kept_noticeIrq {a0 : State} (p : Nat) (s : State) (hs : Kept a0 s) :
    Kept a0 (noticeIrq p s) := by
  unfold noticeIrq
  repeat' first
    | assumption | intro _ | with_reducible apply kept_sendIrq

theorem kept_ghNotice {a0 : State} (p : Nat) (m : Nat) (s : State) (hs : Kept a0 s) :
    Kept a0 (ghNotice p m s) := by
  unfold ghNotice
  repeat' first
    | assumption | intro _ | with_reducible apply kept_regOr | with_reducible apply kept_noticeIrq
    | with_reducible apply Kept.ite

theorem kept_ghNoticeBoth {a0 : State} (m : Nat) (s : State) (hs : Kept a0 s) :
    Kept a0 (ghNoticeBoth m s) := by
  unfold ghNoticeBoth
  repeat' first
    | assumption | intro _ | with_reducible apply kept_ghNotice

/-! ### Rings -/

theorem kept_setRing {a0 : State} (fn : Nat) (r : Ring) (s : State) (hs : Kept a0 s) :
    Kept a0 (setRing fn r s) := by
  unfold setRing
  repeat' first
    | assumption | intro _ | fail_if_no_progress with_reducible apply Kept.upd

theorem kept_onRing {a0 : State} (fn : Nat) (f : Ring → Ring) (s : State) (hs : Kept a0 s) :
    Kept a0 (onRing fn f s) := by
  unfold onRing
  repeat' first
    | assumption | intro _ | with_reducible apply kept_setRing

theorem kept_dmaWrite {a0 : State} (p : Nat) (addr : Nat) (bs : List Byte) (s : State) (hs : Kept a0 s) :
    Kept a0 (dmaWrite p addr bs s) := by
  exact hs.hostWrite

theorem kept_onTenant {a0 : State} (p : Nat) (t : Nat) (f : Tenant → Tenant) (s : State) (hs : Kept a0 s) :
    Kept a0 (onTenant p t f s) := by
  unfold onTenant
  repeat' first
    | assumption | intro _ | fail_if_no_progress with_reducible apply Kept.upd

theorem kept_applyCharge {a0 : State} (c : Option Charge) (s : State) (hs : Kept a0 s) :
    Kept a0 (applyCharge c s) := by
  unfold applyCharge
  repeat' first
    | assumption | intro _ | with_reducible apply kept_onTenant | with_reducible apply Kept.ite
    | fail_if_no_progress with_reducible apply Kept.upd | split

theorem kept_fireCoal {a0 : State} (fn : Nat) (s : State) (hs : Kept a0 s) :
    Kept a0 (fireCoal fn s) := by
  unfold fireCoal
  repeat' first
    | assumption | intro _ | with_reducible apply kept_sendIrq | with_reducible apply kept_setRing
    | with_reducible apply Kept.ite

theorem kept_writeCpl {a0 : State} (fn : Nat) (c : Cpl) (s : State) (hs : Kept a0 s) :
    Kept a0 (writeCpl fn c s) := by
  unfold writeCpl
  repeat' first
    | assumption | intro _ | with_reducible apply kept_setRing | with_reducible apply kept_dmaWrite
    | with_reducible apply kept_applyCharge | with_reducible apply kept_fireCoal

theorem kept_drainOverflow {a0 : State} (fn : Nat) (z0 : Nat) (z1 : State) (hs : Kept a0 z1) :
    Kept a0 (drainOverflow fn z0 z1) := by
  induction z0 generalizing z1 with
  | zero =>
    unfold drainOverflow
    repeat' first
      | assumption
  | succ n ih =>
    unfold drainOverflow
    repeat' first
      | assumption | intro _ | with_reducible apply ih | with_reducible apply kept_setRing
      | with_reducible apply kept_writeCpl | with_reducible apply Kept.ite
      | fail_if_no_progress with_reducible apply Kept.upd | split | dsimp only

theorem kept_postCpl {a0 : State} (c : Cpl) (s : State) (hs : Kept a0 s) :
    Kept a0 (postCpl c s) := by
  unfold postCpl
  repeat' first
    | assumption | intro _ | with_reducible apply kept_setRing | with_reducible apply kept_applyCharge
    | with_reducible apply kept_writeCpl | with_reducible apply Kept.ite

theorem kept_fetchReq {a0 : State} (r : Req) (op : Nat) (s : State) (hs : Kept a0 s) :
    KeptP a0 (fetchReq r op s) := by
  unfold fetchReq
  repeat' first
    | assumption | intro _ | with_reducible apply kept_setRing | with_reducible exact KeptP.none
    | with_reducible apply KeptP.ite | with_reducible apply KeptP.some | with_reducible apply KeptP.some2
    | with_reducible apply Kept.ite | fail_if_no_progress with_reducible apply Kept.upd | split

theorem kept_complete {a0 : State} (id : ReqId) (detail : Nat) (status : Option Nat) (info : Nat) (s : State) (hs : Kept a0 s) :
    Kept a0 (complete id detail status info s) := by
  unfold complete
  repeat' first
    | assumption | intro _ | with_reducible apply kept_postCpl

theorem kept_done {a0 : State} (id : ReqId) (s : State) (hs : Kept a0 s) :
    Kept a0 (done id s) := by
  unfold done
  repeat' first
    | assumption | intro _ | with_reducible apply kept_complete

theorem kept_fail {a0 : State} (id : ReqId) (detail : Nat) (s : State) (hs : Kept a0 s) :
    Kept a0 (fail id detail s) := by
  unfold fail
  repeat' first
    | assumption | intro _ | with_reducible apply kept_complete

theorem kept_withOut {a0 : State} (id : ReqId) (addr : Nat) (bs : List Byte) (next : State → State) (s : State) (hs : Kept a0 s) (h_next : ∀ y0, Kept a0 y0 → Kept a0 (next y0)) :
    Kept a0 (withOut id addr bs next s) := by
  unfold withOut
  repeat' first
    | assumption | intro _ | with_reducible apply h_next | with_reducible apply kept_dmaWrite
    | with_reducible apply kept_fail | with_reducible apply Kept.ite

theorem kept_defer {a0 : State} (id : ReqId) (detail : Nat) (s : State) (hs : Kept a0 s) :
    Kept a0 (defer id detail s) := by
  unfold defer
  repeat' first
    | assumption | intro _ | with_reducible apply kept_complete

theorem kept_badEntry {a0 : State} (id : ReqId) (byte : Nat) (s : State) (hs : Kept a0 s) :
    Kept a0 (badEntry id byte s) := by
  unfold badEntry
  repeat' first
    | assumption | intro _ | with_reducible apply kept_complete

theorem kept_onReq {a0 : State} (r : Req) (op : Nat) (bad : Option Nat) (body : ReqId → State → State) (s : State) (hs : Kept a0 s) (h_body : ∀ y0 y1, Kept a0 y1 → Kept a0 (body y0 y1)) :
    Kept a0 (onReq r op bad body s) := by
  unfold onReq
  repeat' first
    | assumption | intro _ | with_reducible apply h_body | with_reducible apply kept_fetchReq
    | refine KeptP.get (kept_fetchReq _ _ _ ?_) (by assumption) | with_reducible apply kept_fail
    | with_reducible apply kept_badEntry | with_reducible exact KeptP.none | with_reducible apply KeptP.ite
    | with_reducible apply KeptP.some | with_reducible apply KeptP.some2 | with_reducible apply Kept.ite
    | fail_if_no_progress with_reducible apply Kept.upd | split

theorem kept_holdReq {a0 : State} (id : ReqId) (why : HeldFor) (cmd : Instr) (s : State) (hs : Kept a0 s) :
    Kept a0 (holdReq id why cmd s) := by
  unfold holdReq
  repeat' first
    | assumption | intro _ | fail_if_no_progress with_reducible apply Kept.upd

/-! ### HostRings -/

theorem kept_endRuns {a0 : State} (p : ReqId → Bool) (s : State) (hs : Kept a0 s) :
    Kept a0 (endRuns p s) := by
  unfold endRuns
  repeat' first
    | assumption | intro _ | with_reducible apply Kept.ite | fail_if_no_progress with_reducible apply Kept.upd

theorem kept_stopRings {a0 : State} (fn : Nat) (cause : Option Nat) (s : State) (hs : Kept a0 s) :
    Kept a0 (stopRings fn cause s) := by
  unfold stopRings
  repeat' first
    | assumption | intro _ | with_reducible apply kept_endRuns | with_reducible apply kept_setRing
    | with_reducible apply kept_applyCharge | with_reducible apply Kept.foldl

theorem kept_execRingStart {a0 : State} (f : Fn) (v : Word) (s : State) (hs : Kept a0 s) :
    KeptR a0 (execRingStart f v s) := by
  unfold execRingStart
  repeat' first
    | assumption | intro _ | with_reducible apply kept_setRing | with_reducible apply KeptR.ite
    | with_reducible apply KeptR.next

theorem kept_execRingStop {a0 : State} (f : Fn) (v : Word) (s : State) (hs : Kept a0 s) :
    KeptR a0 (execRingStop f v s) := by
  unfold execRingStop
  repeat' first
    | assumption | intro _ | with_reducible apply kept_stopRings | with_reducible apply kept_setRing
    | with_reducible apply kept_fireCoal | with_reducible apply KeptR.ite | with_reducible apply KeptR.next

theorem kept_execRqTailDoorbell {a0 : State} (f : Fn) (v : Word) (s : State) (hs : Kept a0 s) :
    KeptR a0 (execRqTailDoorbell f v s) := by
  unfold execRqTailDoorbell
  repeat' first
    | assumption | intro _ | with_reducible apply kept_stopRings | with_reducible apply kept_setRing
    | with_reducible apply KeptR.ite | with_reducible apply KeptR.next | with_reducible apply Kept.ite
    | fail_if_no_progress with_reducible apply Kept.upd

theorem kept_execRequestFetchFault {a0 : State} (f : Fn) (s : State) (hs : Kept a0 s) :
    KeptR a0 (execRequestFetchFault f s) := by
  unfold execRequestFetchFault
  repeat' first
    | assumption | intro _ | with_reducible apply kept_stopRings | with_reducible apply KeptR.ite
    | with_reducible apply KeptR.next

theorem kept_consume {a0 : State} (fn : Nat) (es : List CqEntry) (s : State) (hs : Kept a0 s) :
    Kept a0 (consume fn es s) := by
  unfold consume
  repeat' first
    | assumption | intro _ | with_reducible apply Kept.ite | with_reducible apply Kept.foldl
    | fail_if_no_progress with_reducible apply Kept.upd

theorem kept_execCqHeadDoorbell {a0 : State} (f : Fn) (v : Word) (s : State) (hs : Kept a0 s) :
    KeptR a0 (execCqHeadDoorbell f v s) := by
  unfold execCqHeadDoorbell
  repeat' first
    | assumption | intro _ | with_reducible apply kept_stopRings | with_reducible apply kept_consume
    | with_reducible apply kept_setRing | with_reducible apply kept_drainOverflow | with_reducible apply KeptR.ite
    | with_reducible apply KeptR.next

theorem kept_execCoalTimeout {a0 : State} (f : Fn) (s : State) (hs : Kept a0 s) :
    KeptR a0 (execCoalTimeout f s) := by
  unfold execCoalTimeout
  repeat' first
    | assumption | intro _ | with_reducible apply kept_sendIrq | with_reducible apply kept_setRing
    | with_reducible apply KeptR.ite | with_reducible apply KeptR.next

theorem kept_execIrqEnableSet {a0 : State} (f : Fn) (v : Word) (s : State) (hs : Kept a0 s) :
    KeptR a0 (execIrqEnableSet f v s) := by
  unfold execIrqEnableSet
  repeat' first
    | assumption | intro _ | with_reducible apply kept_setRing | with_reducible apply kept_fireCoal
    | with_reducible apply KeptR.ite | with_reducible apply KeptR.next

theorem kept_execCompletionWriteFault {a0 : State} (f : Fn) (s : State) (hs : Kept a0 s) :
    KeptR a0 (execCompletionWriteFault f s) := by
  unfold execCompletionWriteFault
  repeat' first
    | assumption | intro _ | with_reducible apply kept_stopRings | with_reducible apply KeptR.ite
    | with_reducible apply KeptR.next

theorem kept_execVfFlr {a0 : State} (f : Fn) (s : State) (hs : Kept a0 s) :
    KeptR a0 (execVfFlr f s) := by
  unfold execVfFlr
  repeat' first
    | assumption | intro _ | with_reducible apply kept_stopRings | with_reducible apply KeptR.ite
    | with_reducible apply KeptR.next

theorem kept_execBadOpcode {a0 : State} (r : Req) (opcode : Nat) (s : State) (hs : Kept a0 s) :
    KeptR a0 (execBadOpcode r opcode s) := by
  unfold execBadOpcode
  repeat' first
    | assumption | intro _ | with_reducible apply kept_fetchReq | refine KeptP.get (kept_fetchReq _ _ _ ?_) (by assumption)
    | with_reducible apply kept_fail | with_reducible exact KeptP.none | with_reducible apply KeptR.ite
    | with_reducible apply KeptP.ite | with_reducible apply KeptR.next | with_reducible apply KeptP.some
    | with_reducible apply KeptP.some2 | with_reducible apply Kept.ite | fail_if_no_progress with_reducible apply Kept.upd
    | split

theorem kept_execNop {a0 : State} (r : Req) (s : State) (hs : Kept a0 s) :
    KeptR a0 (execNop r s) := by
  unfold execNop
  repeat' first
    | assumption | intro _ | with_reducible apply kept_done | with_reducible apply kept_onReq
    | with_reducible apply KeptR.next

theorem kept_execRingFence {a0 : State} (r : Req) (s : State) (hs : Kept a0 s) :
    KeptR a0 (execRingFence r s) := by
  unfold execRingFence
  repeat' first
    | assumption | intro _ | with_reducible apply kept_done | with_reducible apply kept_onReq
    | with_reducible apply kept_holdReq | with_reducible apply KeptR.ite | with_reducible apply KeptR.next
    | with_reducible apply Kept.ite

/-! ### Errors -/

theorem kept_setErrQueue {a0 : State} (p : Nat) (q : ErrQueue) (s : State) (hs : Kept a0 s) :
    Kept a0 (setErrQueue p q s) := by
  unfold setErrQueue
  repeat' first
    | assumption | intro _ | with_reducible apply Kept.ite | fail_if_no_progress with_reducible apply Kept.upd

theorem kept_queueErr {a0 : State} (p : Nat) (e : ErrRec) (s : State) (hs : Kept a0 s) :
    Kept a0 (queueErr p e s) := by
  unfold queueErr
  repeat' first
    | assumption | intro _ | with_reducible apply kept_setErrQueue | with_reducible apply kept_regAdd
    | with_reducible apply kept_noticeIrq | with_reducible apply Kept.ite

theorem kept_deliverErr {a0 : State} (e : ErrRec) (s : State) (hs : Kept a0 s) :
    Kept a0 (deliverErr e s) := by
  unfold deliverErr
  repeat' first
    | assumption | intro _ | with_reducible apply kept_queueErr | with_reducible apply Kept.ite
    | fail_if_no_progress with_reducible apply Kept.upd

theorem kept_setErrSource {a0 : State} (src : Nat) (x : ErrSource) (s : State) (hs : Kept a0 s) :
    Kept a0 (setErrSource src x s) := by
  unfold setErrSource
  repeat' first
    | assumption | intro _ | fail_if_no_progress with_reducible apply Kept.upd

theorem kept_addRepair {a0 : State} (pbay : Nat) (kind : Nat) (core : Nat) (elem : Nat) (spare : Nat) (s : State) (hs : Kept a0 s) :
    Kept a0 (addRepair pbay kind core elem spare s) := by
  unfold addRepair
  dsimp only
  split
  · exact hs
  · exact hs.store (Nat.le_refl _)

theorem kept_raiseErr {a0 : State} (e0 : ErrRec) (s : State) (hs : Kept a0 s) :
    Kept a0 (raiseErr e0 s) := by
  unfold raiseErr
  repeat' first
    | assumption | intro _ | with_reducible apply kept_deliverErr | with_reducible apply kept_setErrSource
    | with_reducible apply kept_regAdd | with_reducible apply Kept.ite | fail_if_no_progress with_reducible apply Kept.upd
    | split

theorem kept_escalateNow {a0 : State} (src : Nat) (s : State) (hs : Kept a0 s) :
    Kept a0 (escalateNow src s) := by
  unfold escalateNow
  repeat' first
    | assumption | intro _ | with_reducible apply kept_setErrSource | with_reducible apply kept_regAdd

theorem kept_farAccess {a0 : State} (slot : Nat) (s : State) (hs : Kept a0 s) :
    Kept a0 (farAccess slot s) := by
  unfold farAccess
  repeat' first
    | assumption | intro _ | with_reducible apply kept_regAdd | with_reducible apply Kept.ite

/-! ### CoreOps -/

theorem kept_setCore {a0 : State} (k : Nat) (c : Core) (s : State) (hs : Kept a0 s) :
    Kept a0 (setCore k c s) := by
  unfold setCore
  repeat' first
    | assumption | intro _ | fail_if_no_progress with_reducible apply Kept.upd

theorem kept_setBay {a0 : State} (b : Nat) (x : Bay) (s : State) (hs : Kept a0 s) :
    Kept a0 (setBay b x s) := by
  unfold setBay
  repeat' first
    | assumption | intro _ | fail_if_no_progress with_reducible apply Kept.upd

theorem kept_onBay {a0 : State} (b : Nat) (f : Bay → Bay) (s : State) (hs : Kept a0 s) :
    Kept a0 (onBay b f s) := by
  unfold onBay
  repeat' first
    | assumption | intro _ | with_reducible apply kept_setBay

theorem kept_setFrame {a0 : State} (key : Nat) (f : Frame) (s : State) (hs : Kept a0 s) :
    Kept a0 (setFrame key f s) := by
  unfold setFrame
  repeat' first
    | assumption | intro _ | fail_if_no_progress with_reducible apply Kept.upd

theorem kept_setFlags {a0 : State} (k : Nat) (key : Nat) (f : Frame) (cyc : Nat) (fl : BitVec 5) (s : State) (hs : Kept a0 s) :
    Kept a0 (setFlags k key f cyc fl s) := by
  unfold setFlags
  repeat' first
    | assumption | intro _ | with_reducible apply kept_setCore | with_reducible apply kept_regSet
    | with_reducible apply kept_regOr | with_reducible apply Kept.ite | fail_if_no_progress with_reducible apply Kept.upd
    | split | dsimp only

/-! ### Desc -/

theorem kept_drew {a0 : State} (s : State) (hs : Kept a0 s) :
    Kept a0 (drew s) := by
  unfold drew
  repeat' first
    | assumption | intro _ | fail_if_no_progress with_reducible apply Kept.upd

/-! ### Objects -/

theorem kept_onTile {a0 : State} (key : Nat) (i : Nat) (f : Tile → Tile) (s : State) (hs : Kept a0 s) :
    Kept a0 (onTile key i f s) := by
  unfold onTile
  repeat' first
    | assumption | intro _ | fail_if_no_progress with_reducible apply Kept.upd | split

/-! ### Records -/

theorem kept_onSec {a0 : State} (f : Security → Security) (s : State) (hs : Kept a0 s) (hf : SecOk s.sec (f s.sec)) :
    Kept a0 (onSec f s) := by
  exact hs.sec hf

theorem kept_farAlloc {a0 : State} (s : State) (hs : Kept a0 s) :
    KeptP a0 (farAlloc s) := by
  unfold farAlloc
  repeat' first
    | assumption | intro _ | with_reducible apply kept_drew | with_reducible exact KeptP.none
    | with_reducible apply KeptP.map | with_reducible apply KeptP.some | with_reducible apply KeptP.some2
    | fail_if_no_progress with_reducible apply Kept.upd | split | dsimp only

theorem kept_spotAlloc {a0 : State} (fn : Nat) (tier : Nat) (region : Nat) (len : Nat) (s : State) (hs : Kept a0 s) :
    KeptP a0 (spotAlloc fn tier region len s) := by
  unfold spotAlloc
  repeat' first
    | assumption | intro _ | with_reducible apply kept_farAlloc | refine KeptP.get (kept_farAlloc _ ?_) (by assumption)
    | with_reducible exact KeptP.none | with_reducible apply KeptP.ite | with_reducible apply KeptP.some
    | with_reducible apply KeptP.some2 | with_reducible apply Kept.ite | fail_if_no_progress with_reducible apply Kept.upd
    | split | dsimp only

theorem kept_spotFree {a0 : State} (fn : Nat) (sp : Spot) (s : State) (hs : Kept a0 s) :
    Kept a0 (spotFree fn sp s) := by
  unfold spotFree
  repeat' first
    | assumption | intro _ | with_reducible apply Kept.ite | fail_if_no_progress with_reducible apply Kept.upd | split

theorem kept_bumpCounter {a0 : State} (kd : Nat) (s : State) (hs : Kept a0 s) :
    Kept a0 (bumpCounter kd s) := by
  unfold bumpCounter
  repeat' first
    | assumption | intro _ | with_reducible apply kept_onSec | fail_if_no_progress with_reducible apply Kept.upd
    | exact SecOk.of rfl rfl rfl rfl

theorem kept_spotWriteAs {a0 : State} (fn : Nat) (key : Nat) (tile : Nat) (kd : Nat) (sp : Spot) (e : Encoded) (s : State) (hs : Kept a0 s) :
    Kept a0 (spotWriteAs fn key tile kd sp e s) := by
  unfold spotWriteAs
  repeat' first
    | assumption | intro _ | with_reducible apply kept_bumpCounter | with_reducible apply kept_dmaWrite
    | with_reducible apply Kept.ite | fail_if_no_progress with_reducible apply Kept.upd | split

theorem kept_spotWrite {a0 : State} (key : Nat) (tile : Nat) (kd : Nat) (sp : Spot) (e : Encoded) (s : State) (hs : Kept a0 s) :
    Kept a0 (spotWrite key tile kd sp e s) := by
  unfold spotWrite
  repeat' first
    | assumption | intro _ | with_reducible apply kept_spotWriteAs

theorem kept_tierBytes {a0 : State} (key : Nat) (tier : Nat) (dir : Nat) (n : Nat) (s : State) (hs : Kept a0 s) :
    Kept a0 (tierBytes key tier dir n s) := by
  unfold tierBytes
  repeat' first
    | assumption | intro _ | with_reducible apply kept_regAdd

/-! ### PoolSend -/

theorem kept_onCly {a0 : State} (p : Nat) (f : CelayPort → CelayPort) (s : State) (hs : Kept a0 s) :
    Kept a0 (onCly p f s) := by
  unfold onCly
  repeat' first
    | assumption | intro _ | fail_if_no_progress with_reducible apply Kept.upd

theorem kept_sendMsg {a0 : State} (p : Nat) (cls : Nat) (kind : Nat) (dest : Nat) (tag : Nat) (gen : Nat) (payload : List Byte) (s : State) (hs : Kept a0 s) :
    Kept a0 (sendMsg p cls kind dest tag gen payload s) := by
  unfold sendMsg
  repeat' first
    | assumption | intro _ | with_reducible apply kept_onCly

theorem kept_poolOpen {a0 : State} (w : PoolWait) (s : State) (hs : Kept a0 s) :
    KeptO a0 (poolOpen w s) := by
  unfold poolOpen
  repeat' first
    | assumption | intro _ | with_reducible apply kept_sendMsg | with_reducible exact KeptO.none
    | with_reducible apply KeptO.ite | with_reducible apply KeptO.getD | with_reducible apply KeptO.some
    | with_reducible apply Kept.ite | fail_if_no_progress with_reducible apply Kept.upd | split

theorem kept_poolSendAs {a0 : State} (fn : Nat) (key : Nat) (i : Nat) (write : Bool) (retried : Bool) (snap : Option SnapPart) (sp : Spot) (record : List Byte) (s : State) (hs : Kept a0 s) :
    KeptO a0 (poolSendAs fn key i write retried snap sp record s) := by
  unfold poolSendAs
  repeat' first
    | assumption | intro _ | with_reducible apply kept_poolOpen | refine KeptO.get (kept_poolOpen _ _ ?_) (by assumption)
    | with_reducible exact KeptO.none | with_reducible apply KeptO.ite | with_reducible apply KeptO.some
    | with_reducible apply Kept.ite | fail_if_no_progress with_reducible apply Kept.upd | split

theorem kept_poolSend {a0 : State} (key : Nat) (i : Nat) (write : Bool) (retried : Bool) (sp : Spot) (record : List Byte) (s : State) (hs : Kept a0 s) :
    KeptO a0 (poolSend key i write retried sp record s) := by
  unfold poolSend
  repeat' first
    | assumption | intro _ | with_reducible apply kept_poolSendAs

/-! ### SnapWrite -/

theorem kept_onSnap {a0 : State} (p : Nat) (f : SnapPort → SnapPort) (s : State) (hs : Kept a0 s) :
    Kept a0 (onSnap p f s) := by
  unfold onSnap
  repeat' first
    | assumption | intro _ | fail_if_no_progress with_reducible apply Kept.upd

theorem kept_onRun {a0 : State} (p : Nat) (f : SnapRun → SnapRun) (s : State) (hs : Kept a0 s) :
    Kept a0 (onRun p f s) := by
  unfold onRun
  repeat' first
    | assumption | intro _ | with_reducible apply kept_onSnap

theorem kept_dropCow {a0 : State} (key : Nat) (i : Nat) (s : State) (hs : Kept a0 s) :
    Kept a0 (dropCow key i s) := by
  unfold dropCow
  repeat' first
    | assumption | intro _ | fail_if_no_progress with_reducible apply Kept.upd | split

theorem kept_unpend {a0 : State} (p : Nat) (s : State) (hs : Kept a0 s) :
    Kept a0 (unpend p s) := by
  unfold unpend
  repeat' first
    | assumption | intro _ | with_reducible apply Kept.ite | with_reducible apply Kept.foldl
    | fail_if_no_progress with_reducible apply Kept.upd

theorem kept_snapFail {a0 : State} (p : Nat) (s : State) (hs : Kept a0 s) :
    Kept a0 (snapFail p s) := by
  unfold snapFail
  repeat' first
    | assumption | intro _ | with_reducible apply kept_spotFree | with_reducible apply kept_regAdd
    | with_reducible apply kept_fail | with_reducible apply kept_onSnap | with_reducible apply kept_unpend
    | with_reducible apply Kept.foldl | fail_if_no_progress with_reducible apply Kept.upd | split

theorem kept_snapOut {a0 : State} (p : Nat) (part : SnapPart) (sp : Spot) (retried : Bool) (bytes : List Byte) (s : State) (hs : Kept a0 s) :
    KeptO a0 (snapOut p part sp retried bytes s) := by
  unfold snapOut
  repeat' first
    | assumption | intro _ | with_reducible apply kept_poolSendAs
    | refine KeptO.get (kept_poolSendAs _ _ _ _ _ _ _ _ _ ?_) (by assumption) | with_reducible apply kept_onRun
    | with_reducible exact KeptO.none | with_reducible apply KeptO.ite | with_reducible apply KeptO.some

theorem kept_snapAck {a0 : State} (p : Nat) (part : SnapPart) (s : State) (hs : Kept a0 s) :
    Kept a0 (snapAck p part s) := by
  unfold snapAck
  repeat' first
    | assumption | intro _ | with_reducible apply kept_onRun

theorem kept_snapMiss {a0 : State} (p : Nat) (part : SnapPart) (s : State) (hs : Kept a0 s) :
    Kept a0 (snapMiss p part s) := by
  unfold snapMiss
  repeat' first
    | assumption | intro _ | with_reducible apply kept_regAdd | with_reducible apply kept_dmaWrite
    | with_reducible apply kept_snapFail | with_reducible apply kept_snapOut
    | refine KeptO.get (kept_snapOut _ _ _ _ _ _ ?_) (by assumption) | with_reducible apply KeptO.getD
    | with_reducible apply KeptO.bind | with_reducible apply Kept.ite | fail_if_no_progress with_reducible apply Kept.upd
    | split

theorem kept_storeRecord {a0 : State} (p : Nat) (r : SnapRun) (key : Nat) (i : Nat) (shard : Nat) (kd : Nat) (zeroed : Bool) (plain : List Byte) (s : State) (hs : Kept a0 s) :
    KeptO a0 (storeRecord p r key i shard kd zeroed plain s) := by
  unfold storeRecord
  repeat' first
    | assumption | intro _ | with_reducible apply kept_drew | with_reducible apply kept_onTile
    | with_reducible apply kept_spotAlloc | refine KeptP.get (kept_spotAlloc _ _ _ _ _ ?_) (by assumption)
    | with_reducible apply kept_spotWriteAs | with_reducible apply kept_regAdd | with_reducible apply kept_onRun
    | with_reducible apply kept_dropCow | with_reducible apply kept_snapOut
    | refine KeptO.get (kept_snapOut _ _ _ _ _ _ ?_) (by assumption) | with_reducible exact KeptO.none
    | with_reducible exact KeptP.none | with_reducible apply KeptO.ite | with_reducible apply KeptP.ite
    | with_reducible apply KeptO.some | with_reducible apply KeptP.some | with_reducible apply KeptP.some2
    | with_reducible apply Kept.ite | fail_if_no_progress with_reducible apply Kept.upd | split | dsimp only

theorem kept_snapStore {a0 : State} (p : Nat) (key : Nat) (i : Nat) (plain : List Byte) (s : State) (hs : Kept a0 s) :
    Kept a0 (snapStore p key i plain s) := by
  unfold snapStore
  repeat' first
    | assumption | intro _ | with_reducible apply kept_snapFail | with_reducible apply kept_storeRecord
    | refine KeptO.get (kept_storeRecord _ _ _ _ _ _ _ _ _ ?_) (by assumption) | with_reducible apply KeptO.getD
    | fail_if_no_progress with_reducible apply Kept.upd | split

/-! ### Near -/

theorem kept_nearPokeAt {a0 : State} (k : Nat) (byte : Nat) (bs : List Byte) (s : State) (hs : Kept a0 s) :
    Kept a0 (nearPokeAt k byte bs s) := by
  exact hs.nearSet (Memory.wf_memWrite _ _)

theorem kept_nearPoke {a0 : State} (k : Nat) (line : Nat) (bs : List Byte) (s : State) (hs : Kept a0 s) :
    Kept a0 (nearPoke k line bs s) := by
  exact hs.nearSet (Memory.wf_memWrite _ _)

theorem kept_writeTile {a0 : State} (key : Nat) (i : Nat) (s : State) (hs : Kept a0 s) :
    Kept a0 (writeTile key i s) := by
  unfold writeTile
  repeat' first
    | assumption | intro _ | with_reducible apply kept_onTile

theorem kept_setForm {a0 : State} (k : Nat) (form : Nat) (slots : List Nat) (s : State) (hs : Kept a0 s) :
    Kept a0 (setForm k form slots s) := by
  unfold setForm
  repeat' first
    | assumption | intro _ | with_reducible apply Kept.ite | with_reducible apply Kept.foldl
    | fail_if_no_progress with_reducible apply Kept.upd

theorem kept_setDirty {a0 : State} (k : Nat) (slots : List Nat) (s : State) (hs : Kept a0 s) :
    Kept a0 (setDirty k slots s) := by
  unfold setDirty
  repeat' first
    | assumption | intro _ | with_reducible apply Kept.foldl | fail_if_no_progress with_reducible apply Kept.upd

theorem kept_clearDirty {a0 : State} (k : Nat) (line : Nat) (s : State) (hs : Kept a0 s) :
    Kept a0 (clearDirty k line s) := by
  unfold clearDirty
  repeat' first
    | assumption | intro _ | fail_if_no_progress with_reducible apply Kept.upd

theorem kept_foldDirty {a0 : State} (bays : List Nat) (s : State) (hs : Kept a0 s) :
    Kept a0 (foldDirty bays s) := by
  unfold foldDirty
  repeat' first
    | assumption | intro _ | with_reducible apply kept_writeTile | with_reducible apply Kept.foldl
    | fail_if_no_progress with_reducible apply Kept.upd

theorem kept_snapKeep {a0 : State} (key : Nat) (i : Nat) (s : State) (hs : Kept a0 s) :
    Kept a0 (snapKeep key i s) := by
  unfold snapKeep
  repeat' first
    | assumption | intro _ | with_reducible apply kept_snapStore | with_reducible apply Kept.ite
    | fail_if_no_progress with_reducible apply Kept.upd | split

theorem kept_cowFar {a0 : State} (key : Nat) (i : Nat) (n : Nat) (bs : List Byte) (s : State) (hs : Kept a0 s) :
    Kept a0 (cowFar key i n bs s) := by
  unfold cowFar
  repeat' first
    | assumption | intro _ | with_reducible apply kept_spotWrite | fail_if_no_progress with_reducible apply Kept.upd

theorem kept_cowKeep {a0 : State} (key : Nat) (i : Nat) (s : State) (hs : Kept a0 s) :
    Kept a0 (cowKeep key i s) := by
  unfold cowKeep
  repeat' first
    | assumption | intro _ | with_reducible apply kept_cowFar | with_reducible apply kept_farAlloc
    | refine KeptP.get (kept_farAlloc _ ?_) (by assumption) | with_reducible apply kept_regAdd
    | with_reducible apply kept_snapFail | with_reducible apply kept_snapStore | with_reducible exact KeptP.none
    | with_reducible apply KeptP.ite | with_reducible apply KeptP.some | with_reducible apply KeptP.some2
    | with_reducible apply Kept.ite | fail_if_no_progress with_reducible apply Kept.upd | split

theorem kept_undamage {a0 : State} (k : Nat) (line : Nat) (n : Nat) (s : State) (hs : Kept a0 s) :
    Kept a0 (undamage k line n s) := by
  unfold undamage
  repeat' first
    | assumption | intro _ | with_reducible apply kept_onBay

theorem kept_nearSet {a0 : State} (k : Nat) (byte : Nat) (bs : List Byte) (s : State) (hs : Kept a0 s) :
    Kept a0 (nearSet k byte bs s) := by
  unfold nearSet
  repeat' first
    | assumption | intro _ | with_reducible apply kept_nearPokeAt | with_reducible apply kept_setDirty
    | with_reducible apply kept_undamage

theorem kept_nearStoreAt {a0 : State} (k : Nat) (byte : Nat) (bs : List Byte) (s : State) (hs : Kept a0 s) :
    Kept a0 (nearStoreAt k byte bs s) := by
  unfold nearStoreAt
  repeat' first
    | assumption | intro _ | with_reducible apply kept_cowKeep | with_reducible apply kept_nearSet
    | with_reducible apply Kept.foldl

theorem kept_nearStore {a0 : State} (k : Nat) (line : Nat) (bs : List Byte) (s : State) (hs : Kept a0 s) :
    Kept a0 (nearStore k line bs s) := by
  unfold nearStore
  repeat' first
    | assumption | intro _ | with_reducible apply kept_nearStoreAt

theorem kept_tagStore {a0 : State} (k : Nat) (byte : Nat) (bs : List Byte) (s : State) (hs : Kept a0 s) :
    Kept a0 (tagStore k byte bs s) := by
  unfold tagStore
  repeat' first
    | assumption | intro _ | with_reducible apply kept_setForm | with_reducible apply kept_nearSet

theorem kept_tagChange {a0 : State} (p : Pav) (slot : Nat) (pos : Nat) (f : Nat → Nat) (s : State) (hs : Kept a0 s) :
    Kept a0 (tagChange p slot pos f s) := by
  unfold tagChange
  exact Kept.foldl hs fun s g h => kept_tagStore _ _ _ _ h

theorem kept_tagScatter {a0 : State} (p : Pav) (slot : Nat) (lmax : Nat) (m : Nat) (bs : List Byte) (s : State) (hs : Kept a0 s) :
    Kept a0 (tagScatter p slot lmax m bs s) := by
  unfold tagScatter
  exact Kept.foldl hs fun s u h => Kept.foldl h fun s g h => kept_tagStore _ _ _ _ h

theorem kept_damageSlot {a0 : State} (key : Nat) (k : Nat) (line : Nat) (s : State) (hs : Kept a0 s) :
    Kept a0 (damageSlot key k line s) := by
  unfold damageSlot
  repeat' first
    | assumption | intro _ | with_reducible apply kept_setFrame | with_reducible apply Kept.ite
    | fail_if_no_progress with_reducible apply Kept.upd | split

theorem kept_lineLost {a0 : State} (k : Nat) (line : Nat) (s : State) (hs : Kept a0 s) :
    Kept a0 (lineLost k line s) := by
  unfold lineLost
  repeat' first
    | assumption | intro _ | with_reducible apply kept_onBay | with_reducible apply kept_raiseErr
    | with_reducible apply kept_escalateNow | with_reducible apply Kept.ite

/-! ### HostRegs -/

theorem kept_refuseAccess {a0 : State} (f : Fn) (bar : Bar) (off : Nat) (size : Nat) (write : Bool) (s : State) (hs : Kept a0 s) :
    Kept a0 (refuseAccess f bar off size write s) := by
  unfold refuseAccess
  repeat' first
    | assumption | intro _ | with_reducible apply kept_raiseErr

theorem kept_execMisalignedRegisterAccess {a0 : State} (f : Fn) (off : Nat) (size : Nat) (write : Bool) (s : State) (hs : Kept a0 s) :
    KeptR a0 (execMisalignedRegisterAccess f off size write s) := by
  unfold execMisalignedRegisterAccess
  repeat' first
    | assumption | intro _ | with_reducible apply kept_refuseAccess | with_reducible apply KeptR.ite
    | with_reducible apply KeptR.next | with_reducible apply Kept.ite | fail_if_no_progress with_reducible apply Kept.upd

theorem kept_execUndecodedAccess {a0 : State} (f : Fn) (bar : Bar) (off : Nat) (write : Bool) (s : State) (hs : Kept a0 s) :
    KeptR a0 (execUndecodedAccess f bar off write s) := by
  unfold execUndecodedAccess
  repeat' first
    | assumption | intro _ | with_reducible apply kept_refuseAccess | with_reducible apply KeptR.ite
    | with_reducible apply KeptR.next | with_reducible apply Kept.ite | fail_if_no_progress with_reducible apply Kept.upd

theorem kept_execVfBar0Write {a0 : State} (f : Fn) (off : Nat) (size : Nat) (s : State) (hs : Kept a0 s) :
    KeptR a0 (execVfBar0Write f off size s) := by
  unfold execVfBar0Write
  repeat' first
    | assumption | intro _ | with_reducible apply kept_refuseAccess | with_reducible apply KeptR.ite
    | with_reducible apply KeptR.next

theorem kept_tdiError {a0 : State} (fns : List Nat) (s : State) (hs : Kept a0 s) :
    Kept a0 (tdiError fns s) := by
  exact hs.sec (SecOk.of rfl rfl rfl rfl)

theorem kept_maskChange {a0 : State} (p : Nat) (old : Nat) (new : Nat) (refuse : State → State) (make : State → State) (s : State) (hs : Kept a0 s) (h_refuse : ∀ y0, Kept a0 y0 → Kept a0 (refuse y0)) (h_make : ∀ y0, Kept a0 y0 → Kept a0 (make y0)) :
    Kept a0 (maskChange p old new refuse make s) := by
  unfold maskChange
  repeat' first
    | assumption | intro _ | with_reducible apply h_refuse | with_reducible apply h_make | with_reducible apply kept_tdiError
    | with_reducible apply Kept.ite

theorem kept_setFields {a0 : State} (p : Nat) (off : Nat) (v : Nat) (s : State) (hs : Kept a0 s) :
    Kept a0 (setFields p off v s) := by
  unfold setFields
  repeat' first
    | assumption | intro _ | with_reducible apply kept_maskChange | with_reducible apply kept_regSet
    | with_reducible apply Kept.ite | fail_if_no_progress with_reducible apply Kept.upd | split

theorem kept_execLowHalfWrite {a0 : State} (f : Fn) (bar : Bar) (off : Nat) (v : Word) (s : State) (hs : Kept a0 s) :
    KeptR a0 (execLowHalfWrite f bar off v s) := by
  unfold execLowHalfWrite
  repeat' first
    | assumption | intro _ | with_reducible apply kept_refuseAccess | with_reducible apply KeptR.ite
    | with_reducible apply KeptR.next | with_reducible apply Kept.ite | fail_if_no_progress with_reducible apply Kept.upd
    | split

theorem kept_execHighHalfWrite {a0 : State} (f : Fn) (bar : Bar) (off : Nat) (v : Word) (s : State) (hs : Kept a0 s) :
    KeptR a0 (execHighHalfWrite f bar off v s) := by
  unfold execHighHalfWrite
  repeat' first
    | assumption | intro _ | with_reducible apply kept_refuseAccess | with_reducible apply kept_setFields
    | with_reducible apply kept_setRing | with_reducible apply KeptR.ite | with_reducible apply KeptR.next
    | with_reducible apply Kept.ite | fail_if_no_progress with_reducible apply Kept.upd | split

theorem kept_execRegisterWrite {a0 : State} (f : Fn) (bar : Bar) (off : Nat) (v : Word) (s : State) (hs : Kept a0 s) :
    KeptR a0 (execRegisterWrite f bar off v s) := by
  unfold execRegisterWrite
  repeat' first
    | assumption | intro _ | with_reducible apply kept_refuseAccess | with_reducible apply kept_setFields
    | with_reducible apply kept_setRing | with_reducible apply kept_fireCoal | with_reducible apply KeptR.ite
    | with_reducible apply KeptR.next | with_reducible apply Kept.ite | fail_if_no_progress with_reducible apply Kept.upd
    | split

theorem kept_execK4TableHeldWrite {a0 : State} (f : Fn) (table : Fin 16) (word : Fin 3) (v : Word) (s : State) (hs : Kept a0 s) :
    KeptR a0 (execK4TableHeldWrite f table word v s) := by
  unfold execK4TableHeldWrite
  repeat' first
    | assumption | intro _ | with_reducible apply KeptR.ite | with_reducible apply KeptR.next | with_reducible apply Kept.ite
    | fail_if_no_progress with_reducible apply Kept.upd

theorem kept_execK4TableCommitWrite {a0 : State} (f : Fn) (table : Fin 16) (v : Word) (s : State) (hs : Kept a0 s) :
    KeptR a0 (execK4TableCommitWrite f table v s) := by
  unfold execK4TableCommitWrite
  repeat' first
    | assumption | intro _ | with_reducible apply kept_regSet | with_reducible apply KeptR.ite
    | with_reducible apply KeptR.next | with_reducible apply Kept.ite | fail_if_no_progress with_reducible apply Kept.upd
    | split | dsimp only

theorem kept_execBayArithFlagsClear {a0 : State} (f : Fn) (pbay : Fin 21) (v : Word) (s : State) (hs : Kept a0 s) :
    KeptR a0 (execBayArithFlagsClear f pbay v s) := by
  unfold execBayArithFlagsClear
  repeat' first
    | assumption | intro _ | with_reducible apply kept_refuseAccess | with_reducible apply kept_regSet
    | with_reducible apply kept_regClear | with_reducible apply KeptR.ite | with_reducible apply KeptR.next
    | with_reducible apply Kept.ite | fail_if_no_progress with_reducible apply Kept.upd

/-! ### Directory -/

theorem kept_dirWrite {a0 : State} (w : DirWrite) (s : State) (hs : Kept a0 s) :
    Kept a0 (dirWrite w s) := by
  unfold dirWrite
  repeat' first
    | assumption | intro _ | fail_if_no_progress with_reducible apply Kept.upd

theorem kept_dirSetSession {a0 : State} (sk : Nat) (f : DirRec → DirRec) (id : Option ReqId) (s : State) (hs : Kept a0 s) :
    Kept a0 (dirSetSession sk f id s) := by
  unfold dirSetSession
  repeat' first
    | assumption | intro _ | with_reducible apply kept_dirWrite | fail_if_no_progress with_reducible apply Kept.upd | split

theorem kept_dirDropSession {a0 : State} (sk : Nat) (id : Option ReqId) (s : State) (hs : Kept a0 s) :
    Kept a0 (dirDropSession sk id s) := by
  unfold dirDropSession
  repeat' first
    | assumption | intro _ | with_reducible apply kept_dirWrite | fail_if_no_progress with_reducible apply Kept.upd | split

theorem kept_onRows {a0 : State} (f : NMap DirRow → NMap DirRow) (s : State) (hs : Kept a0 s) :
    Kept a0 (onRows f s) := by
  unfold onRows
  repeat' first
    | assumption | intro _ | fail_if_no_progress with_reducible apply Kept.upd

theorem kept_moveWrite {a0 : State} (gone : List Nat) (s : State) (w : DirWrite) (hs : Kept a0 s) :
    Kept a0 (moveWrite gone s w) := by
  unfold moveWrite
  repeat' first
    | assumption | intro _ | with_reducible apply kept_dirWrite | with_reducible apply Kept.ite
    | fail_if_no_progress with_reducible apply Kept.upd | split

theorem kept_blockFails {a0 : State} (b : Nat) (s : State) (hs : Kept a0 s) :
    Kept a0 (blockFails b s) := by
  unfold blockFails
  repeat' first
    | assumption | intro _ | with_reducible apply kept_moveWrite | with_reducible apply kept_raiseErr
    | with_reducible apply Kept.ite | with_reducible apply Kept.foldl | fail_if_no_progress with_reducible apply Kept.upd
    | split

theorem kept_cleanRow {a0 : State} (n : Nat) (s : State) (hs : Kept a0 s) :
    Kept a0 (cleanRow n s) := by
  unfold cleanRow
  repeat' first
    | assumption | intro _ | with_reducible apply kept_onRows | with_reducible apply Kept.ite
    | fail_if_no_progress with_reducible apply Kept.upd | split | dsimp only

theorem kept_rewriteRow {a0 : State} (n : Nat) (s : State) (hs : Kept a0 s) :
    Kept a0 (rewriteRow n s) := by
  unfold rewriteRow
  repeat' first
    | assumption | intro _ | with_reducible apply kept_cleanRow | with_reducible apply kept_farAccess
    | fail_if_no_progress with_reducible apply Kept.upd

theorem kept_retireRow {a0 : State} (n : Nat) (s : State) (hs : Kept a0 s) :
    Kept a0 (retireRow n s) := by
  unfold retireRow
  repeat' first
    | assumption | intro _ | with_reducible apply kept_blockFails | with_reducible apply kept_cleanRow
    | with_reducible apply kept_raiseErr | with_reducible apply kept_farAccess | with_reducible apply kept_regAddBoth
    | with_reducible apply Kept.ite | fail_if_no_progress with_reducible apply Kept.upd

theorem kept_markSuspect {a0 : State} (n : Nat) (s : State) (hs : Kept a0 s) :
    Kept a0 (markSuspect n s) := by
  unfold markSuspect
  repeat' first
    | assumption | intro _ | with_reducible apply kept_retireRow | with_reducible apply Kept.ite
    | fail_if_no_progress with_reducible apply Kept.upd

theorem kept_mendRow {a0 : State} (n : Nat) (s : State) (hs : Kept a0 s) :
    Kept a0 (mendRow n s) := by
  unfold mendRow
  repeat' first
    | assumption | intro _ | with_reducible apply kept_rewriteRow | with_reducible apply Kept.ite

theorem kept_flipRow {a0 : State} (s : State) (x : DirFlip) (hs : Kept a0 s) :
    Kept a0 (flipRow s x) := by
  unfold flipRow
  repeat' first
    | assumption | intro _ | with_reducible apply kept_onRows

theorem kept_searchNow {a0 : State} (wide : Bool) (q : Nat) (s : State) (hs : Kept a0 s) :
    Kept a0 (searchNow wide q s) := by
  unfold searchNow
  repeat' first
    | assumption | intro _ | with_reducible apply kept_markSuspect | with_reducible apply kept_mendRow
    | with_reducible apply kept_regAddBoth | with_reducible apply Kept.foldl
    | fail_if_no_progress with_reducible apply Kept.upd | split

theorem kept_countSearch {a0 : State} (p : Nat) (s : State) (hs : Kept a0 s) :
    Kept a0 (countSearch p s) := by
  unfold countSearch
  repeat' first
    | assumption | intro _ | with_reducible apply kept_regAdd

theorem kept_withSession {a0 : State} (id : ReqId) (body : Nat → Session → State → State) (s : State) (hs : Kept a0 s) (h_body : ∀ y0 y1 y2, Kept a0 y2 → Kept a0 (body y0 y1 y2)) :
    Kept a0 (withSession id body s) := by
  unfold withSession
  repeat' first
    | assumption | intro _ | with_reducible apply h_body | with_reducible apply kept_searchNow
    | with_reducible apply kept_countSearch | with_reducible apply kept_fail | with_reducible apply kept_defer
    | fail_if_no_progress with_reducible apply Kept.upd | split | dsimp only

theorem kept_withMem {a0 : State} (id : ReqId) (mem : Dma) (body : List Byte → State → State) (s : State) (hs : Kept a0 s) (h_body : ∀ y0 y1, Kept a0 y1 → Kept a0 (body y0 y1)) :
    Kept a0 (withMem id mem body s) := by
  unfold withMem
  repeat' first
    | assumption | intro _ | with_reducible apply h_body | with_reducible apply kept_fail | with_reducible exact KeptR.fault
    | fail_if_no_progress with_reducible apply Kept.upd | split

theorem kept_execDirLookup {a0 : State} (r : Req) (buf : DWord) (admin : Bool) (ignoreBlock : Bool) (mem : Dma) (s : State) (hs : Kept a0 s) :
    KeptR a0 (execDirLookup r buf admin ignoreBlock mem s) := by
  unfold execDirLookup
  repeat' first
    | assumption | intro _ | with_reducible apply kept_countSearch | with_reducible apply kept_withMem
    | with_reducible apply kept_fail | with_reducible apply kept_onReq | with_reducible apply KeptR.ite
    | with_reducible apply KeptR.next | with_reducible apply Kept.ite | fail_if_no_progress with_reducible apply Kept.upd

theorem kept_execDirInsert {a0 : State} (r : Req) (buf : DWord) (admin : Bool) (mem : Dma) (s : State) (hs : Kept a0 s) :
    KeptR a0 (execDirInsert r buf admin mem s) := by
  unfold execDirInsert
  repeat' first
    | assumption | intro _ | with_reducible apply kept_dirWrite | with_reducible apply kept_withMem
    | with_reducible apply kept_fail | with_reducible apply kept_defer | with_reducible apply kept_onReq
    | with_reducible apply KeptR.ite | with_reducible apply KeptR.next | with_reducible apply Kept.ite
    | fail_if_no_progress with_reducible apply Kept.upd | split

theorem kept_execDirDelete {a0 : State} (r : Req) (buf : DWord) (admin : Bool) (mem : Dma) (s : State) (hs : Kept a0 s) :
    KeptR a0 (execDirDelete r buf admin mem s) := by
  unfold execDirDelete
  repeat' first
    | assumption | intro _ | with_reducible apply kept_dirWrite | with_reducible apply kept_withMem
    | with_reducible apply kept_fail | with_reducible apply kept_onReq | with_reducible apply KeptR.ite
    | with_reducible apply KeptR.next | with_reducible apply Kept.ite | fail_if_no_progress with_reducible apply Kept.upd
    | split

theorem kept_execDirUpdate {a0 : State} (r : Req) (buf : DWord) (user : DWord) (admin : Bool) (mem : Dma) (s : State) (hs : Kept a0 s) :
    KeptR a0 (execDirUpdate r buf user admin mem s) := by
  unfold execDirUpdate
  repeat' first
    | assumption | intro _ | with_reducible apply kept_dirWrite | with_reducible apply kept_withMem
    | with_reducible apply kept_fail | with_reducible apply kept_onReq | with_reducible apply KeptR.ite
    | with_reducible apply KeptR.next | with_reducible apply Kept.ite | fail_if_no_progress with_reducible apply Kept.upd
    | split

theorem kept_scanRows {a0 : State} (id : ReqId) (admin : Bool) (ep : Nat) (maxLines : Nat) (stop : Nat) (z0 : NMap DirRow) (z1 : List (List Byte)) (z2 : State) (hs : Kept a0 z2) :
    Kept a0 (scanRows id admin ep maxLines stop z0 z1 z2).2.2 := by
  induction z0 generalizing z1 z2 with
  | nil => exact hs
  | cons x l ih =>
    unfold scanRows
    dsimp only
    repeat' first | exact hs | exact kept_markSuspect _ _ hs | exact ih _ _ hs | exact ih _ _ (kept_markSuspect _ _ hs) | split

theorem kept_execDirScan {a0 : State} (r : Req) (first : Nat) (count : Nat) (buf : DWord) (maxLines : Nat) (admin : Bool) (s : State) (hs : Kept a0 s) :
    KeptR a0 (execDirScan r first count buf maxLines admin s) := by
  unfold execDirScan
  repeat' first
    | assumption | intro _ | with_reducible apply kept_scanRows
    | refine Kept.get (kept_scanRows _ _ _ _ _ _ _ _ ?_) (by assumption) | with_reducible apply kept_done
    | with_reducible apply kept_fail | with_reducible apply kept_withOut | with_reducible apply kept_onReq
    | with_reducible apply KeptR.ite | with_reducible apply KeptR.next | with_reducible apply Kept.ite
    | fail_if_no_progress with_reducible apply Kept.upd | split

theorem kept_deliverSearch {a0 : State} (q : DirSearch) (hit : Option (Nat × DirRow)) (s : State) (hs : Kept a0 s) :
    Kept a0 (deliverSearch q hit s) := by
  cases hit with
  | none => exact kept_fail _ _ _ hs
  | some x => exact kept_withOut _ _ _ _ _ hs fun _ h => kept_done _ _ h

theorem kept_execDirSearchResult {a0 : State} (flips : List DirFlip) (s : State) (hs : Kept a0 s) :
    KeptR a0 (execDirSearchResult flips s) := by
  unfold execDirSearchResult
  repeat' first
    | assumption | intro _ | with_reducible apply kept_markSuspect | with_reducible apply kept_flipRow
    | with_reducible apply kept_deliverSearch | with_reducible apply KeptR.ite | with_reducible apply KeptR.next
    | with_reducible apply Kept.ite | with_reducible apply Kept.foldl | fail_if_no_progress with_reducible apply Kept.upd
    | split | dsimp only

theorem kept_execDirShadowRetry {a0 : State} (unread : List Nat) (s : State) (hs : Kept a0 s) :
    KeptR a0 (execDirShadowRetry unread s) := by
  unfold execDirShadowRetry
  repeat' first
    | assumption | intro _ | with_reducible apply kept_retireRow | with_reducible apply kept_mendRow
    | with_reducible apply kept_deliverSearch | with_reducible apply kept_regAddBoth | with_reducible apply KeptR.next
    | with_reducible apply Kept.foldl | fail_if_no_progress with_reducible apply Kept.upd | split

theorem kept_commitDone {a0 : State} (id : Option ReqId) (s : State) (hs : Kept a0 s) :
    Kept a0 (commitDone id s) := by
  unfold commitDone
  repeat' first
    | assumption | intro _ | with_reducible apply kept_done | with_reducible apply Kept.ite
    | fail_if_no_progress with_reducible apply Kept.upd | split

theorem kept_execDirCommit {a0 : State} (unread : Bool) (s : State) (hs : Kept a0 s) :
    KeptR a0 (execDirCommit unread s) := by
  unfold execDirCommit
  repeat' first
    | assumption | intro _ | with_reducible apply kept_retireRow | with_reducible apply kept_commitDone
    | with_reducible apply kept_farAccess | with_reducible apply kept_regSet | with_reducible apply KeptR.ite
    | with_reducible apply KeptR.next | with_reducible apply Kept.ite | fail_if_no_progress with_reducible apply Kept.upd
    | split

theorem kept_execDirRecordHoldEnd {a0 : State} (row : Fin 4194304) (s : State) (hs : Kept a0 s) :
    KeptR a0 (execDirRecordHoldEnd row s) := by
  unfold execDirRecordHoldEnd
  repeat' first
    | assumption | intro _ | with_reducible apply kept_onRows | with_reducible apply KeptR.ite
    | with_reducible apply KeptR.next | with_reducible apply Kept.ite | fail_if_no_progress with_reducible apply Kept.upd
    | split

theorem kept_execDirScrubRow {a0 : State} (flips : List DirFlip) (unread : Bool) (s : State) (hs : Kept a0 s) :
    KeptR a0 (execDirScrubRow flips unread s) := by
  unfold execDirScrubRow
  repeat' first
    | assumption | intro _ | with_reducible apply kept_retireRow | with_reducible apply kept_markSuspect
    | with_reducible apply kept_mendRow | with_reducible apply kept_flipRow | with_reducible apply kept_farAccess
    | with_reducible apply kept_regAddBoth | with_reducible apply KeptR.ite | with_reducible apply KeptR.next
    | with_reducible apply Kept.ite | with_reducible apply Kept.foldl | fail_if_no_progress with_reducible apply Kept.upd

theorem kept_execDirSpareBlockSwitch {a0 : State} (s : State) (hs : Kept a0 s) :
    KeptR a0 (execDirSpareBlockSwitch s) := by
  unfold execDirSpareBlockSwitch
  repeat' first
    | assumption | intro _ | with_reducible apply kept_cleanRow | with_reducible apply KeptR.ite
    | with_reducible apply KeptR.next | with_reducible apply Kept.ite | with_reducible apply Kept.foldl
    | fail_if_no_progress with_reducible apply Kept.upd | split

/-! ### Security -/

theorem kept_execBootGo {a0 : State} (f : Fn) (v : Word) (s : State) (hs : Kept a0 s) :
    KeptR a0 (execBootGo f v s) := by
  unfold execBootGo
  repeat' first
    | assumption | intro _ | with_reducible apply kept_onSec | with_reducible apply KeptR.ite
    | with_reducible apply KeptR.next | with_reducible apply Kept.ite | fail_if_no_progress with_reducible apply Kept.upd
    | exact SecOk.of rfl rfl rfl rfl

theorem kept_bootFail {a0 : State} (cause : Nat) (s : State) (hs : Kept a0 s) :
    Kept a0 (bootFail cause s) := by
  unfold bootFail
  repeat' first
    | assumption | intro _ | with_reducible apply kept_onSec | fail_if_no_progress with_reducible apply Kept.upd
    | exact SecOk.of rfl rfl rfl rfl

theorem kept_execBootImageReadDone {a0 : State} (mem : Dma) (s : State) (hs : Kept a0 s) :
    KeptR a0 (execBootImageReadDone mem s) := by
  unfold execBootImageReadDone
  repeat' first
    | assumption | intro _ | with_reducible apply kept_onSec | with_reducible apply kept_bootFail
    | with_reducible exact KeptR.fault | with_reducible apply KeptR.ite | with_reducible apply KeptR.next
    | with_reducible apply Kept.ite | fail_if_no_progress with_reducible apply Kept.upd | exact SecOk.of rfl rfl rfl rfl
    | split

theorem kept_tripRecord {a0 : State} (s : State) (hs : Kept a0 s) :
    Kept a0 (tripRecord s) := by
  unfold tripRecord
  repeat' first
    | assumption | intro _ | with_reducible apply kept_raiseErr | with_reducible apply Kept.ite
    | fail_if_no_progress with_reducible apply Kept.upd

theorem kept_execBootVerifyDone {a0 : State} (floorRead : Bool) (marginal : Bool) (s : State) (hs : Kept a0 s) :
    KeptR a0 (execBootVerifyDone floorRead marginal s) := by
  unfold execBootVerifyDone
  have e : (tripRecord s).sec = s.sec := by
    unfold tripRecord
    dsimp only
    split
    · exact raiseErr_sec _ _
    · rfl
  repeat' with_reducible first
    | assumption | intro _ | apply KeptR.ite | apply KeptR.next | apply kept_bootFail
  apply Kept.upd
  refine kept_onSec _ _ (kept_tripRecord _ hs) ⟨?_, ?_, ?_, ?_⟩
  · rw [e]; dsimp only; split
    · exact le_max_left _ _
    · exact le_rfl
  · exact Nat.le_succ _
  · rw [e]; dsimp only; split <;> omega
  · rw [e]; dsimp only [InBlock]; split <;> omega

theorem kept_setKd {a0 : State} (d : Nat) (k : KeyDom) (s : State) (hs : Kept a0 s) :
    Kept a0 (setKd d k s) := by
  unfold setKd
  repeat' first
    | assumption | intro _ | with_reducible apply kept_onSec | fail_if_no_progress with_reducible apply Kept.upd
    | exact SecOk.of rfl rfl rfl rfl

theorem kept_execSecKdBind {a0 : State} (r : Req) (kd : Nat) (mask : DWord) (s : State) (hs : Kept a0 s) :
    KeptR a0 (execSecKdBind r kd mask s) := by
  unfold execSecKdBind
  repeat' first
    | assumption | intro _ | with_reducible apply kept_maskChange | with_reducible apply kept_done
    | with_reducible apply kept_fail | with_reducible apply kept_onReq | with_reducible apply kept_setKd
    | with_reducible apply KeptR.ite | with_reducible apply KeptR.next | with_reducible apply Kept.ite

theorem kept_execSecKdCreate {a0 : State} (r : Req) (kd : Nat) (sealFlag : Bool) (s : State) (hs : Kept a0 s) :
    KeptR a0 (execSecKdCreate r kd sealFlag s) := by
  unfold execSecKdCreate
  repeat' first
    | assumption | intro _ | with_reducible apply kept_drew | with_reducible apply kept_done | with_reducible apply kept_fail
    | with_reducible apply kept_onReq | with_reducible apply kept_setKd | with_reducible apply KeptR.ite
    | with_reducible apply KeptR.next | with_reducible apply Kept.ite

theorem kept_execSecKdRetire {a0 : State} (r : Req) (kd : Nat) (s : State) (hs : Kept a0 s) :
    KeptR a0 (execSecKdRetire r kd s) := by
  unfold execSecKdRetire
  repeat' first
    | assumption | intro _ | with_reducible apply kept_maskChange | with_reducible apply kept_onSec
    | with_reducible apply kept_done | with_reducible apply kept_fail | with_reducible apply kept_onReq
    | with_reducible apply KeptR.ite | with_reducible apply KeptR.next | with_reducible apply Kept.ite
    | fail_if_no_progress with_reducible apply Kept.upd | exact SecOk.of rfl rfl rfl rfl

theorem kept_execSecKdRelease {a0 : State} (r : Req) (buf : DWord) (mem : Dma) (s : State) (hs : Kept a0 s) :
    KeptR a0 (execSecKdRelease r buf mem s) := by
  unfold execSecKdRelease
  repeat' first
    | assumption | intro _ | with_reducible apply kept_withMem | with_reducible apply kept_onSec
    | with_reducible apply kept_done | with_reducible apply kept_fail | with_reducible apply kept_onReq
    | with_reducible apply kept_setKd | with_reducible apply KeptR.ite | with_reducible apply KeptR.next
    | with_reducible apply Kept.ite | fail_if_no_progress with_reducible apply Kept.upd | exact SecOk.of rfl rfl rfl rfl
    | split | dsimp only

theorem kept_execPendingKeyExpiry {a0 : State} (s : State) (hs : Kept a0 s) :
    KeptR a0 (execPendingKeyExpiry s) := by
  unfold execPendingKeyExpiry
  repeat' first
    | assumption | intro _ | with_reducible apply kept_onSec | with_reducible apply KeptR.next
    | fail_if_no_progress with_reducible apply Kept.upd | exact SecOk.of rfl rfl rfl rfl

theorem kept_execSecAttest {a0 : State} (r : Req) (buf : DWord) (kem : Bool) (scope : Nat) (mem : Dma) (s : State) (hs : Kept a0 s) :
    KeptR a0 (execSecAttest r buf kem scope mem s) := by
  unfold execSecAttest
  repeat' first
    | assumption | intro _ | with_reducible apply kept_withMem | with_reducible apply kept_onSec
    | with_reducible apply kept_fail | with_reducible apply kept_onReq | with_reducible exact KeptR.fault
    | with_reducible apply KeptR.ite | with_reducible apply KeptR.next | with_reducible apply Kept.ite
    | fail_if_no_progress with_reducible apply Kept.upd | exact SecOk.of rfl rfl rfl rfl

theorem kept_execAttestSigned {a0 : State} (readBack : Bool) (s : State) (hs : Kept a0 s) :
    KeptR a0 (execAttestSigned readBack s) := by
  unfold execAttestSigned
  have e0 : ∀ (t : State) (x : Security), (drew { t with sec := x }).sec = x := fun _ _ => rfl
  cases hq : s.sec.queue with
  | nil => exact .next hs
  | cons q rest =>
    have h0 := kept_onSec (fun x => { x with queue := rest }) s hs (.of rfl rfl rfl rfl)
    have e : ∀ t, (drew t).sec = t.sec := fun _ => rfl
    dsimp only
    split
    · exact .next (kept_fail _ _ _ h0)
    · split
      · exact .next (kept_fail _ _ _ h0)
      · split
        · exact .next (kept_fail _ _ _ (kept_onSec _ _ h0 (.of rfl rfl rfl rfl)))
        · refine .next (kept_withOut _ _ _ _ _ (kept_onSec _ _ (kept_drew _ h0) ⟨le_rfl, le_rfl, ?_, ?_⟩) fun _ h => kept_done _ _ h)
          · simp only [onSec, e0]
            by_cases hd : 64 * s.sec.block ≤ s.sec.next <;> simp [hd]
          · simp only [onSec, e0, InBlock]
            intro h
            by_cases hd : 64 * s.sec.block ≤ s.sec.next <;> simp [hd] <;> omega

theorem kept_execSecIdRead {a0 : State} (r : Req) (buf : DWord) (s : State) (hs : Kept a0 s) :
    KeptR a0 (execSecIdRead r buf s) := by
  unfold execSecIdRead
  repeat' first
    | assumption | intro _ | with_reducible apply kept_done | with_reducible apply kept_withOut
    | with_reducible apply kept_onReq | with_reducible apply KeptR.next

theorem kept_channelKey {a0 : State} (p : Nat) (m : Secured) (s : State) (hs : Kept a0 s) :
    KeptP a0 (channelKey p m s) := by
  unfold channelKey
  repeat' first
    | assumption | intro _ | with_reducible apply kept_onSec | with_reducible exact KeptP.none
    | with_reducible apply KeptP.map | with_reducible apply KeptP.some | with_reducible apply KeptP.some2
    | fail_if_no_progress with_reducible apply Kept.upd | exact SecOk.of rfl rfl rfl rfl | split

theorem kept_openSecured {a0 : State} (p : Nat) (m : Secured) (s : State) (hs : Kept a0 s) :
    KeptP a0 (openSecured p m s) := by
  unfold openSecured
  repeat' first
    | assumption | intro _ | with_reducible apply kept_channelKey
    | refine KeptP.get (kept_channelKey _ _ _ ?_) (by assumption) | with_reducible exact KeptP.none
    | with_reducible apply KeptP.bind | with_reducible apply KeptP.map

theorem kept_ideMove {a0 : State} (k : Nat) (act : IdeKm) (b : List Byte) (s : State) (hs : Kept a0 s) :
    Kept a0 (ideMove k act b s) := by
  unfold ideMove
  repeat' first
    | assumption | intro _ | with_reducible apply kept_onSec | fail_if_no_progress with_reducible apply Kept.upd
    | exact SecOk.of rfl rfl rfl rfl

theorem kept_execIdeKmMessage {a0 : State} (port : Port) (msg : Secured) (stream : Fin 9) (act : IdeKm) (s : State) (hs : Kept a0 s) :
    KeptR a0 (execIdeKmMessage port msg stream act s) := by
  unfold execIdeKmMessage
  repeat' first
    | assumption | intro _ | with_reducible apply kept_openSecured
    | refine KeptP.get (kept_openSecured _ _ _ ?_) (by assumption) | with_reducible apply kept_ideMove
    | with_reducible exact KeptP.none | with_reducible apply KeptR.next | with_reducible apply KeptP.some
    | with_reducible apply KeptP.some2 | fail_if_no_progress with_reducible apply Kept.upd | split

theorem kept_tdispMove {a0 : State} (fn : Nat) (act : TdispAct) (s : State) (hs : Kept a0 s) :
    Kept a0 (tdispMove fn act s) := by
  unfold tdispMove
  repeat' first
    | assumption | intro _ | with_reducible apply kept_onSec | with_reducible apply Kept.ite
    | fail_if_no_progress with_reducible apply Kept.upd | exact SecOk.of rfl rfl rfl rfl | split

theorem kept_execTdispMessage {a0 : State} (f : Fn) (msg : Secured) (act : TdispAct) (s : State) (hs : Kept a0 s) :
    KeptR a0 (execTdispMessage f msg act s) := by
  unfold execTdispMessage
  repeat' first
    | assumption | intro _ | with_reducible apply kept_openSecured
    | refine KeptP.get (kept_openSecured _ _ _ ?_) (by assumption) | with_reducible apply kept_tdispMove
    | with_reducible exact KeptP.none | with_reducible apply KeptR.ite | with_reducible apply KeptP.ite
    | with_reducible apply KeptR.next | with_reducible apply KeptP.some | with_reducible apply KeptP.some2
    | with_reducible apply Kept.ite | fail_if_no_progress with_reducible apply Kept.upd | split

end Sys2Proof.Machine
end

