-- ==== Sys2Proof/Laws/KeptSessions.lean ====
section
/-! SUPPORT. What tiles, text, sessions and loads keep (`Kept`): one lemma for each operation,
cited instead of unfolding it. -/

namespace Sys2Proof.Machine

/-! ### Tiles -/

theorem kept_reform {a0 : State} (p : Nat) (form : Nat) (codec : Nat) (bytes : List Byte) (s : State) (hs : Kept a0 s) :
    KeptP a0 (reform p form codec bytes s) := by
  unfold reform
  repeat' first
    | assumption | intro _ | with_reducible apply kept_regAdd | with_reducible exact KeptP.none
    | with_reducible apply KeptP.ite | with_reducible apply KeptP.some | with_reducible apply KeptP.some2
    | with_reducible apply Kept.ite | fail_if_no_progress with_reducible apply Kept.upd | split

theorem kept_releaseUpper {a0 : State} (key : Nat) (i : Nat) (s : State) (hs : Kept a0 s) :
    Kept a0 (releaseUpper key i s) := by
  unfold releaseUpper
  repeat' first
    | assumption | intro _ | with_reducible apply kept_snapKeep | with_reducible apply kept_onTile
    | with_reducible apply Kept.ite | fail_if_no_progress with_reducible apply Kept.upd

theorem kept_releaseLower {a0 : State} (key : Nat) (i : Nat) (s : State) (hs : Kept a0 s) :
    Kept a0 (releaseLower key i s) := by
  unfold releaseLower
  repeat' first
    | assumption | intro _ | with_reducible apply kept_snapKeep | with_reducible apply kept_onTile
    | with_reducible apply kept_spotFree | with_reducible apply Kept.ite

theorem kept_closeObject {a0 : State} (key : Nat) (s : State) (hs : Kept a0 s) :
    Kept a0 (closeObject key s) := by
  unfold closeObject
  repeat' first
    | assumption | intro _ | with_reducible apply kept_snapKeep | with_reducible apply kept_releaseLower
    | with_reducible apply Kept.ite | with_reducible apply Kept.foldl | fail_if_no_progress with_reducible apply Kept.upd
    | split

/-! ### TextTables -/

theorem kept_execTxtTableLoad {a0 : State} (r : Req) (kind : Nat) (ident : Nat) (object : DWord) (s : State) (hs : Kept a0 s) :
    KeptR a0 (execTxtTableLoad r kind ident object s) := by
  unfold execTxtTableLoad
  repeat' first
    | assumption | intro _ | with_reducible apply kept_complete | with_reducible apply kept_done
    | with_reducible apply kept_fail | with_reducible apply kept_defer | with_reducible apply kept_onReq
    | with_reducible apply KeptR.ite | with_reducible apply KeptR.next | with_reducible apply Kept.ite
    | fail_if_no_progress with_reducible apply Kept.upd | split

theorem kept_execTxtTableUnload {a0 : State} (r : Req) (kind : Nat) (ident : Nat) (s : State) (hs : Kept a0 s) :
    KeptR a0 (execTxtTableUnload r kind ident s) := by
  unfold execTxtTableUnload
  repeat' first
    | assumption | intro _ | with_reducible apply kept_done | with_reducible apply kept_fail
    | with_reducible apply kept_onReq | with_reducible apply KeptR.ite | with_reducible apply KeptR.next
    | with_reducible apply Kept.ite | fail_if_no_progress with_reducible apply Kept.upd

/-! ### Tokenise -/

theorem kept_countIntake {a0 : State} (p : Nat) (bytes : Nat) (x : Intake) (s : State) (hs : Kept a0 s) :
    Kept a0 (countIntake p bytes x s) := by
  unfold countIntake
  repeat' first
    | assumption | intro _ | with_reducible apply kept_regAdd

theorem kept_execTxtTokenise {a0 : State} (r : Req) (tokeniser : Nat) (special : Bool) (_src : DWord) (bytes : Nat) (dst : DWord) (capacity : Nat) (mem : Dma) (s : State) (hs : Kept a0 s) :
    KeptR a0 (execTxtTokenise r tokeniser special _src bytes dst capacity mem s) := by
  unfold execTxtTokenise
  repeat' first
    | assumption | intro _ | with_reducible apply kept_withMem | with_reducible apply kept_complete
    | with_reducible apply kept_fail | with_reducible apply kept_withOut | with_reducible apply kept_onReq
    | with_reducible apply kept_countIntake | with_reducible apply KeptR.ite | with_reducible apply KeptR.next
    | with_reducible apply Kept.ite | fail_if_no_progress with_reducible apply Kept.upd | split | dsimp only

theorem kept_execTxtDetok {a0 : State} (r : Req) (tokeniser : Nat) (_src : DWord) (count : Nat) (dst : DWord) (capacity : Nat) (mem : Dma) (s : State) (hs : Kept a0 s) :
    KeptR a0 (execTxtDetok r tokeniser _src count dst capacity mem s) := by
  unfold execTxtDetok
  repeat' first
    | assumption | intro _ | with_reducible apply kept_withMem | with_reducible apply kept_complete
    | with_reducible apply kept_fail | with_reducible apply kept_withOut | with_reducible apply kept_onReq
    | with_reducible apply KeptR.ite | with_reducible apply KeptR.next | with_reducible apply Kept.ite
    | fail_if_no_progress with_reducible apply Kept.upd | split | dsimp only

/-! ### Sampler -/

theorem kept_countEnd {a0 : State} (p : Nat) (fallback : Bool) (e : StepEnd) (s : State) (hs : Kept a0 s) :
    Kept a0 (countEnd p fallback e s) := by
  unfold countEnd
  repeat' first
    | assumption | intro _ | with_reducible apply kept_regAdd | with_reducible apply Kept.ite

/-! ### Gate -/

theorem kept_onSess {a0 : State} (key : Nat) (f : Session → Session) (s : State) (hs : Kept a0 s) :
    Kept a0 (onSess key f s) := by
  unfold onSess
  repeat' first
    | assumption | intro _ | fail_if_no_progress with_reducible apply Kept.upd

theorem kept_giveWay {a0 : State} (key : Nat) (s : State) (hs : Kept a0 s) :
    Kept a0 (giveWay key s) := by
  unfold giveWay
  repeat' first
    | assumption | intro _ | with_reducible apply kept_onSess | with_reducible apply kept_holdReq
    | with_reducible apply Kept.ite | fail_if_no_progress with_reducible apply Kept.upd | split

theorem kept_orderGateOn {a0 : State} (key : Nat) (fresh : Bool) (landing : Bool) (cmd : Instr) (body : ReqId → State → State) (id : ReqId) (s : State) (hs : Kept a0 s) (h_body : ∀ y0 y1, Kept a0 y1 → Kept a0 (body y0 y1)) :
    Kept a0 (orderGateOn key fresh landing cmd body id s) := by
  unfold orderGateOn
  repeat' first
    | assumption | intro _ | with_reducible apply h_body | with_reducible apply kept_giveWay
    | with_reducible apply kept_holdReq | with_reducible apply Kept.ite | fail_if_no_progress with_reducible apply Kept.upd
    | split

theorem kept_orderGate {a0 : State} (fresh : Bool) (landing : Bool) (cmd : Instr) (body : ReqId → State → State) (id : ReqId) (s : State) (hs : Kept a0 s) (h_body : ∀ y0 y1, Kept a0 y1 → Kept a0 (body y0 y1)) :
    Kept a0 (orderGate fresh landing cmd body id s) := by
  unfold orderGate
  repeat' first
    | assumption | intro _ | with_reducible apply h_body | with_reducible apply kept_orderGateOn

theorem kept_boundaryGate {a0 : State} (fresh : Bool) (cmd : Instr) (body : ReqId → State → State) (id : ReqId) (s : State) (hs : Kept a0 s) (h_body : ∀ y0 y1, Kept a0 y1 → Kept a0 (body y0 y1)) :
    Kept a0 (boundaryGate fresh cmd body id s) := by
  unfold boundaryGate
  repeat' first
    | assumption | intro _ | with_reducible apply h_body | with_reducible apply kept_holdReq | with_reducible apply Kept.ite
    | fail_if_no_progress with_reducible apply Kept.upd | split | dsimp only

theorem kept_objectGate {a0 : State} (fresh : Bool) (cmd : Instr) (key : Nat) (body : ReqId → State → State) (id : ReqId) (s : State) (hs : Kept a0 s) (h_body : ∀ y0 y1, Kept a0 y1 → Kept a0 (body y0 y1)) :
    Kept a0 (objectGate fresh cmd key body id s) := by
  unfold objectGate
  repeat' first
    | assumption | intro _ | with_reducible apply h_body | with_reducible apply kept_holdReq | with_reducible apply Kept.ite

theorem kept_stale {a0 : State} (id : ReqId) (s : State) (hs : Kept a0 s) :
    Kept a0 (stale id s) := by
  unfold stale
  repeat' first
    | assumption | intro _ | with_reducible apply kept_complete

/-! ### TextRows -/

theorem kept_owePlain {a0 : State} (obj : Nat) (i : Nat) (bs : List Byte) (s : State) (hs : Kept a0 s) :
    Kept a0 (owePlain obj i bs s) := by
  unfold owePlain
  split
  · exact hs
  · refine kept_onTile _ _ _ _ (KeptO.getD ⟨fun t e => ?_⟩ hs)
    obtain ⟨y, e1, rfl⟩ := Option.map_eq_some_iff.1 e
    exact KeptP.get2 (KeptP.ite (fun _ => .none) fun _ => kept_spotAlloc _ _ _ _ _ hs) e1

theorem kept_setSessTile {a0 : State} (key : Nat) (y : Session) (s : State) (hs : Kept a0 s) :
    Kept a0 (setSessTile key y s) := by
  unfold setSessTile
  repeat' first
    | assumption | intro _ | with_reducible apply kept_onSess | with_reducible apply kept_cowKeep
    | with_reducible apply kept_onTile | with_reducible apply kept_owePlain | with_reducible apply Kept.ite
    | fail_if_no_progress with_reducible apply Kept.upd | split

theorem kept_textReq {a0 : State} (r : Req) (op : Nat) (bad : Option Nat) (cmd : Instr)
    (body : ReqId → Nat → Session → State → (Session × State) ⊕ State) (s : State) (hs : Kept a0 s)
    (h_body : ∀ id key x s, Kept a0 s → KeptS a0 (body id key x s)) : Kept a0 (textReq r op bad cmd body s) := by
  unfold textReq
  refine kept_onReq _ _ _ _ _ hs fun id s h => kept_boundaryGate _ _ _ _ _ h fun id s h => kept_withSession _ _ _ h fun key x s h => ?_
  have hb := h_body id key x s h
  split
  · rename_i e; exact kept_done _ _ (kept_setSessTile _ _ _ (hb.inl _ _ e))
  · rename_i e; exact hb.inr _ e

theorem kept_sealOutput {a0 : State} (key : Nat) (x : Session) (bytes : List Byte) (s : State) (hs : Kept a0 s) :
    Kept a0 (sealOutput key x bytes s).2 := by
  unfold sealOutput
  repeat' first
    | assumption | intro _ | with_reducible apply kept_bumpCounter | with_reducible apply Kept.ite | split

theorem kept_execTxtAppend {a0 : State} (r : Req) (src : DWord) (bytes : Nat) (special : Bool) (tokens : Bool) (mem : Dma) (s : State) (hs : Kept a0 s) :
    KeptR a0 (execTxtAppend r src bytes special tokens mem s) := by
  unfold execTxtAppend
  repeat' first
    | assumption | intro _ | with_reducible apply kept_complete | with_reducible apply kept_fail
    | with_reducible apply kept_defer | with_reducible apply kept_badEntry | with_reducible apply kept_textReq
    | with_reducible apply kept_countIntake | with_reducible exact KeptR.fault | with_reducible apply KeptR.ite
    | with_reducible apply KeptS.left | with_reducible apply KeptS.right | with_reducible apply KeptS.ite
    | with_reducible apply KeptR.next | with_reducible apply Kept.ite | with_reducible apply Kept.foldl
    | fail_if_no_progress with_reducible apply Kept.upd | split

theorem kept_execTxtSamplerSet {a0 : State} (r : Req) (buf : DWord) (mem : Dma) (s : State) (hs : Kept a0 s) :
    KeptR a0 (execTxtSamplerSet r buf mem s) := by
  unfold execTxtSamplerSet
  repeat' first
    | assumption | intro _ | with_reducible apply kept_fail | with_reducible apply kept_textReq
    | with_reducible exact KeptR.fault | with_reducible apply KeptR.ite | with_reducible apply KeptS.left
    | with_reducible apply KeptS.right | with_reducible apply KeptS.ite | with_reducible apply KeptR.next
    | with_reducible apply Kept.ite | fail_if_no_progress with_reducible apply Kept.upd | split

theorem kept_execTxtLouverSet {a0 : State} (r : Req) (grammar : Nat) (allow : Nat) (oneShot : Bool) (reset : Bool) (keepGrammar : Bool) (keepAllow : Bool) (s : State) (hs : Kept a0 s) :
    KeptR a0 (execTxtLouverSet r grammar allow oneShot reset keepGrammar keepAllow s) := by
  unfold execTxtLouverSet
  repeat' first
    | assumption | intro _ | with_reducible apply kept_fail | with_reducible apply kept_textReq
    | with_reducible apply KeptR.ite | with_reducible apply KeptS.left | with_reducible apply KeptS.right
    | with_reducible apply KeptS.ite | with_reducible apply KeptR.next | with_reducible apply Kept.ite
    | fail_if_no_progress with_reducible apply Kept.upd | split | dsimp only

theorem kept_execTxtStopSet {a0 : State} (r : Req) (buf : DWord) (excludeStop : Bool) (mem : Dma) (s : State) (hs : Kept a0 s) :
    KeptR a0 (execTxtStopSet r buf excludeStop mem s) := by
  unfold execTxtStopSet
  repeat' first
    | assumption | intro _ | with_reducible apply kept_fail | with_reducible apply kept_textReq
    | with_reducible exact KeptR.fault | with_reducible apply KeptS.left | with_reducible apply KeptS.right
    | with_reducible apply KeptR.next | fail_if_no_progress with_reducible apply Kept.upd | split

theorem kept_execResample {a0 : State} (r : Req) (s : State) (hs : Kept a0 s) :
    KeptR a0 (execResample r s) := by
  unfold execResample
  repeat' first
    | assumption | intro _ | with_reducible apply kept_complete | with_reducible apply kept_textReq
    | with_reducible apply KeptR.ite | with_reducible apply KeptS.left | with_reducible apply KeptS.right
    | with_reducible apply KeptS.ite | with_reducible apply KeptR.next

theorem kept_execInject {a0 : State} (r : Req) (token : Nat) (s : State) (hs : Kept a0 s) :
    KeptR a0 (execInject r token s) := by
  unfold execInject
  repeat' first
    | assumption | intro _ | with_reducible apply kept_fail | with_reducible apply kept_textReq
    | with_reducible apply KeptR.ite | with_reducible apply KeptS.left | with_reducible apply KeptS.right
    | with_reducible apply KeptS.ite | with_reducible apply KeptR.next | with_reducible apply Kept.ite
    | fail_if_no_progress with_reducible apply Kept.upd | split | dsimp only

theorem kept_execDropPending {a0 : State} (r : Req) (s : State) (hs : Kept a0 s) :
    KeptR a0 (execDropPending r s) := by
  unfold execDropPending
  repeat' first
    | assumption | intro _ | with_reducible apply kept_textReq | with_reducible apply KeptS.left
    | with_reducible apply KeptS.right | with_reducible apply KeptR.next

theorem kept_execTxtStateRead {a0 : State} (r : Req) (buf : DWord) (s : State) (hs : Kept a0 s) :
    KeptR a0 (execTxtStateRead r buf s) := by
  exact .next (kept_textReq _ _ _ _ _ _ hs fun id key x s h => .ite (fun _ => .right (kept_fail _ _ _ h)) fun _ =>
    .left (kept_dmaWrite _ _ _ _ (kept_sealOutput _ _ _ _ h)))

/-! ### Sched -/

theorem kept_onPav {a0 : State} (n : Nat) (f : Pav → Pav) (s : State) (hs : Kept a0 s) :
    Kept a0 (onPav n f s) := by
  unfold onPav
  repeat' first
    | assumption | intro _ | fail_if_no_progress with_reducible apply Kept.upd

theorem kept_dequeue {a0 : State} (n : Nat) (q : Queued) (s : State) (hs : Kept a0 s) :
    Kept a0 (dequeue n q s) := by
  unfold dequeue
  repeat' first
    | assumption | intro _ | with_reducible apply kept_onPav

theorem kept_deferQueued {a0 : State} (q : Queued) (detail : Nat) (s : State) (hs : Kept a0 s) :
    Kept a0 (deferQueued q detail s) := by
  unfold deferQueued
  repeat' first
    | assumption | intro _ | with_reducible apply kept_onSess | with_reducible apply kept_defer

theorem kept_ownLevel {a0 : State} (key : Nat) (s : State) (hs : Kept a0 s) :
    Kept a0 (ownLevel key s) := by
  unfold ownLevel
  repeat' first
    | assumption | intro _ | with_reducible apply kept_onPav | fail_if_no_progress with_reducible apply Kept.upd | split

theorem kept_placeSess {a0 : State} (key : Nat) (n : Nat) (slot : Nat) (level : Option Nat) (rev : Option (ReqId × Bool × Bool)) (s : State) (hs : Kept a0 s) :
    KeptO a0 (placeSess key n slot level rev s) := by
  unfold placeSess
  repeat' first
    | assumption | intro _ | with_reducible apply kept_drew | with_reducible apply kept_dirSetSession
    | with_reducible apply kept_onSess | with_reducible apply kept_done | with_reducible apply kept_onPav
    | with_reducible exact KeptO.none | with_reducible apply KeptO.ite | with_reducible apply KeptO.map
    | with_reducible apply KeptO.some | with_reducible apply Kept.ite | fail_if_no_progress with_reducible apply Kept.upd
    | split | dsimp only

theorem kept_noteReadyAll {a0 : State} (s : State) (hs : Kept a0 s) :
    Kept a0 (noteReadyAll s) := by
  unfold noteReadyAll
  repeat' first
    | assumption | intro _ | with_reducible apply kept_onPav | with_reducible apply Kept.ite
    | with_reducible apply Kept.foldl

theorem kept_noteReady {a0 : State} (n : Nat) (s : State) (hs : Kept a0 s) :
    Kept a0 (noteReady n s) := by
  unfold noteReady
  repeat' first
    | assumption | intro _ | with_reducible apply kept_onPav

theorem kept_admitQueued {a0 : State} (n : Nat) (slot : Nat) (q : Queued) (s : State) (hs : Kept a0 s) :
    Kept a0 (admitQueued n slot q s) := by
  unfold admitQueued
  repeat' first
    | assumption | intro _ | with_reducible apply kept_onSess | with_reducible apply kept_deferQueued
    | with_reducible apply kept_placeSess | refine KeptO.get (kept_placeSess _ _ _ _ _ _ ?_) (by assumption)
    | with_reducible apply kept_noteReady | with_reducible apply KeptO.getD | with_reducible apply KeptO.map
    | fail_if_no_progress with_reducible apply Kept.upd | split

theorem kept_selectOne {a0 : State} (n : Nat) (q : Queued) (s : State) (hs : Kept a0 s) :
    Kept a0 (selectOne n q s) := by
  unfold selectOne
  repeat' first
    | assumption | intro _ | with_reducible apply kept_drew | with_reducible apply kept_dequeue
    | with_reducible apply kept_deferQueued | with_reducible apply kept_admitQueued
    | fail_if_no_progress with_reducible apply Kept.upd | split | dsimp only

theorem kept_fillSlots {a0 : State} (n : Nat) (z0 : Nat) (z1 : State) (hs : Kept a0 z1) :
    Kept a0 (fillSlots n z0 z1) := by
  induction z0 generalizing z1 with
  | zero =>
    unfold fillSlots
    repeat' first
      | assumption
  | succ n ih =>
    unfold fillSlots
    repeat' first
      | assumption | intro _ | with_reducible apply ih | with_reducible apply kept_selectOne | with_reducible apply Kept.ite
      | fail_if_no_progress with_reducible apply Kept.upd | split

theorem kept_fillPav {a0 : State} (n : Nat) (s : State) (hs : Kept a0 s) :
    Kept a0 (fillPav n s) := by
  unfold fillPav
  repeat' first
    | assumption | intro _ | with_reducible apply kept_fillSlots

theorem kept_bankTenant {a0 : State} (n : Nat) (t : Nat) (s : State) (hs : Kept a0 s) :
    Kept a0 (bankTenant n t s) := by
  unfold bankTenant
  repeat' first
    | assumption | intro _ | with_reducible apply kept_onPav | with_reducible apply Kept.ite

theorem kept_noWait {a0 : State} (n : Nat) (q : Queued) (detail : Nat) (s : State) (hs : Kept a0 s) :
    Kept a0 (noWait n q detail s) := by
  unfold noWait
  repeat' first
    | assumption | intro _ | with_reducible apply kept_dequeue | with_reducible apply kept_deferQueued
    | with_reducible apply kept_selectOne | with_reducible apply Kept.ite

theorem kept_enqueue {a0 : State} (n : Nat) (key : Nat) (id : ReqId) (revive : Option (Bool × Bool)) (s : State) (hs : Kept a0 s) :
    Kept a0 (enqueue n key id revive s) := by
  unfold enqueue
  repeat' first
    | assumption | intro _ | with_reducible apply kept_onSess | with_reducible apply kept_onPav
    | with_reducible apply kept_fillPav | with_reducible apply kept_bankTenant | with_reducible apply kept_noWait
    | with_reducible apply Kept.ite | fail_if_no_progress with_reducible apply Kept.upd | split

theorem kept_execAdmissionWaitTimeout {a0 : State} (pav : Fin 80) (f : Fn) (session : DWord) (s : State) (hs : Kept a0 s) :
    KeptR a0 (execAdmissionWaitTimeout pav f session s) := by
  unfold execAdmissionWaitTimeout
  repeat' first
    | assumption | intro _ | with_reducible apply kept_dequeue | with_reducible apply kept_deferQueued
    | with_reducible apply KeptR.ite | with_reducible apply KeptR.next | with_reducible apply Kept.ite
    | fail_if_no_progress with_reducible apply Kept.upd | split

theorem kept_execLevelPromotion {a0 : State} (s : State) (hs : Kept a0 s) :
    KeptR a0 (execLevelPromotion s) := by
  unfold execLevelPromotion
  repeat' first
    | assumption | intro _ | with_reducible apply kept_fillPav | with_reducible apply KeptR.ite
    | with_reducible apply KeptR.next | with_reducible apply Kept.ite | with_reducible apply Kept.foldl
    | fail_if_no_progress with_reducible apply Kept.upd

theorem kept_applyMode {a0 : State} (n : Nat) (s : State) (hs : Kept a0 s) :
    Kept a0 (applyMode n s) := by
  unfold applyMode
  repeat' first
    | assumption | intro _ | with_reducible apply kept_onPav | with_reducible apply Kept.ite

/-! ### Sessions -/

theorem kept_writeOut {a0 : State} (key : Nat) (x : Session) (r : Run) (bytes : List Byte) (s : State) (hs : Kept a0 s) :
    Kept a0 (writeOut key x r bytes s).2.2.2 := by
  unfold writeOut
  repeat' first
    | assumption | intro _ | with_reducible apply kept_dmaWrite | with_reducible apply kept_sealOutput
    | refine Kept.get (kept_sealOutput _ _ _ _ ?_) (by assumption) | with_reducible apply Kept.ite
    | fail_if_no_progress with_reducible apply Kept.upd | split | dsimp only

theorem kept_postStep {a0 : State} (key : Nat) (x : Session) (r : Run) (status : Nat) (detail : Nat) (token : Option Nat) (bytes : List Byte) (charge : Charge) (last : Bool) (s : State) (hs : Kept a0 s) :
    Kept a0 (postStep key x r status detail token bytes charge last s) := by
  unfold postStep
  repeat' first
    | assumption | intro _ | with_reducible apply kept_onSess | with_reducible apply kept_postCpl
    | with_reducible apply kept_ownLevel | with_reducible apply kept_writeOut

theorem kept_execOpenSession {a0 : State} (r : Req) (object : DWord) (kd : Nat) (pavilion : Nat) (slotKind : Nat) (modelSlot : Nat) (lmax : Nat) (tokeniser : Nat) (s : State) (hs : Kept a0 s) :
    KeptR a0 (execOpenSession r object kd pavilion slotKind modelSlot lmax tokeniser s) := by
  unfold execOpenSession
  repeat' first
    | assumption | intro _ | with_reducible apply kept_drew | with_reducible apply kept_dirWrite
    | with_reducible apply kept_searchNow | with_reducible apply kept_countSearch | with_reducible apply kept_orderGate
    | with_reducible apply kept_complete | with_reducible apply kept_fail | with_reducible apply kept_defer
    | with_reducible apply kept_onReq | with_reducible apply KeptR.ite | with_reducible apply KeptR.next
    | with_reducible apply Kept.ite | fail_if_no_progress with_reducible apply Kept.upd | split

theorem kept_startRun {a0 : State} (id : ReqId) (key : Nat) (x : Session) (run : Run) (s : State) (hs : Kept a0 s) :
    Kept a0 (startRun id key x run s) := by
  unfold startRun
  repeat' first
    | assumption | intro _ | with_reducible apply kept_onSess | with_reducible apply kept_regAdd
    | with_reducible apply kept_complete | with_reducible apply kept_noteReady | with_reducible apply kept_enqueue
    | with_reducible apply kept_postStep | with_reducible apply kept_setSessTile | with_reducible apply Kept.ite
    | fail_if_no_progress with_reducible apply Kept.upd | split | dsimp only

theorem kept_execStepSession {a0 : State} (r : Req) (checkGen : Bool) (expectGen : Nat) (outBase : DWord) (outSize : Nat) (s : State) (hs : Kept a0 s) :
    KeptR a0 (execStepSession r checkGen expectGen outBase outSize s) := by
  unfold execStepSession
  repeat' first
    | assumption | intro _ | with_reducible apply kept_withSession | with_reducible apply kept_orderGate
    | with_reducible apply kept_stale | with_reducible apply kept_fail | with_reducible apply kept_onReq
    | with_reducible apply kept_startRun | with_reducible apply KeptR.ite | with_reducible apply KeptR.next
    | with_reducible apply Kept.ite

theorem kept_execHaltSession {a0 : State} (r : Req) (s : State) (hs : Kept a0 s) :
    KeptR a0 (execHaltSession r s) := by
  unfold execHaltSession
  repeat' first
    | assumption | intro _ | with_reducible apply kept_withSession | with_reducible apply kept_orderGate
    | with_reducible apply kept_done | with_reducible apply kept_onReq | with_reducible apply KeptR.next

theorem kept_execRevive {a0 : State} (r : Req) (early : Bool) (releaseLower : Bool) (checkGen : Bool) (expectGen : Nat) (s : State) (hs : Kept a0 s) :
    KeptR a0 (execRevive r early releaseLower checkGen expectGen s) := by
  unfold execRevive
  repeat' first
    | assumption | intro _ | with_reducible apply kept_withSession | with_reducible apply kept_onSess
    | with_reducible apply kept_orderGate | with_reducible apply kept_stale | with_reducible apply kept_complete
    | with_reducible apply kept_done | with_reducible apply kept_fail | with_reducible apply kept_onReq
    | with_reducible apply kept_enqueue | with_reducible apply kept_releaseLower | with_reducible apply KeptR.ite
    | with_reducible apply KeptR.next | with_reducible apply Kept.ite | fail_if_no_progress with_reducible apply Kept.upd
    | split

theorem kept_writeTags {a0 : State} (keep : Bool) (key : Nat) (x : Session) (a : Nat) (b : Nat) (f : Nat → Nat) (s : State) (hs : Kept a0 s) :
    Kept a0 (writeTags keep key x a b f s) := by
  unfold writeTags
  repeat' first
    | assumption | intro _ | with_reducible apply kept_writeTile | with_reducible apply kept_cowKeep
    | with_reducible apply kept_tagChange | with_reducible apply Kept.ite | with_reducible apply Kept.foldl
    | fail_if_no_progress with_reducible apply Kept.upd | split

theorem kept_tagEdit {a0 : State} (r : Req) (range : Option (Nat × Nat)) (segment : Nat) (cmd : Instr) (body : ReqId → Nat → Session → State → State) (s : State) (hs : Kept a0 s) (h_body : ∀ y0 y1 y2 y3, Kept a0 y3 → Kept a0 (body y0 y1 y2 y3)) :
    Kept a0 (tagEdit r range segment cmd body s) := by
  unfold tagEdit
  repeat' first
    | assumption | intro _ | with_reducible apply h_body | with_reducible apply kept_withSession
    | with_reducible apply kept_boundaryGate | with_reducible apply kept_onReq

theorem kept_editTags {a0 : State} (first : Nat) (count : Nat) (f : Nat → Nat) (id : ReqId) (key : Nat) (x : Session) (s : State) (hs : Kept a0 s) :
    Kept a0 (editTags first count f id key x s) := by
  unfold editTags
  repeat' first
    | assumption | intro _ | with_reducible apply kept_complete | with_reducible apply kept_done
    | with_reducible apply kept_writeTags | fail_if_no_progress with_reducible apply Kept.upd | split

theorem kept_execTagClearV {a0 : State} (r : Req) (first : Nat) (count : Nat) (segment : Nat) (s : State) (hs : Kept a0 s) :
    KeptR a0 (execTagClearV r first count segment s) := by
  unfold execTagClearV
  repeat' first
    | assumption | intro _ | with_reducible apply kept_tagEdit | with_reducible apply kept_editTags
    | with_reducible apply KeptR.next

theorem kept_execTagSetV {a0 : State} (r : Req) (first : Nat) (count : Nat) (segment : Nat) (s : State) (hs : Kept a0 s) :
    KeptR a0 (execTagSetV r first count segment s) := by
  unfold execTagSetV
  repeat' first
    | assumption | intro _ | with_reducible apply kept_tagEdit | with_reducible apply kept_editTags
    | with_reducible apply KeptR.next

theorem kept_execTagSetSegment {a0 : State} (r : Req) (first : Nat) (count : Nat) (segment : Nat) (s : State) (hs : Kept a0 s) :
    KeptR a0 (execTagSetSegment r first count segment s) := by
  unfold execTagSetSegment
  repeat' first
    | assumption | intro _ | with_reducible apply kept_tagEdit | with_reducible apply kept_editTags
    | with_reducible apply KeptR.next

theorem kept_execSetMaskMode {a0 : State} (r : Req) (first : Nat) (count : Nat) (segment : Nat) (s : State) (hs : Kept a0 s) :
    KeptR a0 (execSetMaskMode r first count segment s) := by
  unfold execSetMaskMode
  repeat' first
    | assumption | intro _ | with_reducible apply kept_done | with_reducible apply kept_tagEdit
    | with_reducible apply kept_setSessTile | with_reducible apply KeptR.next

theorem kept_execSetCurrentSegment {a0 : State} (r : Req) (first : Nat) (count : Nat) (segment : Nat) (s : State) (hs : Kept a0 s) :
    KeptR a0 (execSetCurrentSegment r first count segment s) := by
  unfold execSetCurrentSegment
  repeat' first
    | assumption | intro _ | with_reducible apply kept_done | with_reducible apply kept_tagEdit
    | with_reducible apply kept_setSessTile | with_reducible apply KeptR.next

/-! ### Index -/

theorem kept_tileWrite {a0 : State} (key : Nat) (i : Nat) (off : Nat) (bs : List Byte) (s : State) (hs : Kept a0 s) :
    Kept a0 (tileWrite key i off bs s) := by
  unfold tileWrite
  repeat' first
    | assumption | intro _ | with_reducible apply kept_writeTile | with_reducible apply kept_cowKeep
    | with_reducible apply kept_nearStore | with_reducible apply Kept.ite | fail_if_no_progress with_reducible apply Kept.upd

theorem kept_recWrite {a0 : State} (key : Nat) (h : List Byte) (n : Nat) (off : Nat) (bs : List Byte) (s : State) (hs : Kept a0 s) :
    Kept a0 (recWrite key h n off bs s) := by
  unfold recWrite
  repeat' first
    | assumption | intro _ | with_reducible apply kept_tileWrite

theorem kept_sliverPatch {a0 : State} (k : Nat) (line : Nat) (off : Nat) (bs : List Byte) (s : State) (hs : Kept a0 s) :
    Kept a0 (sliverPatch k line off bs s) := by
  unfold sliverPatch
  repeat' first
    | assumption | intro _ | with_reducible apply kept_nearStore

theorem kept_writeBlocks {a0 : State} (p : Pav) (d : List Byte) (h : List Byte) (n : Nat) (sketch : List Byte) (tags : List Byte) (s : State) (hs : Kept a0 s) :
    Kept a0 (writeBlocks p d h n sketch tags s) := by
  unfold writeBlocks
  repeat' first
    | assumption | intro _ | with_reducible apply kept_sliverPatch | with_reducible apply Kept.foldl

theorem kept_markVisible {a0 : State} (p : Pav) (d : List Byte) (h : List Byte) (n : Nat) (on : Bool) (s : State) (hs : Kept a0 s) :
    Kept a0 (markVisible p d h n on s) := by
  unfold markVisible
  repeat' first
    | assumption | intro _ | with_reducible apply kept_sliverPatch

theorem kept_onIndex {a0 : State} (key : Nat) (f : IndexState → IndexState) (s : State) (hs : Kept a0 s) :
    Kept a0 (onIndex key f s) := by
  unfold onIndex
  repeat' first
    | assumption | intro _ | fail_if_no_progress with_reducible apply Kept.upd

theorem kept_noteEpoch {a0 : State} (key : Nat) (s : State) (hs : Kept a0 s) :
    Kept a0 (noteEpoch key s) := by
  unfold noteEpoch
  repeat' first
    | assumption | intro _ | with_reducible apply kept_tileWrite | with_reducible apply Kept.ite
    | fail_if_no_progress with_reducible apply Kept.upd | split

/-! ### Loads -/

theorem kept_loadDone {a0 : State} (id : ReqId) (s : State) (hs : Kept a0 s) :
    Kept a0 (loadDone id s) := by
  unfold loadDone
  repeat' first
    | assumption | intro _ | with_reducible apply kept_done | with_reducible apply Kept.ite

theorem kept_flushQueue {a0 : State} (n : Nat) (s : State) (hs : Kept a0 s) :
    Kept a0 (flushQueue n s) := by
  unfold flushQueue
  repeat' first
    | assumption | intro _ | with_reducible apply kept_onSess | with_reducible apply kept_fail
    | with_reducible apply kept_onPav | with_reducible apply Kept.ite | with_reducible apply Kept.foldl

theorem kept_applyPav {a0 : State} (n : Nat) (s : State) (hs : Kept a0 s) :
    Kept a0 (applyPav n s) := by
  unfold applyPav
  repeat' first
    | assumption | intro _ | with_reducible apply kept_loadDone | with_reducible apply kept_flushQueue
    | with_reducible apply kept_onPav | fail_if_no_progress with_reducible apply Kept.upd | split | dsimp only

theorem kept_applyIdle {a0 : State} (n : Nat) (s : State) (hs : Kept a0 s) :
    Kept a0 (applyIdle n s) := by
  unfold applyIdle
  repeat' first
    | assumption | intro _ | with_reducible apply kept_applyPav | with_reducible apply Kept.ite

theorem kept_stageItem {a0 : State} (id : ReqId) (x : LoadItem) (s : State) (hs : Kept a0 s) :
    Kept a0 (stageItem id x s) := by
  unfold stageItem
  repeat' first
    | assumption | intro _ | with_reducible apply kept_loadDone | with_reducible apply kept_onPav
    | with_reducible apply Kept.ite | fail_if_no_progress with_reducible apply Kept.upd | split | dsimp only

theorem kept_loadAll {a0 : State} (id : ReqId) (xs : List LoadItem) (s : State) (hs : Kept a0 s) :
    Kept a0 (loadAll id xs s) := by
  unfold loadAll
  repeat' first
    | assumption | intro _ | with_reducible apply kept_applyIdle | with_reducible apply kept_stageItem
    | with_reducible apply kept_complete | with_reducible apply Kept.foldl
    | fail_if_no_progress with_reducible apply Kept.upd | split

theorem kept_execPavLoad {a0 : State} (r : Req) (_buf : DWord) (count : Nat) (mem : Dma) (s : State) (hs : Kept a0 s) :
    KeptR a0 (execPavLoad r _buf count mem s) := by
  unfold execPavLoad
  repeat' first
    | assumption | intro _ | with_reducible apply kept_withMem | with_reducible apply kept_loadAll
    | with_reducible apply kept_fail | with_reducible apply kept_badEntry | with_reducible apply kept_onReq
    | with_reducible apply KeptR.ite | with_reducible apply KeptR.next | with_reducible apply Kept.ite

theorem kept_execPavUnload {a0 : State} (r : Req) (pavilion : Nat) (s : State) (hs : Kept a0 s) :
    KeptR a0 (execPavUnload r pavilion s) := by
  unfold execPavUnload
  repeat' first
    | assumption | intro _ | with_reducible apply kept_loadDone | with_reducible apply kept_applyIdle
    | with_reducible apply kept_fail | with_reducible apply kept_onReq | with_reducible apply kept_onPav
    | with_reducible apply KeptR.ite | with_reducible apply KeptR.next | with_reducible apply Kept.ite
    | fail_if_no_progress with_reducible apply Kept.upd | split

theorem kept_execPavTenantSet {a0 : State} (r : Req) (buf : DWord) (mem : Dma) (s : State) (hs : Kept a0 s) :
    KeptR a0 (execPavTenantSet r buf mem s) := by
  unfold execPavTenantSet
  repeat' first
    | assumption | intro _ | with_reducible apply kept_withMem | with_reducible apply kept_onTenant
    | with_reducible apply kept_done | with_reducible apply kept_fail | with_reducible apply kept_onReq
    | with_reducible apply kept_holdReq | with_reducible apply KeptR.ite | with_reducible apply KeptR.next
    | with_reducible apply Kept.ite

theorem kept_execPavFuncTenant {a0 : State} (r : Req) (function : Nat) (tenant : Nat) (s : State) (hs : Kept a0 s) :
    KeptR a0 (execPavFuncTenant r function tenant s) := by
  unfold execPavFuncTenant
  repeat' first
    | assumption | intro _ | with_reducible apply kept_maskChange | with_reducible apply kept_done
    | with_reducible apply kept_fail | with_reducible apply kept_onReq | with_reducible apply KeptR.ite
    | with_reducible apply KeptR.next | with_reducible apply Kept.ite | fail_if_no_progress with_reducible apply Kept.upd

theorem kept_execPavExpedite {a0 : State} (r : Req) (session : DWord) (s : State) (hs : Kept a0 s) :
    KeptR a0 (execPavExpedite r session s) := by
  unfold execPavExpedite
  repeat' first
    | assumption | intro _ | with_reducible apply kept_onSess | with_reducible apply kept_done
    | with_reducible apply kept_fail | with_reducible apply kept_onReq | with_reducible apply kept_onPav
    | with_reducible apply kept_fillPav | with_reducible apply KeptR.ite | with_reducible apply KeptR.next
    | with_reducible apply Kept.ite | fail_if_no_progress with_reducible apply Kept.upd | split | dsimp only

end Sys2Proof.Machine
end

