-- ==== Sys2Proof/Laws/KeptTiers.lean ====
section
/-! SUPPORT. What Celay, transfers, the hatch, streams, tiers and recall keep (`Kept`): one lemma for each operation,
cited instead of unfolding it. -/

namespace Sys2Proof.Machine

/-! ### CelayLink -/

theorem kept_clyAdd {a0 : State} (p : Nat) (off : Nat) (n : Nat) (s : State) (hs : Kept a0 s) :
    Kept a0 (clyAdd p off n s) := by
  unfold clyAdd
  repeat' first
    | assumption | intro _ | with_reducible apply kept_regAdd

theorem kept_takeMsg {a0 : State} (p : Nat) (kind : Nat) (s : State) (hs : Kept a0 s) :
    KeptP a0 (takeMsg p kind s) := by
  unfold takeMsg
  repeat' first
    | assumption | intro _ | with_reducible apply kept_onCly | with_reducible exact KeptP.none
    | with_reducible apply KeptP.some | with_reducible apply KeptP.some2 | fail_if_no_progress with_reducible apply Kept.upd
    | split

theorem kept_nextCell {a0 : State} (p : Nat) (s : State) (hs : Kept a0 s) :
    Kept a0 (nextCell p s).2 := by
  unfold nextCell
  repeat' first
    | assumption | intro _ | with_reducible apply kept_onCly | with_reducible apply Kept.ite
    | fail_if_no_progress with_reducible apply Kept.upd | split

theorem kept_fillBuckets {a0 : State} (p : Nat) (s : State) (hs : Kept a0 s) :
    Kept a0 (fillBuckets p s) := by
  unfold fillBuckets
  repeat' first
    | assumption | intro _ | with_reducible apply kept_onCly

theorem kept_fillPlaces {a0 : State} (p : Nat) (z0 : Nat) (z1 : State) (hs : Kept a0 z1) :
    Kept a0 (fillPlaces p z0 z1).2 := by
  induction z0 generalizing z1 with
  | zero =>
    unfold fillPlaces
    repeat' first
      | assumption
  | succ n ih =>
    unfold fillPlaces
    repeat' first
      | assumption | intro _ | with_reducible apply ih | with_reducible apply kept_nextCell

theorem kept_execFlitTransmit {a0 : State} (cport : Fin 4) (s : State) (hs : Kept a0 s) :
    KeptR a0 (execFlitTransmit cport s) := by
  unfold execFlitTransmit
  repeat' first
    | assumption | intro _ | with_reducible apply kept_clyAdd | with_reducible apply kept_fillBuckets
    | with_reducible apply kept_fillPlaces | refine Kept.get (kept_fillPlaces _ _ _ ?_) (by assumption)
    | with_reducible apply kept_onCly | with_reducible apply KeptR.ite | with_reducible apply KeptR.next
    | with_reducible apply Kept.ite | fail_if_no_progress with_reducible apply Kept.upd | split

theorem kept_execGateEntryAdvance {a0 : State} (cport : Fin 4) (s : State) (hs : Kept a0 s) :
    KeptR a0 (execGateEntryAdvance cport s) := by
  unfold execGateEntryAdvance
  repeat' first
    | assumption | intro _ | with_reducible apply kept_onCly | with_reducible apply KeptR.ite
    | with_reducible apply KeptR.next | with_reducible apply Kept.ite | fail_if_no_progress with_reducible apply Kept.upd
    | split

theorem kept_takeCell {a0 : State} (p : Nat) (c : Cell) (s : State) (hs : Kept a0 s) :
    Kept a0 (takeCell p c s) := by
  unfold takeCell
  repeat' first
    | assumption | intro _ | with_reducible apply kept_clyAdd | with_reducible apply kept_onCly
    | with_reducible apply Kept.ite

theorem kept_takeFlit {a0 : State} (p : Nat) (b : List Byte) (s : State) (hs : Kept a0 s) :
    Kept a0 (takeFlit p b s) := by
  unfold takeFlit
  repeat' first
    | assumption | intro _ | with_reducible apply kept_takeCell | with_reducible apply kept_onCly
    | with_reducible apply Kept.ite | with_reducible apply Kept.foldl

/-! ### Transfer -/

theorem kept_orderFetch {a0 : State} (key : Nat) (i : Nat) (upTier : Nat) (upAddr : Nat) (s : State) (hs : Kept a0 s) :
    Kept a0 (orderFetch key i upTier upAddr s) := by
  unfold orderFetch
  repeat' first
    | assumption | intro _ | with_reducible apply kept_onTile

theorem kept_queueDepart {a0 : State} (key : Nat) (i : Nat) (s : State) (hs : Kept a0 s) :
    Kept a0 (queueDepart key i s) := by
  unfold queueDepart
  repeat' first
    | assumption | intro _ | with_reducible apply kept_onBay

theorem kept_orderWrite {a0 : State} (key : Nat) (tier : Nat) (region : Nat) (codec : Nat) (i : Nat) (s : State) (hs : Kept a0 s) :
    KeptO a0 (orderWrite key tier region codec i s) := by
  unfold orderWrite
  repeat' first
    | assumption | intro _ | with_reducible apply kept_onTile | with_reducible apply kept_spotAlloc
    | refine KeptP.get (kept_spotAlloc _ _ _ _ _ ?_) (by assumption) | with_reducible apply kept_queueDepart
    | with_reducible exact KeptO.none | with_reducible exact KeptP.none | with_reducible apply KeptO.ite
    | with_reducible apply KeptP.ite | with_reducible apply KeptO.some | with_reducible apply KeptP.some
    | with_reducible apply KeptP.some2 | with_reducible apply Kept.ite | fail_if_no_progress with_reducible apply Kept.upd
    | split

theorem kept_orderWrites {a0 : State} (key : Nat) (tier : Nat) (region : Nat) (codec : Nat) (z0 : List Nat) (z1 : State) (hs : Kept a0 z1) :
    KeptO a0 (orderWrites key tier region codec z0 z1) := by
  induction z0 generalizing z1 with
  | nil =>
    unfold orderWrites
    repeat' first
      | assumption | intro _ | with_reducible apply kept_orderWrite
      | refine KeptO.get (kept_orderWrite _ _ _ _ _ _ ?_) (by assumption) | with_reducible exact KeptO.none
      | with_reducible apply KeptO.some
  | cons x l ih =>
    unfold orderWrites
    repeat' first
      | assumption | intro _ | with_reducible apply ih | with_reducible apply kept_orderWrite
      | refine KeptO.get (kept_orderWrite _ _ _ _ _ _ ?_) (by assumption) | with_reducible exact KeptO.none
      | with_reducible apply KeptO.some | fail_if_no_progress with_reducible apply Kept.upd | split

theorem kept_orderOwn {a0 : State} (key : Nat) (tier : Nat) (region : Nat) (z0 : List Nat) (z1 : State) (hs : Kept a0 z1) :
    KeptO a0 (orderOwn key tier region z0 z1) := by
  induction z0 generalizing z1 with
  | nil =>
    unfold orderOwn
    repeat' first
      | assumption | intro _ | with_reducible apply kept_orderWrite
      | refine KeptO.get (kept_orderWrite _ _ _ _ _ _ ?_) (by assumption) | with_reducible exact KeptO.none
      | with_reducible apply KeptO.some
  | cons x l ih =>
    unfold orderOwn
    repeat' first
      | assumption | intro _ | with_reducible apply ih | with_reducible apply kept_orderWrite
      | refine KeptO.get (kept_orderWrite _ _ _ _ _ _ ?_) (by assumption) | with_reducible exact KeptO.none
      | with_reducible apply KeptO.some | fail_if_no_progress with_reducible apply Kept.upd | split

theorem kept_failTransfer {a0 : State} (key : Nat) (i : Nat) (cause : Nat) (s : State) (hs : Kept a0 s) :
    Kept a0 (failTransfer key i cause s) := by
  unfold failTransfer
  repeat' first
    | assumption | intro _ | with_reducible apply kept_raiseErr | with_reducible apply kept_onTile
    | with_reducible apply kept_spotFree | with_reducible apply kept_regAdd | with_reducible apply kept_queueDepart
    | with_reducible apply Kept.ite

theorem kept_layPart {a0 : State} (key : Nat) (part : Option Nat) (bs : List Byte) (s : State) (hs : Kept a0 s) :
    Kept a0 (layPart key part bs s) := by
  unfold layPart
  repeat' first
    | assumption | intro _ | with_reducible apply kept_onSess | with_reducible apply kept_tagScatter
    | fail_if_no_progress with_reducible apply Kept.upd | split

theorem kept_layNear {a0 : State} (k : Nat) (line : Nat) (bs : List Byte) (s : State) (hs : Kept a0 s) :
    Kept a0 (layNear k line bs s) := by
  unfold layNear
  repeat' first
    | assumption | intro _ | with_reducible apply kept_nearPoke | with_reducible apply kept_setForm
    | with_reducible apply kept_clearDirty | with_reducible apply kept_undamage

theorem kept_landTile {a0 : State} (key : Nat) (i : Nat) (bs : List Byte) (s : State) (hs : Kept a0 s) :
    Kept a0 (landTile key i bs s) := by
  unfold landTile
  repeat' first
    | assumption | intro _ | with_reducible apply kept_onTile | with_reducible apply kept_layPart
    | with_reducible apply kept_layNear | with_reducible apply Kept.ite | fail_if_no_progress with_reducible apply Kept.upd
    | split

theorem kept_fetchOut {a0 : State} (key : Nat) (i : Nat) (bs : List Byte) (s : State) (hs : Kept a0 s) :
    Kept a0 (fetchOut key i bs s) := by
  unfold fetchOut
  repeat' first
    | assumption | intro _ | with_reducible apply kept_onBay | with_reducible apply kept_landTile
    | with_reducible apply Kept.ite

theorem kept_arriveTile {a0 : State} (key : Nat) (i : Nat) (gen : Nat) (bs : List Byte) (s : State) (hs : Kept a0 s) :
    Kept a0 (arriveTile key i gen bs s) := by
  unfold arriveTile
  repeat' first
    | assumption | intro _ | with_reducible apply kept_regAdd | with_reducible apply kept_landTile
    | with_reducible apply Kept.ite

theorem kept_noteEngine {a0 : State} (e : Nat) (op : Nat) (src : Nat) (dst : Nat) (codec : Nat) (srcAddr : Nat) (dstAddr : Nat) (key : Nat) (i : Nat) (gran : Nat) (last : Bool) (s : State) (hs : Kept a0 s) :
    Kept a0 (noteEngine e op src dst codec srcAddr dstAddr key i gran last s) := by
  unfold noteEngine
  repeat' first
    | assumption | intro _ | fail_if_no_progress with_reducible apply Kept.upd

theorem kept_countRefusal {a0 : State} (key : Nat) (s : State) (hs : Kept a0 s) :
    Kept a0 (countRefusal key s) := by
  unfold countRefusal
  repeat' first
    | assumption | intro _ | with_reducible apply kept_regAdd

theorem kept_firstFetch {a0 : State} (key : Nat) (s : State) (hs : Kept a0 s) :
    Kept a0 (firstFetch key s) := by
  unfold firstFetch
  repeat' first
    | assumption | intro _ | with_reducible apply kept_onSess | fail_if_no_progress with_reducible apply Kept.upd | split

theorem kept_execShutterFetch {a0 : State} (engine : Fin 33) (obj : ObjRef) (tile : Nat) (read : TierRead) (s : State) (hs : Kept a0 s) :
    KeptR a0 (execShutterFetch engine obj tile read s) := by
  unfold execShutterFetch
  repeat' first
    | assumption | intro _ | with_reducible apply kept_farAccess | with_reducible apply kept_onTile
    | with_reducible apply kept_poolSend | refine KeptO.get (kept_poolSend _ _ _ _ _ _ _ ?_) (by assumption)
    | with_reducible apply kept_failTransfer | with_reducible apply kept_fetchOut | with_reducible apply kept_noteEngine
    | with_reducible apply kept_countRefusal | with_reducible apply kept_firstFetch | with_reducible apply KeptR.ite
    | with_reducible apply KeptO.getD | with_reducible apply KeptR.next | with_reducible apply Kept.ite
    | fail_if_no_progress with_reducible apply Kept.upd | split

theorem kept_execShutterWrite {a0 : State} (engine : Fin 33) (obj : ObjRef) (tile : Nat) (s : State) (hs : Kept a0 s) :
    KeptR a0 (execShutterWrite engine obj tile s) := by
  unfold execShutterWrite
  dsimp only
  refine KeptR.ite (fun _ => .next hs) fun _ => ?_
  split
  · exact .next (kept_failTransfer _ _ _ _ (.ite (fun _ => kept_countRefusal _ _ (kept_noteEngine _ _ _ _ _ _ _ _ _ _ _ _ hs)) fun _ => kept_noteEngine _ _ _ _ _ _ _ _ _ _ _ _ hs))
  · rename_i e
    have h := KeptP.get (KeptP.bind fun f _ => kept_reform _ _ _ _ _ (kept_noteEngine _ _ _ _ _ _ _ _ _ _ _ _ hs)) e
    split
    · exact .next (kept_failTransfer _ _ _ _ h)
    · rename_i e2
      have h2 := KeptP.get (KeptP.ite (fun _ => KeptP.some h) fun _ => kept_spotAlloc _ _ _ _ _ (kept_spotFree _ _ _ h)) e2
      have h3 : ∀ k i d sp e (c : Prop) [Decidable c] n (u : State), Kept a0 u → Kept a0 (spotWrite k i d sp e (if c then farAccess n u else u)) := fun k i d sp e c _ n u hu =>
        kept_spotWrite _ _ _ _ _ _ (Kept.ite (fun _ => kept_farAccess _ _ hu) fun _ => hu)
      refine KeptR.ite (fun _ => .next ((kept_poolSend _ _ _ _ _ _ _ ?_).getD (kept_failTransfer _ _ _ _ ?_))) fun _ => .next ?_ <;>
      exact h3 _ _ _ _ _ _ _ _ (kept_onTile _ _ _ _ h2)

theorem kept_copyLay {a0 : State} (key : Nat) (i : Nat) (m : MovePlace) (bs : List Byte) (s : State) (hs : Kept a0 s) :
    Kept a0 (copyLay key i m bs s) := by
  unfold copyLay
  repeat' first
    | assumption | intro _ | with_reducible apply kept_tagScatter | with_reducible apply kept_onTile
    | with_reducible apply kept_layNear | with_reducible apply Kept.ite | fail_if_no_progress with_reducible apply Kept.upd
    | split

theorem kept_execShutterCopy {a0 : State} (engine : Fin 33) (obj : ObjRef) (tile : Nat) (s : State) (hs : Kept a0 s) :
    KeptR a0 (execShutterCopy engine obj tile s) := by
  unfold execShutterCopy
  repeat' first
    | assumption | intro _ | with_reducible apply kept_snapKeep | with_reducible apply kept_onTile
    | with_reducible apply kept_releaseUpper | with_reducible apply kept_orderWrite
    | refine KeptO.get (kept_orderWrite _ _ _ _ _ _ ?_) (by assumption) | with_reducible apply kept_failTransfer
    | with_reducible apply kept_noteEngine | with_reducible apply kept_countRefusal | with_reducible apply kept_copyLay
    | with_reducible apply KeptR.ite | with_reducible apply KeptO.getD | with_reducible apply KeptR.next
    | with_reducible apply Kept.ite | fail_if_no_progress with_reducible apply Kept.upd | split | dsimp only

theorem kept_releaseAll {a0 : State} (key : Nat) (s : State) (hs : Kept a0 s) :
    Kept a0 (releaseAll key s) := by
  unfold releaseAll
  repeat' first
    | assumption | intro _ | with_reducible apply kept_releaseUpper | with_reducible apply Kept.ite
    | with_reducible apply Kept.foldl | fail_if_no_progress with_reducible apply Kept.upd | split

theorem kept_endJob {a0 : State} (key : Nat) (s : State) (hs : Kept a0 s) :
    Kept a0 (endJob key s) := by
  unfold endJob
  repeat' first
    | assumption | intro _ | fail_if_no_progress with_reducible apply Kept.upd

theorem kept_placeDown {a0 : State} (key : Nat) (id : ReqId) (tier : Nat) (region : Nat) (s : State) (hs : Kept a0 s) :
    Kept a0 (placeDown key id tier region s) := by
  unfold placeDown
  repeat' first
    | assumption | intro _ | with_reducible apply kept_complete | with_reducible apply kept_done
    | with_reducible apply kept_orderOwn | refine KeptO.get (kept_orderOwn _ _ _ _ _ ?_) (by assumption)
    | with_reducible apply kept_releaseAll | with_reducible apply kept_endJob | with_reducible apply KeptO.getD
    | fail_if_no_progress with_reducible apply Kept.upd | split

theorem kept_settle {a0 : State} (key : Nat) (s : State) (hs : Kept a0 s) :
    Kept a0 (settle key s) := by
  unfold settle
  repeat' first
    | assumption | intro _ | with_reducible apply kept_complete | with_reducible apply kept_done
    | with_reducible apply kept_endJob | with_reducible apply kept_placeDown | with_reducible apply Kept.ite
    | fail_if_no_progress with_reducible apply Kept.upd | split

theorem kept_foldSlot {a0 : State} (k : Nat) (line : Nat) (s : State) (hs : Kept a0 s) :
    Kept a0 (foldSlot k line s) := by
  unfold foldSlot
  repeat' first
    | assumption | intro _ | with_reducible apply kept_writeTile | with_reducible apply kept_clearDirty
    | with_reducible apply Kept.ite | with_reducible apply Kept.foldl

theorem kept_execTileArrival {a0 : State} (obj : ObjRef) (tile : Nat) (s : State) (hs : Kept a0 s) :
    KeptR a0 (execTileArrival obj tile s) := by
  unfold execTileArrival
  repeat' first
    | assumption | intro _ | with_reducible apply kept_writeTile | with_reducible apply kept_onTile
    | with_reducible apply kept_tierBytes | with_reducible apply kept_releaseLower | with_reducible apply kept_settle
    | with_reducible apply kept_foldSlot | with_reducible apply KeptR.ite | with_reducible apply KeptR.next
    | with_reducible apply Kept.ite

theorem kept_ackWrite {a0 : State} (key : Nat) (i : Nat) (s : State) (hs : Kept a0 s) :
    Kept a0 (ackWrite key i s) := by
  unfold ackWrite
  repeat' first
    | assumption | intro _ | with_reducible apply kept_snapKeep | with_reducible apply kept_onTile
    | with_reducible apply kept_spotFree | with_reducible apply kept_tierBytes | with_reducible apply kept_settle
    | with_reducible apply Kept.ite

theorem kept_execTileWriteAck {a0 : State} (w : TierWrite) (s : State) (hs : Kept a0 s) :
    KeptR a0 (execTileWriteAck w s) := by
  unfold execTileWriteAck
  repeat' first
    | assumption | intro _ | with_reducible apply kept_snapAck | with_reducible apply kept_ackWrite
    | with_reducible apply KeptR.ite | with_reducible apply KeptR.next | with_reducible apply Kept.ite
    | fail_if_no_progress with_reducible apply Kept.upd | split

theorem kept_farLost {a0 : State} (t : Tile) (cause : Nat) (s : State) (hs : Kept a0 s) :
    Kept a0 (farLost t cause s) := by
  unfold farLost
  repeat' first
    | assumption | intro _ | with_reducible apply kept_regAdd | with_reducible apply Kept.ite

theorem kept_tileMiss {a0 : State} (key : Nat) (tile : Nat) (cause : Nat) (s : State) (hs : Kept a0 s) :
    Kept a0 (tileMiss key tile cause s) := by
  unfold tileMiss
  repeat' first
    | assumption | intro _ | with_reducible apply kept_failTransfer | with_reducible apply kept_settle
    | with_reducible apply kept_farLost | with_reducible apply Kept.ite

theorem kept_execTileTransferFailure {a0 : State} (w : TierWrite) (cause : Fin 6) (s : State) (hs : Kept a0 s) :
    KeptR a0 (execTileTransferFailure w cause s) := by
  unfold execTileTransferFailure
  repeat' first
    | assumption | intro _ | with_reducible apply kept_snapMiss | with_reducible apply kept_tileMiss
    | with_reducible apply KeptR.ite | with_reducible apply KeptR.next | with_reducible apply Kept.ite
    | fail_if_no_progress with_reducible apply Kept.upd | split

/-! ### Hatch -/

theorem kept_hatchTouch {a0 : State} (b : Nat) (s : State) (hs : Kept a0 s) :
    Kept a0 (hatchTouch b s) := by
  unfold hatchTouch
  repeat' first
    | assumption | intro _ | with_reducible apply kept_onBay

theorem kept_hatchApply {a0 : State} (p : Nat) (x : HatchPart) (bad : Bool) (s : State) (hs : Kept a0 s) :
    Kept a0 (hatchApply p x bad s) := by
  unfold hatchApply
  repeat' first
    | assumption | intro _ | with_reducible apply kept_raiseErr | with_reducible apply kept_foldDirty
    | with_reducible apply kept_nearStore | with_reducible apply kept_regAdd | with_reducible apply Kept.ite

theorem kept_hatchDrop {a0 : State} (p : Nat) (x : HatchPart) (detail : Nat) (s : State) (hs : Kept a0 s) :
    Kept a0 (hatchDrop p x detail s) := by
  unfold hatchDrop
  repeat' first
    | assumption | intro _ | with_reducible apply kept_raiseErr | with_reducible apply kept_regAdd

theorem kept_hatchHold {a0 : State} (p : Nat) (x : HatchPart) (arrive : Option (Nat × Nat)) (s : State) (hs : Kept a0 s) :
    Kept a0 (hatchHold p x arrive s) := by
  unfold hatchHold
  repeat' first
    | assumption | intro _ | with_reducible apply kept_regAdd | with_reducible apply Kept.ite
    | fail_if_no_progress with_reducible apply Kept.upd

theorem kept_hatchPart {a0 : State} (p : Nat) (bad : Bool) (x : HatchPart) (s : State) (hs : Kept a0 s) :
    Kept a0 (hatchPart p bad x s) := by
  unfold hatchPart
  repeat' first
    | assumption | intro _ | with_reducible apply kept_hatchApply | with_reducible apply kept_hatchDrop
    | with_reducible apply kept_hatchHold | with_reducible apply Kept.ite | fail_if_no_progress with_reducible apply Kept.upd
    | split

theorem kept_queueHatch {a0 : State} (b : Nat) (beats : Nat) (toBay : Bool) (x : HubItem) (s : State) (hs : Kept a0 s) :
    Kept a0 (queueHatch b beats toBay x s) := by
  unfold queueHatch
  repeat' first
    | assumption | intro _ | with_reducible apply kept_onBay

theorem kept_hatchLines {a0 : State} (p : Nat) (b : Nat) (parts : List HatchPart) (bad : Bool) (s : State) (hs : Kept a0 s) :
    Kept a0 (hatchLines p b parts bad s) := by
  unfold hatchLines
  repeat' first
    | assumption | intro _ | with_reducible apply kept_hatchPart | with_reducible apply kept_queueHatch
    | with_reducible apply Kept.ite | with_reducible apply Kept.foldl

theorem kept_execHatchWrite {a0 : State} (port : Port) (off : Nat) (data : List Byte) (bad : Bool) (s : State) (hs : Kept a0 s) :
    KeptR a0 (execHatchWrite port off data bad s) := by
  unfold execHatchWrite
  repeat' first
    | assumption | intro _ | with_reducible apply kept_raiseErr | with_reducible apply kept_hatchTouch
    | with_reducible apply kept_hatchLines | with_reducible apply KeptR.ite | with_reducible apply KeptR.next
    | with_reducible apply Kept.ite | fail_if_no_progress with_reducible apply Kept.upd | split

theorem kept_releaseHeld {a0 : State} (p : Nat) (z0 : List HeldWrite) (z1 : State) (hs : Kept a0 z1) :
    Kept a0 (releaseHeld p z0 z1) := by
  induction z0 generalizing z1 with
  | nil =>
    unfold releaseHeld
    repeat' first
      | assumption
  | cons x l ih =>
    unfold releaseHeld
    repeat' first
      | assumption | intro _ | with_reducible apply ih | with_reducible apply kept_hatchApply
      | with_reducible apply kept_hatchDrop | with_reducible apply Kept.ite
      | fail_if_no_progress with_reducible apply Kept.upd | split

theorem kept_releaseHatch {a0 : State} (p : Nat) (s : State) (hs : Kept a0 s) :
    Kept a0 (releaseHatch p s) := by
  unfold releaseHatch
  repeat' first
    | assumption | intro _ | with_reducible apply kept_releaseHeld | fail_if_no_progress with_reducible apply Kept.upd

theorem kept_execHeldHatchWriteApply {a0 : State} (port : Port) (s : State) (hs : Kept a0 s) :
    KeptR a0 (execHeldHatchWriteApply port s) := by
  unfold execHeldHatchWriteApply
  repeat' first
    | assumption | intro _ | with_reducible apply kept_releaseHatch | with_reducible apply KeptR.next

theorem kept_hatchData {a0 : State} (p : Nat) (parts : List HatchPart) (bad : Bool) (s : State) (hs : Kept a0 s) :
    Kept a0 (hatchData p parts bad s).2 := by
  unfold hatchData
  repeat' first
    | assumption | intro _ | with_reducible apply kept_raiseErr | fail_if_no_progress with_reducible apply Kept.upd | split
    | dsimp only

theorem kept_execHatchRead {a0 : State} (port : Port) (off : Nat) (len : Nat) (bad : Bool) (s : State) (hs : Kept a0 s) :
    KeptR a0 (execHatchRead port off len bad s) := by
  unfold execHatchRead
  repeat' first
    | assumption | intro _ | with_reducible apply kept_raiseErr | with_reducible apply kept_hatchTouch
    | with_reducible apply kept_queueHatch | with_reducible apply kept_hatchData
    | refine Kept.get (kept_hatchData _ _ _ _ ?_) (by assumption) | with_reducible apply KeptR.ite
    | with_reducible apply KeptR.next | with_reducible apply Kept.ite | fail_if_no_progress with_reducible apply Kept.upd
    | split

theorem kept_execHcDoneRead {a0 : State} (port : Port) (off : Nat) (s : State) (hs : Kept a0 s) :
    KeptR a0 (execHcDoneRead port off s) := by
  unfold execHcDoneRead
  repeat' first
    | assumption | intro _ | with_reducible apply kept_raiseErr | with_reducible apply kept_hatchTouch
    | with_reducible apply kept_queueHatch | with_reducible apply KeptR.ite | with_reducible apply KeptR.next
    | with_reducible apply Kept.ite | fail_if_no_progress with_reducible apply Kept.upd | split

theorem kept_execHatWindowWrite {a0 : State} (port : Port) (n : Fin 8) (v : Word) (s : State) (hs : Kept a0 s) :
    KeptR a0 (execHatWindowWrite port n v s) := by
  unfold execHatWindowWrite
  repeat' first
    | assumption | intro _ | with_reducible apply kept_raiseErr | with_reducible apply kept_regSet
    | with_reducible apply KeptR.ite | with_reducible apply KeptR.next

theorem kept_enterHatch {a0 : State} (b : Nat) (s : State) (hs : Kept a0 s) :
    Kept a0 (enterHatch b s) := by
  unfold enterHatch
  repeat' first
    | assumption | intro _ | with_reducible apply kept_onBay | with_reducible apply Kept.ite

theorem kept_execHatchModeRequest {a0 : State} (port : Port) (bay : Fin 20) (s : State) (hs : Kept a0 s) :
    KeptR a0 (execHatchModeRequest port bay s) := by
  unfold execHatchModeRequest
  repeat' first
    | assumption | intro _ | with_reducible apply kept_onBay | with_reducible apply kept_raiseErr
    | with_reducible apply kept_enterHatch | with_reducible apply kept_regOr | with_reducible apply KeptR.ite
    | with_reducible apply KeptR.next | with_reducible apply Kept.ite

theorem kept_execHatchExitRequest {a0 : State} (port : Port) (bay : Fin 20) (s : State) (hs : Kept a0 s) :
    KeptR a0 (execHatchExitRequest port bay s) := by
  unfold execHatchExitRequest
  repeat' first
    | assumption | intro _ | with_reducible apply kept_onBay | with_reducible apply kept_regClear
    | with_reducible apply KeptR.ite | with_reducible apply KeptR.next | with_reducible apply Kept.ite

theorem kept_execHatchModeExit {a0 : State} (bay : Fin 20) (s : State) (hs : Kept a0 s) :
    KeptR a0 (execHatchModeExit bay s) := by
  unfold execHatchModeExit
  repeat' first
    | assumption | intro _ | with_reducible apply kept_onBay | with_reducible apply kept_noteReadyAll
    | with_reducible apply KeptR.ite | with_reducible apply KeptR.next

theorem kept_execHcSubmitHeldWrite {a0 : State} (port : Port) (off : Nat) (data : List Byte) (s : State) (hs : Kept a0 s) :
    KeptR a0 (execHcSubmitHeldWrite port off data s) := by
  unfold execHcSubmitHeldWrite
  repeat' first
    | assumption | intro _ | with_reducible apply kept_onBay | with_reducible apply kept_raiseErr
    | with_reducible apply kept_hatchTouch | with_reducible apply KeptR.ite | with_reducible apply KeptR.next
    | with_reducible apply Kept.ite | with_reducible apply Kept.foldl | fail_if_no_progress with_reducible apply Kept.upd
    | split

theorem kept_execHcStoreWrite {a0 : State} (port : Port) (off : Nat) (data : List Byte) (s : State) (hs : Kept a0 s) :
    KeptR a0 (execHcStoreWrite port off data s) := by
  unfold execHcStoreWrite
  repeat' first
    | assumption | intro _ | with_reducible apply kept_onBay | with_reducible apply kept_raiseErr
    | with_reducible apply KeptR.ite | with_reducible apply KeptR.next | with_reducible apply Kept.ite
    | fail_if_no_progress with_reducible apply Kept.upd | split

/-! ### HubMoves -/

theorem kept_markPlan {a0 : State} (key : Nat) (f : Frame) (bay : Nat) (what : Nat) (cyc : Nat) (s : State) (hs : Kept a0 s) :
    Kept a0 (markPlan key f bay what cyc s) := by
  unfold markPlan
  repeat' first
    | assumption | intro _ | with_reducible apply kept_setFrame

theorem kept_beginBond {a0 : State} (x : BondItem) (s : State) (hs : Kept a0 s) :
    Kept a0 (beginBond x s) := by
  unfold beginBond
  repeat' first
    | assumption | intro _ | with_reducible apply kept_clearDirty | with_reducible apply kept_onTile
    | fail_if_no_progress with_reducible apply Kept.upd | split

theorem kept_endDepart {a0 : State} (key : Nat) (i : Nat) (s : State) (hs : Kept a0 s) :
    Kept a0 (endDepart key i s) := by
  unfold endDepart
  repeat' first
    | assumption | intro _ | with_reducible apply kept_onBay | with_reducible apply kept_onTile
    | with_reducible apply kept_regAdd | with_reducible apply kept_queueDepart | with_reducible apply kept_failTransfer
    | with_reducible apply kept_settle | with_reducible apply Kept.ite | fail_if_no_progress with_reducible apply Kept.upd
    | split

theorem kept_onStream {a0 : State} (y : Stream) (f : Stream → Stream) (s : State) (hs : Kept a0 s) :
    Kept a0 (onStream y f s) := by
  unfold onStream
  repeat' first
    | assumption | intro _ | with_reducible apply Kept.ite | fail_if_no_progress with_reducible apply Kept.upd

theorem kept_noteLanded {a0 : State} (sk : Nat) (i : Nat) (s : State) (hs : Kept a0 s) :
    Kept a0 (noteLanded sk i s) := by
  unfold noteLanded
  repeat' first
    | assumption | intro _ | with_reducible apply kept_onStream | with_reducible apply kept_sendMsg
    | with_reducible apply Kept.ite | fail_if_no_progress with_reducible apply Kept.upd | split

theorem kept_layPush {a0 : State} (key : Nat) (i : Nat) (gen : Nat) (bs : List Byte) (s : State) (hs : Kept a0 s) :
    Kept a0 (layPush key i gen bs s) := by
  unfold layPush
  repeat' first
    | assumption | intro _ | with_reducible apply kept_stale | with_reducible apply kept_noteLanded
    | with_reducible apply kept_cowKeep | with_reducible apply kept_onTile | with_reducible apply kept_regAdd
    | with_reducible apply kept_layNear | with_reducible apply Kept.ite | fail_if_no_progress with_reducible apply Kept.upd
    | split

theorem kept_endBond {a0 : State} (x : BondItem) (s : State) (hs : Kept a0 s) :
    Kept a0 (endBond x s) := by
  unfold endBond
  repeat' first
    | assumption | intro _ | with_reducible apply kept_hatchPart | with_reducible apply kept_queueHatch
    | with_reducible apply kept_hatchData | refine Kept.get (kept_hatchData _ _ _ _ ?_) (by assumption)
    | with_reducible apply kept_endDepart | with_reducible apply kept_layPush | with_reducible apply kept_nearStore
    | with_reducible apply kept_arriveTile | fail_if_no_progress with_reducible apply Kept.upd | split

theorem kept_bondItems {a0 : State} (bay : Nat) (per : Nat) (z0 : List BondItem) (z1 : NMap Nat) (z2 : State) (hs : Kept a0 z2) :
    Kept a0 (bondItems bay per z0 z1 z2) := by
  induction z0 generalizing z1 z2 with
  | nil =>
    unfold bondItems
    repeat' first
      | assumption
  | cons x l ih =>
    unfold bondItems
    repeat' first
      | assumption | intro _ | with_reducible apply ih | with_reducible apply kept_onBay
      | with_reducible apply kept_beginBond | with_reducible apply kept_endBond | with_reducible apply Kept.ite

theorem kept_bondWork {a0 : State} (bay : Nat) (per : Nat) (s : State) (hs : Kept a0 s) :
    Kept a0 (bondWork bay per s) := by
  unfold bondWork
  repeat' first
    | assumption | intro _ | with_reducible apply kept_onBay | with_reducible apply kept_bondItems

theorem kept_deliverHub {a0 : State} (bay : Nat) (x : HubItem) (s : State) (hs : Kept a0 s) :
    Kept a0 (deliverHub bay x s) := by
  unfold deliverHub
  repeat' first
    | assumption | intro _ | with_reducible apply kept_onBay | with_reducible apply kept_onTile
    | with_reducible apply Kept.ite | fail_if_no_progress with_reducible apply Kept.upd | split

theorem kept_moveBeats {a0 : State} (bay : Nat) (toBay : Bool) (primary : Nat) (beats : Nat) (s : State) (hs : Kept a0 s) :
    Kept a0 (moveBeats bay toBay primary beats s) := by
  unfold moveBeats
  repeat' first
    | assumption | intro _ | with_reducible apply kept_onBay | with_reducible apply kept_deliverHub
    | with_reducible apply Kept.ite | fail_if_no_progress with_reducible apply Kept.upd | split | dsimp only

theorem kept_execHubBondSlot {a0 : State} (bay : Fin 20) (start : Nat) (s : State) (hs : Kept a0 s) :
    KeptR a0 (execHubBondSlot bay start s) := by
  unfold execHubBondSlot
  repeat' first
    | assumption | intro _ | with_reducible apply kept_markPlan | with_reducible apply kept_bondWork
    | with_reducible apply KeptR.ite | with_reducible apply KeptR.next | with_reducible apply Kept.ite
    | fail_if_no_progress with_reducible apply Kept.upd | split

theorem kept_execTransomWindowBeat {a0 : State} (bay : Fin 20) (cport : Fin 2) (toBay : Bool) (cyc : Nat) (s : State) (hs : Kept a0 s) :
    KeptR a0 (execTransomWindowBeat bay cport toBay cyc s) := by
  unfold execTransomWindowBeat
  repeat' first
    | assumption | intro _ | with_reducible apply kept_markPlan | with_reducible apply kept_moveBeats
    | with_reducible apply KeptR.ite | with_reducible apply KeptR.next | with_reducible apply Kept.ite
    | fail_if_no_progress with_reducible apply Kept.upd | split | dsimp only

theorem kept_execBetweenFrameHubTransfer {a0 : State} (bay : Fin 20) (s : State) (hs : Kept a0 s) :
    KeptR a0 (execBetweenFrameHubTransfer bay s) := by
  unfold execBetweenFrameHubTransfer
  repeat' first
    | assumption | intro _ | with_reducible apply kept_onBay | with_reducible apply kept_bondWork
    | with_reducible apply kept_moveBeats | with_reducible apply KeptR.ite | with_reducible apply KeptR.next

/-! ### Regions -/

theorem kept_adoptShards {a0 : State} (p : Nat) (tier : Nat) (region : Nat) (s : State) (hs : Kept a0 s) :
    Kept a0 (adoptShards p tier region s) := by
  unfold adoptShards
  repeat' first
    | assumption | intro _ | with_reducible apply Kept.ite | with_reducible apply Kept.foldl
    | fail_if_no_progress with_reducible apply Kept.upd | split

theorem kept_dropRegion {a0 : State} (fn : Nat) (tier : Nat) (region : Nat) (s : State) (hs : Kept a0 s) :
    Kept a0 (dropRegion fn tier region s) := by
  unfold dropRegion
  repeat' first
    | assumption | intro _ | fail_if_no_progress with_reducible apply Kept.upd

theorem kept_lostRegion {a0 : State} (fn : Nat) (tier : Nat) (region : Nat) (s : State) (hs : Kept a0 s) :
    Kept a0 (lostRegion fn tier region s) := by
  unfold lostRegion
  repeat' first
    | assumption | intro _ | with_reducible apply kept_snapFail | with_reducible apply Kept.ite

theorem kept_execRegionWithdraw {a0 : State} (r : Req) (tier : Nat) (region : Nat) (s : State) (hs : Kept a0 s) :
    KeptR a0 (execRegionWithdraw r tier region s) := by
  unfold execRegionWithdraw
  repeat' first
    | assumption | intro _ | with_reducible apply kept_dropRegion | with_reducible apply kept_lostRegion
    | with_reducible apply kept_done | with_reducible apply kept_fail | with_reducible apply kept_onReq
    | with_reducible apply KeptR.ite | with_reducible apply KeptR.next | with_reducible apply Kept.ite

theorem kept_portReset {a0 : State} (p : Nat) (s : State) (hs : Kept a0 s) :
    Kept a0 (portReset p s) := by
  exact Kept.upd (Kept.foldl (Kept.foldl hs fun s x h => kept_stopRings _ _ _ h) fun s x h => kept_lostRegion _ _ _ _ h)

theorem kept_execPortReset {a0 : State} (port : Port) (cause : PortResetCause) (s : State) (hs : Kept a0 s) :
    KeptR a0 (execPortReset port cause s) := by
  cases cause <;> exact .next (kept_portReset _ _ hs)

/-! ### Streams -/

theorem kept_closeStream {a0 : State} (y : Stream) (s : State) (hs : Kept a0 s) :
    Kept a0 (closeStream y s) := by
  unfold closeStream
  repeat' first
    | assumption | intro _ | fail_if_no_progress with_reducible apply Kept.upd

theorem kept_dropCells {a0 : State} (y : Stream) (m : Cell) (s : State) (hs : Kept a0 s) :
    Kept a0 (dropCells y m s) := by
  unfold dropCells
  repeat' first
    | assumption | intro _ | with_reducible apply kept_regAdd

theorem kept_unopen {a0 : State} (y : Stream) (s : State) (hs : Kept a0 s) :
    Kept a0 (unopen y s) := by
  unfold unopen
  repeat' first
    | assumption | intro _ | with_reducible apply kept_setSessTile | with_reducible apply Kept.ite
    | fail_if_no_progress with_reducible apply Kept.upd | split

theorem kept_abortStream {a0 : State} (y : Stream) (reason : Nat) (tell : Bool) (s : State) (hs : Kept a0 s) :
    Kept a0 (abortStream y reason tell s) := by
  unfold abortStream
  repeat' first
    | assumption | intro _ | with_reducible apply kept_raiseErr | with_reducible apply kept_onStream
    | with_reducible apply kept_sendMsg | with_reducible apply kept_regAdd | with_reducible apply kept_unopen
    | with_reducible apply Kept.ite

theorem kept_movedPushes {a0 : State} (sk : Nat) (s : State) (hs : Kept a0 s) :
    Kept a0 (movedPushes sk s) := by
  unfold movedPushes
  repeat' first
    | assumption | intro _ | with_reducible apply kept_abortStream | with_reducible apply Kept.foldl

theorem kept_streamTile {a0 : State} (key : Nat) (i : Nat) (bs : List Byte) (s : State) (hs : Kept a0 s) :
    Kept a0 (streamTile key i bs s) := by
  unfold streamTile
  repeat' first
    | assumption | intro _ | with_reducible apply kept_onBay | with_reducible apply kept_noteLanded
    | with_reducible apply kept_cowKeep | with_reducible apply kept_onTile | with_reducible apply kept_layPart
    | with_reducible apply Kept.ite | fail_if_no_progress with_reducible apply Kept.upd | split

theorem kept_takeTile {a0 : State} (y : Stream) (key : Nat) (kd : Nat) (m : Cell) (s : State) (hs : Kept a0 s) :
    Kept a0 (takeTile y key kd m s) := by
  unfold takeTile
  repeat' first
    | assumption | intro _ | with_reducible apply kept_abortStream | with_reducible apply kept_streamTile
    | with_reducible apply kept_countRefusal | fail_if_no_progress with_reducible apply Kept.upd | split

theorem kept_tailPushed {a0 : State} (y : Stream) (x : Session) (s : State) (hs : Kept a0 s) :
    Kept a0 (tailPushed y x s) := by
  unfold tailPushed
  repeat' first
    | assumption | intro _ | with_reducible apply kept_onTile | with_reducible apply Kept.ite
    | with_reducible apply Kept.foldl | fail_if_no_progress with_reducible apply Kept.upd | split

theorem kept_openPush {a0 : State} (y : Stream) (s : State) (hs : Kept a0 s) :
    Kept a0 (openPush y s) := by
  unfold openPush
  repeat' first
    | assumption | intro _ | with_reducible apply kept_onStream | with_reducible apply kept_writeTags
    | with_reducible apply kept_tailPushed | with_reducible apply kept_setSessTile
    | fail_if_no_progress with_reducible apply Kept.upd | split | dsimp only

theorem kept_openPushes {a0 : State} (s : State) (hs : Kept a0 s) :
    Kept a0 (openPushes s) := by
  unfold openPushes
  repeat' first
    | assumption | intro _ | with_reducible apply kept_openPush | with_reducible apply Kept.foldl

theorem kept_execPushOpen {a0 : State} (cport : Fin 4) (s : State) (hs : Kept a0 s) :
    KeptR a0 (execPushOpen cport s) := by
  unfold execPushOpen
  repeat' first
    | assumption | intro _ | with_reducible apply kept_takeMsg | refine KeptP.get (kept_takeMsg _ _ _ ?_) (by assumption)
    | with_reducible apply kept_searchNow | with_reducible apply kept_countSearch | with_reducible apply kept_sendMsg
    | with_reducible apply kept_regAdd | with_reducible apply kept_openPushes | with_reducible exact KeptP.none
    | with_reducible apply KeptR.ite | with_reducible apply KeptP.ite | with_reducible apply KeptR.next
    | with_reducible apply KeptP.some | with_reducible apply KeptP.some2 | with_reducible apply Kept.ite
    | fail_if_no_progress with_reducible apply Kept.upd | split | dsimp only

theorem kept_strayCells {a0 : State} (cport : Nat) (m : Cell) (s : State) (hs : Kept a0 s) :
    Kept a0 (strayCells cport m s) := by
  unfold strayCells
  repeat' first
    | assumption | intro _ | with_reducible apply kept_regAdd

theorem kept_touchStream {a0 : State} (y : Stream) (s : State) (hs : Kept a0 s) :
    Kept a0 (touchStream y s).2 := by
  unfold touchStream
  repeat' first
    | assumption | intro _ | with_reducible apply kept_onStream

theorem kept_execPushData {a0 : State} (cport : Fin 4) (s : State) (hs : Kept a0 s) :
    KeptR a0 (execPushData cport s) := by
  unfold execPushData
  repeat' first
    | assumption | intro _ | with_reducible apply kept_takeMsg | refine KeptP.get (kept_takeMsg _ _ _ ?_) (by assumption)
    | with_reducible apply kept_dropCells | with_reducible apply kept_abortStream | with_reducible apply kept_takeTile
    | with_reducible apply kept_strayCells | with_reducible apply kept_touchStream
    | refine Kept.get (kept_touchStream _ _ ?_) (by assumption) | with_reducible exact KeptP.none
    | with_reducible apply KeptR.ite | with_reducible apply KeptP.ite | with_reducible apply KeptR.next
    | with_reducible apply KeptP.some | with_reducible apply KeptP.some2 | with_reducible apply Kept.ite
    | fail_if_no_progress with_reducible apply Kept.upd | split

theorem kept_execPushEnd {a0 : State} (cport : Fin 4) (s : State) (hs : Kept a0 s) :
    KeptR a0 (execPushEnd cport s) := by
  unfold execPushEnd
  repeat' first
    | assumption | intro _ | with_reducible apply kept_takeMsg | refine KeptP.get (kept_takeMsg _ _ _ ?_) (by assumption)
    | with_reducible apply kept_regAdd | with_reducible apply kept_applyCharge | with_reducible apply kept_closeStream
    | with_reducible apply kept_dropCells | with_reducible apply kept_abortStream | with_reducible apply kept_strayCells
    | with_reducible exact KeptP.none | with_reducible apply KeptR.ite | with_reducible apply KeptP.ite
    | with_reducible apply KeptR.next | with_reducible apply KeptP.some | with_reducible apply KeptP.some2
    | with_reducible apply Kept.ite | fail_if_no_progress with_reducible apply Kept.upd | split

theorem kept_execPushAbort {a0 : State} (cport : Fin 4) (s : State) (hs : Kept a0 s) :
    KeptR a0 (execPushAbort cport s) := by
  unfold execPushAbort
  repeat' first
    | assumption | intro _ | with_reducible apply kept_takeMsg | refine KeptP.get (kept_takeMsg _ _ _ ?_) (by assumption)
    | with_reducible apply kept_closeStream | with_reducible apply kept_dropCells | with_reducible apply kept_abortStream
    | with_reducible apply kept_strayCells | with_reducible exact KeptP.none | with_reducible apply KeptR.ite
    | with_reducible apply KeptP.ite | with_reducible apply KeptR.next | with_reducible apply KeptP.some
    | with_reducible apply KeptP.some2 | with_reducible apply Kept.ite | fail_if_no_progress with_reducible apply Kept.upd
    | split

theorem kept_freeBatchSlot {a0 : State} (n : Nat) (slot : Nat) (s : State) (hs : Kept a0 s) :
    Kept a0 (freeBatchSlot n slot s) := by
  unfold freeBatchSlot
  repeat' first
    | assumption | intro _ | with_reducible apply kept_onPav | with_reducible apply kept_fillPav

theorem kept_freeSlotOf {a0 : State} (x : Session) (s : State) (hs : Kept a0 s) :
    Kept a0 (freeSlotOf x s) := by
  unfold freeSlotOf
  repeat' first
    | assumption | intro _ | with_reducible apply kept_freeBatchSlot | fail_if_no_progress with_reducible apply Kept.upd
    | split

theorem kept_dropSession {a0 : State} (sk : Nat) (x : Session) (id : Option ReqId) (s : State) (hs : Kept a0 s) :
    Kept a0 (dropSession sk x id s) := by
  unfold dropSession
  repeat' first
    | assumption | intro _ | with_reducible apply kept_dirDropSession | with_reducible apply kept_freeSlotOf
    | with_reducible apply kept_closeObject | fail_if_no_progress with_reducible apply Kept.upd

theorem kept_handFail {a0 : State} (key : Nat) (id : ReqId) (detail : Nat) (status : Option Nat) (info : Nat) (s : State) (hs : Kept a0 s) :
    Kept a0 (handFail key id detail status info s) := by
  unfold handFail
  repeat' first
    | assumption | intro _ | with_reducible apply kept_complete | with_reducible apply kept_endJob

theorem kept_handOver {a0 : State} (key : Nat) (id : ReqId) (detail : Nat) (status : Option Nat) (s : State) (hs : Kept a0 s) :
    Kept a0 (handOver key id detail status s) := by
  unfold handOver
  repeat' first
    | assumption | intro _ | with_reducible apply kept_complete | with_reducible apply kept_dropSession
    | with_reducible apply kept_endJob | fail_if_no_progress with_reducible apply Kept.upd | split

theorem kept_execHandAccept {a0 : State} (cport : Fin 4) (s : State) (hs : Kept a0 s) :
    KeptR a0 (execHandAccept cport s) := by
  unfold execHandAccept
  repeat' first
    | assumption | intro _ | with_reducible apply kept_takeMsg | refine KeptP.get (kept_takeMsg _ _ _ ?_) (by assumption)
    | with_reducible apply kept_dirSetSession | with_reducible apply kept_onSess | with_reducible apply kept_movedPushes
    | with_reducible exact KeptP.none | with_reducible apply KeptR.next | with_reducible apply KeptP.some
    | with_reducible apply KeptP.some2 | fail_if_no_progress with_reducible apply Kept.upd | split

theorem kept_execHandRefuse {a0 : State} (cport : Fin 4) (s : State) (hs : Kept a0 s) :
    KeptR a0 (execHandRefuse cport s) := by
  unfold execHandRefuse
  repeat' first
    | assumption | intro _ | with_reducible apply kept_takeMsg | refine KeptP.get (kept_takeMsg _ _ _ ?_) (by assumption)
    | with_reducible apply kept_handFail | with_reducible exact KeptP.none | with_reducible apply KeptR.ite
    | with_reducible apply KeptP.ite | with_reducible apply KeptR.next | with_reducible apply KeptP.some
    | with_reducible apply KeptP.some2 | with_reducible apply Kept.ite | fail_if_no_progress with_reducible apply Kept.upd
    | split

theorem kept_execHandDone {a0 : State} (cport : Fin 4) (s : State) (hs : Kept a0 s) :
    KeptR a0 (execHandDone cport s) := by
  unfold execHandDone
  repeat' first
    | assumption | intro _ | with_reducible apply kept_takeMsg | refine KeptP.get (kept_takeMsg _ _ _ ?_) (by assumption)
    | with_reducible exact KeptP.none | with_reducible apply KeptR.next | with_reducible apply KeptP.some
    | with_reducible apply KeptP.some2 | fail_if_no_progress with_reducible apply Kept.upd | split

theorem kept_handCut {a0 : State} (key : Nat) (j : Job) (s : State) (hs : Kept a0 s) :
    Kept a0 (handCut key j s) := by
  unfold handCut
  repeat' first
    | assumption | intro _ | with_reducible apply kept_handFail | with_reducible apply kept_handOver
    | fail_if_no_progress with_reducible apply Kept.upd | split

theorem kept_execHandAbort {a0 : State} (cport : Fin 4) (s : State) (hs : Kept a0 s) :
    KeptR a0 (execHandAbort cport s) := by
  unfold execHandAbort
  repeat' first
    | assumption | intro _ | with_reducible apply kept_takeMsg | refine KeptP.get (kept_takeMsg _ _ _ ?_) (by assumption)
    | with_reducible apply kept_abortStream | with_reducible apply kept_handCut | with_reducible exact KeptP.none
    | with_reducible apply KeptR.next | with_reducible apply KeptP.some | with_reducible apply KeptP.some2
    | fail_if_no_progress with_reducible apply Kept.upd | split

theorem kept_handTake {a0 : State} (cport : Nat) (m : Cell) (s : State) (hs : Kept a0 s) :
    Kept a0 (handTake cport m s) := by
  unfold handTake
  repeat' first
    | assumption | intro _ | with_reducible apply kept_drew | with_reducible apply kept_dirWrite
    | with_reducible apply kept_onPav | with_reducible apply kept_bankTenant
    | fail_if_no_progress with_reducible apply Kept.upd | split | dsimp only

theorem kept_execHandOffer {a0 : State} (cport : Fin 4) (tables : Bool) (s : State) (hs : Kept a0 s) :
    KeptR a0 (execHandOffer cport tables s) := by
  unfold execHandOffer
  repeat' first
    | assumption | intro _ | with_reducible apply kept_takeMsg | refine KeptP.get (kept_takeMsg _ _ _ ?_) (by assumption)
    | with_reducible apply kept_sendMsg | with_reducible apply kept_regAdd | with_reducible apply kept_handTake
    | with_reducible exact KeptP.none | with_reducible apply KeptR.next | with_reducible apply KeptP.some
    | with_reducible apply KeptP.some2 | fail_if_no_progress with_reducible apply Kept.upd | split

theorem kept_execHandData {a0 : State} (cport : Fin 4) (s : State) (hs : Kept a0 s) :
    KeptR a0 (execHandData cport s) := by
  unfold execHandData
  repeat' first
    | assumption | intro _ | with_reducible apply kept_takeMsg | refine KeptP.get (kept_takeMsg _ _ _ ?_) (by assumption)
    | with_reducible apply kept_dropCells | with_reducible apply kept_takeTile | with_reducible apply kept_strayCells
    | with_reducible apply kept_touchStream | refine Kept.get (kept_touchStream _ _ ?_) (by assumption)
    | with_reducible exact KeptP.none | with_reducible apply KeptR.ite | with_reducible apply KeptP.ite
    | with_reducible apply KeptR.next | with_reducible apply KeptP.some | with_reducible apply KeptP.some2
    | with_reducible apply Kept.ite | fail_if_no_progress with_reducible apply Kept.upd | split

theorem kept_execHandEnd {a0 : State} (cport : Fin 4) (s : State) (hs : Kept a0 s) :
    KeptR a0 (execHandEnd cport s) := by
  unfold execHandEnd
  repeat' first
    | assumption | intro _ | with_reducible apply kept_takeMsg | refine KeptP.get (kept_takeMsg _ _ _ ?_) (by assumption)
    | with_reducible apply kept_onStream | with_reducible apply kept_strayCells | with_reducible exact KeptP.none
    | with_reducible apply KeptR.next | with_reducible apply KeptP.some | with_reducible apply KeptP.some2
    | fail_if_no_progress with_reducible apply Kept.upd | split

theorem kept_execStreamIdleTimeout {a0 : State} (cport : Fin 4) (tag : Nat) (s : State) (hs : Kept a0 s) :
    KeptR a0 (execStreamIdleTimeout cport tag s) := by
  unfold execStreamIdleTimeout
  repeat' first
    | assumption | intro _ | with_reducible apply kept_closeStream | with_reducible apply kept_abortStream
    | with_reducible apply kept_handCut | with_reducible apply KeptR.ite | with_reducible apply KeptR.next
    | with_reducible apply Kept.ite | fail_if_no_progress with_reducible apply Kept.upd | split

theorem kept_poolLost {a0 : State} (w : PoolWait) (s : State) (hs : Kept a0 s) :
    Kept a0 (poolLost w s) := by
  unfold poolLost
  repeat' first
    | assumption | intro _ | with_reducible apply kept_snapFail | with_reducible apply kept_failTransfer
    | with_reducible apply kept_settle | fail_if_no_progress with_reducible apply Kept.upd | split

theorem kept_endPool {a0 : State} (x : PoolTx) (s : State) (hs : Kept a0 s) :
    Kept a0 (endPool x s) := by
  unfold endPool
  repeat' first
    | assumption | intro _ | with_reducible apply kept_poolOpen | refine KeptO.get (kept_poolOpen _ _ ?_) (by assumption)
    | with_reducible apply kept_poolLost | with_reducible apply KeptO.getD
    | fail_if_no_progress with_reducible apply Kept.upd | split | dsimp only

theorem kept_resendPool {a0 : State} (x : PoolTx) (t : Tile) (y : Stored) (s : State) (hs : Kept a0 s) :
    Kept a0 (resendPool x t y s) := by
  unfold resendPool
  repeat' first
    | assumption | intro _ | with_reducible apply kept_onTile | with_reducible apply kept_poolSend
    | refine KeptO.get (kept_poolSend _ _ _ _ _ _ _ ?_) (by assumption) | with_reducible apply kept_regAdd
    | with_reducible apply kept_failTransfer | with_reducible apply kept_settle | with_reducible apply KeptO.getD

theorem kept_failPool {a0 : State} (x : PoolTx) (s : State) (hs : Kept a0 s) :
    Kept a0 (failPool x s) := by
  unfold failPool
  repeat' first
    | assumption | intro _ | with_reducible apply kept_regAdd | with_reducible apply kept_snapMiss
    | with_reducible apply kept_endPool | with_reducible apply kept_resendPool | with_reducible apply kept_failTransfer
    | with_reducible apply kept_settle | with_reducible apply Kept.ite | fail_if_no_progress with_reducible apply Kept.upd
    | split | dsimp only

theorem kept_execPoolWriteAck {a0 : State} (cport : Fin 4) (s : State) (hs : Kept a0 s) :
    KeptR a0 (execPoolWriteAck cport s) := by
  unfold execPoolWriteAck
  repeat' first
    | assumption | intro _ | with_reducible apply kept_takeMsg | refine KeptP.get (kept_takeMsg _ _ _ ?_) (by assumption)
    | with_reducible apply kept_snapAck | with_reducible apply kept_endPool | with_reducible apply kept_ackWrite
    | with_reducible exact KeptP.none | with_reducible apply KeptR.ite | with_reducible apply KeptP.ite
    | with_reducible apply KeptR.next | with_reducible apply KeptP.some | with_reducible apply KeptP.some2
    | with_reducible apply Kept.ite | fail_if_no_progress with_reducible apply Kept.upd | split

theorem kept_execPoolReadData {a0 : State} (cport : Fin 4) (s : State) (hs : Kept a0 s) :
    KeptR a0 (execPoolReadData cport s) := by
  unfold execPoolReadData
  repeat' first
    | assumption | intro _ | with_reducible apply kept_takeMsg | refine KeptP.get (kept_takeMsg _ _ _ ?_) (by assumption)
    | with_reducible apply kept_endPool | with_reducible apply kept_failPool | with_reducible apply kept_failTransfer
    | with_reducible apply kept_fetchOut | with_reducible apply kept_countRefusal | with_reducible apply kept_settle
    | with_reducible exact KeptP.none | with_reducible apply KeptR.ite | with_reducible apply KeptP.ite
    | with_reducible apply KeptP.map | with_reducible apply KeptR.next | with_reducible apply KeptP.some
    | with_reducible apply KeptP.some2 | with_reducible apply Kept.ite | fail_if_no_progress with_reducible apply Kept.upd
    | split

theorem kept_execPoolError {a0 : State} (cport : Fin 4) (s : State) (hs : Kept a0 s) :
    KeptR a0 (execPoolError cport s) := by
  unfold execPoolError
  repeat' first
    | assumption | intro _ | with_reducible apply kept_takeMsg | refine KeptP.get (kept_takeMsg _ _ _ ?_) (by assumption)
    | with_reducible apply kept_failPool | with_reducible exact KeptP.none | with_reducible apply KeptR.next
    | with_reducible apply KeptP.some | with_reducible apply KeptP.some2 | fail_if_no_progress with_reducible apply Kept.upd
    | split

theorem kept_execPoolTimeout {a0 : State} (tag : Nat) (s : State) (hs : Kept a0 s) :
    KeptR a0 (execPoolTimeout tag s) := by
  unfold execPoolTimeout
  repeat' first
    | assumption | intro _ | with_reducible apply kept_failPool | with_reducible apply KeptR.next
    | fail_if_no_progress with_reducible apply Kept.upd | split

/-! ### TierRows -/

theorem kept_dirSetDone {a0 : State} (sk : Nat) (f : DirRec → DirRec) (id : ReqId) (s : State) (hs : Kept a0 s) :
    Kept a0 (dirSetDone sk f id s) := by
  unfold dirSetDone
  repeat' first
    | assumption | intro _ | with_reducible apply kept_dirSetSession | with_reducible apply kept_done
    | with_reducible apply Kept.ite

theorem kept_startPark {a0 : State} (id : ReqId) (key : Nat) (x : Session) (target : Nat) (region : Nat) (codec : Nat) (keep : Bool) (s : State) (hs : Kept a0 s) :
    Kept a0 (startPark id key x target region codec keep s) := by
  unfold startPark
  repeat' first
    | assumption | intro _ | with_reducible apply kept_complete | with_reducible apply kept_movedPushes
    | with_reducible apply kept_orderWrites | refine KeptO.get (kept_orderWrites _ _ _ _ _ _ ?_) (by assumption)
    | fail_if_no_progress with_reducible apply Kept.upd | split | dsimp only

theorem kept_execPark {a0 : State} (r : Req) (target : Nat) (keep : Bool) (checkGen : Bool) (expectGen : Nat) (region : Nat) (codec : Nat) (s : State) (hs : Kept a0 s) :
    KeptR a0 (execPark r target keep checkGen expectGen region codec s) := by
  unfold execPark
  repeat' first
    | assumption | intro _ | with_reducible apply kept_withSession | with_reducible apply kept_orderGate
    | with_reducible apply kept_stale | with_reducible apply kept_fail | with_reducible apply kept_onReq
    | with_reducible apply kept_startPark | with_reducible apply KeptR.ite | with_reducible apply KeptR.next
    | with_reducible apply Kept.ite

theorem kept_parkDone {a0 : State} (id : ReqId) (sk : Nat) (obj : Nat) (x : Session) (target : Nat) (region : Nat) (keep : Bool) (repark : Bool) (s : State) (hs : Kept a0 s) :
    Kept a0 (parkDone id sk obj x target region keep repark s) := by
  unfold parkDone
  repeat' first
    | assumption | intro _ | with_reducible apply kept_onSess | with_reducible apply kept_done
    | with_reducible apply kept_freeSlotOf | with_reducible apply kept_dirSetDone | with_reducible apply kept_releaseAll
    | with_reducible apply kept_endJob | with_reducible apply Kept.ite

theorem kept_execParkRelease {a0 : State} (f : Fn) (session : DWord) (s : State) (hs : Kept a0 s) :
    KeptR a0 (execParkRelease f session s) := by
  unfold execParkRelease
  repeat' first
    | assumption | intro _ | with_reducible apply kept_complete | with_reducible apply kept_parkDone
    | with_reducible apply kept_orderWrites | refine KeptO.get (kept_orderWrites _ _ _ _ _ _ ?_) (by assumption)
    | with_reducible apply kept_endJob | with_reducible apply KeptR.ite | with_reducible apply KeptR.next
    | with_reducible apply Kept.ite | fail_if_no_progress with_reducible apply Kept.upd | split | dsimp only

theorem kept_execReviveComplete {a0 : State} (f : Fn) (session : DWord) (s : State) (hs : Kept a0 s) :
    KeptR a0 (execReviveComplete f session s) := by
  unfold execReviveComplete
  repeat' first
    | assumption | intro _ | with_reducible apply kept_onSess | with_reducible apply kept_complete
    | with_reducible apply kept_done | with_reducible apply kept_endJob | with_reducible apply KeptR.ite
    | with_reducible apply KeptR.next | with_reducible apply Kept.ite | fail_if_no_progress with_reducible apply Kept.upd
    | split | dsimp only

theorem kept_moveEmpty {a0 : State} (obj : Nat) (s : State) (hs : Kept a0 s) :
    Kept a0 (moveEmpty obj s) := by
  unfold moveEmpty
  repeat' first
    | assumption | intro _ | with_reducible apply kept_onTile | with_reducible apply Kept.ite
    | with_reducible apply Kept.foldl | fail_if_no_progress with_reducible apply Kept.upd | split

theorem kept_startMigrate {a0 : State} (id : ReqId) (key : Nat) (x : Session) (n : Nat) (kind : Nat) (fence : Nat) (s : State) (hs : Kept a0 s) :
    Kept a0 (startMigrate id key x n kind fence s) := by
  unfold startMigrate
  repeat' first
    | assumption | intro _ | with_reducible apply kept_drew | with_reducible apply kept_dirSetSession
    | with_reducible apply kept_onSess | with_reducible apply kept_complete | with_reducible apply kept_onPav
    | with_reducible apply kept_bankTenant | with_reducible apply kept_movedPushes | with_reducible apply kept_moveEmpty
    | fail_if_no_progress with_reducible apply Kept.upd | split

theorem kept_startHandOver {a0 : State} (id : ReqId) (key : Nat) (x : Session) (cport : Nat) (node : Nat) (fence : Nat) (s : State) (hs : Kept a0 s) :
    Kept a0 (startHandOver id key x cport node fence s) := by
  unfold startHandOver
  repeat' first
    | assumption | intro _ | with_reducible apply kept_sendMsg | fail_if_no_progress with_reducible apply Kept.upd

theorem kept_execMigrate {a0 : State} (r : Req) (dest : Nat) (checkGen : Bool) (expectGen : Nat) (pavilion : Nat) (celayPort : Nat) (kind : Nat) (peerNode : Nat) (fenceUs : Nat) (s : State) (hs : Kept a0 s) :
    KeptR a0 (execMigrate r dest checkGen expectGen pavilion celayPort kind peerNode fenceUs s) := by
  unfold execMigrate
  repeat' first
    | assumption | intro _ | with_reducible apply kept_withSession | with_reducible apply kept_orderGate
    | with_reducible apply kept_stale | with_reducible apply kept_complete | with_reducible apply kept_fail
    | with_reducible apply kept_onReq | with_reducible apply kept_startMigrate | with_reducible apply kept_startHandOver
    | with_reducible apply KeptR.ite | with_reducible apply KeptR.next | with_reducible apply Kept.ite
    | fail_if_no_progress with_reducible apply Kept.upd | split

theorem kept_fetchRest {a0 : State} (sk : Nat) (obj : Nat) (n : Nat) (slot : Nat) (x : Session) (s : State) (hs : Kept a0 s) :
    Kept a0 (fetchRest sk obj n slot x s) := by
  unfold fetchRest
  repeat' first
    | assumption | intro _ | with_reducible apply kept_onSess | with_reducible apply kept_orderFetch
    | with_reducible apply Kept.ite | with_reducible apply Kept.foldl | fail_if_no_progress with_reducible apply Kept.upd

theorem kept_migrateParked {a0 : State} (sk : Nat) (obj : Nat) (n : Nat) (slot : Nat) (kind : Nat) (s : State) (hs : Kept a0 s) :
    Kept a0 (migrateParked sk obj n slot kind s) := by
  unfold migrateParked
  repeat' first
    | assumption | intro _ | with_reducible apply kept_onSess | with_reducible apply kept_freeBatchSlot
    | with_reducible apply kept_endJob

theorem kept_migrateDone {a0 : State} (sk : Nat) (obj : Nat) (n : Nat) (slot : Nat) (old : Nat) (oldSlot : Nat) (kind : Nat) (x : Session) (s : State) (hs : Kept a0 s) :
    Kept a0 (migrateDone sk obj n slot old oldSlot kind x s) := by
  unfold migrateDone
  repeat' first
    | assumption | intro _ | with_reducible apply kept_onSess | with_reducible apply kept_onPav
    | with_reducible apply kept_freeBatchSlot | with_reducible apply kept_fetchRest | with_reducible apply kept_endJob

theorem kept_execMigrationDrained {a0 : State} (f : Fn) (session : DWord) (s : State) (hs : Kept a0 s) :
    KeptR a0 (execMigrationDrained f session s) := by
  unfold execMigrationDrained
  repeat' first
    | assumption | intro _ | with_reducible apply kept_handOver | with_reducible apply kept_dirSetDone
    | with_reducible apply kept_migrateParked | with_reducible apply kept_migrateDone | with_reducible apply KeptR.ite
    | with_reducible apply KeptR.next | with_reducible apply Kept.ite | fail_if_no_progress with_reducible apply Kept.upd
    | split | dsimp only

theorem kept_execMigrationFenceTimeout {a0 : State} (f : Fn) (session : DWord) (s : State) (hs : Kept a0 s) :
    KeptR a0 (execMigrationFenceTimeout f session s) := by
  unfold execMigrationFenceTimeout
  repeat' first
    | assumption | intro _ | with_reducible apply kept_dirSetSession | with_reducible apply kept_complete
    | with_reducible apply kept_handOver | with_reducible apply kept_migrateParked | with_reducible apply kept_migrateDone
    | with_reducible apply KeptR.ite | with_reducible apply KeptR.next | with_reducible apply Kept.ite
    | fail_if_no_progress with_reducible apply Kept.upd | split | dsimp only

theorem kept_execShutterSend {a0 : State} (engine : Fin 33) (obj : ObjRef) (tile : Nat) (s : State) (hs : Kept a0 s) :
    KeptR a0 (execShutterSend engine obj tile s) := by
  unfold execShutterSend
  dsimp only
  split
  · refine KeptR.ite (fun _ => .next hs) fun _ => ?_
    split
    · exact .next (kept_failTransfer _ _ _ _ (.ite (fun _ => kept_countRefusal _ _ (kept_noteEngine _ _ _ _ _ _ _ _ _ _ _ _ hs)) fun _ => kept_noteEngine _ _ _ _ _ _ _ _ _ _ _ _ hs))
    · rename_i e
      have h := KeptP.get (KeptP.bind fun f _ => kept_reform _ _ _ _ _ (kept_noteEngine _ _ _ _ _ _ _ _ _ _ _ _ hs)) e
      refine .next (Kept.ite (fun _ => kept_sendMsg _ _ _ _ _ _ _ _ ?_) fun _ => ?_) <;>
      exact kept_tierBytes _ _ _ _ _ (kept_sendMsg _ _ _ _ _ _ _ _ (kept_bumpCounter _ _ (kept_onTile _ _ _ _ h)))
  · exact .next hs

theorem kept_copyUpper {a0 : State} (key : Nat) (tier : Nat) (addr : Nat) (keep : Bool) (i : Nat) (s : State) (hs : Kept a0 s) :
    Kept a0 (copyUpper key tier addr keep i s) := by
  unfold copyUpper
  repeat' first
    | assumption | intro _ | with_reducible apply kept_snapKeep | with_reducible apply kept_onTile
    | with_reducible apply kept_releaseLower | with_reducible apply kept_failTransfer | with_reducible apply kept_landTile
    | with_reducible apply Kept.ite | fail_if_no_progress with_reducible apply Kept.upd | split

theorem kept_placeUpper {a0 : State} (key : Nat) (tier : Nat) (addr : Nat) (keep : Bool) (i : Nat) (s : State) (hs : Kept a0 s) :
    Kept a0 (placeUpper key tier addr keep i s) := by
  unfold placeUpper
  repeat' first
    | assumption | intro _ | with_reducible apply kept_onTile | with_reducible apply kept_copyUpper
    | with_reducible apply kept_orderFetch | with_reducible apply Kept.ite
    | fail_if_no_progress with_reducible apply Kept.upd | split | dsimp only

theorem kept_placeFar {a0 : State} (key : Nat) (keep : Bool) (z0 : List Nat) (z1 : State) (hs : Kept a0 z1) :
    KeptO a0 (placeFar key keep z0 z1) := by
  induction z0 generalizing z1 with
  | nil =>
    unfold placeFar
    repeat' first
      | assumption | intro _ | with_reducible apply kept_farAlloc | refine KeptP.get (kept_farAlloc _ ?_) (by assumption)
      | with_reducible apply kept_placeUpper | with_reducible exact KeptO.none | with_reducible exact KeptP.none
      | with_reducible apply KeptO.some
  | cons x l ih =>
    unfold placeFar
    repeat' first
      | assumption | intro _ | with_reducible apply ih | with_reducible apply kept_farAlloc
      | refine KeptP.get (kept_farAlloc _ ?_) (by assumption) | with_reducible apply kept_placeUpper
      | with_reducible exact KeptO.none | with_reducible exact KeptP.none | with_reducible apply KeptO.some
      | with_reducible apply KeptP.some | with_reducible apply KeptP.some2
      | fail_if_no_progress with_reducible apply Kept.upd | split

theorem kept_placeIndex {a0 : State} (key : Nat) (o : Obj) (target : Nat) (keep : Bool) (nearBase : Nat) (cores : Nat) (s : State) (hs : Kept a0 s) :
    KeptO a0 (placeIndex key o target keep nearBase cores s) := by
  unfold placeIndex
  repeat' first
    | assumption | intro _ | with_reducible apply kept_placeUpper | with_reducible apply kept_placeFar
    | refine KeptO.get (kept_placeFar _ _ _ _ ?_) (by assumption) | with_reducible exact KeptO.none
    | with_reducible apply KeptO.ite | with_reducible apply KeptO.getD | with_reducible apply KeptO.map
    | with_reducible apply KeptO.some | with_reducible apply Kept.ite | with_reducible apply Kept.foldl
    | fail_if_no_progress with_reducible apply Kept.upd | split

theorem kept_execPlace {a0 : State} (r : Req) (object : DWord) (target : Nat) (keepLower : Bool) (region : Nat) (nearBase : Nat) (cores : Nat) (s : State) (hs : Kept a0 s) :
    KeptR a0 (execPlace r object target keepLower region nearBase cores s) := by
  unfold execPlace
  repeat' first
    | assumption | intro _ | with_reducible apply kept_objectGate | with_reducible apply kept_noteEpoch
    | with_reducible apply kept_complete | with_reducible apply kept_fail | with_reducible apply kept_badEntry
    | with_reducible apply kept_onReq | with_reducible apply kept_placeUpper | with_reducible apply kept_placeFar
    | refine KeptO.get (kept_placeFar _ _ _ _ ?_) (by assumption) | with_reducible apply kept_placeIndex
    | refine KeptO.get (kept_placeIndex _ _ _ _ _ _ _ ?_) (by assumption) | with_reducible apply kept_orderOwn
    | refine KeptO.get (kept_orderOwn _ _ _ _ _ ?_) (by assumption) | with_reducible apply kept_settle
    | with_reducible apply KeptR.ite | with_reducible apply KeptO.getD | with_reducible apply KeptO.map
    | with_reducible apply KeptR.next | with_reducible apply Kept.ite | with_reducible apply Kept.foldl
    | fail_if_no_progress with_reducible apply Kept.upd | split | dsimp only

theorem kept_execWriteBack {a0 : State} (r : Req) (object : DWord) (first : Nat) (count : Nat) (s : State) (hs : Kept a0 s) :
    KeptR a0 (execWriteBack r object first count s) := by
  refine .next (kept_onReq _ _ _ _ _ hs fun id s h => kept_objectGate _ _ _ _ _ _ h fun id s h => ?_)
  split
  · exact kept_fail _ _ _ h
  · refine Kept.ite (fun _ => kept_badEntry _ _ _ h) fun _ => Kept.ite (fun _ => kept_badEntry _ _ _ h) fun _ => ?_
    dsimp only
    split
    · exact kept_complete _ _ _ _ _ (kept_noteEpoch _ _ h)
    · rename_i e
      exact kept_settle _ _ (.upd (KeptO.get (KeptO.foldl (.some (kept_noteEpoch _ _ h)) fun o i ho =>
        KeptO.bind fun s e => kept_orderWrite _ _ _ _ _ _ (ho.get e)) e))

theorem kept_execRegionGrant {a0 : State} (r : Req) (tier : Nat) (region : Nat) (base : DWord) (granules : Nat) (poolNode : Nat) (s : State) (hs : Kept a0 s) :
    KeptR a0 (execRegionGrant r tier region base granules poolNode s) := by
  unfold execRegionGrant
  repeat' first
    | assumption | intro _ | with_reducible apply kept_adoptShards | with_reducible apply kept_dropRegion
    | with_reducible apply kept_lostRegion | with_reducible apply kept_done | with_reducible apply kept_fail
    | with_reducible apply kept_onReq | with_reducible apply KeptR.ite | with_reducible apply KeptR.next
    | with_reducible apply Kept.ite | fail_if_no_progress with_reducible apply Kept.upd

theorem kept_execMapRead {a0 : State} (r : Req) (object : DWord) (tile : Nat) (buf : DWord) (s : State) (hs : Kept a0 s) :
    KeptR a0 (execMapRead r object tile buf s) := by
  unfold execMapRead
  repeat' first
    | assumption | intro _ | with_reducible apply kept_done | with_reducible apply kept_fail
    | with_reducible apply kept_withOut | with_reducible apply kept_badEntry | with_reducible apply kept_onReq
    | with_reducible apply KeptR.ite | with_reducible apply KeptR.next | with_reducible apply Kept.ite
    | fail_if_no_progress with_reducible apply Kept.upd | split

theorem kept_execCloseSession {a0 : State} (r : Req) (checkGen : Bool) (expectGen : Nat) (s : State) (hs : Kept a0 s) :
    KeptR a0 (execCloseSession r checkGen expectGen s) := by
  unfold execCloseSession
  repeat' first
    | assumption | intro _ | with_reducible apply kept_withSession | with_reducible apply kept_orderGate
    | with_reducible apply kept_stale | with_reducible apply kept_onReq | with_reducible apply kept_movedPushes
    | with_reducible apply kept_dropSession | with_reducible apply KeptR.ite | with_reducible apply KeptR.next
    | with_reducible apply Kept.ite

theorem kept_spillWrites {a0 : State} (s : State) (obj : Nat) (hs : Kept a0 s) :
    KeptP a0 (spillWrites s obj) := by
  exact KeptP.findSome fun n => KeptP.pair (kept_orderWrites _ _ _ _ _ _ (kept_drew _ hs))

theorem kept_swapFail {a0 : State} (sk : Nat) (obj : Nat) (q : Queued) (s : State) (hs : Kept a0 s) :
    Kept a0 (swapFail sk obj q s) := by
  unfold swapFail
  repeat' first
    | assumption | intro _ | with_reducible apply kept_raiseErr | with_reducible apply kept_deferQueued
    | with_reducible apply kept_endJob

theorem kept_swapDone {a0 : State} (sk : Nat) (obj : Nat) (n : Nat) (slot : Nat) (x : Session) (q : Queued) (ran : Bool) (s : State) (hs : Kept a0 s) :
    Kept a0 (swapDone sk obj n slot x q ran s) := by
  unfold swapDone
  repeat' first
    | assumption | intro _ | with_reducible apply kept_dirSetSession | with_reducible apply kept_onSess
    | with_reducible apply kept_onPav | with_reducible apply kept_admitQueued | with_reducible apply kept_postStep
    | with_reducible apply kept_releaseAll | with_reducible apply kept_endJob | with_reducible apply Kept.ite
    | fail_if_no_progress with_reducible apply Kept.upd | split

theorem kept_execPreemptionSwap {a0 : State} (pav : Fin 80) (slot : Nat) (s : State) (hs : Kept a0 s) :
    KeptR a0 (execPreemptionSwap pav slot s) := by
  unfold execPreemptionSwap
  dsimp only
  split
  · exact .next hs
  · split
    · exact .next hs
    · split
      · refine KeptR.ite (fun _ => .next hs) fun _ => KeptR.ite (fun _ => ?_) fun _ => KeptR.ite (fun _ => .next hs) fun _ =>
          KeptR.ite (fun _ => .next (kept_swapFail _ _ _ _ hs)) fun _ =>
          .next (kept_swapDone _ _ _ _ _ _ _ _ hs)
        split
        · exact .next (kept_swapFail _ _ _ _ hs)
        · rename_i e
          exact .next (.upd ((kept_spillWrites _ _ hs).get e))
      · exact .next hs

theorem kept_execStreamLayerFetch {a0 : State} (pav : Fin 80) (slot : Nat) (layer : Nat) (s : State) (hs : Kept a0 s) :
    KeptR a0 (execStreamLayerFetch pav slot layer s) := by
  unfold execStreamLayerFetch
  repeat' first
    | assumption | intro _ | with_reducible apply kept_releaseUpper | with_reducible apply kept_orderFetch
    | with_reducible apply KeptR.ite | with_reducible apply KeptR.next | with_reducible apply Kept.ite
    | with_reducible apply Kept.foldl | fail_if_no_progress with_reducible apply Kept.upd | split | dsimp only

theorem kept_execTailUnitWriteBack {a0 : State} (pav : Fin 80) (slot : Nat) (layer : Nat) (group : Nat) (s : State) (hs : Kept a0 s) :
    KeptR a0 (execTailUnitWriteBack pav slot layer group s) := by
  unfold execTailUnitWriteBack
  repeat' first
    | assumption | intro _ | with_reducible apply kept_releaseUpper | with_reducible apply kept_orderWrites
    | refine KeptO.get (kept_orderWrites _ _ _ _ _ _ ?_) (by assumption) | with_reducible apply KeptO.getD
    | with_reducible apply KeptO.bind | with_reducible apply KeptO.map | with_reducible apply KeptR.next
    | with_reducible apply Kept.foldl | fail_if_no_progress with_reducible apply Kept.upd | split | dsimp only

/-! ### Recall -/

theorem kept_withIndex {a0 : State} (object : DWord) (cmd : Instr) (gate : Bool) (isNew : Bool) (body : ReqId → Nat → List Byte → State → State) (id : ReqId) (s : State) (hs : Kept a0 s) (h_body : ∀ y0 y1 y2 y3, Kept a0 y3 → Kept a0 (body y0 y1 y2 y3)) :
    Kept a0 (withIndex object cmd gate isNew body id s) := by
  unfold withIndex
  repeat' first
    | assumption | intro _ | with_reducible apply h_body | with_reducible apply kept_fail | with_reducible apply kept_holdReq
    | with_reducible apply Kept.ite | fail_if_no_progress with_reducible apply Kept.upd | split | dsimp only

theorem kept_badIndex {a0 : State} (id : ReqId) (s : State) (hs : Kept a0 s) :
    Kept a0 (badIndex id s) := by
  unfold badIndex
  repeat' first
    | assumption | intro _ | with_reducible apply kept_fail

theorem kept_itemBusy {a0 : State} (id : ReqId) (s : State) (hs : Kept a0 s) :
    Kept a0 (itemBusy id s) := by
  unfold itemBusy
  repeat' first
    | assumption | intro _ | with_reducible apply kept_fail

theorem kept_noItem {a0 : State} (id : ReqId) (s : State) (hs : Kept a0 s) :
    Kept a0 (noItem id s) := by
  unfold noItem
  repeat' first
    | assumption | intro _ | with_reducible apply kept_fail

theorem kept_notPlaced {a0 : State} (id : ReqId) (s : State) (hs : Kept a0 s) :
    Kept a0 (notPlaced id s) := by
  unfold notPlaced
  repeat' first
    | assumption | intro _ | with_reducible apply kept_complete

theorem kept_commitIndex {a0 : State} (key : Nat) (s : State) (hs : Kept a0 s) :
    Kept a0 (commitIndex key s) := by
  unfold commitIndex
  repeat' first
    | assumption | intro _ | with_reducible apply kept_markVisible | with_reducible apply kept_onIndex
    | with_reducible apply kept_writeTile | with_reducible apply kept_done | with_reducible apply Kept.foldl
    | fail_if_no_progress with_reducible apply Kept.upd | split

theorem kept_commitChange {a0 : State} (key : Nat) (h : List Byte) (id : ReqId) (marks : List (Nat × Bool)) (s : State) (hs : Kept a0 s) :
    Kept a0 (commitChange key h id marks s) := by
  unfold commitChange
  repeat' first
    | assumption | intro _ | with_reducible apply kept_onIndex | with_reducible apply kept_commitIndex
    | with_reducible apply kept_done | with_reducible apply Kept.ite

theorem kept_execRclCreate {a0 : State} (r : Req) (object : DWord) (buf : DWord) (mem : Dma) (s : State) (hs : Kept a0 s) :
    KeptR a0 (execRclCreate r object buf mem s) := by
  unfold execRclCreate
  repeat' first
    | assumption | intro _ | with_reducible apply kept_drew | with_reducible apply kept_withMem
    | with_reducible apply kept_tileWrite | with_reducible apply kept_badIndex | with_reducible apply kept_complete
    | with_reducible apply kept_done | with_reducible apply kept_fail | with_reducible apply kept_onReq
    | with_reducible apply kept_placeFar | refine KeptO.get (kept_placeFar _ _ _ _ ?_) (by assumption)
    | with_reducible apply KeptR.ite | with_reducible apply KeptO.getD | with_reducible apply KeptR.next
    | with_reducible apply Kept.ite | with_reducible apply Kept.foldl | fail_if_no_progress with_reducible apply Kept.upd
    | split | dsimp only

theorem kept_insertItem {a0 : State} (key : Nat) (h : List Byte) (e : Nat) (x : InsEntry) (s : State) (hs : Kept a0 s) :
    Kept a0 (insertItem key h e x s) := by
  unfold insertItem
  repeat' first
    | assumption | intro _ | with_reducible apply kept_tileWrite | with_reducible apply kept_recWrite
    | with_reducible apply kept_writeBlocks | with_reducible apply kept_writeTile | with_reducible apply Kept.ite
    | fail_if_no_progress with_reducible apply Kept.upd | split | dsimp only

theorem kept_execRclInsert {a0 : State} (r : Req) (object : DWord) (buf : DWord) (count : Nat) (mem : Dma) (s : State) (hs : Kept a0 s) :
    KeptR a0 (execRclInsert r object buf count mem s) := by
  unfold execRclInsert
  repeat' first
    | assumption | intro _ | with_reducible apply kept_withMem | with_reducible apply kept_withIndex
    | with_reducible apply kept_badIndex | with_reducible apply kept_itemBusy | with_reducible apply kept_notPlaced
    | with_reducible apply kept_commitChange | with_reducible apply kept_insertItem | with_reducible apply kept_onReq
    | with_reducible apply KeptR.ite | with_reducible apply KeptR.next | with_reducible apply Kept.ite
    | with_reducible apply Kept.foldl

theorem kept_execRclDelete {a0 : State} (r : Req) (object : DWord) (buf : DWord) (count : Nat) (mem : Dma) (s : State) (hs : Kept a0 s) :
    KeptR a0 (execRclDelete r object buf count mem s) := by
  unfold execRclDelete
  repeat' first
    | assumption | intro _ | with_reducible apply kept_withMem | with_reducible apply kept_recWrite
    | with_reducible apply kept_withIndex | with_reducible apply kept_noItem | with_reducible apply kept_notPlaced
    | with_reducible apply kept_commitChange | with_reducible apply kept_onReq | with_reducible apply KeptR.ite
    | with_reducible apply KeptR.next | with_reducible apply Kept.ite | with_reducible apply Kept.foldl

theorem kept_execRclPurge {a0 : State} (r : Req) (object : DWord) (buf : DWord) (count : Nat) (mem : Dma) (s : State) (hs : Kept a0 s) :
    KeptR a0 (execRclPurge r object buf count mem s) := by
  unfold execRclPurge
  repeat' first
    | assumption | intro _ | with_reducible apply kept_withMem | with_reducible apply kept_recWrite
    | with_reducible apply kept_onIndex | with_reducible apply kept_withIndex | with_reducible apply kept_noItem
    | with_reducible apply kept_notPlaced | with_reducible apply kept_commitChange | with_reducible apply kept_onReq
    | with_reducible apply KeptR.ite | with_reducible apply KeptR.next | with_reducible apply Kept.ite
    | with_reducible apply Kept.foldl

theorem kept_execRclEdges {a0 : State} (r : Req) (object : DWord) (buf : DWord) (count : Nat) (mem : Dma) (s : State) (hs : Kept a0 s) :
    KeptR a0 (execRclEdges r object buf count mem s) := by
  unfold execRclEdges
  repeat' first
    | assumption | intro _ | with_reducible apply kept_withMem | with_reducible apply kept_recWrite
    | with_reducible apply kept_withIndex | with_reducible apply kept_badIndex | with_reducible apply kept_noItem
    | with_reducible apply kept_notPlaced | with_reducible apply kept_commitChange | with_reducible apply kept_onReq
    | with_reducible apply KeptR.ite | with_reducible apply KeptR.next | with_reducible apply Kept.ite
    | with_reducible apply Kept.foldl

theorem kept_execRclEntry {a0 : State} (r : Req) (object : DWord) (entries : List Word) (s : State) (hs : Kept a0 s) :
    KeptR a0 (execRclEntry r object entries s) := by
  unfold execRclEntry
  repeat' first
    | assumption | intro _ | with_reducible apply kept_tileWrite | with_reducible apply kept_withIndex
    | with_reducible apply kept_badIndex | with_reducible apply kept_notPlaced | with_reducible apply kept_commitChange
    | with_reducible apply kept_onReq | with_reducible apply KeptR.ite | with_reducible apply KeptR.next
    | with_reducible apply Kept.ite

theorem kept_execRclQuery {a0 : State} (r : Req) (object : DWord) (qbuf : DWord) (rbuf : DWord) (k : Nat) (pick : Nat) (l : Nat) (maxExpand : Nat) (mem : Dma) (s : State) (hs : Kept a0 s) :
    KeptR a0 (execRclQuery r object qbuf rbuf k pick l maxExpand mem s) := by
  unfold execRclQuery
  repeat' first
    | assumption | intro _ | with_reducible apply kept_withMem | with_reducible apply kept_withIndex
    | with_reducible apply kept_notPlaced | with_reducible apply kept_fail | with_reducible apply kept_defer
    | with_reducible apply kept_onReq | with_reducible apply KeptR.ite | with_reducible apply KeptR.next
    | with_reducible apply Kept.ite | fail_if_no_progress with_reducible apply Kept.upd

theorem kept_execRclDrop {a0 : State} (r : Req) (object : DWord) (s : State) (hs : Kept a0 s) :
    KeptR a0 (execRclDrop r object s) := by
  unfold execRclDrop
  repeat' first
    | assumption | intro _ | with_reducible apply kept_withIndex | with_reducible apply kept_itemBusy
    | with_reducible apply kept_done | with_reducible apply kept_fail | with_reducible apply kept_onReq
    | with_reducible apply kept_closeObject | with_reducible apply KeptR.ite | with_reducible apply KeptR.next
    | with_reducible apply Kept.ite | with_reducible apply Kept.foldl | fail_if_no_progress with_reducible apply Kept.upd

theorem kept_finishQuery {a0 : State} (q : Query) (h : List Byte) (e : Nat) (items : List Nat) (visited : Nat) (stale : Nat) (cut : Bool) (s : State) (hs : Kept a0 s) :
    Kept a0 (finishQuery q h e items visited stale cut s) := by
  unfold finishQuery
  have h : ∀ p x y z w, Kept a0 (regAdd p 0xA0008 x (regAdd p 0xA0010 y (regAdd p 0xA0018 z (regAdd p 0xA0020 w
      { s with queries := s.queries.filter (fun y => decide (y ≠ q)) })))) := fun p x y z w =>
    kept_regAdd _ _ _ _ (kept_regAdd _ _ _ _ (kept_regAdd _ _ _ _ (kept_regAdd _ _ _ _ (.upd hs))))
  exact kept_withOut _ _ _ _ _ (h _ _ _ _ _) fun _ h =>
    Kept.ite (fun _ => kept_complete _ _ _ _ _ (kept_regAdd _ _ _ _ h)) (fun _ => kept_done _ _ h)

theorem kept_endQuery {a0 : State} (q : Query) (detail : Nat) (status : Option Nat) (s : State) (hs : Kept a0 s) :
    Kept a0 (endQuery q detail status s) := by
  unfold endQuery
  repeat' first
    | assumption | intro _ | with_reducible apply kept_complete | fail_if_no_progress with_reducible apply Kept.upd

theorem kept_execRclGraphWalk {a0 : State} (port : Port) (s : State) (hs : Kept a0 s) :
    KeptR a0 (execRclGraphWalk port s) := by
  unfold execRclGraphWalk
  repeat' first
    | assumption | intro _ | with_reducible apply kept_finishQuery | with_reducible apply kept_endQuery
    | with_reducible apply KeptR.ite | with_reducible apply KeptR.next | with_reducible apply Kept.ite
    | fail_if_no_progress with_reducible apply Kept.upd | split

theorem kept_placeQuery {a0 : State} (n : Nat) (slot : Nat) (s : State) (hs : Kept a0 s) :
    Kept a0 (placeQuery n slot s) := by
  unfold placeQuery
  repeat' first
    | assumption | intro _ | with_reducible apply kept_onBay | with_reducible apply kept_endQuery
    | with_reducible apply Kept.ite | with_reducible apply Kept.foldl | fail_if_no_progress with_reducible apply Kept.upd
    | split | dsimp only

theorem kept_endScan {a0 : State} (q : Query) (minima : List Nat) (s : State) (hs : Kept a0 s) :
    Kept a0 (endScan q minima s) := by
  unfold endScan
  repeat' first
    | assumption | intro _ | with_reducible apply kept_finishQuery

theorem kept_startScans {a0 : State} (n : Nat) (s : State) (hs : Kept a0 s) :
    Kept a0 (startScans n s).2 := by
  unfold startScans
  repeat' first
    | assumption | intro _ | with_reducible apply Kept.ite | fail_if_no_progress with_reducible apply Kept.upd

end Sys2Proof.Machine
end

