-- ==== Sys2Proof/Laws/KeptFrames.lean ====
section
/-! SUPPORT. What frames, containment, holds, snapshots and calibration keep (`Kept`): one lemma for each operation,
cited instead of unfolding it. -/

namespace Sys2Proof.Machine

/-! ### Steps -/

theorem kept_queueLines {a0 : State} (cls : Nat) (k : Nat) (line : Nat) (bs : List Byte) (s : State) (hs : Kept a0 s) :
    Kept a0 (queueLines cls k line bs s) := by
  unfold queueLines
  repeat' first
    | assumption | intro _ | with_reducible apply kept_onBay

theorem kept_endStep {a0 : State} (key : Nat) (x : Session) (r : Run) (port : Nat) (status : Nat) (detail : Nat) (s : State) (hs : Kept a0 s) :
    Kept a0 (endStep key x r port status detail s) := by
  unfold endStep
  repeat' first
    | assumption | intro _ | with_reducible apply kept_regAdd | with_reducible apply kept_postStep
    | with_reducible apply kept_setSessTile | with_reducible apply Kept.ite

theorem kept_putInputs {a0 : State} (n : Nat) (slot : Nat) (key : Nat) (x : Session) (r : Run) (g : Prog) (s : State) (hs : Kept a0 s) :
    Kept a0 (putInputs n slot key x r g s) := by
  unfold putInputs
  repeat' first
    | assumption | intro _ | with_reducible apply kept_raiseErr | with_reducible apply kept_onPav
    | with_reducible apply kept_queueLines | with_reducible apply kept_endStep | with_reducible apply Kept.foldl
    | fail_if_no_progress with_reducible apply Kept.upd | split | dsimp only

theorem kept_execColumnInputWrite {a0 : State} (pav : Fin 80) (slot : Nat) (s : State) (hs : Kept a0 s) :
    KeptR a0 (execColumnInputWrite pav slot s) := by
  unfold execColumnInputWrite
  repeat' first
    | assumption | intro _ | with_reducible apply kept_placeQuery | with_reducible apply kept_putInputs
    | with_reducible apply KeptR.ite | with_reducible apply KeptR.next | with_reducible apply Kept.ite
    | fail_if_no_progress with_reducible apply Kept.upd | split

theorem kept_execMaskWrite {a0 : State} (pav : Fin 80) (slot : Nat) (s : State) (hs : Kept a0 s) :
    KeptR a0 (execMaskWrite pav slot s) := by
  unfold execMaskWrite
  repeat' first
    | assumption | intro _ | with_reducible apply kept_onPav | with_reducible apply kept_queueLines
    | with_reducible apply KeptR.ite | with_reducible apply KeptR.next | with_reducible apply Kept.ite
    | with_reducible apply Kept.foldl | fail_if_no_progress with_reducible apply Kept.upd | split | dsimp only

theorem kept_presetPav {a0 : State} (n : Nat) (f : Frame) (s : State) (hs : Kept a0 s) :
    Kept a0 (presetPav n f s) := by
  unfold presetPav
  repeat' first
    | assumption | intro _ | with_reducible apply kept_setCore | with_reducible apply Kept.ite
    | with_reducible apply Kept.foldl | fail_if_no_progress with_reducible apply Kept.upd | split | dsimp only

theorem kept_applyFate {a0 : State} (x : Nat × Fate) (s : State) (hs : Kept a0 s) :
    Kept a0 (applyFate x s) := by
  unfold applyFate
  repeat' first
    | assumption | intro _ | with_reducible apply kept_endStep | fail_if_no_progress with_reducible apply Kept.upd | split

theorem kept_execFrameStart {a0 : State} (bay : Fin 20) (rates : List LeadRate) (s : State) (hs : Kept a0 s) :
    KeptR a0 (execFrameStart bay rates s) := by
  unfold execFrameStart
  dsimp only
  split
  · exact .next hs
  · refine KeptR.ite (fun _ => .next hs) fun _ => .next (kept_setFrame _ _ _ (Kept.foldl (Kept.foldl (Kept.foldl (Kept.foldl ?_
      fun s x h => kept_presetPav _ _ _ h) fun s x h => kept_onPav _ _ _ h) fun s x h => kept_onSnap _ _ _ h)
      fun s x h => kept_applyMode _ _ h))
    generalize frameFates s rates _ = l
    have h0 : Kept a0 (l.foldl (fun s x => applyFate x s) s) := Kept.foldl hs fun s x h => kept_applyFate _ _ h
    have h1 : ∀ (m : List Nat) (z : List Nat × State), Kept a0 z.2 → Kept a0 (m.foldl (fun (a : List Nat × State) n =>
        (a.1 ++ (startScans n a.2).1, (startScans n a.2).2)) z).2 := by
      intro m
      induction m with
      | nil => exact fun _ h => h
      | cons n m ih => exact fun z h => ih _ (kept_startScans _ _ h)
    exact h1 _ _ h0

theorem kept_execGatherExpiry {a0 : State} (pav : Fin 80) (s : State) (hs : Kept a0 s) :
    KeptR a0 (execGatherExpiry pav s) := by
  unfold execGatherExpiry
  repeat' first
    | assumption | intro _ | with_reducible apply kept_onPav | with_reducible apply kept_noteReadyAll
    | with_reducible apply KeptR.ite | with_reducible apply KeptR.next | with_reducible apply Kept.ite
    | fail_if_no_progress with_reducible apply Kept.upd | split | dsimp only

theorem kept_nameVictims {a0 : State} (n : Nat) (z0 : Nat) (z1 : State) (hs : Kept a0 z1) :
    Kept a0 (nameVictims n z0 z1) := by
  induction z0 generalizing z1 with
  | zero =>
    unfold nameVictims
    repeat' first
      | assumption
  | succ n ih =>
    unfold nameVictims
    repeat' first
      | assumption | intro _ | with_reducible apply ih | with_reducible apply kept_selectOne
      | fail_if_no_progress with_reducible apply Kept.upd | split

theorem kept_preemptAt {a0 : State} (n : Nat) (key : Nat) (s : State) (hs : Kept a0 s) :
    Kept a0 (preemptAt n key s) := by
  unfold preemptAt
  repeat' first
    | assumption | intro _ | with_reducible apply kept_setFrame | with_reducible apply kept_nameVictims
    | with_reducible apply Kept.foldl | fail_if_no_progress with_reducible apply Kept.upd | split | dsimp only

theorem kept_sendVerdict {a0 : State} (n : Nat) (key : Nat) (c : Nat) (s : State) (hs : Kept a0 s) :
    Kept a0 (sendVerdict n key c s) := by
  unfold sendVerdict
  repeat' first
    | assumption | intro _ | with_reducible apply kept_setCore | with_reducible apply Kept.foldl
    | fail_if_no_progress with_reducible apply Kept.upd | split | dsimp only

theorem kept_execLatchDecision {a0 : State} (pav : Fin 80) (index : Nat) (s : State) (hs : Kept a0 s) :
    KeptR a0 (execLatchDecision pav index s) := by
  unfold execLatchDecision
  repeat' first
    | assumption | intro _ | with_reducible apply kept_setFrame | with_reducible apply kept_preemptAt
    | with_reducible apply kept_sendVerdict | with_reducible apply KeptR.ite | with_reducible apply KeptR.next
    | with_reducible apply Kept.ite | with_reducible apply Kept.foldl | fail_if_no_progress with_reducible apply Kept.upd
    | split | dsimp only

/-! ### CelayPort -/

theorem kept_portDown {a0 : State} (p : Nat) (state : Nat) (lane : Nat) (s : State) (hs : Kept a0 s) :
    Kept a0 (portDown p state lane s) := by
  unfold portDown
  repeat' first
    | assumption | intro _ | with_reducible apply kept_raiseErr | with_reducible apply kept_onCly
    | with_reducible apply kept_abortStream | with_reducible apply kept_handCut | with_reducible apply kept_failPool
    | with_reducible apply Kept.foldl

theorem kept_clyDisable {a0 : State} (p : Nat) (s : State) (hs : Kept a0 s) :
    Kept a0 (clyDisable p s) := by
  unfold clyDisable
  repeat' first
    | assumption | intro _ | with_reducible apply kept_portDown | with_reducible apply kept_onCly
    | with_reducible apply Kept.ite

theorem kept_execFlitReceive {a0 : State} (cport : Fin 4) (flit : Option (List Byte)) (corrected : Nat) (s : State) (hs : Kept a0 s) :
    KeptR a0 (execFlitReceive cport flit corrected s) := by
  unfold execFlitReceive
  repeat' first
    | assumption | intro _ | with_reducible apply kept_clyAdd | with_reducible apply kept_takeFlit
    | with_reducible apply kept_portDown | with_reducible apply kept_onCly | with_reducible apply KeptR.ite
    | with_reducible apply KeptR.next | with_reducible apply Kept.ite | fail_if_no_progress with_reducible apply Kept.upd
    | split

theorem kept_execCelayEnable {a0 : State} (f : Fn) (cport : Fin 4) (v : Word) (s : State) (hs : Kept a0 s) :
    KeptR a0 (execCelayEnable f cport v s) := by
  unfold execCelayEnable
  repeat' first
    | assumption | intro _ | with_reducible apply kept_setFields | with_reducible apply kept_onCly
    | with_reducible apply kept_regOr | with_reducible apply KeptR.ite | with_reducible apply KeptR.next

theorem kept_execCelayDisable {a0 : State} (f : Fn) (cport : Fin 4) (v : Word) (s : State) (hs : Kept a0 s) :
    KeptR a0 (execCelayDisable f cport v s) := by
  unfold execCelayDisable
  repeat' first
    | assumption | intro _ | with_reducible apply kept_clyDisable | with_reducible apply kept_setFields
    | with_reducible apply kept_regClear | with_reducible apply KeptR.ite | with_reducible apply KeptR.next

theorem kept_execCelayLinkUp {a0 : State} (cport : Fin 4) (lanes : BitVec 9) (s : State) (hs : Kept a0 s) :
    KeptR a0 (execCelayLinkUp cport lanes s) := by
  unfold execCelayLinkUp
  repeat' first
    | assumption | intro _ | with_reducible apply kept_onCly | with_reducible apply KeptR.ite
    | with_reducible apply KeptR.next

theorem kept_execCelayBringupRetry {a0 : State} (cport : Fin 4) (s : State) (hs : Kept a0 s) :
    KeptR a0 (execCelayBringupRetry cport s) := by
  unfold execCelayBringupRetry
  repeat' first
    | assumption | intro _ | with_reducible apply kept_onCly | with_reducible apply KeptR.ite
    | with_reducible apply KeptR.next

theorem kept_execLaneSwap {a0 : State} (cport : Fin 4) (lane : Fin 9) (s : State) (hs : Kept a0 s) :
    KeptR a0 (execLaneSwap cport lane s) := by
  unfold execLaneSwap
  repeat' first
    | assumption | intro _ | with_reducible apply kept_clyAdd | with_reducible apply kept_portDown
    | with_reducible apply kept_onCly | with_reducible apply KeptR.ite | with_reducible apply KeptR.next

/-! ### Contain -/

theorem kept_engineOut {a0 : State} (kind : Nat) (e : Nat) (s : State) (hs : Kept a0 s) :
    Kept a0 (engineOut kind e s) := by
  unfold engineOut
  repeat' first
    | assumption | intro _ | with_reducible apply kept_raiseErr | with_reducible apply Kept.ite
    | fail_if_no_progress with_reducible apply Kept.upd

theorem kept_execEngineSpareSwitch {a0 : State} (kind : EngineKind) (engine : Nat) (s : State) (hs : Kept a0 s) :
    KeptR a0 (execEngineSpareSwitch kind engine s) := by
  unfold execEngineSpareSwitch
  repeat' first
    | assumption | intro _ | with_reducible apply kept_engineOut | with_reducible apply KeptR.next

theorem kept_loseCores {a0 : State} (b : Nat) (s : State) (hs : Kept a0 s) :
    Kept a0 (loseCores b s) := by
  unfold loseCores
  repeat' first
    | assumption | intro _ | with_reducible apply Kept.foldl | fail_if_no_progress with_reducible apply Kept.upd

theorem kept_fenceRepair {a0 : State} (pbay : Nat) (core : Nat) (s : State) (hs : Kept a0 s) :
    Kept a0 (fenceRepair pbay core s) := by
  unfold fenceRepair
  repeat' first
    | assumption | intro _ | with_reducible apply kept_addRepair | with_reducible apply Kept.ite

theorem kept_fenceBay {a0 : State} (pbay : Nat) (core : Nat) (s : State) (hs : Kept a0 s) :
    Kept a0 (fenceBay pbay core s) := by
  unfold fenceBay
  repeat' first
    | assumption | intro _ | with_reducible apply kept_loseCores | with_reducible apply kept_fenceRepair
    | with_reducible apply kept_onBay | with_reducible apply kept_setFrame | with_reducible apply kept_raiseErr
    | fail_if_no_progress with_reducible apply Kept.upd | split

theorem kept_withdrawSite {a0 : State} (site : Nat) (s : State) (hs : Kept a0 s) :
    Kept a0 (withdrawSite site s) := by
  unfold withdrawSite
  repeat' first
    | assumption | intro _ | with_reducible apply Kept.ite | fail_if_no_progress with_reducible apply Kept.upd

theorem kept_moduleFault {a0 : State} (src : Nat) (code : Nat) (s : State) (hs : Kept a0 s) :
    Kept a0 (moduleFault src code s) := by
  unfold moduleFault
  repeat' first
    | assumption | intro _ | with_reducible apply kept_regSet | with_reducible apply Kept.ite
    | fail_if_no_progress with_reducible apply Kept.upd

theorem kept_hubFault {a0 : State} (detail : Nat) (s : State) (hs : Kept a0 s) :
    Kept a0 (hubFault detail s) := by
  unfold hubFault
  repeat' first
    | assumption | intro _ | with_reducible apply kept_moduleFault | with_reducible apply kept_raiseErr

theorem kept_contain {a0 : State} (src : Nat) (s : State) (hs : Kept a0 s) :
    Kept a0 (contain src s) := by
  unfold contain
  repeat' first
    | assumption | intro _ | with_reducible apply kept_portDown | with_reducible apply kept_engineOut
    | with_reducible apply kept_fenceBay | with_reducible apply kept_withdrawSite | with_reducible apply kept_moduleFault
    | with_reducible apply kept_blockFails | fail_if_no_progress with_reducible apply Kept.upd | split | dsimp only

theorem kept_execErrorRecordRetire {a0 : State} (source : Nat) (s : State) (hs : Kept a0 s) :
    KeptR a0 (execErrorRecordRetire source s) := by
  unfold execErrorRecordRetire
  repeat' first
    | assumption | intro _ | with_reducible apply kept_contain | with_reducible apply kept_deliverErr
    | with_reducible apply kept_setErrSource | with_reducible apply KeptR.ite | with_reducible apply KeptR.next
    | with_reducible apply Kept.ite | fail_if_no_progress with_reducible apply Kept.upd | split | dsimp only

theorem kept_execErrorMuteEnd {a0 : State} (source : Nat) (s : State) (hs : Kept a0 s) :
    KeptR a0 (execErrorMuteEnd source s) := by
  unfold execErrorMuteEnd
  repeat' first
    | assumption | intro _ | with_reducible apply kept_setErrSource | with_reducible apply KeptR.ite
    | with_reducible apply KeptR.next | with_reducible apply Kept.ite | fail_if_no_progress with_reducible apply Kept.upd
    | split | dsimp only

theorem kept_execErrPop {a0 : State} (port : Port) (s : State) (hs : Kept a0 s) :
    KeptR a0 (execErrPop port s) := by
  unfold execErrPop
  repeat' first
    | assumption | intro _ | with_reducible apply kept_setErrQueue | with_reducible apply KeptR.ite
    | with_reducible apply KeptR.next | with_reducible apply Kept.ite

theorem kept_execHubClockFault {a0 : State} (fault : HubClock) (s : State) (hs : Kept a0 s) :
    KeptR a0 (execHubClockFault fault s) := by
  unfold execHubClockFault
  repeat' first
    | assumption | intro _ | with_reducible apply kept_hubFault | with_reducible apply kept_raiseErr
    | with_reducible apply kept_regOr | with_reducible apply KeptR.ite | with_reducible apply KeptR.next
    | with_reducible apply Kept.ite | fail_if_no_progress with_reducible apply Kept.upd | split

theorem kept_execCorrectedLineRewrite {a0 : State} (place : LinePlace) (corrected : Nat) (again : Option RepairElem) (s : State) (hs : Kept a0 s) :
    KeptR a0 (execCorrectedLineRewrite place corrected again s) := by
  unfold execCorrectedLineRewrite
  repeat' first
    | assumption | intro _ | with_reducible apply kept_addRepair | with_reducible apply kept_raiseErr
    | with_reducible apply kept_regAdd | with_reducible apply KeptR.next | fail_if_no_progress with_reducible apply Kept.upd
    | split

theorem kept_execNearScrubRead {a0 : State} (bay : Fin 20) (bad : Option LineRead) (s : State) (hs : Kept a0 s) :
    KeptR a0 (execNearScrubRead bay bad s) := by
  unfold execNearScrubRead
  repeat' first
    | assumption | intro _ | with_reducible apply kept_onBay | with_reducible apply kept_lineLost
    | with_reducible apply KeptR.ite | with_reducible apply KeptR.next | with_reducible apply Kept.ite

theorem kept_farSlotLost {a0 : State} (n : Nat) (line : Nat) (s : State) (hs : Kept a0 s) :
    Kept a0 (farSlotLost n line s) := by
  unfold farSlotLost
  repeat' first
    | assumption | intro _ | with_reducible apply kept_raiseErr | with_reducible apply Kept.ite
    | fail_if_no_progress with_reducible apply Kept.upd | split

theorem kept_execFarScrubRead {a0 : State} (bad : Option LineRead) (line : Fin 256) (s : State) (hs : Kept a0 s) :
    KeptR a0 (execFarScrubRead bad line s) := by
  unfold execFarScrubRead
  repeat' first
    | assumption | intro _ | with_reducible apply kept_farSlotLost | with_reducible apply kept_farAccess
    | with_reducible apply kept_regAdd | with_reducible apply KeptR.ite | with_reducible apply KeptR.next
    | with_reducible apply Kept.ite | fail_if_no_progress with_reducible apply Kept.upd

/-! ### Holds -/

theorem kept_serveRefresh {a0 : State} (b : Nat) (s : State) (hs : Kept a0 s) :
    Kept a0 (serveRefresh b s) := by
  unfold serveRefresh
  repeat' first
    | assumption | intro _ | with_reducible apply kept_onBay

theorem kept_switchClock {a0 : State} (bay : Nat) (s : State) (hs : Kept a0 s) :
    Kept a0 (switchClock bay s) := by
  unfold switchClock
  repeat' first
    | assumption | intro _ | with_reducible apply kept_onBay | with_reducible apply kept_raiseErr
    | with_reducible apply kept_regAdd | fail_if_no_progress with_reducible apply Kept.upd

theorem kept_beginHold {a0 : State} (key : Nat) (f : Frame) (s : State) (hs : Kept a0 s) :
    Kept a0 (beginHold key f s) := by
  unfold beginHold
  repeat' first
    | assumption | intro _ | with_reducible apply kept_setFrame | with_reducible apply kept_serveRefresh
    | with_reducible apply kept_switchClock | with_reducible apply kept_regSet | with_reducible apply Kept.ite
    | with_reducible apply Kept.foldl | fail_if_no_progress with_reducible apply Kept.upd | split

theorem kept_endHolds {a0 : State} (f : Frame) (s : State) (hs : Kept a0 s) :
    Kept a0 (endHolds f s) := by
  unfold endHolds
  repeat' first
    | assumption | intro _ | with_reducible apply kept_serveRefresh | with_reducible apply kept_switchClock
    | with_reducible apply kept_regAdd | with_reducible apply Kept.ite | with_reducible apply Kept.foldl

/-! ### CoreIssue -/

theorem kept_bstStoreAt {a0 : State} (k : Nat) (byte : Nat) (bs : List Byte) (s : State) (hs : Kept a0 s) :
    Kept a0 (bstStoreAt k byte bs s) := by
  unfold bstStoreAt
  repeat' first
    | assumption | intro _ | with_reducible apply kept_nearStoreAt | with_reducible apply Kept.ite
    | with_reducible apply Kept.foldl

theorem kept_bstTile {a0 : State} (k : Nat) (byte : Nat) (mode : Nat) (data : List Byte) (s : State) (hs : Kept a0 s) :
    Kept a0 (bstTile k byte mode data s) := by
  unfold bstTile
  repeat' first
    | assumption | intro _ | with_reducible apply kept_setForm | with_reducible apply kept_nearStoreAt
    | with_reducible apply kept_regAdd | with_reducible apply Kept.ite

theorem kept_bondStore {a0 : State} (k : Nat) (x : BondStore) (s : State) (hs : Kept a0 s) :
    Kept a0 (bondStore k x s) := by
  unfold bondStore
  repeat' first
    | assumption | intro _ | with_reducible apply kept_bstStoreAt | with_reducible apply kept_bstTile
    | with_reducible apply kept_setCore | with_reducible apply kept_setForm | with_reducible apply Kept.ite

theorem kept_pullBeats {a0 : State} (k : Nat) (cyc : Nat) (s : State) (hs : Kept a0 s) :
    Kept a0 (pullBeats k cyc s) := by
  unfold pullBeats
  repeat' first
    | assumption | intro _ | with_reducible apply kept_setCore | with_reducible apply Kept.foldl
    | fail_if_no_progress with_reducible apply Kept.upd

theorem kept_advance {a0 : State} (k : Nat) (cyc : Nat) (s : State) (hs : Kept a0 s) :
    Kept a0 (advance k cyc s) := by
  unfold advance
  repeat' first
    | assumption | intro _ | with_reducible apply kept_bondStore | with_reducible apply kept_pullBeats
    | with_reducible apply kept_setCore | with_reducible apply Kept.foldl

theorem kept_advanceBay {a0 : State} (bay : Nat) (cyc : Nat) (s : State) (hs : Kept a0 s) :
    Kept a0 (advanceBay bay cyc s) := by
  unfold advanceBay
  repeat' first
    | assumption | intro _ | with_reducible apply kept_advance | with_reducible apply Kept.foldl

theorem kept_issued {a0 : State} (s : State) (k : Nat) (cyc : Nat) (key : Nat) (f : Frame) (c : Core) (fl : BitVec 5) (hs : Kept a0 s) :
    Kept a0 (issued s k cyc key f c fl) := by
  unfold issued
  repeat' first
    | assumption | intro _ | with_reducible apply kept_advance | with_reducible apply kept_setCore
    | with_reducible apply kept_setFrame | with_reducible apply kept_setFlags

theorem kept_coreStep {a0 : State} (i : Instr) (k : Nat) (cyc : Nat) (g : Core → CoreRes) (s : State) (hs : Kept a0 s) :
    KeptR a0 (coreStep i k cyc g s) := by
  unfold coreStep
  repeat' first
    | assumption | intro _ | with_reducible apply kept_issued | with_reducible exact KeptR.fault
    | with_reducible apply KeptR.next | fail_if_no_progress with_reducible apply Kept.upd | split

/-! ### FrameEnd -/

theorem kept_commitBytes {a0 : State} (key : Nat) (i : Nat) (a : Nat × Nat) (places : List Nat) (bs : List Byte) (keep : Bool) (s : State) (hs : Kept a0 s) :
    Kept a0 (commitBytes key i a places bs keep s) := by
  have hp : ∀ (l : List (Nat × Byte)) (b : Nat) (m : Memory), Memory.wf m = true →
      Memory.wf (l.foldl (fun m x => memPut m (b + x.1) x.2) m) = true := by
    intro l b
    induction l with
    | nil => exact fun _ h => h
    | cons x l ih => exact fun m h => ih _ (Memory.wf_memPut _ _ h)
  have hk : Kept a0 (if keep = true then cowKeep key i s else s) := .ite (fun _ => kept_cowKeep _ _ _ hs) fun _ => hs
  refine Kept.ite (fun _ => hs) fun _ => Kept.ite (fun _ => kept_writeTile _ _ _ (.upd hk)) fun _ => ?_
  refine kept_setDirty _ _ _ (kept_setForm _ _ _ _ (Kept.foldl (Kept.nearSet hk ?_)
    fun s l h => kept_undamage _ _ _ _ h))
  exact hp _ _ _

theorem kept_commitRecent {a0 : State} (key : Nat) (l : Nat) (g : Nat) (pos : Nat) (row : List Byte) (s : State) (hs : Kept a0 s) :
    Kept a0 (commitRecent key l g pos row s) := by
  unfold commitRecent
  repeat' first
    | assumption | intro _ | with_reducible apply Kept.ite | fail_if_no_progress with_reducible apply Kept.upd

theorem kept_commitRow {a0 : State} (p : Pav) (slot : Nat) (lmax : Nat) (key : Nat) (cut : Nat) (pos : Nat) (w : KvRow) (s : State) (hs : Kept a0 s) :
    Kept a0 (commitRow p slot lmax key cut pos w s) := by
  unfold commitRow
  repeat' first
    | assumption | intro _ | with_reducible apply kept_commitBytes | with_reducible apply kept_commitRecent
    | with_reducible apply Kept.ite

theorem kept_commitRun {a0 : State} (n : Nat) (slot : Nat) (r : SlotRun) (x : Session) (rows : List KvRow) (s : State) (hs : Kept a0 s) :
    Kept a0 (commitRun n slot r x rows s) := by
  unfold commitRun
  repeat' first
    | assumption | intro _ | with_reducible apply kept_commitRow | with_reducible apply kept_writeTags
    | with_reducible apply kept_setSessTile | with_reducible apply Kept.ite | with_reducible apply Kept.foldl
    | fail_if_no_progress with_reducible apply Kept.upd | split | dsimp only

theorem kept_countStatus {a0 : State} (port : Nat) (status : Nat) (s : State) (hs : Kept a0 s) :
    Kept a0 (countStatus port status s) := by
  unfold countStatus
  repeat' first
    | assumption | intro _ | with_reducible apply kept_regAdd | with_reducible apply Kept.ite

theorem kept_endRun {a0 : State} (f : Frame) (len : Nat) (res : List SlotResult) (k : Nat) (r : SlotRun) (s : State) (hs : Kept a0 s) :
    Kept a0 (endRun f len res k r s) := by
  unfold endRun
  repeat' first
    | assumption | intro _ | with_reducible apply kept_commitRun | with_reducible apply kept_countStatus
    | with_reducible apply kept_applyCharge | with_reducible apply kept_countEnd | with_reducible apply kept_postStep
    | with_reducible apply kept_setSessTile | with_reducible apply Kept.ite
    | fail_if_no_progress with_reducible apply Kept.upd | split | dsimp only

theorem kept_chargePav {a0 : State} (f : Frame) (len : Nat) (n : Nat) (s : State) (hs : Kept a0 s) :
    Kept a0 (chargePav f len n s) := by
  unfold chargePav
  repeat' first
    | assumption | intro _ | with_reducible apply kept_regAdd | with_reducible apply kept_applyCharge
    | with_reducible apply kept_onPav | with_reducible apply Kept.ite | with_reducible apply Kept.foldl
    | fail_if_no_progress with_reducible apply Kept.upd | split

theorem kept_endScanSlot {a0 : State} (f : Frame) (minima : List ScanResult) (k : Nat) (s : State) (hs : Kept a0 s) :
    Kept a0 (endScanSlot f minima k s) := by
  unfold endScanSlot
  repeat' first
    | assumption | intro _ | with_reducible apply kept_endQuery | with_reducible apply kept_endScan
    | with_reducible apply Kept.ite | fail_if_no_progress with_reducible apply Kept.upd | split

theorem kept_settleCores {a0 : State} (f : Frame) (s : State) (hs : Kept a0 s) :
    Kept a0 (settleCores f s) := by
  unfold settleCores
  repeat' first
    | assumption | intro _ | with_reducible apply kept_advance | with_reducible apply Kept.ite
    | with_reducible apply Kept.foldl | fail_if_no_progress with_reducible apply Kept.upd

theorem kept_unloadLost {a0 : State} (n : Nat) (s : State) (hs : Kept a0 s) :
    Kept a0 (unloadLost n s) := by
  unfold unloadLost
  repeat' first
    | assumption | intro _ | with_reducible apply kept_flushQueue | with_reducible apply kept_onPav

theorem kept_restartGather {a0 : State} (n : Nat) (s : State) (hs : Kept a0 s) :
    Kept a0 (restartGather n s) := by
  unfold restartGather
  repeat' first
    | assumption | intro _ | with_reducible apply kept_onPav

theorem kept_fillAll {a0 : State} (pavs : List Nat) (s : State) (hs : Kept a0 s) :
    Kept a0 (fillAll pavs s) := by
  unfold fillAll
  repeat' first
    | assumption | intro _ | with_reducible apply kept_fillPav | with_reducible apply Kept.ite
    | with_reducible apply Kept.foldl

theorem kept_betweenFrames {a0 : State} (key : Nat) (f : Frame) (s : State) (hs : Kept a0 s) :
    Kept a0 (betweenFrames key f s) := by
  unfold betweenFrames
  repeat' first
    | assumption | intro _ | with_reducible apply kept_onBay | with_reducible apply kept_unloadLost
    | with_reducible apply kept_restartGather | with_reducible apply kept_fillAll | with_reducible apply kept_releaseHatch
    | with_reducible apply kept_enterHatch | with_reducible apply kept_applyPav | with_reducible apply kept_foldDirty
    | with_reducible apply kept_commitIndex | with_reducible apply kept_applyMode | with_reducible apply kept_openPushes
    | with_reducible apply Kept.foldl | fail_if_no_progress with_reducible apply Kept.upd

theorem kept_quietBays {a0 : State} (f : Frame) (s : State) (hs : Kept a0 s) :
    Kept a0 (quietBays f s) := by
  unfold quietBays
  repeat' first
    | assumption | intro _ | with_reducible apply kept_settleCores | with_reducible apply kept_endHolds
    | with_reducible apply kept_bondWork | with_reducible apply Kept.ite | with_reducible apply Kept.foldl

theorem kept_execFrameEnd {a0 : State} (bay : Fin 20) (results : List SlotResult) (minima : List ScanResult) (s : State) (hs : Kept a0 s) :
    KeptR a0 (execFrameEnd bay results minima s) := by
  unfold execFrameEnd
  repeat' first
    | assumption | intro _ | with_reducible apply kept_endRun | with_reducible apply kept_chargePav
    | with_reducible apply kept_endScanSlot | with_reducible apply kept_betweenFrames | with_reducible apply kept_quietBays
    | with_reducible apply KeptR.ite | with_reducible apply KeptR.next | with_reducible apply Kept.ite
    | with_reducible apply Kept.foldl | fail_if_no_progress with_reducible apply Kept.upd | split

/-! ### Snapshots -/

theorem kept_startSnap {a0 : State} (p : Nat) (id : Option ReqId) (full : Bool) (target : Nat × Nat) (s : State) (hs : Kept a0 s) :
    Kept a0 (startSnap p id full target s) := by
  unfold startSnap
  repeat' first
    | assumption | intro _ | with_reducible apply kept_regSet | with_reducible apply kept_onSnap

theorem kept_execSnpTake {a0 : State} (r : Req) (full : Bool) (s : State) (hs : Kept a0 s) :
    KeptR a0 (execSnpTake r full s) := by
  unfold execSnpTake
  repeat' first
    | assumption | intro _ | with_reducible apply kept_fail | with_reducible apply kept_defer
    | with_reducible apply kept_onReq | with_reducible apply kept_startSnap | with_reducible apply KeptR.ite
    | with_reducible apply KeptR.next | with_reducible apply Kept.ite | fail_if_no_progress with_reducible apply Kept.upd
    | split

theorem kept_fireTrigger {a0 : State} (p : Nat) (s : State) (hs : Kept a0 s) :
    Kept a0 (fireTrigger p s) := by
  unfold fireTrigger
  repeat' first
    | assumption | intro _ | with_reducible apply kept_regAdd | with_reducible apply kept_startSnap
    | with_reducible apply Kept.ite | fail_if_no_progress with_reducible apply Kept.upd | split

theorem kept_execSnpTimerFire {a0 : State} (port : Port) (s : State) (hs : Kept a0 s) :
    KeptR a0 (execSnpTimerFire port s) := by
  unfold execSnpTimerFire
  repeat' first
    | assumption | intro _ | with_reducible apply kept_onSnap | with_reducible apply kept_fireTrigger
    | with_reducible apply KeptR.ite | with_reducible apply KeptR.next

theorem kept_execSnpStepTrigger {a0 : State} (port : Port) (s : State) (hs : Kept a0 s) :
    KeptR a0 (execSnpStepTrigger port s) := by
  unfold execSnpStepTrigger
  repeat' first
    | assumption | intro _ | with_reducible apply kept_onSnap | with_reducible apply kept_fireTrigger
    | with_reducible apply KeptR.ite | with_reducible apply KeptR.next

theorem kept_takeSlots {a0 : State} (z0 : Nat) (z1 : List Nat) (z2 : State) (hs : Kept a0 z2) :
    KeptP a0 (takeSlots z0 z1 z2) := by
  induction z0 generalizing z1 z2 with
  | zero =>
    unfold takeSlots
    repeat' first
      | assumption | intro _ | with_reducible apply kept_farAlloc | refine KeptP.get (kept_farAlloc _ ?_) (by assumption)
      | with_reducible exact KeptP.none | with_reducible apply KeptP.some
  | succ n ih =>
    unfold takeSlots
    repeat' first
      | assumption | intro _ | with_reducible apply ih | with_reducible apply kept_farAlloc
      | refine KeptP.get (kept_farAlloc _ ?_) (by assumption) | with_reducible exact KeptP.none
      | with_reducible apply KeptP.some | with_reducible apply KeptP.some2
      | fail_if_no_progress with_reducible apply Kept.upd | split

theorem kept_takeManifests {a0 : State} (p : Nat) (tier : Nat) (region : Nat) (s : State) (hs : Kept a0 s) :
    KeptO a0 (takeManifests p tier region s) := by
  unfold takeManifests
  repeat' first
    | assumption | intro _ | with_reducible apply kept_onSnap | with_reducible apply kept_takeSlots
    | refine KeptP.get (kept_takeSlots _ _ _ ?_) (by assumption) | with_reducible exact KeptO.none
    | with_reducible exact KeptP.none | with_reducible apply KeptO.ite | with_reducible apply KeptP.ite
    | with_reducible apply KeptO.map | with_reducible apply KeptP.map | with_reducible apply KeptO.some
    | with_reducible apply KeptP.some | with_reducible apply KeptP.some2 | with_reducible apply Kept.ite
    | fail_if_no_progress with_reducible apply Kept.upd | split

theorem kept_execSnapshotTargetSet {a0 : State} (f : Fn) (v : Word) (s : State) (hs : Kept a0 s) :
    KeptR a0 (execSnapshotTargetSet f v s) := by
  unfold execSnapshotTargetSet
  repeat' first
    | assumption | intro _ | with_reducible apply kept_regSet | with_reducible apply kept_onSnap
    | with_reducible apply kept_takeManifests | refine KeptO.get (kept_takeManifests _ _ _ _ ?_) (by assumption)
    | with_reducible apply KeptR.ite | with_reducible apply KeptO.getD | with_reducible apply KeptR.next
    | with_reducible apply Kept.ite

theorem kept_execSnpInclude {a0 : State} (r : Req) (object : DWord) (exclude : Bool) (s : State) (hs : Kept a0 s) :
    KeptR a0 (execSnpInclude r object exclude s) := by
  unfold execSnpInclude
  repeat' first
    | assumption | intro _ | with_reducible apply kept_done | with_reducible apply kept_fail
    | with_reducible apply kept_onReq | with_reducible apply kept_onSnap | with_reducible apply KeptR.ite
    | with_reducible apply KeptR.next | with_reducible apply Kept.ite

theorem kept_markPending {a0 : State} (owed : List (Nat × Nat × Nat)) (s : State) (hs : Kept a0 s) :
    Kept a0 (markPending owed s) := by
  unfold markPending
  repeat' first
    | assumption | intro _ | with_reducible apply kept_onTile | with_reducible apply Kept.foldl

theorem kept_recordCut {a0 : State} (p : Nat) (r : SnapRun) (s : State) (hs : Kept a0 s) :
    Kept a0 (recordCut p r s) := by
  unfold recordCut
  repeat' first
    | assumption | intro _ | with_reducible apply kept_regAdd | with_reducible apply kept_onSnap
    | with_reducible apply kept_markPending | with_reducible apply Kept.ite | with_reducible apply Kept.foldl
    | fail_if_no_progress with_reducible apply Kept.upd

theorem kept_execSnapshotCut {a0 : State} (port : Port) (s : State) (hs : Kept a0 s) :
    KeptR a0 (execSnapshotCut port s) := by
  unfold execSnapshotCut
  repeat' first
    | assumption | intro _ | with_reducible apply kept_snapFail | with_reducible apply kept_takeManifests
    | refine KeptO.get (kept_takeManifests _ _ _ _ ?_) (by assumption) | with_reducible apply kept_recordCut
    | with_reducible apply KeptR.ite | with_reducible apply KeptR.next | with_reducible apply Kept.ite
    | fail_if_no_progress with_reducible apply Kept.upd | split | dsimp only

theorem kept_execSnapshotTileStored {a0 : State} (port : Port) (obj : ObjRef) (tile : Nat) (s : State) (hs : Kept a0 s) :
    KeptR a0 (execSnapshotTileStored port obj tile s) := by
  unfold execSnapshotTileStored
  repeat' first
    | assumption | intro _ | with_reducible apply kept_snapFail | with_reducible apply kept_snapStore
    | with_reducible apply KeptR.ite | with_reducible apply KeptR.next | with_reducible apply Kept.ite
    | fail_if_no_progress with_reducible apply Kept.upd | split

theorem kept_snapLay {a0 : State} (p : Nat) (part : SnapPart) (sp : Spot) (bs : List Byte) (s : State) (hs : Kept a0 s) :
    KeptO a0 (snapLay p part sp bs s) := by
  unfold snapLay
  repeat' first
    | assumption | intro _ | with_reducible apply kept_dmaWrite | with_reducible apply kept_snapOut
    | refine KeptO.get (kept_snapOut _ _ _ _ _ _ ?_) (by assumption) | with_reducible exact KeptO.none
    | with_reducible apply KeptO.ite | with_reducible apply KeptO.some | with_reducible apply Kept.ite
    | fail_if_no_progress with_reducible apply Kept.upd

theorem kept_layPieces {a0 : State} (p : Nat) (tier : Nat) (region : Nat) (shard : Nat) (z0 : List (List Byte)) (z1 : List (Nat × Nat × Nat)) (z2 : State) (hs : Kept a0 z2) :
    KeptP a0 (layPieces p tier region shard z0 z1 z2) := by
  induction z0 generalizing z1 z2 with
  | nil =>
    unfold layPieces
    repeat' first
      | assumption | intro _ | with_reducible apply kept_spotAlloc
      | refine KeptP.get (kept_spotAlloc _ _ _ _ _ ?_) (by assumption) | with_reducible apply kept_snapLay
      | refine KeptO.get (kept_snapLay _ _ _ _ _ ?_) (by assumption) | with_reducible exact KeptP.none
      | with_reducible apply KeptP.some
  | cons x l ih =>
    unfold layPieces
    repeat' first
      | assumption | intro _ | with_reducible apply ih | with_reducible apply kept_spotAlloc
      | refine KeptP.get (kept_spotAlloc _ _ _ _ _ ?_) (by assumption) | with_reducible apply kept_snapLay
      | refine KeptO.get (kept_snapLay _ _ _ _ _ ?_) (by assumption) | with_reducible exact KeptP.none
      | with_reducible apply KeptP.some | with_reducible apply KeptP.some2
      | fail_if_no_progress with_reducible apply Kept.upd | split

theorem kept_closeShard {a0 : State} (p : Nat) (r : SnapRun) (shard : Nat) (s : State) (hs : Kept a0 s) :
    KeptP a0 (closeShard p r shard s) := by
  unfold closeShard
  repeat' first
    | assumption | intro _ | with_reducible apply kept_regAdd | with_reducible apply kept_layPieces
    | refine KeptP.get (kept_layPieces _ _ _ _ _ _ _ ?_) (by assumption) | with_reducible exact KeptP.none
    | with_reducible apply KeptP.ite | with_reducible apply KeptP.map | with_reducible apply KeptP.some
    | with_reducible apply KeptP.some2 | with_reducible apply Kept.ite | fail_if_no_progress with_reducible apply Kept.upd
    | split | dsimp only

theorem kept_closeShards {a0 : State} (p : Nat) (r : SnapRun) (z0 : List Nat) (z1 : List SnapShard) (z2 : State) (hs : Kept a0 z2) :
    KeptP a0 (closeShards p r z0 z1 z2) := by
  induction z0 generalizing z1 z2 with
  | nil =>
    unfold closeShards
    repeat' first
      | assumption | intro _ | with_reducible apply kept_closeShard
      | refine KeptP.get (kept_closeShard _ _ _ _ ?_) (by assumption) | with_reducible exact KeptP.none
      | with_reducible apply KeptP.some
  | cons x l ih =>
    unfold closeShards
    repeat' first
      | assumption | intro _ | with_reducible apply ih | with_reducible apply kept_closeShard
      | refine KeptP.get (kept_closeShard _ _ _ _ ?_) (by assumption) | with_reducible exact KeptP.none
      | with_reducible apply KeptP.some | with_reducible apply KeptP.some2
      | fail_if_no_progress with_reducible apply Kept.upd | split

theorem kept_slotWrite {a0 : State} (p : Nat) (m : Manifest) (part : SnapPart) (bs : List Byte) (off : Nat) (s : State) (hs : Kept a0 s) :
    KeptO a0 (slotWrite p m part bs off s) := by
  unfold slotWrite
  repeat' first
    | assumption | intro _ | with_reducible apply kept_snapOut
    | refine KeptO.get (kept_snapOut _ _ _ _ _ _ ?_) (by assumption) | with_reducible apply kept_snapLay
    | refine KeptO.get (kept_snapLay _ _ _ _ _ ?_) (by assumption) | with_reducible exact KeptO.none
    | with_reducible apply KeptO.ite | with_reducible apply KeptO.getD | with_reducible apply KeptO.some
    | with_reducible apply Kept.ite | fail_if_no_progress with_reducible apply Kept.upd

theorem kept_keepSlot {a0 : State} (p : Nat) (m : Manifest) (bs : List Byte) (off : Nat) (s : State) (hs : Kept a0 s) :
    Kept a0 (keepSlot p m bs off s) := by
  unfold keepSlot
  repeat' first
    | assumption | intro _ | with_reducible apply kept_onRun

theorem kept_writeBody {a0 : State} (p : Nat) (m : Manifest) (s : State) (hs : Kept a0 s) :
    KeptO a0 (writeBody p m s) := by
  unfold writeBody
  repeat' first
    | assumption | intro _ | with_reducible apply kept_bumpCounter | with_reducible apply kept_regAdd
    | with_reducible apply kept_slotWrite | refine KeptO.get (kept_slotWrite _ _ _ _ _ _ ?_) (by assumption)
    | with_reducible apply kept_keepSlot | with_reducible exact KeptO.none | with_reducible apply KeptO.map

theorem kept_writeCommit {a0 : State} (p : Nat) (m : Manifest) (s : State) (hs : Kept a0 s) :
    KeptO a0 (writeCommit p m s) := by
  unfold writeCommit
  repeat' first
    | assumption | intro _ | with_reducible apply kept_bumpCounter | with_reducible apply kept_regAdd
    | with_reducible apply kept_slotWrite | refine KeptO.get (kept_slotWrite _ _ _ _ _ _ ?_) (by assumption)
    | with_reducible apply kept_keepSlot | with_reducible exact KeptO.none | with_reducible apply KeptO.map

theorem kept_dropManifests {a0 : State} (p : Nat) (gone : Manifest → Bool) (s : State) (hs : Kept a0 s) :
    Kept a0 (dropManifests p gone s) := by
  unfold dropManifests
  repeat' first
    | assumption | intro _ | with_reducible apply kept_spotFree | with_reducible apply kept_onSnap
    | with_reducible apply Kept.ite | with_reducible apply Kept.foldl

theorem kept_storedTiles {a0 : State} (r : SnapRun) (s : State) (hs : Kept a0 s) :
    Kept a0 (storedTiles r s) := by
  unfold storedTiles
  repeat' first
    | assumption | intro _ | with_reducible apply kept_onTile | with_reducible apply Kept.foldl

theorem kept_commitEpoch {a0 : State} (p : Nat) (r : SnapRun) (m : Manifest) (s : State) (hs : Kept a0 s) :
    Kept a0 (commitEpoch p r m s) := by
  unfold commitEpoch
  repeat' first
    | assumption | intro _ | with_reducible apply kept_regSet | with_reducible apply kept_done
    | with_reducible apply kept_onSnap | with_reducible apply kept_unpend | with_reducible apply kept_dropManifests
    | with_reducible apply kept_storedTiles | fail_if_no_progress with_reducible apply Kept.upd | split

theorem kept_closeEpoch {a0 : State} (p : Nat) (r : SnapRun) (s : State) (hs : Kept a0 s) :
    Kept a0 (closeEpoch p r s) := by
  unfold closeEpoch
  repeat' first
    | assumption | intro _ | with_reducible apply kept_snapFail | with_reducible apply kept_closeShards
    | refine KeptP.get (kept_closeShards _ _ _ _ _ ?_) (by assumption) | with_reducible apply kept_writeBody
    | refine KeptO.get (kept_writeBody _ _ _ ?_) (by assumption) | with_reducible exact KeptP.none
    | with_reducible apply KeptO.getD | with_reducible apply KeptO.bind

theorem kept_execSnapshotCommit {a0 : State} (port : Port) (s : State) (hs : Kept a0 s) :
    KeptR a0 (execSnapshotCommit port s) := by
  unfold execSnapshotCommit
  repeat' first
    | assumption | intro _ | with_reducible apply kept_snapFail | with_reducible apply kept_writeCommit
    | refine KeptO.get (kept_writeCommit _ _ _ ?_) (by assumption) | with_reducible apply kept_commitEpoch
    | with_reducible apply kept_closeEpoch | with_reducible apply KeptR.ite | with_reducible apply KeptO.getD
    | with_reducible apply KeptR.next | with_reducible apply Kept.ite | fail_if_no_progress with_reducible apply Kept.upd
    | split | dsimp only

theorem kept_execSnpRetire {a0 : State} (r : Req) (epoch : DWord) (s : State) (hs : Kept a0 s) :
    KeptR a0 (execSnpRetire r epoch s) := by
  unfold execSnpRetire
  repeat' first
    | assumption | intro _ | with_reducible apply kept_done | with_reducible apply kept_fail
    | with_reducible apply kept_onReq | with_reducible apply kept_dropManifests | with_reducible apply KeptR.ite
    | with_reducible apply KeptR.next | with_reducible apply Kept.ite

theorem kept_execSnpList {a0 : State} (r : Req) (buf : DWord) (s : State) (hs : Kept a0 s) :
    KeptR a0 (execSnpList r buf s) := by
  unfold execSnpList
  repeat' first
    | assumption | intro _ | with_reducible apply kept_done | with_reducible apply kept_fail
    | with_reducible apply kept_withOut | with_reducible apply kept_onReq | with_reducible apply KeptR.ite
    | with_reducible apply KeptR.next | with_reducible apply Kept.ite

/-! ### Calibrate -/

theorem kept_failLine {a0 : State} (core : Nat) (line : Nat) (err : Nat) (s : State) (hs : Kept a0 s) :
    Kept a0 (failLine core line err s) := by
  unfold failLine
  repeat' first
    | assumption | intro _ | with_reducible apply kept_addRepair | with_reducible apply kept_raiseErr
    | with_reducible apply kept_regAdd | with_reducible apply Kept.ite

theorem kept_passLine {a0 : State} (bay : Nat) (n : Nat) (hold : Bool) (x : LinePass) (s : State) (hs : Kept a0 s) :
    Kept a0 (passLine bay n hold x s) := by
  unfold passLine
  repeat' first
    | assumption | intro _ | with_reducible apply kept_failLine | with_reducible apply kept_onBay
    | with_reducible apply Kept.ite

theorem kept_deskewPass {a0 : State} (bay : Nat) (n : Nat) (hold : Bool) (xs : List LinePass) (s : State) (hs : Kept a0 s) :
    Kept a0 (deskewPass bay n hold xs s) := by
  unfold deskewPass
  repeat' first
    | assumption | intro _ | with_reducible apply kept_passLine | with_reducible apply Kept.foldl

theorem kept_spareLines {a0 : State} (bay : Nat) (s : State) (hs : Kept a0 s) :
    Kept a0 (spareLines bay s) := by
  unfold spareLines
  repeat' first
    | assumption | intro _ | with_reducible apply kept_onBay | with_reducible apply kept_raiseErr
    | with_reducible apply Kept.foldl | fail_if_no_progress with_reducible apply Kept.upd | split | dsimp only

theorem kept_trackBay {a0 : State} (bay : Nat) (xs : List LinePass) (s : State) (hs : Kept a0 s) :
    Kept a0 (trackBay bay xs s) := by
  unfold trackBay
  repeat' first
    | assumption | intro _ | with_reducible apply kept_deskewPass | with_reducible apply kept_spareLines

theorem kept_execRefreshSlot {a0 : State} (bay : Fin 20) (start : Nat) (s : State) (hs : Kept a0 s) :
    KeptR a0 (execRefreshSlot bay start s) := by
  unfold execRefreshSlot
  repeat' first
    | assumption | intro _ | with_reducible apply kept_serveRefresh | with_reducible apply kept_markPlan
    | with_reducible apply KeptR.ite | with_reducible apply KeptR.next | with_reducible apply Kept.ite
    | fail_if_no_progress with_reducible apply Kept.upd | split

theorem kept_execDeskewSlot {a0 : State} (bay : Fin 20) (start : Nat) (passes : List LinePass) (s : State) (hs : Kept a0 s) :
    KeptR a0 (execDeskewSlot bay start passes s) := by
  unfold execDeskewSlot
  repeat' first
    | assumption | intro _ | with_reducible apply kept_trackBay | with_reducible apply kept_markPlan
    | with_reducible apply KeptR.ite | with_reducible apply KeptR.next | with_reducible apply Kept.ite
    | fail_if_no_progress with_reducible apply Kept.upd | split

theorem kept_execBayIdleRefresh {a0 : State} (bay : Fin 20) (passes : List LinePass) (s : State) (hs : Kept a0 s) :
    KeptR a0 (execBayIdleRefresh bay passes s) := by
  unfold execBayIdleRefresh
  repeat' first
    | assumption | intro _ | with_reducible apply kept_trackBay | with_reducible apply kept_serveRefresh
    | with_reducible apply KeptR.ite | with_reducible apply KeptR.next

theorem kept_execRefreshIntervalElapse {a0 : State} (bay : Fin 20) (s : State) (hs : Kept a0 s) :
    KeptR a0 (execRefreshIntervalElapse bay s) := by
  unfold execRefreshIntervalElapse
  repeat' first
    | assumption | intro _ | with_reducible apply kept_onBay | with_reducible apply KeptR.ite
    | with_reducible apply KeptR.next

theorem kept_requestHold {a0 : State} (bay : Nat) (cause : Nat) (len : Nat) (cyc : Nat) (s : State) (hs : Kept a0 s) :
    Kept a0 (requestHold bay cause len cyc s) := by
  unfold requestHold
  repeat' first
    | assumption | intro _ | with_reducible apply kept_onBay | with_reducible apply kept_setFrame
    | with_reducible apply kept_regAdd | with_reducible apply Kept.ite | fail_if_no_progress with_reducible apply Kept.upd
    | split

theorem kept_requestCal {a0 : State} (bay : Nat) (cyc : Nat) (s : State) (hs : Kept a0 s) :
    Kept a0 (requestCal bay cyc s) := by
  unfold requestCal
  repeat' first
    | assumption | intro _ | with_reducible apply kept_requestHold | with_reducible apply kept_onBay
    | with_reducible apply kept_regAdd | with_reducible apply Kept.ite

theorem kept_execHoldRequest {a0 : State} (bay : Fin 20) (cause : HoldCause) (cyc : Nat) (s : State) (hs : Kept a0 s) :
    KeptR a0 (execHoldRequest bay cause cyc s) := by
  unfold execHoldRequest
  repeat' first
    | assumption | intro _ | with_reducible apply kept_requestHold | with_reducible apply kept_requestCal
    | with_reducible apply KeptR.ite | with_reducible apply KeptR.next | with_reducible apply Kept.ite
    | fail_if_no_progress with_reducible apply Kept.upd | split

theorem kept_execHoldFreeze {a0 : State} (bay : Fin 20) (s : State) (hs : Kept a0 s) :
    KeptR a0 (execHoldFreeze bay s) := by
  unfold execHoldFreeze
  repeat' first
    | assumption | intro _ | with_reducible apply kept_beginHold | with_reducible apply KeptR.ite
    | with_reducible apply KeptR.next | with_reducible apply Kept.ite | fail_if_no_progress with_reducible apply Kept.upd
    | split

theorem kept_execHoldEnd {a0 : State} (bay : Fin 20) (passes : List LinePass) (s : State) (hs : Kept a0 s) :
    KeptR a0 (execHoldEnd bay passes s) := by
  unfold execHoldEnd
  repeat' first
    | assumption | intro _ | with_reducible apply kept_deskewPass | with_reducible apply kept_setFrame
    | with_reducible apply kept_beginHold | with_reducible apply kept_regAdd | with_reducible apply KeptR.next
    | with_reducible apply Kept.foldl | fail_if_no_progress with_reducible apply Kept.upd | split

theorem kept_execDeskewPhaseAlarm {a0 : State} (core : Fin 10240) (line : Fin 1648) (error : Int) (cyc : Nat) (s : State) (hs : Kept a0 s) :
    KeptR a0 (execDeskewPhaseAlarm core line error cyc s) := by
  unfold execDeskewPhaseAlarm
  repeat' first
    | assumption | intro _ | with_reducible apply kept_requestCal | with_reducible apply kept_onBay
    | with_reducible apply KeptR.ite | with_reducible apply KeptR.next | with_reducible apply Kept.ite
    | fail_if_no_progress with_reducible apply Kept.upd | split | dsimp only

theorem kept_execClockMonitorWindow {a0 : State} (bay : Fin 20) (ppm : Nat) (lockLost : Bool) (cyc : Nat) (s : State) (hs : Kept a0 s) :
    KeptR a0 (execClockMonitorWindow bay ppm lockLost cyc s) := by
  unfold execClockMonitorWindow
  repeat' first
    | assumption | intro _ | with_reducible apply kept_requestHold | with_reducible apply kept_fenceBay
    | with_reducible apply kept_hubFault | with_reducible apply kept_onBay | with_reducible apply kept_switchClock
    | with_reducible apply kept_lockLost | with_reducible apply KeptR.ite | with_reducible apply KeptR.next
    | with_reducible apply Kept.ite

theorem kept_onCal {a0 : State} (f : FarCal → FarCal) (s : State) (hs : Kept a0 s) :
    Kept a0 (onCal f s) := by
  unfold onCal
  repeat' first
    | assumption | intro _ | fail_if_no_progress with_reducible apply Kept.upd

theorem kept_execFarRetrainWindow {a0 : State} (s : State) (hs : Kept a0 s) :
    KeptR a0 (execFarRetrainWindow s) := by
  unfold execFarRetrainWindow
  repeat' first
    | assumption | intro _ | with_reducible apply kept_onCal | with_reducible apply KeptR.ite
    | with_reducible apply KeptR.next

theorem kept_execFarRetrainBurst {a0 : State} (s : State) (hs : Kept a0 s) :
    KeptR a0 (execFarRetrainBurst s) := by
  unfold execFarRetrainBurst
  repeat' first
    | assumption | intro _ | with_reducible apply kept_onCal | with_reducible apply KeptR.ite
    | with_reducible apply KeptR.next | with_reducible apply Kept.ite | fail_if_no_progress with_reducible apply Kept.upd
    | split

theorem kept_execFarBurstEnd {a0 : State} (s : State) (hs : Kept a0 s) :
    KeptR a0 (execFarBurstEnd s) := by
  unfold execFarBurstEnd
  repeat' first
    | assumption | intro _ | with_reducible apply kept_onCal | with_reducible apply kept_regAdd
    | with_reducible apply KeptR.ite | with_reducible apply KeptR.next | with_reducible apply Kept.ite
    | fail_if_no_progress with_reducible apply Kept.upd | split

theorem kept_execFarDeviceTempChange {a0 : State} (channel : Fin 64) (s : State) (hs : Kept a0 s) :
    KeptR a0 (execFarDeviceTempChange channel s) := by
  unfold execFarDeviceTempChange
  repeat' first
    | assumption | intro _ | with_reducible apply kept_onCal | with_reducible apply kept_regAdd
    | with_reducible apply KeptR.ite | with_reducible apply KeptR.next

end Sys2Proof.Machine
end

