-- ==== Sys2Proof/Laws/KeptBoard.lean ====
section
/-! SUPPORT. What the board, the cores, the gatehouse, profiles and restores keep (`Kept`): one lemma for each operation,
cited instead of unfolding it. -/

namespace Sys2Proof.Machine

/-! ### Board -/

theorem kept_moduleReset {a0 : State} (causes : List ResetCause) (s : State) (hs : Kept a0 s) :
    Kept a0 (moduleReset causes s) := by
  refine ⟨hs.pending, hs.time, hs.hclk, hs.host, fun _ => rfl, hs.floor, hs.boots, hs.block, fun h => ?_, hs.serial⟩
  exact ⟨(hs.signed h).1.trans (hs.signed h).2.2, Nat.mul_le_mul_left _ (Nat.sub_le _ _), Nat.le_refl _⟩

theorem kept_execModuleResetEntry {a0 : State} (cause : ResetCause) (s : State) (hs : Kept a0 s) :
    KeptR a0 (execModuleResetEntry cause s) := by
  unfold execModuleResetEntry
  repeat' first
    | assumption | intro _ | with_reducible apply kept_moduleReset | with_reducible apply KeptR.ite
    | with_reducible apply KeptR.next

theorem kept_execModuleResetRelease {a0 : State} (s : State) (hs : Kept a0 s) :
    KeptR a0 (execModuleResetRelease s) := by
  unfold execModuleResetRelease
  repeat' first
    | assumption | intro _ | with_reducible apply KeptR.ite | with_reducible apply KeptR.next | with_reducible apply Kept.ite
    | fail_if_no_progress with_reducible apply Kept.upd

theorem kept_execHubPllLock {a0 : State} (s : State) (hs : Kept a0 s) :
    KeptR a0 (execHubPllLock s) := by
  unfold execHubPllLock
  repeat' first
    | assumption | intro _ | with_reducible apply KeptR.ite | with_reducible apply KeptR.next | with_reducible apply Kept.ite
    | fail_if_no_progress with_reducible apply Kept.upd

theorem kept_execPortTrainEnable {a0 : State} (port : Port) (s : State) (hs : Kept a0 s) :
    KeptR a0 (execPortTrainEnable port s) := by
  unfold execPortTrainEnable
  repeat' first
    | assumption | intro _ | with_reducible apply KeptR.ite | with_reducible apply KeptR.next | with_reducible apply Kept.ite
    | fail_if_no_progress with_reducible apply Kept.upd

theorem kept_tapTake {a0 : State} (ins : TapIns) (cells : List Bool) (out : Nat) (s : State) (hs : Kept a0 s) :
    KeptR a0 (tapTake ins cells out s) := by
  unfold tapTake
  repeat' first
    | assumption | intro _ | with_reducible apply KeptR.ite | with_reducible apply KeptR.next | with_reducible apply Kept.ite
    | fail_if_no_progress with_reducible apply Kept.upd

theorem kept_execTapBypass {a0 : State} (tdi : List Bool) (s : State) (hs : Kept a0 s) :
    KeptR a0 (execTapBypass tdi s) := by
  unfold execTapBypass
  repeat' first
    | assumption | intro _ | with_reducible apply kept_tapTake

theorem kept_execTapIdcode {a0 : State} (s : State) (hs : Kept a0 s) :
    KeptR a0 (execTapIdcode s) := by
  unfold execTapIdcode
  repeat' first
    | assumption | intro _ | with_reducible apply kept_tapTake

theorem kept_execTapSamplePreload {a0 : State} (pins : List Bool) (data : List Bool) (s : State) (hs : Kept a0 s) :
    KeptR a0 (execTapSamplePreload pins data s) := by
  unfold execTapSamplePreload
  repeat' first
    | assumption | intro _ | with_reducible apply kept_tapTake

theorem kept_execTapExtest {a0 : State} (pins : List Bool) (data : List Bool) (s : State) (hs : Kept a0 s) :
    KeptR a0 (execTapExtest pins data s) := by
  unfold execTapExtest
  repeat' first
    | assumption | intro _ | with_reducible apply kept_tapTake

theorem kept_execTapClamp {a0 : State} (tdi : List Bool) (s : State) (hs : Kept a0 s) :
    KeptR a0 (execTapClamp tdi s) := by
  unfold execTapClamp
  repeat' first
    | assumption | intro _ | with_reducible apply kept_tapTake

theorem kept_execTapHighz {a0 : State} (tdi : List Bool) (s : State) (hs : Kept a0 s) :
    KeptR a0 (execTapHighz tdi s) := by
  unfold execTapHighz
  repeat' first
    | assumption | intro _ | with_reducible apply kept_tapTake

theorem kept_execTapExtestPulse {a0 : State} (pins : List Bool) (data : List Bool) (s : State) (hs : Kept a0 s) :
    KeptR a0 (execTapExtestPulse pins data s) := by
  unfold execTapExtestPulse
  repeat' first
    | assumption | intro _ | with_reducible apply kept_tapTake

theorem kept_execTapExtestTrain {a0 : State} (pins : List Bool) (data : List Bool) (s : State) (hs : Kept a0 s) :
    KeptR a0 (execTapExtestTrain pins data s) := by
  unfold execTapExtestTrain
  repeat' first
    | assumption | intro _ | with_reducible apply kept_tapTake

/-! ### CoreMatrix -/

theorem kept_execMmaK4 {a0 : State} (k : Fin 10240) (cyc : Nat) (acc : Fin 8) (col : Fin 32) (a : PAddr) (scale : PAddr) (bFmt : BFmt) (b : PAddr) (ktA : Fin 8) (ktB : Fin 8) (z : Bool) (s : State) (hs : Kept a0 s) :
    KeptR a0 (execMmaK4 k cyc acc col a scale bFmt b ktA ktB z s) := by
  unfold execMmaK4
  repeat' first
    | assumption | intro _ | with_reducible apply kept_coreStep

theorem kept_execMmaK4s {a0 : State} (k : Fin 10240) (cyc : Nat) (acc : Fin 8) (col : Fin 32) (a : PAddr) (scale : PAddr) (bFmt : BFmt) (b : PAddr) (ktA : Fin 8) (ktB : Fin 8) (z : Bool) (s : State) (hs : Kept a0 s) :
    KeptR a0 (execMmaK4s k cyc acc col a scale bFmt b ktA ktB z s) := by
  unfold execMmaK4s
  repeat' first
    | assumption | intro _ | with_reducible apply kept_coreStep

theorem kept_execMmaF8 {a0 : State} (k : Fin 10240) (cyc : Nat) (acc : Fin 8) (col : Fin 32) (a : PAddr) (b : PAddr) (aEnc : F8) (bEnc : F8) (z : Bool) (s : State) (hs : Kept a0 s) :
    KeptR a0 (execMmaF8 k cyc acc col a b aEnc bEnc z s) := by
  unfold execMmaF8
  repeat' first
    | assumption | intro _ | with_reducible apply kept_coreStep

theorem kept_execMmaBf16 {a0 : State} (k : Fin 10240) (cyc : Nat) (acc : Fin 8) (col : Fin 32) (a : PAddr) (b : PAddr) (z : Bool) (s : State) (hs : Kept a0 s) :
    KeptR a0 (execMmaBf16 k cyc acc col a b z s) := by
  unfold execMmaBf16
  repeat' first
    | assumption | intro _ | with_reducible apply kept_coreStep

theorem kept_execAccrd {a0 : State} (k : Fin 10240) (cyc : Nat) (acc : Fin 8) (col : Fin 32) (vd : Fin 32) (fmt : Fmt) (nonsat : Bool) (s : State) (hs : Kept a0 s) :
    KeptR a0 (execAccrd k cyc acc col vd fmt nonsat s) := by
  unfold execAccrd
  repeat' first
    | assumption | intro _ | with_reducible apply kept_coreStep

/-! ### CoreMemory -/

theorem kept_coreMemLost {a0 : State} (k : Nat) (m : CoreMem) (s : State) (hs : Kept a0 s) :
    Kept a0 (coreMemLost k m s) := by
  unfold coreMemLost
  repeat' first
    | assumption | intro _ | with_reducible apply kept_setFrame | with_reducible apply kept_raiseErr
    | with_reducible apply Kept.ite | fail_if_no_progress with_reducible apply Kept.upd | split

theorem kept_execVld {a0 : State} (k : Fin 10240) (cyc : Nat) (v : Fin 32) (addr : PAddr) (bad : Option CoreMem) (s : State) (hs : Kept a0 s) :
    KeptR a0 (execVld k cyc v addr bad s) := by
  unfold execVld
  repeat' first
    | assumption | intro _ | with_reducible apply kept_coreStep | with_reducible apply kept_coreMemLost
    | with_reducible apply KeptR.ite | with_reducible apply KeptR.next | with_reducible apply Kept.ite
    | fail_if_no_progress with_reducible apply Kept.upd | split | dsimp only

theorem kept_execVst {a0 : State} (k : Fin 10240) (cyc : Nat) (v : Fin 32) (addr : PAddr) (s : State) (hs : Kept a0 s) :
    KeptR a0 (execVst k cyc v addr s) := by
  unfold execVst
  repeat' first
    | assumption | intro _ | with_reducible apply kept_coreStep

theorem kept_execTld {a0 : State} (k : Fin 10240) (cyc : Nat) (kt : Fin 8) (addr : PAddr) (s : State) (hs : Kept a0 s) :
    KeptR a0 (execTld k cyc kt addr s) := by
  unfold execTld
  repeat' first
    | assumption | intro _ | with_reducible apply kept_coreStep

theorem kept_execSld {a0 : State} (k : Fin 10240) (cyc : Nat) (sr : Fin 16) (addr : PAddr) (s : State) (hs : Kept a0 s) :
    KeptR a0 (execSld k cyc sr addr s) := by
  unfold execSld
  repeat' first
    | assumption | intro _ | with_reducible apply kept_coreStep

theorem kept_execSst {a0 : State} (k : Fin 10240) (cyc : Nat) (sr : Fin 16) (addr : PAddr) (s : State) (hs : Kept a0 s) :
    KeptR a0 (execSst k cyc sr addr s) := by
  unfold execSst
  repeat' first
    | assumption | intro _ | with_reducible apply kept_coreStep

theorem kept_codecRefused {a0 : State} (key : Nat) (k : Nat) (line : Nat) (s : State) (hs : Kept a0 s) :
    Kept a0 (codecRefused key k line s) := by
  unfold codecRefused
  repeat' first
    | assumption | intro _ | with_reducible apply kept_raiseErr | with_reducible apply kept_damageSlot
    | with_reducible apply kept_regAdd

theorem kept_execBld {a0 : State} (k : Fin 10240) (cyc : Nat) (pane : PAddr) (sliver : PAddr) (lines : Nat) (mode : Fin 8) (bad : List Nat) (s : State) (hs : Kept a0 s) :
    KeptR a0 (execBld k cyc pane sliver lines mode bad s) := by
  unfold execBld
  repeat' first
    | assumption | intro _ | with_reducible apply kept_advance | with_reducible apply kept_codecRefused
    | with_reducible apply kept_setCore | with_reducible apply kept_setFrame | with_reducible apply kept_damageSlot
    | with_reducible apply kept_lineLost | with_reducible exact KeptR.fault | with_reducible apply KeptR.ite
    | with_reducible apply KeptR.next | with_reducible apply Kept.ite | with_reducible apply Kept.foldl
    | fail_if_no_progress with_reducible apply Kept.upd | split | dsimp only

theorem kept_execBst {a0 : State} (k : Fin 10240) (cyc : Nat) (pane : PAddr) (sliver : PAddr) (lines : Nat) (mode : Fin 8) (tag : Option (Fin 1024)) (s : State) (hs : Kept a0 s) :
    KeptR a0 (execBst k cyc pane sliver lines mode tag s) := by
  unfold execBst
  split
  · exact .next hs
  · dsimp only
    split
    · exact .fault
    · exact .fault
    · exact .next (kept_advance _ _ _ (kept_setCore _ _ _ (kept_setFrame _ _ _ (kept_advance _ _ _ hs))))

theorem kept_execLsend {a0 : State} (k : Fin 10240) (cyc : Nat) (pane : PAddr) (dst : Fin 512) (beats : Nat) (s : State) (hs : Kept a0 s) :
    KeptR a0 (execLsend k cyc pane dst beats s) := by
  unfold execLsend
  repeat' first
    | assumption | intro _ | with_reducible apply kept_advance | with_reducible apply kept_setFrame
    | with_reducible exact KeptR.fault | with_reducible apply KeptR.ite | with_reducible apply KeptR.next
    | with_reducible apply Kept.ite | fail_if_no_progress with_reducible apply Kept.upd | split | dsimp only

theorem kept_execLrecv {a0 : State} (k : Fin 10240) (cyc : Nat) (pane : PAddr) (beats : Nat) (s : State) (hs : Kept a0 s) :
    KeptR a0 (execLrecv k cyc pane beats s) := by
  unfold execLrecv
  repeat' first
    | assumption | intro _ | with_reducible apply kept_advance | with_reducible apply kept_setCore
    | with_reducible apply kept_setFrame | with_reducible exact KeptR.fault | with_reducible apply KeptR.next
    | with_reducible apply Kept.foldl | fail_if_no_progress with_reducible apply Kept.upd | split | dsimp only

theorem kept_execColonnadeTransfer {a0 : State} (cyc : Nat) (src : ColSource) (dsts : List PanePlace) (path : ColPath) (beats : Nat) (s : State) (hs : Kept a0 s) :
    KeptR a0 (execColonnadeTransfer cyc src dsts path beats s) := by
  unfold execColonnadeTransfer
  repeat' first
    | assumption | intro _ | with_reducible apply kept_advance | with_reducible apply kept_setFrame
    | with_reducible exact KeptR.fault | with_reducible apply KeptR.ite | with_reducible apply KeptR.next
    | with_reducible apply Kept.ite | fail_if_no_progress with_reducible apply Kept.upd | split | dsimp only

theorem kept_execColonnadeBeatArrival {a0 : State} (k : Fin 10240) (cyc : Nat) (s : State) (hs : Kept a0 s) :
    KeptR a0 (execColonnadeBeatArrival k cyc s) := by
  unfold execColonnadeBeatArrival
  repeat' first
    | assumption | intro _ | with_reducible apply kept_advance | with_reducible apply kept_setFrame
    | with_reducible apply KeptR.next | fail_if_no_progress with_reducible apply Kept.upd | split

/-! ### CoreScalar -/

theorem kept_scalar2 {a0 : State} (i : Instr) (f : DWord → DWord → DWord) (k : Fin 10240) (cyc : Nat) (sd : Fin 16) (sa : Fin 16) (sb : SOperand) (s : State) (hs : Kept a0 s) :
    KeptR a0 (scalar2 i f k cyc sd sa sb s) := by
  unfold scalar2
  repeat' first
    | assumption | intro _ | with_reducible apply kept_coreStep

theorem kept_execScAdd {a0 : State} (k : Fin 10240) (cyc : Nat) (sd : Fin 16) (sa : Fin 16) (sb : SOperand) (s : State) (hs : Kept a0 s) :
    KeptR a0 (execScAdd k cyc sd sa sb s) := by
  unfold execScAdd
  repeat' first
    | assumption | intro _ | with_reducible apply kept_scalar2

theorem kept_execScSub {a0 : State} (k : Fin 10240) (cyc : Nat) (sd : Fin 16) (sa : Fin 16) (sb : SOperand) (s : State) (hs : Kept a0 s) :
    KeptR a0 (execScSub k cyc sd sa sb s) := by
  unfold execScSub
  repeat' first
    | assumption | intro _ | with_reducible apply kept_scalar2

theorem kept_execScMul {a0 : State} (k : Fin 10240) (cyc : Nat) (sd : Fin 16) (sa : Fin 16) (sb : SOperand) (s : State) (hs : Kept a0 s) :
    KeptR a0 (execScMul k cyc sd sa sb s) := by
  unfold execScMul
  repeat' first
    | assumption | intro _ | with_reducible apply kept_scalar2

theorem kept_execScShl {a0 : State} (k : Fin 10240) (cyc : Nat) (sd : Fin 16) (sa : Fin 16) (sb : SOperand) (s : State) (hs : Kept a0 s) :
    KeptR a0 (execScShl k cyc sd sa sb s) := by
  unfold execScShl
  repeat' first
    | assumption | intro _ | with_reducible apply kept_scalar2

theorem kept_execScShr {a0 : State} (k : Fin 10240) (cyc : Nat) (sd : Fin 16) (sa : Fin 16) (sb : SOperand) (s : State) (hs : Kept a0 s) :
    KeptR a0 (execScShr k cyc sd sa sb s) := by
  unfold execScShr
  repeat' first
    | assumption | intro _ | with_reducible apply kept_scalar2

theorem kept_execScSar {a0 : State} (k : Fin 10240) (cyc : Nat) (sd : Fin 16) (sa : Fin 16) (sb : SOperand) (s : State) (hs : Kept a0 s) :
    KeptR a0 (execScSar k cyc sd sa sb s) := by
  unfold execScSar
  repeat' first
    | assumption | intro _ | with_reducible apply kept_scalar2

theorem kept_execScAnd {a0 : State} (k : Fin 10240) (cyc : Nat) (sd : Fin 16) (sa : Fin 16) (sb : SOperand) (s : State) (hs : Kept a0 s) :
    KeptR a0 (execScAnd k cyc sd sa sb s) := by
  unfold execScAnd
  repeat' first
    | assumption | intro _ | with_reducible apply kept_scalar2

theorem kept_execScOr {a0 : State} (k : Fin 10240) (cyc : Nat) (sd : Fin 16) (sa : Fin 16) (sb : SOperand) (s : State) (hs : Kept a0 s) :
    KeptR a0 (execScOr k cyc sd sa sb s) := by
  unfold execScOr
  repeat' first
    | assumption | intro _ | with_reducible apply kept_scalar2

theorem kept_execScXor {a0 : State} (k : Fin 10240) (cyc : Nat) (sd : Fin 16) (sa : Fin 16) (sb : SOperand) (s : State) (hs : Kept a0 s) :
    KeptR a0 (execScXor k cyc sd sa sb s) := by
  unfold execScXor
  repeat' first
    | assumption | intro _ | with_reducible apply kept_scalar2

theorem kept_execScNot {a0 : State} (k : Fin 10240) (cyc : Nat) (sd : Fin 16) (sa : Fin 16) (s : State) (hs : Kept a0 s) :
    KeptR a0 (execScNot k cyc sd sa s) := by
  unfold execScNot
  repeat' first
    | assumption | intro _ | with_reducible apply kept_coreStep

theorem kept_execScCeq {a0 : State} (k : Fin 10240) (cyc : Nat) (sd : Fin 16) (sa : Fin 16) (sb : SOperand) (s : State) (hs : Kept a0 s) :
    KeptR a0 (execScCeq k cyc sd sa sb s) := by
  unfold execScCeq
  repeat' first
    | assumption | intro _ | with_reducible apply kept_scalar2

theorem kept_execScClt {a0 : State} (k : Fin 10240) (cyc : Nat) (sd : Fin 16) (sa : Fin 16) (sb : SOperand) (s : State) (hs : Kept a0 s) :
    KeptR a0 (execScClt k cyc sd sa sb s) := by
  unfold execScClt
  repeat' first
    | assumption | intro _ | with_reducible apply kept_scalar2

theorem kept_execScCltu {a0 : State} (k : Fin 10240) (cyc : Nat) (sd : Fin 16) (sa : Fin 16) (sb : SOperand) (s : State) (hs : Kept a0 s) :
    KeptR a0 (execScCltu k cyc sd sa sb s) := by
  unfold execScCltu
  repeat' first
    | assumption | intro _ | with_reducible apply kept_scalar2

theorem kept_execScMovi {a0 : State} (k : Fin 10240) (cyc : Nat) (sd : Fin 16) (imm : Word) (s : State) (hs : Kept a0 s) :
    KeptR a0 (execScMovi k cyc sd imm s) := by
  unfold execScMovi
  repeat' first
    | assumption | intro _ | with_reducible apply kept_coreStep

theorem kept_execScMov {a0 : State} (k : Fin 10240) (cyc : Nat) (sd : Fin 16) (sa : Fin 16) (s : State) (hs : Kept a0 s) :
    KeptR a0 (execScMov k cyc sd sa s) := by
  unfold execScMov
  repeat' first
    | assumption | intro _ | with_reducible apply kept_coreStep

theorem kept_execLoop {a0 : State} (k : Fin 10240) (cyc : Nat) (level : Fin 8) (trip : Nat) (last : Nat) (s : State) (hs : Kept a0 s) :
    KeptR a0 (execLoop k cyc level trip last s) := by
  unfold execLoop
  repeat' first
    | assumption | intro _ | with_reducible apply kept_coreStep

/-! ### CoreVector -/

theorem kept_fp2 {a0 : State} (i : Instr) (f : FVal → FVal → LaneRes Word) (k : Fin 10240) (cyc : Nat) (vd : Fin 32) (va : Fin 32) (vb : Fin 32) (m : Mask) (s : State) (hs : Kept a0 s) :
    KeptR a0 (fp2 i f k cyc vd va vb m s) := by
  unfold fp2
  repeat' first
    | assumption | intro _ | with_reducible apply kept_coreStep

theorem kept_int2 {a0 : State} (i : Instr) (f : Int → Int → LaneRes Nat) (k : Fin 10240) (cyc : Nat) (vd : Fin 32) (va : Fin 32) (vb : Fin 32) (m : Mask) (s : State) (hs : Kept a0 s) :
    KeptR a0 (int2 i f k cyc vd va vb m s) := by
  unfold int2
  repeat' first
    | assumption | intro _ | with_reducible apply kept_coreStep

theorem kept_special1 {a0 : State} (i : Instr) (f : FVal → LaneRes Word) (k : Fin 10240) (cyc : Nat) (vd : Fin 32) (va : Fin 32) (m : Mask) (s : State) (hs : Kept a0 s) :
    KeptR a0 (special1 i f k cyc vd va m s) := by
  unfold special1
  repeat' first
    | assumption | intro _ | with_reducible apply kept_coreStep

theorem kept_execVadd {a0 : State} (k : Fin 10240) (cyc : Nat) (vd : Fin 32) (va : Fin 32) (vb : Fin 32) (mask : Mask) (s : State) (hs : Kept a0 s) :
    KeptR a0 (execVadd k cyc vd va vb mask s) := by
  unfold execVadd
  repeat' first
    | assumption | intro _ | with_reducible apply kept_fp2

theorem kept_execVsub {a0 : State} (k : Fin 10240) (cyc : Nat) (vd : Fin 32) (va : Fin 32) (vb : Fin 32) (mask : Mask) (s : State) (hs : Kept a0 s) :
    KeptR a0 (execVsub k cyc vd va vb mask s) := by
  unfold execVsub
  repeat' first
    | assumption | intro _ | with_reducible apply kept_fp2

theorem kept_execVmul {a0 : State} (k : Fin 10240) (cyc : Nat) (vd : Fin 32) (va : Fin 32) (vb : Fin 32) (mask : Mask) (s : State) (hs : Kept a0 s) :
    KeptR a0 (execVmul k cyc vd va vb mask s) := by
  unfold execVmul
  repeat' first
    | assumption | intro _ | with_reducible apply kept_fp2

theorem kept_execVfma {a0 : State} (k : Fin 10240) (cyc : Nat) (vd : Fin 32) (va : Fin 32) (vb : Fin 32) (vc : Fin 32) (mask : Mask) (s : State) (hs : Kept a0 s) :
    KeptR a0 (execVfma k cyc vd va vb vc mask s) := by
  unfold execVfma
  repeat' first
    | assumption | intro _ | with_reducible apply kept_coreStep

theorem kept_execVmax {a0 : State} (k : Fin 10240) (cyc : Nat) (vd : Fin 32) (va : Fin 32) (vb : Fin 32) (mask : Mask) (s : State) (hs : Kept a0 s) :
    KeptR a0 (execVmax k cyc vd va vb mask s) := by
  unfold execVmax
  repeat' first
    | assumption | intro _ | with_reducible apply kept_fp2

theorem kept_execVmin {a0 : State} (k : Fin 10240) (cyc : Nat) (vd : Fin 32) (va : Fin 32) (vb : Fin 32) (mask : Mask) (s : State) (hs : Kept a0 s) :
    KeptR a0 (execVmin k cyc vd va vb mask s) := by
  unfold execVmin
  repeat' first
    | assumption | intro _ | with_reducible apply kept_fp2

theorem kept_execVabs {a0 : State} (k : Fin 10240) (cyc : Nat) (vd : Fin 32) (va : Fin 32) (mask : Mask) (s : State) (hs : Kept a0 s) :
    KeptR a0 (execVabs k cyc vd va mask s) := by
  unfold execVabs
  repeat' first
    | assumption | intro _ | with_reducible apply kept_coreStep

theorem kept_execVcvt {a0 : State} (k : Fin 10240) (cyc : Nat) (vd : Fin 32) (va : Fin 32) (src : Fmt) (dst : Fmt) (nonsat : Bool) (kt : Fin 8) (s : State) (hs : Kept a0 s) :
    KeptR a0 (execVcvt k cyc vd va src dst nonsat kt s) := by
  unfold execVcvt
  repeat' first
    | assumption | intro _ | with_reducible apply kept_coreStep

theorem kept_execVaddI16 {a0 : State} (k : Fin 10240) (cyc : Nat) (vd : Fin 32) (va : Fin 32) (vb : Fin 32) (mask : Mask) (s : State) (hs : Kept a0 s) :
    KeptR a0 (execVaddI16 k cyc vd va vb mask s) := by
  unfold execVaddI16
  repeat' first
    | assumption | intro _ | with_reducible apply kept_int2

theorem kept_execVsubI16 {a0 : State} (k : Fin 10240) (cyc : Nat) (vd : Fin 32) (va : Fin 32) (vb : Fin 32) (mask : Mask) (s : State) (hs : Kept a0 s) :
    KeptR a0 (execVsubI16 k cyc vd va vb mask s) := by
  unfold execVsubI16
  repeat' first
    | assumption | intro _ | with_reducible apply kept_int2

theorem kept_execVmulI16 {a0 : State} (k : Fin 10240) (cyc : Nat) (vd : Fin 32) (va : Fin 32) (vb : Fin 32) (mask : Mask) (s : State) (hs : Kept a0 s) :
    KeptR a0 (execVmulI16 k cyc vd va vb mask s) := by
  unfold execVmulI16
  repeat' first
    | assumption | intro _ | with_reducible apply kept_int2

theorem kept_execVmulhI16 {a0 : State} (k : Fin 10240) (cyc : Nat) (vd : Fin 32) (va : Fin 32) (vb : Fin 32) (mask : Mask) (s : State) (hs : Kept a0 s) :
    KeptR a0 (execVmulhI16 k cyc vd va vb mask s) := by
  unfold execVmulhI16
  repeat' first
    | assumption | intro _ | with_reducible apply kept_int2

theorem kept_execVmaddI16 {a0 : State} (k : Fin 10240) (cyc : Nat) (vd : Fin 32) (va : Fin 32) (vb : Fin 32) (vc : Fin 32) (mask : Mask) (s : State) (hs : Kept a0 s) :
    KeptR a0 (execVmaddI16 k cyc vd va vb vc mask s) := by
  unfold execVmaddI16
  repeat' first
    | assumption | intro _ | with_reducible apply kept_coreStep

theorem kept_execVshlI16 {a0 : State} (k : Fin 10240) (cyc : Nat) (vd : Fin 32) (va : Fin 32) (vb : Fin 32) (mask : Mask) (s : State) (hs : Kept a0 s) :
    KeptR a0 (execVshlI16 k cyc vd va vb mask s) := by
  unfold execVshlI16
  repeat' first
    | assumption | intro _ | with_reducible apply kept_int2

theorem kept_execVshrI16 {a0 : State} (k : Fin 10240) (cyc : Nat) (vd : Fin 32) (va : Fin 32) (vb : Fin 32) (mask : Mask) (s : State) (hs : Kept a0 s) :
    KeptR a0 (execVshrI16 k cyc vd va vb mask s) := by
  unfold execVshrI16
  repeat' first
    | assumption | intro _ | with_reducible apply kept_int2

theorem kept_execVaddI16W {a0 : State} (k : Fin 10240) (cyc : Nat) (vd : Fin 32) (va : Fin 32) (vb : Fin 32) (mask : Mask) (s : State) (hs : Kept a0 s) :
    KeptR a0 (execVaddI16W k cyc vd va vb mask s) := by
  unfold execVaddI16W
  repeat' first
    | assumption | intro _ | with_reducible apply kept_int2

theorem kept_execVsubI16W {a0 : State} (k : Fin 10240) (cyc : Nat) (vd : Fin 32) (va : Fin 32) (vb : Fin 32) (mask : Mask) (s : State) (hs : Kept a0 s) :
    KeptR a0 (execVsubI16W k cyc vd va vb mask s) := by
  unfold execVsubI16W
  repeat' first
    | assumption | intro _ | with_reducible apply kept_int2

theorem kept_execVmulI16W {a0 : State} (k : Fin 10240) (cyc : Nat) (vd : Fin 32) (va : Fin 32) (vb : Fin 32) (mask : Mask) (s : State) (hs : Kept a0 s) :
    KeptR a0 (execVmulI16W k cyc vd va vb mask s) := by
  unfold execVmulI16W
  repeat' first
    | assumption | intro _ | with_reducible apply kept_int2

theorem kept_reduce {a0 : State} (i : Instr) (f : FVal → FVal → LaneRes Word) (k : Fin 10240) (cyc : Nat) (rd : RedDest) (va : Fin 32) (s : State) (hs : Kept a0 s) :
    KeptR a0 (reduce i f k cyc rd va s) := by
  unfold reduce
  repeat' first
    | assumption | intro _ | with_reducible apply kept_coreStep

theorem kept_execVsumr {a0 : State} (k : Fin 10240) (cyc : Nat) (rd : RedDest) (va : Fin 32) (s : State) (hs : Kept a0 s) :
    KeptR a0 (execVsumr k cyc rd va s) := by
  unfold execVsumr
  repeat' first
    | assumption | intro _ | with_reducible apply kept_reduce

theorem kept_execVmaxr {a0 : State} (k : Fin 10240) (cyc : Nat) (rd : RedDest) (va : Fin 32) (s : State) (hs : Kept a0 s) :
    KeptR a0 (execVmaxr k cyc rd va s) := by
  unfold execVmaxr
  repeat' first
    | assumption | intro _ | with_reducible apply kept_reduce

theorem kept_execVexp2 {a0 : State} (k : Fin 10240) (cyc : Nat) (vd : Fin 32) (va : Fin 32) (mask : Mask) (s : State) (hs : Kept a0 s) :
    KeptR a0 (execVexp2 k cyc vd va mask s) := by
  unfold execVexp2
  repeat' first
    | assumption | intro _ | with_reducible apply kept_special1

theorem kept_execVexp {a0 : State} (k : Fin 10240) (cyc : Nat) (vd : Fin 32) (va : Fin 32) (mask : Mask) (s : State) (hs : Kept a0 s) :
    KeptR a0 (execVexp k cyc vd va mask s) := by
  unfold execVexp
  repeat' first
    | assumption | intro _ | with_reducible apply kept_special1

theorem kept_execVexpsub {a0 : State} (k : Fin 10240) (cyc : Nat) (vd : Fin 32) (va : Fin 32) (vm : Fin 32) (mask : Mask) (s : State) (hs : Kept a0 s) :
    KeptR a0 (execVexpsub k cyc vd va vm mask s) := by
  unfold execVexpsub
  repeat' first
    | assumption | intro _ | with_reducible apply kept_coreStep

theorem kept_execVrcp {a0 : State} (k : Fin 10240) (cyc : Nat) (vd : Fin 32) (va : Fin 32) (mask : Mask) (s : State) (hs : Kept a0 s) :
    KeptR a0 (execVrcp k cyc vd va mask s) := by
  unfold execVrcp
  repeat' first
    | assumption | intro _ | with_reducible apply kept_special1

theorem kept_execVrsqrt {a0 : State} (k : Fin 10240) (cyc : Nat) (vd : Fin 32) (va : Fin 32) (mask : Mask) (s : State) (hs : Kept a0 s) :
    KeptR a0 (execVrsqrt k cyc vd va mask s) := by
  unfold execVrsqrt
  repeat' first
    | assumption | intro _ | with_reducible apply kept_special1

theorem kept_execVsigm {a0 : State} (k : Fin 10240) (cyc : Nat) (vd : Fin 32) (va : Fin 32) (mask : Mask) (s : State) (hs : Kept a0 s) :
    KeptR a0 (execVsigm k cyc vd va mask s) := by
  unfold execVsigm
  repeat' first
    | assumption | intro _ | with_reducible apply kept_special1

theorem kept_execVsilu {a0 : State} (k : Fin 10240) (cyc : Nat) (vd : Fin 32) (va : Fin 32) (mask : Mask) (s : State) (hs : Kept a0 s) :
    KeptR a0 (execVsilu k cyc vd va mask s) := by
  unfold execVsilu
  repeat' first
    | assumption | intro _ | with_reducible apply kept_special1

theorem kept_execVtanh {a0 : State} (k : Fin 10240) (cyc : Nat) (vd : Fin 32) (va : Fin 32) (mask : Mask) (s : State) (hs : Kept a0 s) :
    KeptR a0 (execVtanh k cyc vd va mask s) := by
  unfold execVtanh
  repeat' first
    | assumption | intro _ | with_reducible apply kept_special1

theorem kept_execVerf {a0 : State} (k : Fin 10240) (cyc : Nat) (vd : Fin 32) (va : Fin 32) (mask : Mask) (s : State) (hs : Kept a0 s) :
    KeptR a0 (execVerf k cyc vd va mask s) := by
  unfold execVerf
  repeat' first
    | assumption | intro _ | with_reducible apply kept_special1

/-! ### Gatehouse -/

theorem kept_setPower {a0 : State} (b : Nat) (p : BayPower) (s : State) (hs : Kept a0 s) :
    Kept a0 (setPower b p s) := by
  unfold setPower
  repeat' first
    | assumption | intro _ | with_reducible apply kept_onBay

theorem kept_execDozeEntry {a0 : State} (bay : Fin 20) (s : State) (hs : Kept a0 s) :
    KeptR a0 (execDozeEntry bay s) := by
  unfold execDozeEntry
  repeat' first
    | assumption | intro _ | with_reducible apply kept_setPower | with_reducible apply KeptR.ite
    | with_reducible apply KeptR.next

theorem kept_execRestEntry {a0 : State} (bay : Fin 20) (s : State) (hs : Kept a0 s) :
    KeptR a0 (execRestEntry bay s) := by
  unfold execRestEntry
  repeat' first
    | assumption | intro _ | with_reducible apply kept_setPower | with_reducible apply KeptR.ite
    | with_reducible apply KeptR.next

theorem kept_wakeBay {a0 : State} (toRun : Bool) (b : Nat) (s : State) (hs : Kept a0 s) :
    Kept a0 (wakeBay toRun b s) := by
  unfold wakeBay
  repeat' first
    | assumption | intro _ | with_reducible apply kept_onBay | with_reducible apply Kept.ite

theorem kept_wakeDoze {a0 : State} (b : Nat) (s : State) (hs : Kept a0 s) :
    Kept a0 (wakeDoze b s) := by
  unfold wakeDoze
  repeat' first
    | assumption | intro _ | with_reducible apply kept_onBay | with_reducible apply Kept.ite

theorem kept_beginWakes {a0 : State} (s : State) (hs : Kept a0 s) :
    Kept a0 (beginWakes s) := by
  unfold beginWakes
  repeat' first
    | assumption | intro _ | with_reducible apply kept_onBay | with_reducible apply Kept.foldl
    | fail_if_no_progress with_reducible apply Kept.upd

theorem kept_execRestEntryDone {a0 : State} (bay : Fin 20) (s : State) (hs : Kept a0 s) :
    KeptR a0 (execRestEntryDone bay s) := by
  unfold execRestEntryDone
  repeat' first
    | assumption | intro _ | with_reducible apply kept_loseCores | with_reducible apply kept_setPower
    | with_reducible apply kept_beginWakes | with_reducible apply KeptR.ite | with_reducible apply KeptR.next
    | with_reducible apply Kept.ite | fail_if_no_progress with_reducible apply Kept.upd | split

theorem kept_execWakeDecision {a0 : State} (s : State) (hs : Kept a0 s) :
    KeptR a0 (execWakeDecision s) := by
  have h : ∀ x, Kept a0 { s with hub := x } := fun x => .upd hs
  exact .next (kept_beginWakes _ (Kept.foldl (Kept.foldl (h _) fun s b h => kept_wakeBay _ _ _ h) fun s b h => kept_wakeDoze _ _ h))

theorem kept_execBayWakeStart {a0 : State} (s : State) (hs : Kept a0 s) :
    KeptR a0 (execBayWakeStart s) := by
  unfold execBayWakeStart
  repeat' first
    | assumption | intro _ | with_reducible apply kept_beginWakes | with_reducible apply KeptR.next

theorem kept_execBayRunReady {a0 : State} (bay : Fin 20) (passes : List LinePass) (s : State) (hs : Kept a0 s) :
    KeptR a0 (execBayRunReady bay passes s) := by
  unfold execBayRunReady
  repeat' first
    | assumption | intro _ | with_reducible apply kept_deskewPass | with_reducible apply kept_onBay
    | with_reducible apply kept_setPower | with_reducible apply KeptR.ite | with_reducible apply KeptR.next
    | with_reducible apply Kept.ite | fail_if_no_progress with_reducible apply Kept.upd | split

theorem kept_clearNear {a0 : State} (b : Nat) (s : State) (hs : Kept a0 s) :
    Kept a0 (clearNear b s) := by
  unfold clearNear
  exact kept_onBay _ _ _ ⟨hs.pending, hs.time, hs.hclk, hs.host, fun g => Memory.wf_memClear _ _ (hs.near g), hs.floor, hs.boots,
    hs.block, hs.signed, hs.serial⟩

theorem kept_execBayOffRequest {a0 : State} (port : Port) (bay : Fin 20) (s : State) (hs : Kept a0 s) :
    KeptR a0 (execBayOffRequest port bay s) := by
  unfold execBayOffRequest
  repeat' first
    | assumption | intro _ | with_reducible apply kept_loseCores | with_reducible apply kept_onBay
    | with_reducible apply kept_clearNear | with_reducible apply kept_regOr | with_reducible apply kept_ghNotice
    | with_reducible apply KeptR.ite | with_reducible apply KeptR.next

theorem kept_beginReturns {a0 : State} (s : State) (hs : Kept a0 s) :
    Kept a0 (beginReturns s) := by
  unfold beginReturns
  repeat' first
    | assumption | intro _ | with_reducible apply kept_onBay | with_reducible apply Kept.foldl

theorem kept_execBayOffRelease {a0 : State} (port : Port) (bay : Fin 20) (s : State) (hs : Kept a0 s) :
    KeptR a0 (execBayOffRelease port bay s) := by
  unfold execBayOffRelease
  repeat' first
    | assumption | intro _ | with_reducible apply kept_onBay | with_reducible apply kept_beginReturns
    | with_reducible apply kept_regClear | with_reducible apply KeptR.ite | with_reducible apply KeptR.next

theorem kept_execBayOffDone {a0 : State} (bay : Fin 20) (passes : List LinePass) (s : State) (hs : Kept a0 s) :
    KeptR a0 (execBayOffDone bay passes s) := by
  unfold execBayOffDone
  repeat' first
    | assumption | intro _ | with_reducible apply kept_deskewPass | with_reducible apply kept_onBay
    | with_reducible apply kept_setPower | with_reducible apply kept_clearNear | with_reducible apply kept_beginReturns
    | with_reducible apply kept_ghNotice | with_reducible apply KeptR.ite | with_reducible apply KeptR.next
    | with_reducible apply Kept.ite | fail_if_no_progress with_reducible apply Kept.upd | split

theorem kept_execHubQuietEntry {a0 : State} (s : State) (hs : Kept a0 s) :
    KeptR a0 (execHubQuietEntry s) := by
  unfold execHubQuietEntry
  repeat' first
    | assumption | intro _ | with_reducible apply KeptR.ite | with_reducible apply KeptR.next | with_reducible apply Kept.ite
    | fail_if_no_progress with_reducible apply Kept.upd

theorem kept_execHubReturn {a0 : State} (s : State) (hs : Kept a0 s) :
    KeptR a0 (execHubReturn s) := by
  unfold execHubReturn
  repeat' first
    | assumption | intro _ | with_reducible apply KeptR.ite | with_reducible apply KeptR.next | with_reducible apply Kept.ite
    | fail_if_no_progress with_reducible apply Kept.upd

theorem kept_execEffectiveCapChange {a0 : State} (s : State) (hs : Kept a0 s) :
    KeptR a0 (execEffectiveCapChange s) := by
  unfold execEffectiveCapChange
  repeat' first
    | assumption | intro _ | with_reducible apply kept_ghNoticeBoth | with_reducible apply KeptR.ite
    | with_reducible apply KeptR.next | with_reducible apply Kept.ite | fail_if_no_progress with_reducible apply Kept.upd
    | split

theorem kept_readSensor {a0 : State} (id : Nat) (v : Nat) (s : State) (hs : Kept a0 s) :
    Kept a0 (readSensor id v s) := by
  unfold readSensor
  repeat' first
    | assumption | intro _ | with_reducible apply kept_ghNoticeBoth | fail_if_no_progress with_reducible apply Kept.upd

theorem kept_tripModule {a0 : State} (id : Nat) (v : Nat) (s : State) (hs : Kept a0 s) :
    Kept a0 (tripModule id v s) := by
  unfold tripModule
  repeat' first
    | assumption | intro _ | with_reducible apply kept_moduleReset | with_reducible apply kept_regSet
    | fail_if_no_progress with_reducible apply Kept.upd

theorem kept_execSensorReading {a0 : State} (readings : List (Nat × Nat)) (s : State) (hs : Kept a0 s) :
    KeptR a0 (execSensorReading readings s) := by
  unfold execSensorReading
  repeat' first
    | assumption | intro _ | with_reducible apply kept_readSensor | with_reducible apply kept_tripModule
    | with_reducible apply KeptR.ite | with_reducible apply KeptR.next | with_reducible apply Kept.ite
    | with_reducible apply Kept.foldl | fail_if_no_progress with_reducible apply Kept.upd | split | dsimp only

theorem kept_setPin {a0 : State} (n : Nat) (x : Pin) (s : State) (hs : Kept a0 s) :
    Kept a0 (setPin n x s) := by
  unfold setPin
  repeat' first
    | assumption | intro _ | fail_if_no_progress with_reducible apply Kept.upd

theorem kept_pinAct {a0 : State} (n : Nat) (s : State) (hs : Kept a0 s) :
    Kept a0 (pinAct n s) := by
  have h : ∀ x, Kept a0 (setPin n x s) := fun x => kept_setPin _ _ _ hs
  exact Kept.ite (fun _ => h _) fun _ => Kept.ite (fun _ => kept_portReset _ _ (.upd (h _))) fun _ =>
    Kept.ite (fun _ => kept_portReset _ _ (.upd (h _))) fun _ => Kept.ite (fun _ => .upd (h _)) fun _ => h _

theorem kept_execPinLevelAccepted {a0 : State} (pin : PinId) (level : Fin 4) (s : State) (hs : Kept a0 s) :
    KeptR a0 (execPinLevelAccepted pin level s) := by
  unfold execPinLevelAccepted
  repeat' first
    | assumption | intro _ | with_reducible apply kept_setPin | with_reducible apply kept_pinAct
    | with_reducible apply kept_regAdd | with_reducible apply KeptR.ite | with_reducible apply KeptR.next

theorem kept_execFastToggleHoldExpiry {a0 : State} (pin : PinId) (s : State) (hs : Kept a0 s) :
    KeptR a0 (execFastToggleHoldExpiry pin s) := by
  unfold execFastToggleHoldExpiry
  repeat' first
    | assumption | intro _ | with_reducible apply kept_pinAct | with_reducible apply KeptR.ite
    | with_reducible apply KeptR.next

theorem kept_execPinStuck {a0 : State} (pin : PinId) (s : State) (hs : Kept a0 s) :
    KeptR a0 (execPinStuck pin s) := by
  unfold execPinStuck
  repeat' first
    | assumption | intro _ | with_reducible apply kept_raiseErr | with_reducible apply kept_setPin
    | with_reducible apply kept_ghNoticeBoth | with_reducible apply KeptR.ite | with_reducible apply KeptR.next

theorem kept_execWakeTimerFire {a0 : State} (port : Port) (timer : Fin 256) (s : State) (hs : Kept a0 s) :
    KeptR a0 (execWakeTimerFire port timer s) := by
  unfold execWakeTimerFire
  repeat' first
    | assumption | intro _ | with_reducible apply kept_regOr | with_reducible apply kept_regClear
    | with_reducible apply kept_ghNotice | with_reducible apply KeptR.ite | with_reducible apply KeptR.next
    | with_reducible apply Kept.ite | fail_if_no_progress with_reducible apply Kept.upd

theorem kept_execWakeTimerPrewake {a0 : State} (port : Port) (timer : Fin 256) (s : State) (hs : Kept a0 s) :
    KeptR a0 (execWakeTimerPrewake port timer s) := by
  unfold execWakeTimerPrewake
  repeat' first
    | assumption | intro _ | with_reducible apply kept_wakeBay | with_reducible apply kept_beginWakes
    | with_reducible apply KeptR.ite | with_reducible apply KeptR.next | with_reducible apply Kept.ite
    | with_reducible apply Kept.foldl | fail_if_no_progress with_reducible apply Kept.upd | split

theorem kept_execGhNoticeClear {a0 : State} (port : Port) (v : Word) (s : State) (hs : Kept a0 s) :
    KeptR a0 (execGhNoticeClear port v s) := by
  unfold execGhNoticeClear
  repeat' first
    | assumption | intro _ | with_reducible apply kept_regClear | with_reducible apply KeptR.ite
    | with_reducible apply KeptR.next | with_reducible apply Kept.ite

theorem kept_execGhNoticeEnWrite {a0 : State} (port : Port) (v : Word) (s : State) (hs : Kept a0 s) :
    KeptR a0 (execGhNoticeEnWrite port v s) := by
  unfold execGhNoticeEnWrite
  repeat' first
    | assumption | intro _ | with_reducible apply kept_regSet | with_reducible apply kept_noticeIrq
    | with_reducible apply KeptR.ite | with_reducible apply KeptR.next | with_reducible apply Kept.ite

theorem kept_execGhFiredClear {a0 : State} (port : Port) (word : Fin 8) (v : Word) (s : State) (hs : Kept a0 s) :
    KeptR a0 (execGhFiredClear port word v s) := by
  unfold execGhFiredClear
  repeat' first
    | assumption | intro _ | with_reducible apply kept_regClear | with_reducible apply KeptR.ite
    | with_reducible apply KeptR.next | with_reducible apply Kept.ite

theorem kept_execPldmSensorRead {a0 : State} (ident : Nat) (measured : Nat) (s : State) (hs : Kept a0 s) :
    KeptR a0 (execPldmSensorRead ident measured s) := by
  unfold execPldmSensorRead
  repeat' first
    | assumption | intro _ | with_reducible apply KeptR.ite | with_reducible apply KeptR.next | with_reducible apply Kept.ite
    | fail_if_no_progress with_reducible apply Kept.upd

theorem kept_execPldmEffecterSet {a0 : State} (ident : Nat) (v : Nat) (s : State) (hs : Kept a0 s) :
    KeptR a0 (execPldmEffecterSet ident v s) := by
  unfold execPldmEffecterSet
  repeat' first
    | assumption | intro _ | with_reducible apply KeptR.ite | with_reducible apply KeptR.next | with_reducible apply Kept.ite
    | with_reducible apply Kept.foldl | fail_if_no_progress with_reducible apply Kept.upd

theorem kept_execPldmErrorLogRead {a0 : State} (repairs : Bool) (s : State) (hs : Kept a0 s) :
    KeptR a0 (execPldmErrorLogRead repairs s) := by
  unfold execPldmErrorLogRead
  repeat' first
    | assumption | intro _ | with_reducible apply KeptR.ite | with_reducible apply KeptR.next | with_reducible apply Kept.ite
    | fail_if_no_progress with_reducible apply Kept.upd

theorem kept_execPowerWindowEnd {a0 : State} (watts : Nat) (s : State) (hs : Kept a0 s) :
    KeptR a0 (execPowerWindowEnd watts s) := by
  unfold execPowerWindowEnd
  repeat' first
    | assumption | intro _ | with_reducible apply kept_regSet | with_reducible apply KeptR.ite
    | with_reducible apply KeptR.next | with_reducible apply Kept.ite | with_reducible apply Kept.foldl
    | fail_if_no_progress with_reducible apply Kept.upd

/-! ### HatchOps -/

theorem kept_hcFlag {a0 : State} (p : Nat) (k : Nat) (fl : BitVec 5) (s : State) (hs : Kept a0 s) :
    Kept a0 (hcFlag p k fl s) := by
  unfold hcFlag
  repeat' first
    | assumption | intro _ | with_reducible apply kept_setCore | with_reducible apply kept_regSet
    | with_reducible apply kept_regOr | with_reducible apply Kept.ite

theorem kept_hcStep {a0 : State} (p : Nat) (op : Nat) (c : HcCmd) (cores : List Nat) (i : Nat) (s : State) (hs : Kept a0 s) :
    Kept a0 (hcStep p op c cores i s) := by
  unfold hcStep
  repeat' first
    | assumption | intro _ | with_reducible apply kept_hcFlag | with_reducible apply kept_nearStore
    | with_reducible apply Kept.foldl

theorem kept_hcEffect {a0 : State} (p : Nat) (b : Nat) (op : Nat) (c : HcCmd) (bad : Option HcBad) (s : State) (hs : Kept a0 s) :
    Kept a0 (hcEffect p b op c bad s).2 := by
  unfold hcEffect
  repeat' first
    | assumption | intro _ | with_reducible apply kept_setCore | with_reducible apply kept_raiseErr
    | with_reducible apply kept_hcStep | with_reducible apply kept_foldDirty | with_reducible apply Kept.ite
    | with_reducible apply Kept.foldl | fail_if_no_progress with_reducible apply Kept.upd | split | dsimp only

theorem kept_hcSpend {a0 : State} (b : Nat) (n : Nat) (s : State) (hs : Kept a0 s) :
    Kept a0 (hcSpend b n s) := by
  unfold hcSpend
  repeat' first
    | assumption | intro _ | with_reducible apply kept_onBay

theorem kept_hcExec {a0 : State} (p : Nat) (b : Nat) (run : HcCmd) (bad : Option HcBad) (z0 : List (Nat × Nat)) (z1 : State) (hs : Kept a0 z1) :
    Kept a0 (hcExec p b run bad z0 z1).2 := by
  induction z0 generalizing z1 with
  | nil =>
    unfold hcExec
    repeat' first
      | assumption
  | cons x l ih =>
    unfold hcExec
    repeat' first
      | assumption | intro _ | with_reducible apply ih | with_reducible apply kept_hcEffect
      | refine Kept.get (kept_hcEffect _ _ _ _ _ _ ?_) (by assumption) | with_reducible apply kept_hcSpend
      | with_reducible apply Kept.ite | split | dsimp only

theorem kept_hcPerform {a0 : State} (p : Nat) (b : Nat) (op : Nat) (c : HcCmd) (bad : Option HcBad) (s : State) (hs : Kept a0 s) :
    Kept a0 (hcPerform p b op c bad s).2 := by
  unfold hcPerform
  repeat' first
    | assumption | intro _ | with_reducible apply kept_onBay | with_reducible apply kept_hcEffect
    | refine Kept.get (kept_hcEffect _ _ _ _ _ _ ?_) (by assumption) | with_reducible apply kept_hcSpend
    | with_reducible apply kept_hcExec | refine Kept.get (kept_hcExec _ _ _ _ _ _ ?_) (by assumption)
    | with_reducible apply Kept.ite | fail_if_no_progress with_reducible apply Kept.upd | split

theorem kept_hcFinish {a0 : State} (b : Nat) (e : HcEntry) (cause : Nat) (s : State) (hs : Kept a0 s) :
    Kept a0 (hcFinish b e cause s) := by
  unfold hcFinish
  repeat' first
    | assumption | intro _ | with_reducible apply kept_onBay | with_reducible apply kept_sendIrq
    | with_reducible apply Kept.ite

theorem kept_hcStart {a0 : State} (b : Nat) (bad : Option HcBad) (z0 : Nat) (z1 : State) (hs : Kept a0 z1) :
    Kept a0 (hcStart b bad z0 z1) := by
  induction z0 generalizing z1 with
  | zero =>
    unfold hcStart
    repeat' first
      | assumption
  | succ n ih =>
    unfold hcStart
    repeat' first
      | assumption | intro _ | with_reducible apply ih | with_reducible apply kept_onBay
      | with_reducible apply kept_hcPerform | refine Kept.get (kept_hcPerform _ _ _ _ _ _ ?_) (by assumption)
      | with_reducible apply kept_hcFinish | with_reducible apply Kept.ite
      | fail_if_no_progress with_reducible apply Kept.upd | split

theorem kept_submitHc {a0 : State} (op : Nat) (port : Port) (b : Nat) (c : HcCmd) (bad : Option HcBad) (s : State) (hs : Kept a0 s) :
    Kept a0 (submitHc op port b c bad s) := by
  unfold submitHc
  repeat' first
    | assumption | intro _ | with_reducible apply kept_onBay | with_reducible apply kept_hcStart
    | with_reducible apply Kept.ite

theorem kept_execHatchAdd {a0 : State} (port : Port) (bay : Fin 20) (c : HcCmd) (bad : Option HcBad) (s : State) (hs : Kept a0 s) :
    KeptR a0 (execHatchAdd port bay c bad s) := by
  unfold execHatchAdd
  repeat' first
    | assumption | intro _ | with_reducible apply kept_submitHc | with_reducible apply KeptR.next

theorem kept_execHatchSub {a0 : State} (port : Port) (bay : Fin 20) (c : HcCmd) (bad : Option HcBad) (s : State) (hs : Kept a0 s) :
    KeptR a0 (execHatchSub port bay c bad s) := by
  unfold execHatchSub
  repeat' first
    | assumption | intro _ | with_reducible apply kept_submitHc | with_reducible apply KeptR.next

theorem kept_execHatchMul {a0 : State} (port : Port) (bay : Fin 20) (c : HcCmd) (bad : Option HcBad) (s : State) (hs : Kept a0 s) :
    KeptR a0 (execHatchMul port bay c bad s) := by
  unfold execHatchMul
  repeat' first
    | assumption | intro _ | with_reducible apply kept_submitHc | with_reducible apply KeptR.next

theorem kept_execHatchMulh {a0 : State} (port : Port) (bay : Fin 20) (c : HcCmd) (bad : Option HcBad) (s : State) (hs : Kept a0 s) :
    KeptR a0 (execHatchMulh port bay c bad s) := by
  unfold execHatchMulh
  repeat' first
    | assumption | intro _ | with_reducible apply kept_submitHc | with_reducible apply KeptR.next

theorem kept_execHatchMadd {a0 : State} (port : Port) (bay : Fin 20) (c : HcCmd) (bad : Option HcBad) (s : State) (hs : Kept a0 s) :
    KeptR a0 (execHatchMadd port bay c bad s) := by
  unfold execHatchMadd
  repeat' first
    | assumption | intro _ | with_reducible apply kept_submitHc | with_reducible apply KeptR.next

theorem kept_execHatchScale {a0 : State} (port : Port) (bay : Fin 20) (c : HcCmd) (bad : Option HcBad) (s : State) (hs : Kept a0 s) :
    KeptR a0 (execHatchScale port bay c bad s) := by
  unfold execHatchScale
  repeat' first
    | assumption | intro _ | with_reducible apply kept_submitHc | with_reducible apply KeptR.next

theorem kept_execHatchShl {a0 : State} (port : Port) (bay : Fin 20) (c : HcCmd) (bad : Option HcBad) (s : State) (hs : Kept a0 s) :
    KeptR a0 (execHatchShl port bay c bad s) := by
  unfold execHatchShl
  repeat' first
    | assumption | intro _ | with_reducible apply kept_submitHc | with_reducible apply KeptR.next

theorem kept_execHatchSar {a0 : State} (port : Port) (bay : Fin 20) (c : HcCmd) (bad : Option HcBad) (s : State) (hs : Kept a0 s) :
    KeptR a0 (execHatchSar port bay c bad s) := by
  unfold execHatchSar
  repeat' first
    | assumption | intro _ | with_reducible apply kept_submitHc | with_reducible apply KeptR.next

theorem kept_execHatchFill {a0 : State} (port : Port) (bay : Fin 20) (c : HcCmd) (bad : Option HcBad) (s : State) (hs : Kept a0 s) :
    KeptR a0 (execHatchFill port bay c bad s) := by
  unfold execHatchFill
  repeat' first
    | assumption | intro _ | with_reducible apply kept_submitHc | with_reducible apply KeptR.next

theorem kept_execHatchCopy {a0 : State} (port : Port) (bay : Fin 20) (c : HcCmd) (bad : Option HcBad) (s : State) (hs : Kept a0 s) :
    KeptR a0 (execHatchCopy port bay c bad s) := by
  unfold execHatchCopy
  repeat' first
    | assumption | intro _ | with_reducible apply kept_submitHc | with_reducible apply KeptR.next

theorem kept_execHatchSeth {a0 : State} (port : Port) (bay : Fin 20) (c : HcCmd) (bad : Option HcBad) (s : State) (hs : Kept a0 s) :
    KeptR a0 (execHatchSeth port bay c bad s) := by
  unfold execHatchSeth
  repeat' first
    | assumption | intro _ | with_reducible apply kept_submitHc | with_reducible apply KeptR.next

theorem kept_execHatchRun {a0 : State} (port : Port) (bay : Fin 20) (c : HcCmd) (bad : Option HcBad) (s : State) (hs : Kept a0 s) :
    KeptR a0 (execHatchRun port bay c bad s) := by
  unfold execHatchRun
  repeat' first
    | assumption | intro _ | with_reducible apply kept_submitHc | with_reducible apply KeptR.next

theorem kept_execHatchUnallocatedOp {a0 : State} (port : Port) (bay : Fin 20) (op : Byte) (c : HcCmd) (s : State) (hs : Kept a0 s) :
    KeptR a0 (execHatchUnallocatedOp port bay op c s) := by
  unfold execHatchUnallocatedOp
  repeat' first
    | assumption | intro _ | with_reducible apply kept_submitHc | with_reducible apply KeptR.ite
    | with_reducible apply KeptR.next | with_reducible apply Kept.ite

theorem kept_execHatchCommandDone {a0 : State} (bay : Fin 20) (bad : Option HcBad) (s : State) (hs : Kept a0 s) :
    KeptR a0 (execHatchCommandDone bay bad s) := by
  unfold execHatchCommandDone
  repeat' first
    | assumption | intro _ | with_reducible apply kept_onBay | with_reducible apply kept_releaseHatch
    | with_reducible apply kept_hcFinish | with_reducible apply kept_hcStart | with_reducible apply KeptR.ite
    | with_reducible apply KeptR.next | with_reducible apply Kept.ite | with_reducible apply Kept.foldl
    | fail_if_no_progress with_reducible apply Kept.upd | split

/-! ### Models -/

theorem kept_loadUpper {a0 : State} (key : Nat) (addr : Nat) (i : Nat) (s : State) (hs : Kept a0 s) :
    Kept a0 (loadUpper key addr i s) := by
  unfold loadUpper
  repeat' first
    | assumption | intro _ | with_reducible apply kept_copyUpper | with_reducible apply kept_placeUpper
    | with_reducible apply Kept.ite

theorem kept_placeRanges {a0 : State} (key : Nat) (p : Pav) (z0 : List ModelRange) (z1 : State) (hs : Kept a0 z1) :
    KeptO a0 (placeRanges key p z0 z1) := by
  induction z0 generalizing z1 with
  | nil =>
    unfold placeRanges
    repeat' first
      | assumption | intro _ | with_reducible apply kept_loadUpper | with_reducible apply kept_placeFar
      | refine KeptO.get (kept_placeFar _ _ _ _ ?_) (by assumption) | with_reducible exact KeptO.none
      | with_reducible apply KeptO.ite | with_reducible apply KeptO.map | with_reducible apply KeptO.some
  | cons x l ih =>
    unfold placeRanges
    repeat' first
      | assumption | intro _ | with_reducible apply ih | with_reducible apply kept_loadUpper
      | with_reducible apply kept_placeFar | refine KeptO.get (kept_placeFar _ _ _ _ ?_) (by assumption)
      | with_reducible exact KeptO.none | with_reducible apply KeptO.ite | with_reducible apply KeptO.map
      | with_reducible apply KeptO.some | with_reducible apply Kept.ite | with_reducible apply Kept.foldl
      | fail_if_no_progress with_reducible apply Kept.upd | split

theorem kept_orderUnload {a0 : State} (n : Nat) (s : State) (hs : Kept a0 s) :
    KeptP a0 (orderUnload n s) := by
  unfold orderUnload
  split
  · exact .none
  · dsimp only
    refine .map fun t e => .upd (KeptO.get ?_ e)
    exact .foldl (.some (kept_noteEpoch _ _ hs)) fun o i h => .bind fun t e => kept_orderWrite _ _ _ _ _ _ (h.get e)

theorem kept_unloadModel {a0 : State} (n : Nat) (s : State) (hs : Kept a0 s) :
    Kept a0 (unloadModel n s) := by
  unfold unloadModel
  repeat' first
    | assumption | intro _ | with_reducible apply kept_flushQueue | with_reducible apply kept_onPav
    | with_reducible apply kept_releaseUpper | with_reducible apply Kept.foldl
    | fail_if_no_progress with_reducible apply Kept.upd | split

theorem kept_awaitUnload {a0 : State} (id : ReqId) (cmd : Instr) (n : Nat) (s : State) (hs : Kept a0 s) :
    Kept a0 (awaitUnload id cmd n s) := by
  unfold awaitUnload
  repeat' first
    | assumption | intro _ | with_reducible apply kept_orderUnload
    | refine KeptP.get (kept_orderUnload _ _ ?_) (by assumption) | with_reducible apply kept_complete
    | with_reducible apply kept_holdReq | with_reducible exact KeptP.none | with_reducible apply KeptP.ite
    | with_reducible apply KeptP.some | with_reducible apply KeptP.some2 | with_reducible apply Kept.ite
    | fail_if_no_progress with_reducible apply Kept.upd | split

theorem kept_execModelLoad {a0 : State} (r : Req) (slot : Nat) (pavilion : Nat) (object : DWord) (replace : Bool) (s : State) (hs : Kept a0 s) :
    KeptR a0 (execModelLoad r slot pavilion object replace s) := by
  unfold execModelLoad
  repeat' first
    | assumption | intro _ | with_reducible apply kept_objectGate | with_reducible apply kept_placeRanges
    | refine KeptO.get (kept_placeRanges _ _ _ _ ?_) (by assumption) | with_reducible apply kept_unloadModel
    | with_reducible apply kept_awaitUnload | with_reducible apply kept_complete | with_reducible apply kept_fail
    | with_reducible apply kept_onReq | with_reducible apply kept_holdReq | with_reducible apply KeptR.ite
    | with_reducible apply KeptR.next | with_reducible apply Kept.ite | fail_if_no_progress with_reducible apply Kept.upd
    | split

theorem kept_execModelLoadApply {a0 : State} (pav : Fin 80) (s : State) (hs : Kept a0 s) :
    KeptR a0 (execModelLoadApply pav s) := by
  unfold execModelLoadApply
  repeat' first
    | assumption | intro _ | with_reducible apply kept_loadAll | with_reducible apply kept_complete
    | with_reducible apply kept_onPav | with_reducible apply kept_releaseAll | with_reducible apply kept_endJob
    | with_reducible apply KeptR.ite | with_reducible apply KeptR.next | with_reducible apply Kept.ite
    | fail_if_no_progress with_reducible apply Kept.upd | split | dsimp only

/-! ### Trellis -/

theorem kept_clearRegs {a0 : State} (s : State) (hs : Kept a0 s) :
    Kept a0 (clearRegs s) := by
  unfold clearRegs
  repeat' first
    | assumption | intro _ | fail_if_no_progress with_reducible apply Kept.upd

theorem kept_defaultWrite {a0 : State} (off : Nat) (v : Nat) (p : Nat) (s : State) (hs : Kept a0 s) :
    Kept a0 (defaultWrite off v p s) := by
  unfold defaultWrite
  repeat' first
    | assumption | intro _ | with_reducible apply kept_onCly | with_reducible apply kept_regSet
    | with_reducible apply kept_onSnap | with_reducible apply kept_takeManifests
    | refine KeptO.get (kept_takeManifests _ _ _ _ ?_) (by assumption) | with_reducible apply KeptO.getD
    | with_reducible apply Kept.ite | fail_if_no_progress with_reducible apply Kept.upd | split

theorem kept_defaultsFrom {a0 : State} (b : List Byte) (s : State) (hs : Kept a0 s) :
    Kept a0 (defaultsFrom b s) := by
  unfold defaultsFrom
  repeat' first
    | assumption | intro _ | with_reducible apply kept_defaultWrite | with_reducible apply Kept.foldl

theorem kept_restIdle {a0 : State} (s : State) (hs : Kept a0 s) :
    Kept a0 (restIdle s) := by
  refine Kept.foldl hs fun s b h => ?_
  exact Kept.ite (fun _ => h) fun _ => kept_loseCores _ _ (kept_onBay _ _ _ h)

theorem kept_restAll {a0 : State} (s : State) (hs : Kept a0 s) :
    Kept a0 (restAll s) := by
  exact Kept.foldl hs fun s b h => kept_onBay _ _ _ h

theorem kept_lockLost {a0 : State} (old : State) (s : State) (hs : Kept a0 s) :
    Kept a0 (lockLost old s) := by
  unfold lockLost
  repeat' first
    | assumption | intro _ | with_reducible apply kept_tdiError

theorem kept_applyImage {a0 : State} (slot : Nat) (b : List Byte) (source : Nat) (cold : Bool) (s : State) (hs : Kept a0 s) :
    Kept a0 (applyImage slot b source cold s) := by
  have h1 : Kept a0 (([0, 1, 2, 3] : List Nat).foldl (fun s c => clyDisable c s) s) :=
    Kept.foldl hs fun s c h => kept_clyDisable _ _ h
  refine kept_lockLost _ _ (kept_regSet _ _ _ _ (Kept.foldl (kept_restIdle _ (kept_defaultsFrom _ _ (kept_clearRegs _ ?_)))
    fun s p h => kept_applyMode _ _ h))
  have h2 : ∀ {u : State}, Kept a0 u → ∀ n, Kept a0 { u with
      trellis := some (trlParse slot b), pavs := trlPavs u b, tenants := [], fnTenant := [], frames := []
      store := { u.store with floor := max u.store.floor n, repairs := u.store.repairs.filter (! repairCarried (trlParse slot b) ·) }
      gate := { u.gate with effective := (trlParse slot b).envelope } } := fun h n =>
    ⟨h.pending, h.time, h.hclk, h.host, h.near, h.floor, h.boots, h.block, h.signed, h.serial.trans (le_max_left _ _)⟩
  have h3 : ∀ {u : State}, Kept a0 u → ∀ x d, Kept a0 { u with spares := x, near := [], dir := d } := fun h _ _ =>
    ⟨h.pending, h.time, h.hclk, h.host, fun _ => rfl, h.floor, h.boots, h.block, h.signed, h.serial⟩
  exact Kept.ite (fun _ => kept_restAll _ (h3 (h2 h1 _) _ _)) fun _ => h2 h1 _

/-! ### Profiles -/

theorem kept_trlDone {a0 : State} (src : Nat) (code : Nat) (s : State) (hs : Kept a0 s) :
    Kept a0 (trlDone src code s) := by
  unfold trlDone
  repeat' first
    | assumption | intro _ | with_reducible apply kept_regSet | with_reducible apply Kept.ite
    | fail_if_no_progress with_reducible apply Kept.upd

theorem kept_trlRefuse {a0 : State} (src : Nat) (code : Nat) (s : State) (hs : Kept a0 s) :
    Kept a0 (trlRefuse src code s) := by
  unfold trlRefuse
  repeat' first
    | assumption | intro _ | with_reducible apply kept_regField | with_reducible apply Kept.ite
    | fail_if_no_progress with_reducible apply Kept.upd

theorem kept_trlBusy {a0 : State} (src : Nat) (s : State) (hs : Kept a0 s) :
    Kept a0 (trlBusy src s) := by
  unfold trlBusy
  repeat' first
    | assumption | intro _ | with_reducible apply kept_regSet | with_reducible apply Kept.ite

theorem kept_trlCommand {a0 : State} (x : ProfileSource) (body : Nat → State → State) (s : State) (hs : Kept a0 s) (h_body : ∀ y0 y1, Kept a0 y1 → Kept a0 (body y0 y1)) :
    Kept a0 (trlCommand x body s) := by
  unfold trlCommand
  repeat' first
    | assumption | intro _ | with_reducible apply h_body | with_reducible apply kept_trlRefuse
    | with_reducible apply Kept.ite

theorem kept_onStore {a0 : State} (f : Store → Store) (s : State) (hs : Kept a0 s) (hf : s.store.floor ≤ (f s.store).floor) :
    Kept a0 (onStore f s) := by
  exact hs.store hf

theorem kept_execProfileWrite {a0 : State} (src : ProfileSource) (slot : Fin 4) (mem : Dma) (s : State) (hs : Kept a0 s) :
    KeptR a0 (execProfileWrite src slot mem s) := by
  unfold execProfileWrite
  repeat' first
    | assumption | intro _ | with_reducible apply kept_trlDone | with_reducible apply kept_trlBusy
    | with_reducible apply kept_trlCommand | with_reducible apply kept_onStore | with_reducible exact KeptR.fault
    | with_reducible apply KeptR.ite | with_reducible apply KeptR.next | with_reducible apply Kept.ite
    | fail_if_no_progress with_reducible apply Kept.upd | exact Nat.le_refl _ | split

theorem kept_execProfileWriteCommit {a0 : State} (fault : Bool) (s : State) (hs : Kept a0 s) :
    KeptR a0 (execProfileWriteCommit fault s) := by
  unfold execProfileWriteCommit
  repeat' first
    | assumption | intro _ | with_reducible apply kept_trlDone | with_reducible apply kept_onStore
    | with_reducible apply KeptR.ite | with_reducible apply KeptR.next | with_reducible apply Kept.ite
    | fail_if_no_progress with_reducible apply Kept.upd | exact Nat.le_refl _ | split

theorem kept_execProfileErase {a0 : State} (src : ProfileSource) (slot : Fin 4) (fault : Bool) (s : State) (hs : Kept a0 s) :
    KeptR a0 (execProfileErase src slot fault s) := by
  unfold execProfileErase
  repeat' first
    | assumption | intro _ | with_reducible apply kept_trlDone | with_reducible apply kept_trlCommand
    | with_reducible apply kept_onStore | with_reducible apply KeptR.ite | with_reducible apply KeptR.next
    | with_reducible apply Kept.ite | fail_if_no_progress with_reducible apply Kept.upd | exact Nat.le_refl _

theorem kept_execSetNext {a0 : State} (src : ProfileSource) (slot : Fin 4) (s : State) (hs : Kept a0 s) :
    KeptR a0 (execSetNext src slot s) := by
  unfold execSetNext
  repeat' first
    | assumption | intro _ | with_reducible apply kept_trlDone | with_reducible apply kept_trlCommand
    | with_reducible apply kept_onStore | with_reducible apply KeptR.next | fail_if_no_progress with_reducible apply Kept.upd
    | exact Nat.le_refl _

theorem kept_execClearNext {a0 : State} (src : ProfileSource) (s : State) (hs : Kept a0 s) :
    KeptR a0 (execClearNext src s) := by
  unfold execClearNext
  repeat' first
    | assumption | intro _ | with_reducible apply kept_trlDone | with_reducible apply kept_trlCommand
    | with_reducible apply kept_onStore | with_reducible apply KeptR.next | fail_if_no_progress with_reducible apply Kept.upd
    | exact Nat.le_refl _

theorem kept_execTrlCmdBadOp {a0 : State} (port : Port) (op : Nat) (s : State) (hs : Kept a0 s) :
    KeptR a0 (execTrlCmdBadOp port op s) := by
  unfold execTrlCmdBadOp
  repeat' first
    | assumption | intro _ | with_reducible apply kept_trlRefuse | with_reducible apply KeptR.ite
    | with_reducible apply KeptR.next

theorem kept_dropWaiting {a0 : State} (s : State) (hs : Kept a0 s) :
    Kept a0 (dropWaiting s) := by
  unfold dropWaiting
  repeat' first
    | assumption | intro _ | with_reducible apply kept_trlDone | with_reducible apply kept_onStore
    | with_reducible apply Kept.foldl | fail_if_no_progress with_reducible apply Kept.upd | exact Nat.le_refl _ | split

theorem kept_execSelectWarm {a0 : State} (src : ProfileSource) (slot : Fin 4) (s : State) (hs : Kept a0 s) :
    KeptR a0 (execSelectWarm src slot s) := by
  unfold execSelectWarm
  repeat' first
    | assumption | intro _ | with_reducible apply kept_trlBusy | with_reducible apply kept_trlCommand
    | with_reducible apply kept_onStore | with_reducible apply kept_dropWaiting | with_reducible apply kept_regSet
    | with_reducible apply KeptR.ite | with_reducible apply KeptR.next | with_reducible apply Kept.ite
    | with_reducible apply Kept.foldl | fail_if_no_progress with_reducible apply Kept.upd | exact Nat.le_refl _

theorem kept_execConsentTimeout {a0 : State} (s : State) (hs : Kept a0 s) :
    KeptR a0 (execConsentTimeout s) := by
  unfold execConsentTimeout
  repeat' first
    | assumption | intro _ | with_reducible apply kept_dropWaiting | with_reducible apply KeptR.ite
    | with_reducible apply KeptR.next | with_reducible apply Kept.ite | fail_if_no_progress with_reducible apply Kept.upd
    | split

theorem kept_warmEnd {a0 : State} (c : ProfileCmd) (code : Nat) (s : State) (hs : Kept a0 s) :
    Kept a0 (warmEnd c code s) := by
  unfold warmEnd
  repeat' first
    | assumption | intro _ | with_reducible apply kept_trlDone | with_reducible apply kept_onStore
    | with_reducible apply Kept.foldl | fail_if_no_progress with_reducible apply Kept.upd | exact Nat.le_refl _

theorem kept_execSelectWarmApply {a0 : State} (s : State) (hs : Kept a0 s) :
    KeptR a0 (execSelectWarmApply s) := by
  unfold execSelectWarmApply
  repeat' first
    | assumption | intro _ | with_reducible apply kept_warmEnd | with_reducible apply kept_applyImage
    | with_reducible apply KeptR.ite | with_reducible apply KeptR.next | with_reducible apply Kept.ite
    | fail_if_no_progress with_reducible apply Kept.upd | split | dsimp only

theorem kept_execFarTrainingDone {a0 : State} (sites : Nat) (density : Nat) (rate : Nat) (s : State) (hs : Kept a0 s) :
    KeptR a0 (execFarTrainingDone sites density rate s) := by
  unfold execFarTrainingDone
  repeat' first
    | assumption | intro _ | with_reducible apply kept_raiseErr | with_reducible apply kept_onStore
    | with_reducible apply kept_applyImage | with_reducible apply KeptR.ite | with_reducible apply KeptR.next
    | with_reducible apply Kept.ite | with_reducible apply Kept.foldl | fail_if_no_progress with_reducible apply Kept.upd
    | exact Nat.le_refl _ | split | dsimp only

/-! ### Restore -/

theorem kept_storeAfresh {a0 : State} (p : Nat) (key : Nat) (kd : Nat) (tier : Nat) (region : Nat) (layers : NMap Nat) (z0 : List SnapRec) (z1 : NMap Tile) (z2 : State) (hs : Kept a0 z2) :
    KeptP a0 (storeAfresh p key kd tier region layers z0 z1 z2) := by
  induction z0 generalizing z1 z2 with
  | nil =>
    unfold storeAfresh
    repeat' first
      | assumption | intro _ | with_reducible apply kept_poolSend
      | refine KeptO.get (kept_poolSend _ _ _ _ _ _ _ ?_) (by assumption) | with_reducible apply kept_spotAlloc
      | refine KeptP.get (kept_spotAlloc _ _ _ _ _ ?_) (by assumption) | with_reducible apply kept_spotWrite
      | with_reducible exact KeptP.none | with_reducible apply KeptP.ite | with_reducible apply KeptO.getD
      | with_reducible apply KeptP.some
  | cons x l ih =>
    unfold storeAfresh
    repeat' first
      | assumption | intro _ | with_reducible apply ih | with_reducible apply kept_poolSend
      | refine KeptO.get (kept_poolSend _ _ _ _ _ _ _ ?_) (by assumption) | with_reducible apply kept_spotAlloc
      | refine KeptP.get (kept_spotAlloc _ _ _ _ _ ?_) (by assumption) | with_reducible apply kept_spotWrite
      | with_reducible exact KeptP.none | with_reducible apply KeptP.ite | with_reducible apply KeptO.getD
      | with_reducible apply KeptP.some | with_reducible apply KeptP.some2 | with_reducible apply Kept.ite
      | fail_if_no_progress with_reducible apply Kept.upd | split | dsimp only

theorem kept_bringObject {a0 : State} (p : Nat) (m : Manifest) (o : SnapObj) (key : Nat) (tier : Nat) (region : Nat) (s : State) (hs : Kept a0 s) :
    KeptO a0 (bringObject p m o key tier region s) := by
  unfold bringObject
  repeat' first
    | assumption | intro _ | with_reducible apply kept_storeAfresh
    | refine KeptP.get (kept_storeAfresh _ _ _ _ _ _ _ _ _ ?_) (by assumption) | with_reducible exact KeptO.none
    | with_reducible exact KeptP.none | with_reducible apply KeptO.ite | with_reducible apply KeptP.ite
    | with_reducible apply KeptO.some | with_reducible apply KeptP.some | with_reducible apply KeptP.some2
    | with_reducible apply Kept.ite | fail_if_no_progress with_reducible apply Kept.upd | split | dsimp only

theorem kept_bringAll {a0 : State} (m : Manifest) (p : Nat) (tier : Nat) (region : Nat) (z0 : List SnapObj) (z1 : State) (hs : Kept a0 z1) :
    KeptO a0 (bringAll m p tier region z0 z1) := by
  induction z0 generalizing z1 with
  | nil =>
    unfold bringAll
    repeat' first
      | assumption | intro _ | with_reducible apply kept_bringObject
      | refine KeptO.get (kept_bringObject _ _ _ _ _ _ _ ?_) (by assumption) | with_reducible apply kept_closeObject
      | with_reducible exact KeptO.none | with_reducible apply KeptO.some
  | cons x l ih =>
    unfold bringAll
    repeat' first
      | assumption | intro _ | with_reducible apply ih | with_reducible apply kept_bringObject
      | refine KeptO.get (kept_bringObject _ _ _ _ _ _ _ ?_) (by assumption) | with_reducible apply kept_closeObject
      | with_reducible exact KeptO.none | with_reducible apply KeptO.some | fail_if_no_progress with_reducible apply Kept.upd
      | split | dsimp only

theorem kept_insertAll {a0 : State} (p : Nat) (id : ReqId) (z0 : List DirRow) (z1 : State) (hs : Kept a0 z1) :
    KeptO a0 (insertAll p id z0 z1) := by
  induction z0 generalizing z1 with
  | nil =>
    unfold insertAll
    repeat' first
      | assumption | intro _ | with_reducible apply kept_dirWrite | with_reducible apply kept_done
      | with_reducible exact KeptO.none | with_reducible apply KeptO.ite | with_reducible apply KeptO.some
  | cons x l ih =>
    unfold insertAll
    repeat' first
      | assumption | intro _ | with_reducible apply ih | with_reducible apply kept_dirWrite | with_reducible apply kept_done
      | with_reducible exact KeptO.none | with_reducible apply KeptO.ite | with_reducible apply KeptO.some
      | with_reducible apply Kept.ite | fail_if_no_progress with_reducible apply Kept.upd | split

theorem kept_execPortRestore {a0 : State} (r : Req) (target : Nat) (region : Nat) (sourceRegion : Nat) (epoch : DWord) (report : DWord) (bad : List SnapBad) (s : State) (hs : Kept a0 s) :
    KeptR a0 (execPortRestore r target region sourceRegion epoch report bad s) := by
  unfold execPortRestore
  repeat' first
    | assumption | intro _ | with_reducible apply kept_bringAll
    | refine KeptO.get (kept_bringAll _ _ _ _ _ _ ?_) (by assumption) | with_reducible apply kept_insertAll
    | refine KeptO.get (kept_insertAll _ _ _ _ ?_) (by assumption) | with_reducible apply kept_complete
    | with_reducible apply kept_fail | with_reducible apply kept_withOut | with_reducible apply kept_defer
    | with_reducible apply kept_onReq | with_reducible apply KeptR.ite | with_reducible apply KeptO.getD
    | with_reducible apply KeptR.next | with_reducible apply Kept.ite | fail_if_no_progress with_reducible apply Kept.upd
    | split | dsimp only

theorem kept_restoreSession {a0 : State} (id : ReqId) (key : Nat) (m : Manifest) (o : SnapObj) (x : Session) (p : Nat) (target : Nat) (region : Nat) (s : State) (hs : Kept a0 s) :
    KeptQ a0 (restoreSession id key m o x p target region s) := by
  unfold restoreSession
  repeat' first
    | assumption | intro _ | with_reducible apply kept_onSess | with_reducible apply kept_bringObject
    | refine KeptO.get (kept_bringObject _ _ _ _ _ _ _ ?_) (by assumption) | with_reducible apply kept_movedPushes
    | with_reducible apply kept_freeSlotOf | with_reducible apply kept_closeObject | with_reducible exact KeptQ.none
    | with_reducible apply KeptQ.ite | with_reducible apply KeptO.getD | with_reducible apply KeptO.map
    | with_reducible apply KeptQ.bind | with_reducible apply KeptQ.map | with_reducible apply KeptQ.some
    | with_reducible apply Kept.ite | fail_if_no_progress with_reducible apply Kept.upd | split | dsimp only

theorem kept_restorePicked {a0 : State} (id : ReqId) (key : Nat) (p : Nat) (target : Nat) (region : Nat) (pick : Option (Manifest × SnapObj × Session)) (s : State) (hs : Kept a0 s) :
    Kept a0 (restorePicked id key p target region pick s) := by
  unfold restorePicked
  repeat' first
    | assumption | intro _ | with_reducible apply kept_dirWrite | with_reducible apply kept_restoreSession
    | refine KeptQ.get (kept_restoreSession _ _ _ _ _ _ _ _ _ ?_) (by assumption) | with_reducible apply kept_complete
    | with_reducible apply kept_fail | with_reducible apply kept_defer | with_reducible apply kept_dirSetDone
    | with_reducible apply Kept.ite | fail_if_no_progress with_reducible apply Kept.upd | split | dsimp only

theorem kept_execSessionRestore {a0 : State} (r : Req) (target : Nat) (region : Nat) (sourceRegion : Nat) (session : DWord) (epoch : DWord) (report : DWord) (bad : List SnapBad) (s : State) (hs : Kept a0 s) :
    KeptR a0 (execSessionRestore r target region sourceRegion session epoch report bad s) := by
  unfold execSessionRestore
  repeat' first
    | assumption | intro _ | with_reducible apply kept_orderGateOn | with_reducible apply kept_restorePicked
    | with_reducible apply kept_fail | with_reducible apply kept_withOut | with_reducible apply kept_onReq
    | with_reducible apply KeptR.next | fail_if_no_progress with_reducible apply Kept.upd | split | dsimp only

/-! ### View -/

theorem kept_execLowHalfRead {a0 : State} (f : Fn) (bar : Bar) (off : Nat) (s : State) (hs : Kept a0 s) :
    KeptR a0 (execLowHalfRead f bar off s) := by
  unfold execLowHalfRead
  repeat' first
    | assumption | intro _ | with_reducible apply KeptR.ite | with_reducible apply KeptR.next | with_reducible apply Kept.ite
    | fail_if_no_progress with_reducible apply Kept.upd | split

/-! ### Idle -/

theorem kept_idleBays {a0 : State} (s : State) (hs : Kept a0 s) :
    Kept a0 (idleBays s) := by
  unfold idleBays
  repeat' first
    | assumption | intro _ | with_reducible apply kept_onBay | with_reducible apply Kept.foldl

theorem kept_refill {a0 : State} (s : State) (hs : Kept a0 s) :
    Kept a0 (refill s) := by
  unfold refill
  repeat' first
    | assumption | intro _ | with_reducible apply kept_fillAll | with_reducible apply kept_noteReadyAll
    | with_reducible apply Kept.foldl

/-! ### Step -/

theorem kept_State.withFetchWord {a0 : State} (s : State) (nbits : Nat) (w : Nat) (hs : Kept a0 s) :
    Kept a0 (State.withFetchWord s nbits w) := by
  unfold State.withFetchWord
  repeat' first
    | assumption

end Sys2Proof.Machine
end

