-- ==== Sys2Proof/Laws/KeptStep.lean ====
section
/-! SUPPORT. What exec and a step keep (`Kept`), said once: no command but AON_POWER_UP moves the clocks, and a step with no command
waiting moves them by one ACLK cycle. -/

namespace Sys2Proof.Machine

/-- What every command but AON_POWER_UP keeps, whatever else it does. -/
theorem kept_exec {a0 : State} (c : Instr) (s : State) (hs : Kept a0 s) (hc : c ≠ .aonPowerUp) : KeptR a0 (exec c s) := by
  cases c with
  | misalignedRegisterAccess _ _ _ _ => exact kept_execMisalignedRegisterAccess _ _ _ _ _ hs
  | lowHalfRead _ _ _ => exact kept_execLowHalfRead _ _ _ _ hs
  | lowHalfWrite _ _ _ _ => exact kept_execLowHalfWrite _ _ _ _ _ hs
  | highHalfWrite _ _ _ _ => exact kept_execHighHalfWrite _ _ _ _ _ hs
  | registerWrite _ _ _ _ => exact kept_execRegisterWrite _ _ _ _ _ hs
  | undecodedAccess _ _ _ _ => exact kept_execUndecodedAccess _ _ _ _ _ hs
  | vfBar0Write _ _ _ => exact kept_execVfBar0Write _ _ _ _ hs
  | bayArithFlagsClear _ _ _ => exact kept_execBayArithFlagsClear _ _ _ _ hs
  | mmaK4 _ _ _ _ _ _ _ _ _ _ _ => exact kept_execMmaK4 _ _ _ _ _ _ _ _ _ _ _ _ hs
  | mmaK4s _ _ _ _ _ _ _ _ _ _ _ => exact kept_execMmaK4s _ _ _ _ _ _ _ _ _ _ _ _ hs
  | mmaF8 _ _ _ _ _ _ _ _ _ => exact kept_execMmaF8 _ _ _ _ _ _ _ _ _ _ hs
  | mmaBf16 _ _ _ _ _ _ _ => exact kept_execMmaBf16 _ _ _ _ _ _ _ _ hs
  | accrd _ _ _ _ _ _ _ => exact kept_execAccrd _ _ _ _ _ _ _ _ hs
  | vadd _ _ _ _ _ _ => exact kept_execVadd _ _ _ _ _ _ _ hs
  | vsub _ _ _ _ _ _ => exact kept_execVsub _ _ _ _ _ _ _ hs
  | vmul _ _ _ _ _ _ => exact kept_execVmul _ _ _ _ _ _ _ hs
  | vfma _ _ _ _ _ _ _ => exact kept_execVfma _ _ _ _ _ _ _ _ hs
  | vmax _ _ _ _ _ _ => exact kept_execVmax _ _ _ _ _ _ _ hs
  | vmin _ _ _ _ _ _ => exact kept_execVmin _ _ _ _ _ _ _ hs
  | vabs _ _ _ _ _ => exact kept_execVabs _ _ _ _ _ _ hs
  | vcvt _ _ _ _ _ _ _ _ => exact kept_execVcvt _ _ _ _ _ _ _ _ _ hs
  | vaddI16 _ _ _ _ _ _ => exact kept_execVaddI16 _ _ _ _ _ _ _ hs
  | vsubI16 _ _ _ _ _ _ => exact kept_execVsubI16 _ _ _ _ _ _ _ hs
  | vmulI16 _ _ _ _ _ _ => exact kept_execVmulI16 _ _ _ _ _ _ _ hs
  | vmulhI16 _ _ _ _ _ _ => exact kept_execVmulhI16 _ _ _ _ _ _ _ hs
  | vmaddI16 _ _ _ _ _ _ _ => exact kept_execVmaddI16 _ _ _ _ _ _ _ _ hs
  | vshlI16 _ _ _ _ _ _ => exact kept_execVshlI16 _ _ _ _ _ _ _ hs
  | vshrI16 _ _ _ _ _ _ => exact kept_execVshrI16 _ _ _ _ _ _ _ hs
  | vaddI16W _ _ _ _ _ _ => exact kept_execVaddI16W _ _ _ _ _ _ _ hs
  | vsubI16W _ _ _ _ _ _ => exact kept_execVsubI16W _ _ _ _ _ _ _ hs
  | vmulI16W _ _ _ _ _ _ => exact kept_execVmulI16W _ _ _ _ _ _ _ hs
  | vsumr _ _ _ _ => exact kept_execVsumr _ _ _ _ _ hs
  | vmaxr _ _ _ _ => exact kept_execVmaxr _ _ _ _ _ hs
  | vexp2 _ _ _ _ _ => exact kept_execVexp2 _ _ _ _ _ _ hs
  | vexp _ _ _ _ _ => exact kept_execVexp _ _ _ _ _ _ hs
  | vexpsub _ _ _ _ _ _ => exact kept_execVexpsub _ _ _ _ _ _ _ hs
  | vrcp _ _ _ _ _ => exact kept_execVrcp _ _ _ _ _ _ hs
  | vrsqrt _ _ _ _ _ => exact kept_execVrsqrt _ _ _ _ _ _ hs
  | vsigm _ _ _ _ _ => exact kept_execVsigm _ _ _ _ _ _ hs
  | vsilu _ _ _ _ _ => exact kept_execVsilu _ _ _ _ _ _ hs
  | vtanh _ _ _ _ _ => exact kept_execVtanh _ _ _ _ _ _ hs
  | verf _ _ _ _ _ => exact kept_execVerf _ _ _ _ _ _ hs
  | scAdd _ _ _ _ _ => exact kept_execScAdd _ _ _ _ _ _ hs
  | scSub _ _ _ _ _ => exact kept_execScSub _ _ _ _ _ _ hs
  | scMul _ _ _ _ _ => exact kept_execScMul _ _ _ _ _ _ hs
  | scShl _ _ _ _ _ => exact kept_execScShl _ _ _ _ _ _ hs
  | scShr _ _ _ _ _ => exact kept_execScShr _ _ _ _ _ _ hs
  | scSar _ _ _ _ _ => exact kept_execScSar _ _ _ _ _ _ hs
  | scAnd _ _ _ _ _ => exact kept_execScAnd _ _ _ _ _ _ hs
  | scOr _ _ _ _ _ => exact kept_execScOr _ _ _ _ _ _ hs
  | scXor _ _ _ _ _ => exact kept_execScXor _ _ _ _ _ _ hs
  | scNot _ _ _ _ => exact kept_execScNot _ _ _ _ _ hs
  | scCeq _ _ _ _ _ => exact kept_execScCeq _ _ _ _ _ _ hs
  | scClt _ _ _ _ _ => exact kept_execScClt _ _ _ _ _ _ hs
  | scCltu _ _ _ _ _ => exact kept_execScCltu _ _ _ _ _ _ hs
  | scMovi _ _ _ _ => exact kept_execScMovi _ _ _ _ _ hs
  | scMov _ _ _ _ => exact kept_execScMov _ _ _ _ _ hs
  | loop _ _ _ _ _ => exact kept_execLoop _ _ _ _ _ _ hs
  | vld _ _ _ _ _ => exact kept_execVld _ _ _ _ _ _ hs
  | vst _ _ _ _ => exact kept_execVst _ _ _ _ _ hs
  | tld _ _ _ _ => exact kept_execTld _ _ _ _ _ hs
  | sld _ _ _ _ => exact kept_execSld _ _ _ _ _ hs
  | sst _ _ _ _ => exact kept_execSst _ _ _ _ _ hs
  | bld _ _ _ _ _ _ _ => exact kept_execBld _ _ _ _ _ _ _ _ hs
  | bst _ _ _ _ _ _ _ => exact kept_execBst _ _ _ _ _ _ _ _ hs
  | lsend _ _ _ _ _ => exact kept_execLsend _ _ _ _ _ _ hs
  | lrecv _ _ _ _ => exact kept_execLrecv _ _ _ _ _ hs
  | colonnadeTransfer _ _ _ _ _ => exact kept_execColonnadeTransfer _ _ _ _ _ _ hs
  | colonnadeBeatArrival _ _ => exact kept_execColonnadeBeatArrival _ _ _ hs
  | frameStart _ _ => exact kept_execFrameStart _ _ _ hs
  | columnInputWrite _ _ => exact kept_execColumnInputWrite _ _ _ hs
  | maskWrite _ _ => exact kept_execMaskWrite _ _ _ hs
  | latchDecision _ _ => exact kept_execLatchDecision _ _ _ hs
  | frameEnd _ _ _ => exact kept_execFrameEnd _ _ _ _ hs
  | refreshSlot _ _ => exact kept_execRefreshSlot _ _ _ hs
  | deskewSlot _ _ _ => exact kept_execDeskewSlot _ _ _ _ hs
  | hubBondSlot _ _ => exact kept_execHubBondSlot _ _ _ hs
  | transomWindowBeat _ _ _ _ => exact kept_execTransomWindowBeat _ _ _ _ _ hs
  | betweenFrameHubTransfer _ => exact kept_execBetweenFrameHubTransfer _ _ hs
  | bayIdleRefresh _ _ => exact kept_execBayIdleRefresh _ _ _ hs
  | refreshIntervalElapse _ => exact kept_execRefreshIntervalElapse _ _ hs
  | holdRequest _ _ _ => exact kept_execHoldRequest _ _ _ _ hs
  | holdFreeze _ => exact kept_execHoldFreeze _ _ hs
  | holdEnd _ _ => exact kept_execHoldEnd _ _ _ hs
  | gatherExpiry _ => exact kept_execGatherExpiry _ _ hs
  | tagClearV _ _ _ _ => exact kept_execTagClearV _ _ _ _ _ hs
  | tagSetV _ _ _ _ => exact kept_execTagSetV _ _ _ _ _ hs
  | tagSetSegment _ _ _ _ => exact kept_execTagSetSegment _ _ _ _ _ hs
  | setMaskMode _ _ _ _ => exact kept_execSetMaskMode _ _ _ _ _ hs
  | setCurrentSegment _ _ _ _ => exact kept_execSetCurrentSegment _ _ _ _ _ hs
  | preemptionSwap _ _ => exact kept_execPreemptionSwap _ _ _ hs
  | streamLayerFetch _ _ _ => exact kept_execStreamLayerFetch _ _ _ _ hs
  | tailUnitWriteBack _ _ _ _ => exact kept_execTailUnitWriteBack _ _ _ _ _ hs
  | park _ _ _ _ _ _ _ => exact kept_execPark _ _ _ _ _ _ _ _ hs
  | parkRelease _ _ => exact kept_execParkRelease _ _ _ hs
  | revive _ _ _ _ _ => exact kept_execRevive _ _ _ _ _ _ hs
  | reviveComplete _ _ => exact kept_execReviveComplete _ _ _ hs
  | migrate _ _ _ _ _ _ _ _ _ => exact kept_execMigrate _ _ _ _ _ _ _ _ _ _ hs
  | migrationDrained _ _ => exact kept_execMigrationDrained _ _ _ hs
  | migrationFenceTimeout _ _ => exact kept_execMigrationFenceTimeout _ _ _ hs
  | place _ _ _ _ _ _ _ => exact kept_execPlace _ _ _ _ _ _ _ _ hs
  | modelLoad _ _ _ _ _ => exact kept_execModelLoad _ _ _ _ _ _ hs
  | modelLoadApply _ => exact kept_execModelLoadApply _ _ hs
  | writeBack _ _ _ _ => exact kept_execWriteBack _ _ _ _ _ hs
  | regionGrant _ _ _ _ _ _ => exact kept_execRegionGrant _ _ _ _ _ _ _ hs
  | regionWithdraw _ _ _ => exact kept_execRegionWithdraw _ _ _ _ hs
  | mapRead _ _ _ _ => exact kept_execMapRead _ _ _ _ _ hs
  | shutterFetch _ _ _ _ => exact kept_execShutterFetch _ _ _ _ _ hs
  | shutterWrite _ _ _ => exact kept_execShutterWrite _ _ _ _ hs
  | shutterCopy _ _ _ => exact kept_execShutterCopy _ _ _ _ hs
  | shutterSend _ _ _ => exact kept_execShutterSend _ _ _ _ hs
  | tileArrival _ _ => exact kept_execTileArrival _ _ _ hs
  | tileWriteAck _ => exact kept_execTileWriteAck _ _ hs
  | tileTransferFailure _ _ => exact kept_execTileTransferFailure _ _ _ hs
  | heldHatchWriteApply _ => exact kept_execHeldHatchWriteApply _ _ hs
  | k4TableHeldWrite _ _ _ _ => exact kept_execK4TableHeldWrite _ _ _ _ _ hs
  | k4TableCommitWrite _ _ _ => exact kept_execK4TableCommitWrite _ _ _ _ hs
  | dirLookup r buf admin ignoreBlock mem => exact kept_execDirLookup r buf admin ignoreBlock mem s hs
  | dirInsert r buf admin mem => exact kept_execDirInsert r buf admin mem s hs
  | dirDelete r buf admin mem => exact kept_execDirDelete r buf admin mem s hs
  | dirUpdate r buf user admin mem => exact kept_execDirUpdate r buf user admin mem s hs
  | dirScan _ _ _ _ _ _ => exact kept_execDirScan _ _ _ _ _ _ _ hs
  | dirSearchResult _ => exact kept_execDirSearchResult _ _ hs
  | dirShadowRetry _ => exact kept_execDirShadowRetry _ _ hs
  | dirCommit _ => exact kept_execDirCommit _ _ hs
  | dirRecordHoldEnd _ => exact kept_execDirRecordHoldEnd _ _ hs
  | dirScrubRow _ _ => exact kept_execDirScrubRow _ _ _ hs
  | dirSpareBlockSwitch => exact kept_execDirSpareBlockSwitch _ hs
  | txtTableLoad _ _ _ _ => exact kept_execTxtTableLoad _ _ _ _ _ hs
  | txtTableUnload _ _ _ => exact kept_execTxtTableUnload _ _ _ _ hs
  | txtTokenise r tokeniser special src bytes dst capacity mem => exact kept_execTxtTokenise r tokeniser special src bytes dst capacity mem s hs
  | txtAppend r src bytes special tokens mem => exact kept_execTxtAppend r src bytes special tokens mem s hs
  | txtDetok r tokeniser src count dst capacity mem => exact kept_execTxtDetok r tokeniser src count dst capacity mem s hs
  | txtSamplerSet r buf mem => exact kept_execTxtSamplerSet r buf mem s hs
  | txtLouverSet _ _ _ _ _ _ _ => exact kept_execTxtLouverSet _ _ _ _ _ _ _ _ hs
  | txtStopSet r buf excludeStop mem => exact kept_execTxtStopSet r buf excludeStop mem s hs
  | resample _ => exact kept_execResample _ _ hs
  | inject _ _ => exact kept_execInject _ _ _ hs
  | dropPending _ => exact kept_execDropPending _ _ hs
  | txtStateRead _ _ => exact kept_execTxtStateRead _ _ _ hs
  | rclCreate r object buf mem => exact kept_execRclCreate r object buf mem s hs
  | rclInsert r object buf count mem => exact kept_execRclInsert r object buf count mem s hs
  | rclDelete r object buf count mem => exact kept_execRclDelete r object buf count mem s hs
  | rclPurge r object buf count mem => exact kept_execRclPurge r object buf count mem s hs
  | rclEdges r object buf count mem => exact kept_execRclEdges r object buf count mem s hs
  | rclEntry _ _ _ => exact kept_execRclEntry _ _ _ _ hs
  | rclQuery r object qbuf rbuf k pick l maxExpand mem => exact kept_execRclQuery r object qbuf rbuf k pick l maxExpand mem s hs
  | rclDrop _ _ => exact kept_execRclDrop _ _ _ hs
  | rclGraphWalk _ => exact kept_execRclGraphWalk _ _ hs
  | pavLoad r buf count mem => exact kept_execPavLoad r buf count mem s hs
  | pavUnload _ _ => exact kept_execPavUnload _ _ _ hs
  | pavTenantSet r buf mem => exact kept_execPavTenantSet r buf mem s hs
  | pavFuncTenant _ _ _ => exact kept_execPavFuncTenant _ _ _ _ hs
  | pavExpedite _ _ => exact kept_execPavExpedite _ _ _ hs
  | admissionWaitTimeout _ _ _ => exact kept_execAdmissionWaitTimeout _ _ _ _ hs
  | levelPromotion => exact kept_execLevelPromotion _ hs
  | snpTake _ _ => exact kept_execSnpTake _ _ _ hs
  | snpInclude _ _ _ => exact kept_execSnpInclude _ _ _ _ hs
  | portRestore _ _ _ _ _ _ _ => exact kept_execPortRestore _ _ _ _ _ _ _ _ hs
  | sessionRestore _ _ _ _ _ _ _ _ => exact kept_execSessionRestore _ _ _ _ _ _ _ _ _ hs
  | snpRetire _ _ => exact kept_execSnpRetire _ _ _ hs
  | snpList _ _ => exact kept_execSnpList _ _ _ hs
  | snpTimerFire _ => exact kept_execSnpTimerFire _ _ hs
  | snpStepTrigger _ => exact kept_execSnpStepTrigger _ _ hs
  | snapshotCut _ => exact kept_execSnapshotCut _ _ hs
  | snapshotTileStored _ _ _ => exact kept_execSnapshotTileStored _ _ _ _ hs
  | snapshotCommit _ => exact kept_execSnapshotCommit _ _ hs
  | bootGo _ _ => exact kept_execBootGo _ _ _ hs
  | bootImageReadDone mem => exact kept_execBootImageReadDone mem s hs
  | bootVerifyDone _ _ => exact kept_execBootVerifyDone _ _ _ hs
  | secAttest r buf kem scope mem => exact kept_execSecAttest r buf kem scope mem s hs
  | attestSigned _ => exact kept_execAttestSigned _ _ hs
  | pendingKeyExpiry => exact kept_execPendingKeyExpiry _ hs
  | secKdRelease r buf mem => exact kept_execSecKdRelease r buf mem s hs
  | secKdCreate _ _ _ => exact kept_execSecKdCreate _ _ _ _ hs
  | secKdBind _ _ _ => exact kept_execSecKdBind _ _ _ _ hs
  | secKdRetire _ _ => exact kept_execSecKdRetire _ _ _ hs
  | secIdRead _ _ => exact kept_execSecIdRead _ _ _ hs
  | ideKmMessage _ _ _ _ => exact kept_execIdeKmMessage _ _ _ _ _ hs
  | tdispMessage _ _ _ => exact kept_execTdispMessage _ _ _ _ hs
  | portReset _ _ => exact kept_execPortReset _ _ _ hs
  | vfFlr _ => exact kept_execVfFlr _ _ hs
  | ringStart _ _ => exact kept_execRingStart _ _ _ hs
  | ringStop _ _ => exact kept_execRingStop _ _ _ hs
  | rqTailDoorbell _ _ => exact kept_execRqTailDoorbell _ _ _ hs
  | requestFetchFault _ => exact kept_execRequestFetchFault _ _ hs
  | cqHeadDoorbell _ _ => exact kept_execCqHeadDoorbell _ _ _ hs
  | coalTimeout _ => exact kept_execCoalTimeout _ _ hs
  | badOpcode _ _ => exact kept_execBadOpcode _ _ _ hs
  | nop _ => exact kept_execNop _ _ hs
  | ringFence _ => exact kept_execRingFence _ _ hs
  | openSession _ _ _ _ _ _ _ _ => exact kept_execOpenSession _ _ _ _ _ _ _ _ _ hs
  | stepSession _ _ _ _ _ => exact kept_execStepSession _ _ _ _ _ _ hs
  | closeSession _ _ _ => exact kept_execCloseSession _ _ _ _ hs
  | haltSession _ => exact kept_execHaltSession _ _ hs
  | hatchRead _ _ _ _ => exact kept_execHatchRead _ _ _ _ _ hs
  | hatchWrite _ _ _ _ => exact kept_execHatchWrite _ _ _ _ _ hs
  | hcDoneRead _ _ => exact kept_execHcDoneRead _ _ _ hs
  | hatchModeRequest _ _ => exact kept_execHatchModeRequest _ _ _ hs
  | hatchExitRequest _ _ => exact kept_execHatchExitRequest _ _ _ hs
  | hatchModeExit _ => exact kept_execHatchModeExit _ _ hs
  | hatWindowWrite _ _ _ => exact kept_execHatWindowWrite _ _ _ _ hs
  | hcStoreWrite _ _ _ => exact kept_execHcStoreWrite _ _ _ _ hs
  | hatchAdd _ _ _ _ => exact kept_execHatchAdd _ _ _ _ _ hs
  | hatchSub _ _ _ _ => exact kept_execHatchSub _ _ _ _ _ hs
  | hatchMul _ _ _ _ => exact kept_execHatchMul _ _ _ _ _ hs
  | hatchMulh _ _ _ _ => exact kept_execHatchMulh _ _ _ _ _ hs
  | hatchMadd _ _ _ _ => exact kept_execHatchMadd _ _ _ _ _ hs
  | hatchScale _ _ _ _ => exact kept_execHatchScale _ _ _ _ _ hs
  | hatchShl _ _ _ _ => exact kept_execHatchShl _ _ _ _ _ hs
  | hatchSar _ _ _ _ => exact kept_execHatchSar _ _ _ _ _ hs
  | hatchFill _ _ _ _ => exact kept_execHatchFill _ _ _ _ _ hs
  | hatchCopy _ _ _ _ => exact kept_execHatchCopy _ _ _ _ _ hs
  | hatchSeth _ _ _ _ => exact kept_execHatchSeth _ _ _ _ _ hs
  | hatchRun _ _ _ _ => exact kept_execHatchRun _ _ _ _ _ hs
  | hatchCommandDone _ _ => exact kept_execHatchCommandDone _ _ _ hs
  | flitTransmit _ => exact kept_execFlitTransmit _ _ hs
  | flitReceive _ _ _ => exact kept_execFlitReceive _ _ _ _ hs
  | gateEntryAdvance _ => exact kept_execGateEntryAdvance _ _ hs
  | pushOpen _ => exact kept_execPushOpen _ _ hs
  | pushData _ => exact kept_execPushData _ _ hs
  | pushEnd _ => exact kept_execPushEnd _ _ hs
  | pushAbort _ => exact kept_execPushAbort _ _ hs
  | streamIdleTimeout _ _ => exact kept_execStreamIdleTimeout _ _ _ hs
  | handOffer _ _ => exact kept_execHandOffer _ _ _ hs
  | handAccept _ => exact kept_execHandAccept _ _ hs
  | handRefuse _ => exact kept_execHandRefuse _ _ hs
  | handData _ => exact kept_execHandData _ _ hs
  | handEnd _ => exact kept_execHandEnd _ _ hs
  | handDone _ => exact kept_execHandDone _ _ hs
  | handAbort _ => exact kept_execHandAbort _ _ hs
  | poolWriteAck _ => exact kept_execPoolWriteAck _ _ hs
  | poolReadData _ => exact kept_execPoolReadData _ _ hs
  | poolError _ => exact kept_execPoolError _ _ hs
  | poolTimeout _ => exact kept_execPoolTimeout _ _ hs
  | celayEnable _ _ _ => exact kept_execCelayEnable _ _ _ _ hs
  | celayDisable _ _ _ => exact kept_execCelayDisable _ _ _ _ hs
  | celayLinkUp _ _ => exact kept_execCelayLinkUp _ _ _ hs
  | celayBringupRetry _ => exact kept_execCelayBringupRetry _ _ hs
  | laneSwap _ _ => exact kept_execLaneSwap _ _ _ hs
  | profileWrite src slot mem => exact kept_execProfileWrite src slot mem s hs
  | profileWriteCommit _ => exact kept_execProfileWriteCommit _ _ hs
  | profileErase _ _ _ => exact kept_execProfileErase _ _ _ _ hs
  | selectWarm _ _ => exact kept_execSelectWarm _ _ _ hs
  | consentTimeout => exact kept_execConsentTimeout _ hs
  | selectWarmApply => exact kept_execSelectWarmApply _ hs
  | setNext _ _ => exact kept_execSetNext _ _ _ hs
  | clearNext _ => exact kept_execClearNext _ _ hs
  | farTrainingDone _ _ _ => exact kept_execFarTrainingDone _ _ _ _ hs
  | aonPowerUp => exact absurd rfl hc
  | dozeEntry _ => exact kept_execDozeEntry _ _ hs
  | restEntry _ => exact kept_execRestEntry _ _ hs
  | restEntryDone _ => exact kept_execRestEntryDone _ _ hs
  | wakeDecision => exact kept_execWakeDecision _ hs
  | bayWakeStart => exact kept_execBayWakeStart _ hs
  | bayRunReady _ _ => exact kept_execBayRunReady _ _ _ hs
  | bayOffRequest _ _ => exact kept_execBayOffRequest _ _ _ hs
  | bayOffRelease _ _ => exact kept_execBayOffRelease _ _ _ hs
  | bayOffDone _ _ => exact kept_execBayOffDone _ _ _ hs
  | hubQuietEntry => exact kept_execHubQuietEntry _ hs
  | hubReturn => exact kept_execHubReturn _ hs
  | effectiveCapChange => exact kept_execEffectiveCapChange _ hs
  | sensorReading _ => exact kept_execSensorReading _ _ hs
  | pinLevelAccepted _ _ => exact kept_execPinLevelAccepted _ _ _ hs
  | fastToggleHoldExpiry _ => exact kept_execFastToggleHoldExpiry _ _ hs
  | pinStuck _ => exact kept_execPinStuck _ _ hs
  | wakeTimerFire _ _ => exact kept_execWakeTimerFire _ _ _ hs
  | wakeTimerPrewake _ _ => exact kept_execWakeTimerPrewake _ _ _ hs
  | ghNoticeClear _ _ => exact kept_execGhNoticeClear _ _ _ hs
  | ghNoticeEnWrite _ _ => exact kept_execGhNoticeEnWrite _ _ _ hs
  | ghFiredClear _ _ _ => exact kept_execGhFiredClear _ _ _ _ hs
  | pldmSensorRead _ _ => exact kept_execPldmSensorRead _ _ _ hs
  | pldmEffecterSet _ _ => exact kept_execPldmEffecterSet _ _ _ hs
  | pldmErrorLogRead _ => exact kept_execPldmErrorLogRead _ _ hs
  | deskewPhaseAlarm _ _ _ _ => exact kept_execDeskewPhaseAlarm _ _ _ _ _ hs
  | farRetrainWindow => exact kept_execFarRetrainWindow _ hs
  | farRetrainBurst => exact kept_execFarRetrainBurst _ hs
  | farBurstEnd => exact kept_execFarBurstEnd _ hs
  | farDeviceTempChange _ => exact kept_execFarDeviceTempChange _ _ hs
  | clockMonitorWindow _ _ _ _ => exact kept_execClockMonitorWindow _ _ _ _ _ hs
  | hubClockFault _ => exact kept_execHubClockFault _ _ hs
  | errorRecordRetire _ => exact kept_execErrorRecordRetire _ _ hs
  | errorMuteEnd _ => exact kept_execErrorMuteEnd _ _ hs
  | errPop _ => exact kept_execErrPop _ _ hs
  | correctedLineRewrite _ _ _ => exact kept_execCorrectedLineRewrite _ _ _ _ hs
  | nearScrubRead _ _ => exact kept_execNearScrubRead _ _ _ hs
  | farScrubRead _ _ => exact kept_execFarScrubRead _ _ _ hs
  | engineSpareSwitch _ _ => exact kept_execEngineSpareSwitch _ _ _ hs
  | moduleResetEntry _ => exact kept_execModuleResetEntry _ _ hs
  | moduleResetRelease => exact kept_execModuleResetRelease _ hs
  | hubPllLock => exact kept_execHubPllLock _ hs
  | portTrainEnable _ => exact kept_execPortTrainEnable _ _ hs
  | tapBypass _ => exact kept_execTapBypass _ _ hs
  | tapIdcode => exact kept_execTapIdcode _ hs
  | tapSamplePreload _ _ => exact kept_execTapSamplePreload _ _ _ hs
  | tapExtest _ _ => exact kept_execTapExtest _ _ _ hs
  | tapClamp _ => exact kept_execTapClamp _ _ hs
  | tapHighz _ => exact kept_execTapHighz _ _ hs
  | tapExtestPulse _ _ => exact kept_execTapExtestPulse _ _ _ hs
  | tapExtestTrain _ _ => exact kept_execTapExtestTrain _ _ _ hs
  | irqEnableSet _ _ => exact kept_execIrqEnableSet _ _ _ hs
  | completionWriteFault _ => exact kept_execCompletionWriteFault _ _ hs
  | trlCmdBadOp _ _ => exact kept_execTrlCmdBadOp _ _ _ hs
  | snapshotTargetSet _ _ => exact kept_execSnapshotTargetSet _ _ _ hs
  | hcSubmitHeldWrite _ _ _ => exact kept_execHcSubmitHeldWrite _ _ _ _ hs
  | hatchUnallocatedOp _ _ _ _ => exact kept_execHatchUnallocatedOp _ _ _ _ _ hs
  | powerWindowEnd _ => exact kept_execPowerWindowEnd _ _ hs

/-- AON_POWER_UP starts both clocks at 0 and keeps the rest. -/
theorem kept_aonPowerUp (s : State) :
    ∃ t, exec .aonPowerUp s = .next t ∧ Kept s { t with time := s.time, hclk := s.hclk } ∧ t.time = 0 ∧ t.hclk = 0 := by
  refine ⟨_, rfl, ⟨rfl, rfl, rfl, id, fun _ => rfl, le_rfl, le_rfl, le_rfl, fun h => ?_, le_rfl⟩, rfl, rfl⟩
  exact ⟨h.2, Nat.mul_le_mul_left _ (Nat.sub_le _ _), le_rfl⟩

/-- One idle cycle moves device time by 40 ns and HCLK by 60 cycles, and keeps the rest. -/
theorem kept_tick {a0 s : State} (h : Kept a0 s) : Kept { a0 with time := a0.time + 40, hclk := a0.hclk + 60 } (tick s) := by
  have g := kept_noteReadyAll s h
  have h1 : Kept { a0 with time := a0.time + 40, hclk := a0.hclk + 60 }
      { noteReadyAll s with time := s.time + 40, hclk := s.hclk + 60 } :=
    ⟨g.pending, congrArg (· + 40) h.time, congrArg (· + 60) h.hclk, g.host, g.near, g.floor, g.boots, g.block, g.signed, g.serial⟩
  unfold tick
  refine kept_idleBays _ ?_
  dsimp only
  split
  · exact .upd h1
  · exact h1

/-- The held request that may run next is one of those held. -/
theorem nextHeld_mem {s : State} {h : Held} {rest : List Held} {pre l : List Held} (e : nextHeld s pre l = some (h, rest)) :
    h ∈ l := by
  induction l generalizing pre with
  | nil => simp [nextHeld] at e
  | cons x l ih =>
    unfold nextHeld at e
    split at e
    · injection e with e; injection e with e1 e2; subst e1; simp
    · exact List.mem_cons_of_mem _ (ih e)

/-- Everything a step does to the clocks, the memories and the counters that never fall: from a state `a` that differs from the first
in its clocks at most, the step keeps what every command keeps. -/
theorem step_kept {s t : State} (h : step s = .next t) :
    ∃ a : State, Kept a t ∧ a.sec = s.sec ∧ a.store = s.store ∧ a.hostMem = s.hostMem ∧ a.near = s.near ∧
      ((a.time = s.time ∧ a.hclk = s.hclk) ∨ (s.pending = [] ∧ a.time = s.time + 40 ∧ a.hclk = s.hclk + 60) ∨
       (a.time = 0 ∧ a.hclk = 0 ∧ (s.pending.head? = some .aonPowerUp ∨ ∃ h ∈ s.held, h.cmd = .aonPowerUp))) := by
  have hex : ∀ (c : Instr) (u v : State), exec c u = .next v → ∃ a : State, Kept a v ∧ a.sec = u.sec ∧ a.store = u.store ∧
      a.hostMem = u.hostMem ∧ a.near = u.near ∧
      ((a.time = u.time ∧ a.hclk = u.hclk) ∨ (a.time = 0 ∧ a.hclk = 0 ∧ c = .aonPowerUp)) := by
    intro c u v e
    by_cases hc : c = .aonPowerUp
    · subst hc
      obtain ⟨t, e2, k, e3, e4⟩ := kept_aonPowerUp u
      rw [e] at e2
      cases e2
      exact ⟨{ u with time := 0, hclk := 0 },
        ⟨k.pending, e3, e4, k.host, k.near, k.floor, k.boots, k.block, k.signed, k.serial⟩, rfl, rfl, rfl, rfl, .inr ⟨rfl, rfl, rfl⟩⟩
    · exact ⟨u, (kept_exec c u (.refl _) hc).1 _ e, rfl, rfl, rfl, rfl, .inl ⟨rfl, rfl⟩⟩
  unfold step at h
  split at h
  · rename_i hp
    unfold idle at h
    split at h
    · injection h with h
      subst h
      exact ⟨_, kept_tick (.refl _), rfl, rfl, rfl, rfl, .inr (.inl ⟨hp, rfl, rfl⟩)⟩
    · rename_i hh rest hn
      split at h
      · rename_i t2 e
        injection h with h
        subst h
        obtain ⟨a, k, e1, e2, e3, e4, e5⟩ := hex _ _ _ e
        exact ⟨a, kept_refill _ (.upd k), e1, e2, e3, e4, e5.imp id fun x => .inr ⟨x.1, x.2.1, .inr ⟨hh, nextHeld_mem hn, x.2.2⟩⟩⟩
      · cases h
      · cases h
  · rename_i c cs hp
    obtain ⟨a, k, e1, e2, e3, e4, e5⟩ := hex _ _ _ h
    refine ⟨a, k, e1, e2, e3, e4, e5.imp id fun x => .inr ⟨x.1, x.2.1, .inl ?_⟩⟩
    rw [hp]
    simp [x.2.2]

end Sys2Proof.Machine
end

