-- ==== Sys2Proof/Laws/Rings.lean ====
section
/-! SUPPORT. Laws of the stored registers and of the rings: what is read after a write, and what fetching a request does. -/

namespace Sys2Proof.Machine

/-- A register read back after it is set holds the value, bounded by its width. -/
theorem regGet_regSet_self (s : State) (p off v : Nat) :
    regGet (regSet p off v s) p off = v % 2 ^ (match regRow off with | none => 32 | some r => if r.wide then 64 else 32) := by
  unfold regGet regSet
  exact (mgetD_mput_self _ _ _ _).trans (by cases regRow off <;> rfl)

/-- Setting a register leaves every register with another key as it was. -/
theorem regGet_regSet_ne (s : State) (p q off o v : Nat) (h : regKey q o ≠ regKey p off) :
    regGet (regSet p off v s) q o = regGet s q o := by
  simp only [regGet, regSet, mgetD_mput_ne _ _ _ _ _ h]

@[simp] theorem ringOf_setRing_self (s : State) (fn : Nat) (r : Ring) : ringOf (setRing fn r s) fn = r := by
  simp [ringOf, setRing]

@[simp] theorem ringOf_setRing_ne (s : State) (fn g : Nat) (r : Ring) (h : g ≠ fn) :
    ringOf (setRing fn r s) g = ringOf s g := by
  simp [ringOf, setRing, h]

@[simp] theorem coreAt_setCore_self (s : State) (k : Nat) (c : Core) : coreAt (setCore k c s) k = c := by
  simp [coreAt, setCore]

@[simp] theorem coreAt_setCore_ne (s : State) (k j : Nat) (c : Core) (h : j ≠ k) :
    coreAt (setCore k c s) j = coreAt s j := by
  simp [coreAt, setCore, h]

@[simp] theorem bayAt_setBay_self (s : State) (b : Nat) (x : Bay) : bayAt (setBay b x s) b = x := by
  simp [bayAt, setBay]

@[simp] theorem bayAt_setBay_ne (s : State) (b d : Nat) (x : Bay) (h : d ≠ b) : bayAt (setBay b x s) d = bayAt s d := by
  simp [bayAt, setBay, h]

/-- Fetching takes the request at the ring's head. -/
theorem fetchReq_takes {s : State} {r : Req} (op : Nat) (h : Takes s r) :
    fetchReq r op s = some (takenId s r op, taken s r op) := by
  obtain ⟨h1, h2, -⟩ := h
  simp [fetchReq, h1, h2, takenId, taken]

/-- A request that the hub takes and whose operands are in range runs its body. -/
theorem onReq_takes {s : State} {r : Req} (op : Nat) (body : ReqId → State → State) (h : Takes s r) :
    onReq r op none body s = body (takenId s r op) (taken s r op) := by
  have hf := fetchReq_takes op h
  obtain ⟨-, -, h3, h4, h5⟩ := h
  have ht : tdiOf (taken s r op) r.fn.key ≠ .error := by simpa [tdiOf, taken] using h3
  have ha : (r.admin && ! r.fn.isPf) = false := by
    cases hb : r.admin
    · rfl
    · simp [h5 hb]
  simp only [onReq, hf, ht, if_false, h4, ha]
  simp

/-- A request that the hub takes and that has an operand out of range completes with BAD_ENTRY (R342). -/
theorem onReq_bad {s : State} {r : Req} (op b : Nat) (body : ReqId → State → State) (h : Takes s r) :
    onReq r op (some b) body s = badEntry (takenId s r op) b (taken s r op) := by
  have hf := fetchReq_takes op h
  obtain ⟨-, -, h3, h4, h5⟩ := h
  have ht : tdiOf (taken s r op) r.fn.key ≠ .error := by simpa [tdiOf, taken] using h3
  have ha : (r.admin && ! r.fn.isPf) = false := by
    cases hb : r.admin
    · rfl
    · simp [h5 hb]
  simp only [onReq, hf, ht, if_false, h4, ha]
  simp

@[simp] theorem taken_frame (s : State) (r : Req) (op : Nat) : { taken s r op with rings := s.rings } = s := rfl

end Sys2Proof.Machine
end

