-- ==== Sys2Proof/Laws/Sessions.lean ====
section
/-! SUPPORT. What a request that names a session meets: its gate and its directory search. -/

namespace Sys2Proof.Machine

theorem countSearch_frame (p : Nat) (s : State) : { countSearch p s with regs := s.regs } = s := rfl

/-! ### A search that mends suspect rows leaves the sessions alone (R200) -/

theorem foldl_sessions {α : Type} {f : State → α → State} (h : ∀ s x, (f s x).sessions = s.sessions) (l : List α) (s : State) :
    (l.foldl f s).sessions = s.sessions := by
  induction l generalizing s with
  | nil => rfl
  | cons x l ih => exact (ih _).trans (h s x)

theorem setErrQueue_sessions (p : Nat) (q : ErrQueue) (s : State) : (setErrQueue p q s).sessions = s.sessions := by
  unfold setErrQueue; split <;> rfl

theorem queueErr_sessions (p : Nat) (e : ErrRec) (s : State) : (queueErr p e s).sessions = s.sessions := by
  unfold queueErr
  dsimp only
  repeat' first | rfl | exact setErrQueue_sessions _ _ _ | exact (setErrQueue_sessions _ _ _ :) | split

theorem deliverErr_sessions (e : ErrRec) (s : State) : (deliverErr e s).sessions = s.sessions := by
  unfold deliverErr
  dsimp only
  split
  · exact (queueErr_sessions _ _ _).trans (queueErr_sessions _ _ _)
  · exact queueErr_sessions _ _ _

theorem raiseErr_sessions (e : ErrRec) (s : State) : (raiseErr e s).sessions = s.sessions := by
  unfold raiseErr
  dsimp only
  repeat' first | rfl | exact deliverErr_sessions _ _ | split

theorem farAccess_sessions (n : Nat) (s : State) : (farAccess n s).sessions = s.sessions := by 
  unfold farAccess
  dsimp only
  repeat' first | rfl | split

theorem cleanRow_sessions (n : Nat) (s : State) : (cleanRow n s).sessions = s.sessions := by
  unfold cleanRow
  dsimp only
  repeat' first | rfl | split

theorem rewriteRow_sessions (n : Nat) (s : State) : (rewriteRow n s).sessions = s.sessions :=
  (cleanRow_sessions _ _).trans (farAccess_sessions _ _)

theorem moveWrite_sessions (g : List Nat) (s : State) (w : DirWrite) : (moveWrite g s w).sessions = s.sessions := by
  unfold moveWrite
  repeat' first | rfl | split

theorem blockFails_sessions (b : Nat) (s : State) : (blockFails b s).sessions = s.sessions := by
  unfold blockFails
  dsimp only
  split
  · rfl
  · split
    · exact raiseErr_sessions _ _
    · refine (foldl_sessions (moveWrite_sessions _) _ _).trans ?_
      exact foldl_sessions (fun s r => by split; · rfl
                                          · exact raiseErr_sessions _ _) _ _

theorem retireRow_sessions (n : Nat) (s : State) : (retireRow n s).sessions = s.sessions := by
  unfold retireRow
  dsimp only
  split
  · exact blockFails_sessions _ _
  · refine (raiseErr_sessions _ _).trans ?_
    exact (cleanRow_sessions _ _).trans (farAccess_sessions _ _)

theorem markSuspect_sessions (n : Nat) (s : State) : (markSuspect n s).sessions = s.sessions := by
  unfold markSuspect
  dsimp only
  split
  · exact retireRow_sessions _ _
  · rfl

theorem mendRow_sessions (n : Nat) (s : State) : (mendRow n s).sessions = s.sessions := by
  unfold mendRow
  split
  · exact rewriteRow_sessions _ _
  · rfl

/-- A search made and answered at once changes no session, whatever rows it marks and mends. -/
theorem searchNow_sessions (wide : Bool) (q : Nat) (s : State) : (searchNow wide q s).sessions = s.sessions := by
  unfold searchNow
  split
  · rfl
  · refine (foldl_sessions (fun s n => mendRow_sessions n s) _ _).trans ?_
    exact foldl_sessions (fun s n => markSuspect_sessions n s) _ _

/-- A request that names a session runs its body on it once the search finds it. -/
theorem withSession_finds {s : State} {r : Req} {key : Nat} {x : Session} (op : Nat) (body : Nat → Session → State → State)
    (h : Finds s r key x) : withSession (takenId s r op) body (taken s r op) = body key x (found s r op) := by
  obtain ⟨rfl, h2, h5⟩ := h
  obtain ⟨n, e, h3, h4⟩ := h5 op
  have a : sessSearch (found s r op) (takenId s r op) = 0 := by
    have h3' : dirSearch (found s r op).dir.rows false (sessDirKey (takenId s r op).ident (takenId s r op).session)
        (found s r op).dir.epoch false = some (n, e) := h3
    simp only [sessSearch, h3']
    simp [h4]
  have b : sessOf (found s r op) (takenId s r op) = some x := by
    have e : (found s r op).sessions = s.sessions := searchNow_sessions _ _ _
    unfold sessOf
    rw [e]
    exact h2
  have c : searchNow false (sessDirKey (takenId s r op).ident (takenId s r op).session)
      (countSearch (fnPort (takenId s r op).fn) (taken s r op)) = found s r op := rfl
  simp only [withSession, c, a, b]
  rfl

theorem fresh_of_takes {s : State} {r : Req} (h : Takes s r) : fresh s = true := by simp [fresh, h.1]

/-- A session request that nothing holds back runs its body on the session. -/
theorem sessReq_runs {s : State} {r : Req} {key : Nat} {x : Session} {landing : Bool} (op : Nat) (cmd : Instr)
    (body : ReqId → Nat → Session → State → State) (h : Takes s r) (hf : Finds s r key x) (hc : Clear s key x landing) :
    onReq r op none (orderGate (fresh s) landing cmd (fun id s => withSession id (body id) s)) s =
      body (takenId s r op) key x (found s r op) := by
  rw [onReq_takes _ _ h]
  obtain ⟨h1, h2, h3⟩ := hc
  have hk : key = sessKey (takenId s r op).ident (takenId s r op).session := hf.1
  have hx : mget? (taken s r op).sessions key = some x := hf.2.1
  have hb : sessBlocked (taken s r op) key x landing = false := h2
  have hw : sessWaits (taken s r op) key = false := h3
  simp only [orderGate, orderGateOn, ← hk, hx, h1, hb, hw]
  simp only [Option.isSome_none, Bool.or_self, Bool.and_false, Bool.false_eq_true, if_false]
  exact withSession_finds op _ hf

/-- A request that takes effect between frames and that nothing holds back runs its body on the session. -/
theorem boundReq_runs {s : State} {r : Req} {key : Nat} {x : Session} (op : Nat) (cmd : Instr)
    (body : ReqId → Nat → Session → State → State) (h : Takes s r) (hf : Finds s r key x) (hc : Between s key x) :
    onReq r op none (boundaryGate (fresh s) cmd (fun id s => withSession id (body id) s)) s =
      body (takenId s r op) key x (found s r op) := by
  rw [onReq_takes _ _ h]
  obtain ⟨h1, h2, h3⟩ := hc
  have hk : key = sessKey (takenId s r op).ident (takenId s r op).session := hf.1
  have hx : mget? (taken s r op).sessions key = some x := hf.2.1
  have hb : sessBlocked (taken s r op) key x false = false := h1
  have hw : sessWaits (taken s r op) key = false := h2
  have hi : inFrame (taken s r op) x = false := h3
  simp only [boundaryGate, ← hk, hx, hb, hw, hi]
  simp only [Bool.or_self, Bool.and_false, Bool.false_eq_true, if_false]
  exact withSession_finds op _ hf

/-- A request for an object that nothing holds back runs its body. -/
theorem objectGate_runs {s : State} {r : Req} {key : Nat} (op : Nat) (cmd : Instr) (body : ReqId → State → State)
    (hi : Idle s key) :
    objectGate (fresh s) cmd key body (takenId s r op) (taken s r op) = body (takenId s r op) (taken s r op) := by
  obtain ⟨h1, h2⟩ := hi
  have a : objBusy (taken s r op) key = false := h1
  have b : (taken s r op).held.any (fun h => h.why = .object key) = false := h2
  simp only [objectGate, a, b]
  simp

end Sys2Proof.Machine
end

