-- ==== Sys2Proof/Laws/Text.lean ====
section
/-! SUPPORT. What a text request that names a session does once nothing holds it back. -/

namespace Sys2Proof.Machine

/-- A text request runs its body on its session: the session it answers is set and the request completes with DONE, or the
state it answers is the next one. -/
theorem textReq_runs {s : State} {r : Req} {key : Nat} {x : Session} (op : Nat) (cmd : Instr)
    (body : ReqId → Nat → Session → State → (Session × State) ⊕ State) (h : Takes s r) (hf : Finds s r key x)
    (hb : Between s key x) :
    textReq r op none cmd body s = match body (takenId s r op) key x (found s r op) with
      | .inl (y, t) => done (takenId s r op) (setSessTile key y t)
      | .inr t => t := by
  simp only [textReq]
  exact boundReq_runs op cmd _ h hf hb

end Sys2Proof.Machine
end

