-- ==== Sys2Proof/Tests/Slice0.lean ====
section
/-! SUPPORT. The model's own tests: ill-formed commands that the check refuses, and for each statement states and operands that
meet what its clauses suppose. -/

namespace Sys2Proof.Tests

open Sys2Proof.Machine

-- One declaration at a time: each evaluation needs its own stack.
set_option Elab.async false

/-! ### Ill-formed commands are refused by the check -/

/-- Port A's physical function, and its first virtual function. -/
def pfA : Fn := ⟨.a, 0⟩
/-- A virtual function of port A. -/
def vfA : Fn := ⟨.a, 1⟩

theorem test_wf_low_read : (Instr.lowHalfRead pfA .bar0 0x4000000).wf = false := by decide
theorem test_wf_low_write : (Instr.lowHalfWrite vfA .bar4 0x1002 5).wf = false := by decide
theorem test_wf_high_write : (Instr.highHalfWrite vfA .bar0 0x100000 5).wf = false := by decide
theorem test_wf_register_write : (Instr.registerWrite pfA .bar4 0x1000001 5).wf = false := by decide
theorem test_wf_undecoded : (Instr.undecodedAccess vfA .bar4 0x40000 true).wf = false := by decide
theorem test_wf_misaligned : (Instr.misalignedRegisterAccess pfA 0x10000 4 true).wf = false := by decide
theorem test_wf_vf_write : (Instr.vfBar0Write pfA 0x10000 4).wf = false := by decide
theorem test_wf_hatch_write : (Instr.hatchWrite .a (2 ^ 36 - 1) [0, 0] false).wf = false := by decide
theorem test_wf_hatch_read : (Instr.hatchRead .a 0 0 false).wf = false := by decide
theorem test_wf_flit : (Instr.flitReceive 0 (some [0]) 0).wf = false := by decide
theorem test_wf_sensor : (Instr.sensorReading [(4, 30)]).wf = false := by decide
theorem test_wf_pin : (Instr.pinLevelAccepted .wake 2).wf = false := by decide
theorem test_wf_good : (Instr.registerWrite pfA .bar0 0x10028 1).wf = true := by decide

/-! ### Witnesses: the queue and registers -/

/-- A booted part: the firmware runs, and an image is in force. -/
def up : State := { State.reset with hub := { firmware := true, releasedAt := 40 }, trellis := some {} }

/-- The booted part with pavilion 0 of port A on quarter 0 of bay 0. -/
def upPav : State := { up with pavs := [(0, { port := 0, quarters := [0] })] }

theorem wit_idle_step : State.reset.pending = [] ∧ nextHeld State.reset [] State.reset.held = none := by decide

theorem wit_refused_accesses :
    (inBar vfA .bar0 0xFFFFE = true ∧ 0xFFFFE % 4 ≠ 0) ∧ (inBar pfA .bar0 0 = true ∧ 8 ≠ 4) ∧
    (inBar vfA .bar0 0xFFFFC = true ∧ 0xFFFFC % 4 = 0 ∧ decodes vfA .bar0 0xFFFFC = false) ∧
    (inBar pfA .bar4 0x8 = true ∧ 0x8 % 4 = 0 ∧ decodes pfA .bar4 0x8 = false) ∧
    (vfA.isPf = false ∧ inBar vfA .bar0 0xFFFFF = true) := by decide

/-- A part whose port A physical function last filled its read holding register from GLB_DEVICE_TIME. -/
def readHeld : State := { up with readHold := [(0, ⟨0, 0x10000, 7⟩)] }

theorem wit_low_read : inBar pfA .bar0 0x10000 = true ∧ decodes pfA .bar0 0x10000 = true ∧
    isLow 0x10000 = true ∧ isHigh 0x10000 = false := by decide
theorem wit_high_read_held : inBar pfA .bar0 0x10004 = true ∧ decodes pfA .bar0 0x10004 = true ∧ isHigh 0x10004 = true ∧
    mget? readHeld.readHold pfA.key = some ⟨0, 0x10004 - 4, 7⟩ := by decide
theorem wit_high_read_live : decodes vfA .bar0 0x10004 = true ∧ isHigh 0x10004 = true ∧
    mget? readHeld.readHold vfA.key = none := by decide
theorem wit_word_read : decodes pfA .bar0 0x10028 = true ∧ isHigh 0x10028 = false ∧ isLow 0x10028 = false := by decide

/-- A part whose port A functions hold written low halves: of DIR's base register, and of the two ring bases. -/
def writeHeld : State := { up with writeHold := [(0, ⟨0, 0x30008, 0x1000⟩), (1, ⟨4, 0x1000, 0x5000⟩), (2, ⟨4, 0x1010, 0x6000⟩)] }

theorem wit_low_write : pfA.isPf = true ∧ decodes pfA .bar0 0x30008 = true ∧ isLow 0x30008 = true ∧
    writeGate up pfA 0x30008 = .open := by decide
theorem wit_low_write_ring : shareOf vfA 0x1000 = (vfA.key, 0x1000) ∧ shareOf pfA 0x1010 = (pfA.key, 0x1010) := by decide
theorem wit_high_write : decodes pfA .bar0 0x3000C = true ∧ isHigh 0x3000C = true ∧ writeGate writeHeld pfA 0x3000C = .open ∧
    mget? writeHeld.writeHold pfA.key = some ⟨0, 0x3000C - 4, 0x1000⟩ ∧
    regRow (0x3000C - 4) = some (reg64 0x30008 .shared 0 0xFFFFFFFFFFFFFFFF) ∧ isAssign (0x3000C - 4) = false := by decide
theorem wit_high_write_live : decodes pfA .bar0 0x51014 = true ∧ isHigh 0x51014 = true ∧
    writeGate upPav pfA 0x51014 = .open ∧ mget? upPav.writeHold pfA.key = none := by decide
theorem wit_high_write_rq : mget? writeHeld.writeHold vfA.key = some ⟨4, 0x1004 - 4, 0x5000⟩ ∧
    shareOf vfA 0x1004 = (vfA.key, 0x1004) := by decide
theorem wit_high_write_cq : mget? writeHeld.writeHold (Fn.key ⟨.a, 2⟩) = some ⟨4, 0x1014 - 4, 0x6000⟩ ∧
    shareOf ⟨.a, 2⟩ 0x1014 = (Fn.key ⟨.a, 2⟩, 0x1014) := by decide
theorem wit_register_write : decodes pfA .bar0 0xB0000 = true ∧ isLow 0xB0000 = false ∧ isHigh 0xB0000 = false ∧
    writeGate up pfA 0xB0000 = .open ∧ regRow 0xB0000 = some (reg32 0xB0000 .perPort 0x02710001 0xFFFFF001) ∧
    isAssign 0xB0000 = false := by decide
theorem wit_register_write_ring : shareOf vfA 0x1008 = (vfA.key, 0x1008) ∧ shareOf vfA 0x1018 = (vfA.key, 0x1018) := by decide

theorem wit_flags_clear : bayOfPort upPav 0 0 = true ∧ regGet upPav 0 0x1080000 < 2 ^ 32 := by decide

/-- A part that holds word 1 of port A's K4 table 15. -/
def k4HeldPart : State := { up with k4Held := [(k4Key 0 15 1, 9)] }

theorem wit_k4_tables : responds k4HeldPart (k4Off 15 3) = true ∧ responds k4HeldPart (k4Off 0 0) = true ∧
    mapWf k4HeldPart.k4Held = true := by decide
theorem wit_k4_held_words : ∀ w x, mget? k4HeldPart.k4Held (k4Key 0 15 w) = some x → x < 2 ^ 32 := by
  intro w x h
  simp only [k4HeldPart, mget?] at h
  split at h
  · simp at h; omega
  · simp at h

/-! ### Witnesses: what a program places -/

/-- An image of `n` bytes from its fields: byte, length and value. -/
def fields (n : Nat) (fs : List (Nat × Nat × Nat)) : List Byte :=
  natLe n (fs.foldl (fun x f => x + (f.2.2 % 2 ^ (8 * f.2.1)) * 2 ^ (8 * f.1)) 0)

/-- The operand fields of a slot, lowest first, by width and value, above its opcode (R71). -/
def slotV (op : Nat) (fs : List (Nat × Nat)) : Nat := op + 256 * fs.foldr (fun f x => f.2 + 2 ^ f.1 * x) 0
/-- The three registers of a vector or special operation, without a mask. -/
def regs3 (d a b : Nat) : List (Nat × Nat) := [(5, d), (5, a), (5, b), (5, 0)]
/-- A scalar operation on S3, S1 and S2. -/
def sc (op : Nat) : Nat := slotV op [(4, 3), (4, 1), (32, 2)]
/-- A bundle from its matrix, vector, special, scalar, pane, bond and lattice slots. -/
def bundle (m v sp sc p b l : Nat) : Nat :=
  m + 2 ^ 128 * v + 2 ^ 224 * sp + 2 ^ 256 * sc + 2 ^ 320 * p + 2 ^ 368 * b + 2 ^ 464 * l

/-- Bundles that issue every operation of a core, by cycle. -/
def plan : List Nat := [
  bundle (slotV 1 [(3, 1), (5, 2), (22, 0), (28, 4096), (28, 8192), (3, 0), (3, 1), (1, 0)]) (slotV 1 (regs3 1 2 3))
    (slotV 1 [(5, 1), (5, 2), (5, 0)]) (sc 1) (slotV 1 [(5, 7), (22, 9)]) (slotV 1 [(22, 16), (28, 64), (14, 3), (3, 0)])
    (slotV 1 [(22, 32), (9, 5), (9, 1)]),
  bundle (slotV 4 [(3, 1), (5, 2), (22, 0), (28, 4096), (28, 8192), (3, 0), (3, 1), (1, 1)]) (slotV 2 (regs3 1 2 3))
    (slotV 2 [(5, 1), (5, 2), (5, 0)]) (sc 2) (slotV 2 [(5, 7), (22, 9)]) (slotV 2 [(22, 16), (28, 64), (14, 3), (3, 0), (11, 1024 + 1)])
    (slotV 2 [(22, 32), (9, 0), (9, 1)]),
  bundle (slotV 8 [(3, 1), (5, 2), (22, 0), (28, 8192), (1, 0), (1, 1), (1, 0)]) (slotV 3 (regs3 1 2 3)) (slotV 3 (regs3 1 2 3)) (sc 3)
    (slotV 3 [(3, 2), (22, 9)]) 0 0,
  bundle (slotV 0xC [(3, 1), (5, 2), (22, 0), (28, 8192), (1, 1)]) (slotV 4 [(5, 1), (5, 2), (5, 3), (5, 4), (5, 0)])
    (slotV 4 [(5, 1), (5, 2), (5, 0)]) (sc 4) (slotV 4 [(4, 2), (28, 8)]) 0 0,
  bundle 0 (slotV 5 (regs3 1 2 3)) (slotV 5 [(5, 1), (5, 2), (5, 0)]) (sc 5) (slotV 5 [(4, 2), (28, 8)]) 0 0,
  bundle 0 (slotV 6 (regs3 1 2 3)) (slotV 6 [(5, 1), (5, 2), (5, 0)]) (sc 6) 0 0 0,
  bundle 0 (slotV 7 [(5, 1), (5, 2), (5, 16 + 4)]) (slotV 7 [(5, 1), (5, 2), (5, 0)]) (sc 7) 0 0 0,
  bundle 0 (slotV 0x10 [(3, 1), (5, 2), (5, 3), (3, 1), (1, 0)]) (slotV 8 [(5, 1), (5, 2), (5, 0)]) (sc 8) 0 0 0,
  bundle 0 (slotV 0x18 [(5, 1), (5, 2), (3, 0), (3, 4), (1, 0), (3, 2)]) (slotV 9 [(5, 1), (5, 2), (5, 0)]) (sc 9) 0 0 0,
  bundle 0 (slotV 0x20 (regs3 1 2 3)) 0 (slotV 0xA [(4, 3), (4, 1)]) 0 0 0,
  bundle 0 (slotV 0x21 (regs3 1 2 3)) 0 (sc 0xB) 0 0 0,
  bundle 0 (slotV 0x22 (regs3 1 2 3)) 0 (sc 0xC) 0 0 0,
  bundle 0 (slotV 0x23 (regs3 1 2 3)) 0 (sc 0xD) 0 0 0,
  bundle 0 (slotV 0x24 [(5, 1), (5, 2), (5, 3), (5, 4), (5, 0)]) 0 (slotV 0xE [(4, 3), (32, 0xFFFFFFFF)]) 0 0 0,
  bundle 0 (slotV 0x25 (regs3 1 2 3)) 0 (slotV 0xF [(4, 3), (4, 1)]) 0 0 0,
  bundle 0 (slotV 0x26 (regs3 1 2 3)) 0 (slotV 0x10 [(32, 1), (16, 16), (3, 2)]) 0 0 0,
  bundle 0 (slotV 0x28 (regs3 1 2 3)) 0 0 0 0 0,
  bundle 0 (slotV 0x29 (regs3 1 2 3)) 0 0 0 0 0,
  bundle 0 (slotV 0x2A (regs3 1 2 3)) 0 0 0 0 0,
  bundle 0 (slotV 0x30 []) 0 0 0 0 0,
  bundle 0 (slotV 0x31 []) 0 0 0 0 0]

/-- A step program of 1,000 cycles with those bundles in quarter 0, and a REFRESH slot at cycle 100. -/
def planImg : List Byte := fields 1472 ([(8, 4, 1000), (0xC, 2, 1), (0xE, 2, 1), (0x10, 1, 1), (0x34, 2, 2), (0x38, 4, 0x40),
  (0x40, 2, 1), (0x42, 2, 0), (0x44, 4, 128), (0x48, 4, 1344), (0x4C, 4, 21),
  (0x50, 2, 6), (0x52, 2, 0xFFFF), (0x54, 4, 0x60), (0x58, 4, 16), (0x5C, 4, 1),
  (0x60, 1, 1), (0x64, 4, 100), (0x68, 4, 192)] ++ plan.zipIdx.map (fun p => (128 + 64 * p.2, 64, p.1)))

/-- The part with a frame of pavilion 0 at cycle 0 of 1,000, whose program has those bundles. -/
def running : State := { upPav with
  pavs := [(0, { port := 0, quarters := [0], prog := some { object := 9, modelSlot := 0, image := planImg } })]
  frames := [(0, { bays := [0], pavs := [0], quarters := [0], length := 1000 })] }
/-- Its frame. -/
def runFrame : Frame := { bays := [0], pavs := [0], quarters := [0], length := 1000 }
/-- An address that is its base. -/
def pane (n : Nat) : PAddr := ⟨n, 0⟩

/-- What each bundle spells, on any core of quarter 0. -/
def placedBy (k : Fin 10240) : List (List Instr) := [
  [.mmaK4 k 0 1 2 (pane 0) (pane 4096) .k4 (pane 8192) 0 1 false, .vadd k 0 1 2 3 none, .vexp2 k 0 1 2 none, .scAdd k 0 3 1 (.reg 2),
    .vld k 0 7 (pane 9) none, .bld k 0 (pane 16) (pane 64) 4 0 [], .lsend k 0 (pane 32) 5 2],
  [.mmaK4s k 1 1 2 (pane 0) (pane 4096) .k4 (pane 8192) 0 1 true, .vsub k 1 1 2 3 none, .vexp k 1 1 2 none, .scSub k 1 3 1 (.imm 2),
    .vst k 1 7 (pane 9), .bst k 1 (pane 16) (pane 64) 4 0 (some 1), .lrecv k 1 (pane 32) 2],
  [.mmaF8 k 2 1 2 (pane 0) (pane 8192) .e4m3 .e5m2 false, .vmul k 2 1 2 3 none, .vexpsub k 2 1 2 3 none, .scMul k 2 3 1 (.reg 2),
    .tld k 2 2 (pane 9)],
  [.mmaBf16 k 3 1 2 (pane 0) (pane 8192) true, .vfma k 3 1 2 3 4 none, .vrcp k 3 1 2 none, .scShl k 3 3 1 (.reg 2), .sld k 3 2 (pane 8)],
  [.vmax k 4 1 2 3 none, .vrsqrt k 4 1 2 none, .scShr k 4 3 1 (.reg 2), .sst k 4 2 (pane 8)],
  [.vmin k 5 1 2 3 none, .vsigm k 5 1 2 none, .scSar k 5 3 1 (.reg 2)],
  [.vabs k 6 1 2 (some 4), .vsilu k 6 1 2 none, .scAnd k 6 3 1 (.reg 2)],
  [.accrd k 7 1 2 3 .bf16 false, .vtanh k 7 1 2 none, .scOr k 7 3 1 (.reg 2)],
  [.vcvt k 8 1 2 .fp32 .k4 false 2, .verf k 8 1 2 none, .scXor k 8 3 1 (.reg 2)],
  [.vaddI16 k 9 1 2 3 none, .scNot k 9 3 1], [.vsubI16 k 10 1 2 3 none, .scCeq k 10 3 1 (.reg 2)],
  [.vmulI16 k 11 1 2 3 none, .scClt k 11 3 1 (.reg 2)], [.vmulhI16 k 12 1 2 3 none, .scCltu k 12 3 1 (.reg 2)],
  [.vmaddI16 k 13 1 2 3 4 none, .scMovi k 13 3 0xFFFFFFFF], [.vshlI16 k 14 1 2 3 none, .scMov k 14 3 1],
  [.vshrI16 k 15 1 2 3 none, .loop k 15 2 1 16], [.vaddI16W k 16 1 2 3 none], [.vsubI16W k 17 1 2 3 none], [.vmulI16W k 18 1 2 3 none],
  [.vsumr k 19 (.scalar 3) 1, .vsumr k 19 (.lane 3 4) 1], [.vmaxr k 20 (.scalar 3) 1, .vmaxr k 20 (.lane 3 4) 1]]

theorem test_plan_bundles : coreBundles running 0 = plan := by decide +kernel
theorem wit_issues : ((placedBy 0).zipIdx.map (fun p => p.1.all (fun i => issues running 0 p.2 i = some (0, runFrame)))).all id = true := by
  simp only [issues, placed, coreBundle, test_plan_bundles]; decide +kernel

/-! ### Witnesses: sliver cores -/

theorem wit_issuing : issuing running 0 999 = some (0, runFrame) ∧ issuing running 0 0 = some (0, runFrame) := by decide
theorem wit_vmax : (fp32Val 0x7FC00000).isNan = true ∧ (fp32Val 1).isNan = false ∧ (fp32Val 0xFF800000).isNan = false := by decide
theorem wit_sat16 : (-32768 : Int) ≤ -32768 ∧ (-32769 : Int) < -32768 ∧ (32767 : Int) < 32768 := by decide

/-- A core whose scalar 1 is 63 and whose scalar 2 is 64. -/
def shiftCore : Core := { sr := [(1, 63), (2, 64)] }
theorem wit_shift : (shiftCore.sval (.reg 1)).toNat < 64 ∧ (shiftCore.sval (.imm 0)).toNat < 64 := by decide

theorem wit_pane_accesses : paneAddr [] {} 0 64 128 (pane 12286) = some 786304 ∧
    paneAddr [] {} 0 64 16 (pane 12287) = some 786368 ∧
    paneAddr [] {} 0 1 8 (pane 786424) = some 786424 ∧ 786424 % 8 = 0 := by decide
theorem wit_pane_stops : paneAddr [] {} 0 64 128 (pane 12287) = none ∧ paneAddr [] {} 0 64 16 (pane 12288) = none ∧
    paneAddr [] {} 0 1 8 (pane 786425) = none ∧ paneAddr [] {} 0 1 8 (pane 4) = some 4 ∧ 4 % 8 ≠ 0 ∧
    paneAddr [] {} 0 64 (64 * 16) (pane 12272) = some 785408 ∧ sliverAddr [] {} 0 16 (pane 786417) = none := by decide
theorem wit_strides : coreStrides running 0 (pane 0).expr = [] ∧ coreNow running 0 0 = {} := by decide
theorem wit_matrix : (paneAt running 0 0 64 2048 (pane 0) {}).isSome = true ∧ (paneAt running 0 0 1 64 (pane 4) {}).isSome = true ∧
    (paneAt running 0 0 64 1024 (pane 0) {}).isSome = true ∧ (paneAt running 0 0 1 32 (pane 4) {}).isSome = true ∧
    (paneAt running 0 0 64 512 (pane 0) {}).isSome = true ∧ (paneAt running 0 0 64 768 (pane 0) {}).isSome = true ∧
    (paneAt running 0 0 1 (bBytes .k4 64) (pane 0) {}).isSome = true := by decide
theorem wit_lane_mask : 256 * 4 = 1024 ∧ [true, false, true, true].length = 4 ∧ [2 ^ 256 - 1, 0, 1, 2].length = 4 ∧
    ∀ x ∈ [2 ^ 256 - 1, 0, 1, 2], x < 2 ^ 256 := by decide +kernel
theorem wit_flight : ({} : Core).flight = [] ∧ 3 < 4 ∧ 4 ≤ 4 := by decide
theorem wit_flags : (quarterPav running (coreQuarter (0 : Fin 10240))).isSome = true ∧ (4 : BitVec 5) ≠ 0 ∧
    physBay running (coreBay (0 : Fin 10240)) < 21 := by decide

theorem wit_bld : paneAddr [] {} 0 64 (64 * 4) (pane 12284) = some 786176 ∧ sliverAddr [] {} 0 4 (pane 786428) = some 786428 ∧
    ∀ i, i < 4 → isDamaged running 0 (786428 + i) = false := by decide
theorem wit_bst_masked : verdict runFrame 0 (1023 : Fin 1024) = false := by decide
theorem wit_near : Memory.wf State.reset.near = true ∧ nearKey 0 (64 * 5) ≤ nearKey 0 (64 * 5) + 3 ∧ 2 < [0, 1, (2 : Byte)].length := by
  decide

theorem wit_bond_barred : bondBarred running 0 0 = false ∧ bondBarred running 0 100 = true ∧ bondBarred running 0 291 = true ∧
    bondBarred running 0 292 = false := by decide +kernel
theorem wit_vld_lost :
    (issues { coreMemLost 0 .pane running with free := running.free + 1 } 0 0 (.vld 0 0 7 (pane 9) (some .pane))).isSome = true := by
  decide +kernel
theorem wit_lsend : latticeCore 0 5 ≠ 0 ∧ latticeCore 0 0 = 0 ∧ paneAddr [] {} 0 64 (256 * 2) (pane 32) = some 2048 := by decide

/-- The part while one message and one beat are due at core 0. -/
def arriving : State :=
  { running with lattice := [⟨0, 1, List.replicate 512 7⟩], colonnade := [⟨0, 0, 3, List.replicate 512 7⟩] }
theorem wit_lrecv : (advance 0 1 arriving).lattice.find? (fun m => m.dst = 0 && m.due = 1) = some ⟨0, 1, List.replicate 512 7⟩ ∧
    (advance 0 1 running).lattice.find? (fun m => m.dst = 0 && m.due = 1) = none ∧
    paneAddr [] {} 1 64 (256 * 2) (pane 32) = some 2048 := by decide +kernel

/-- A pavilion on quarter 0 of bays 0 and 1, in a frame. -/
def twoBays : State := { upPav with
  pavs := [(0, { port := 0, quarters := [0, 4] })]
  frames := [(0, { bays := [0, 1], pavs := [0], quarters := [0, 4], length := 1000 })] }
theorem wit_colonnade : issuing twoBays 0 2 = some (0, { bays := [0, 1], pavs := [0], quarters := [0, 4], length := 1000 }) ∧
    colOk twoBays 2 (some 0) [⟨512, 9⟩] (.ring true) = true ∧ (colLand 2 (some 0) 512 (.ring true)).isSome = true ∧
    colOk twoBays 2 (some 0) [⟨512, 9⟩] (.transom 0 1) = true ∧ colOk twoBays 2 (some 0) [⟨1, 9⟩] (.ring true) = false ∧
    colOk twoBays 2 none [⟨0, 9⟩, ⟨512, 9⟩] (.transom 0 0) = true ∧ colOk twoBays 3 (some 0) [⟨512, 9⟩] (.ring true) = false ∧
    64 * 12280 + 512 * 1 ≤ paneBytes ∧ paneBytes < 64 * 12287 + 512 * 1 := by decide +kernel
theorem wit_colonnade_beat : arriving.colonnade = [⟨0, 0, 3, List.replicate 512 7⟩] ∧ issuing arriving 0 3 = some (0, runFrame) ∧
    (coreAt arriving 0).flight = [] ∧ (coreAt arriving 0).reads = [] ∧ (coreAt arriving 0).stores = [] :=
  ⟨rfl, by decide +kernel, by decide +kernel, by decide +kernel, by decide +kernel⟩
theorem wit_codes : codecValid 0 = true ∧ codecK4r 0 = false ∧ codecValid 7 = true ∧ codecK4r 7 = false ∧
    (List.replicate 16384 (0 : Byte)).length = 16384 := by
  refine ⟨by decide, by decide, by decide, by decide, List.length_replicate⟩

/-! ### Witnesses: frames -/

/-- A step program of 1,000 cycles in quarter 0, with one batch slot, a refresh slot, a deskew slot, a HUB_BOND slot and a transom
window, and a latch point at cycle 500. -/
def img : List Byte := fields 272 [(8, 4, 1000), (0xC, 2, 1), (0xE, 2, 1), (0x10, 1, 1), (0x34, 2, 2), (0x38, 4, 0x40),
  (0x40, 2, 6), (0x42, 2, 0xFFFF), (0x44, 4, 0x80), (0x48, 4, 64), (0x4C, 4, 4),
  (0x50, 2, 7), (0x52, 2, 0xFFFF), (0x54, 4, 0xC0), (0x58, 4, 16), (0x5C, 4, 1),
  (0x80, 1, 1), (0x84, 4, 100), (0x88, 4, 192), (0x90, 1, 2), (0x94, 4, 300), (0x98, 4, 256),
  (0xA0, 1, 3), (0xA4, 4, 600), (0xA8, 4, 16), (0xB0, 1, 4), (0xB1, 1, 1), (0xB4, 4, 700), (0xB8, 4, 10), (0xC0, 4, 500)]

/-- The program with a sampling descriptor of 64 tokens and no decode descriptor. -/
def prog : Prog := { object := 9, modelSlot := 0, image := img, sample := fields 8 [(0, 4, 64)] }

/-- The session's request, and its run. -/
def id0 : ReqId := ⟨1, 0, 1, 0x22, 7, 5, 1, false⟩
def run0 : Run := { id := id0, outBase := 4096, outSize := 4096, admitted := true }
/-- Session 5 of virtual function 1, in batch slot 0 of pavilion 0, with an input token and a step asked for. -/
def sess0 : Session := { object := 5, home := 1, lmax := 64, place := .resident 0 0, run := some run0,
                         tile := [(0x4C, 3), (0x4F, 0x80)] }
def key0 : Nat := sessKey 1 5

/-- The same program with a decode descriptor: F8 pages, one layer, one group and head, 32 hidden elements, object 9 embeds. -/
def progD : Prog := { prog with decode := fields 64 [(0, 1, 1), (4, 2, 1), (6, 1, 1), (7, 1, 1), (12, 2, 1), (0x10, 4, 128),
  (0x14, 2, 1), (0x34, 2, 32), (0x38, 8, 9)] }
/-- The embedding object: one tile in the near tier. -/
def embed : Obj := { kind := .model, ntiles := 1, tiles := [(0, { state := .clean, upTier := 1 })] }

/-- The part with that program loaded and that session in its slot, the bay at run, and the frame not yet started. -/
def loaded : State := { up with
  bays := [(0, { power := .run })], sessions := [(key0, sess0)]
  pavs := [(0, { port := 0, quarters := [0], prog := some prog, slots := [(0, { sess := key0 })], gathered := true,
                 inputs := [(0, (0, [3]))], masks := [(0, sessMask up key0 sess0 64)] })] }

theorem wit_image : imgCycles img = 1000 ∧ imgSlotRecs img = [⟨1, 0, 0, 0, 100, 192, 0⟩, ⟨2, 0, 0, 0, 300, 256, 0⟩,
    ⟨3, 0, 0, 0, 600, 16, 0⟩, ⟨4, 1, 0, 0, 700, 10, 0⟩] ∧ imgLatchRecs img = [⟨500, 0, 0, 0, 0⟩] := by decide +kernel
theorem wit_frame_group : ((groupPavs loaded (groupBays loaded 0)).filter (pavReady loaded)).head? = some 0 ∧
    (pavAt loaded 0).prog = some prog := by decide +kernel
theorem wit_frame_may : frameMay loaded (groupBays loaded 0) (groupPavs loaded (groupBays loaded 0)) = true := by decide +kernel
theorem wit_frame_inputs : frameFates loaded [] [0] = [(0, .runs ⟨key0, [3], 0, true, 1, 0, 0, 0, false⟩)] ∧
    inputReady loaded 0 0 ⟨key0, [3], 0, true, 1, 0, 0, 0, false⟩ = true := by
  decide +kernel

/-- The part with a frame of that program at cycle 436, where its latch point has not been decided, and no older events. -/
def inFrame0 : Frame := { bays := [0], pavs := [0], quarters := [0], length := 1000, runs := [(0, ⟨key0, [3], 0, true, 1, 0, 0, 0, false⟩)] }
def stepping : State := { loaded with frames := [(0, inFrame0)] }

theorem wit_latch : stepping.frames.find? (fun f => f.2.pavs.contains 0) = some (0, inFrame0) ∧
    (pavAt stepping 0).prog = some prog ∧ (imgLatchRecs prog.image)[0]? = some ⟨500, 0, 0, 0, 0⟩ ∧ inFrame0.hold = none ∧
    inFrame0.stopped = false ∧ inFrame0.latched.contains (0, 0) = false ∧ 64 ≤ 500 ∧ inFrame0.cycle ≤ 500 - 64 ∧
    inFrame0.requests = [] ∧ bits (pavCtrl stepping 0) 4 5 ≠ 2 := by decide +kernel

/-- The part between frames, its program with a decode descriptor. -/
def loadedD : State := { loaded with
  objects := [(9, embed)]
  pavs := [(0, { port := 0, quarters := [0], prog := some progD, slots := [(0, { sess := key0 })] })] }
theorem wit_column_input : mget? loadedD.pavs 0 = some (pavAt loadedD 0) ∧ groupBusy loadedD 0 = false ∧
    (pavAt loadedD 0).prog = some progD ∧ mget? (pavAt loadedD 0).slots 0 = some { sess := key0 } ∧
    slotActive loadedD 0 (0, { sess := key0 }) = true ∧ progD.decode ≠ [] ∧ mget? loadedD.sessions key0 = some sess0 ∧
    sess0.run = some run0 ∧ sess0.hasInput = true ∧ slotColumns (pavAt loadedD 0) 0 sess0 = (0, [3], true) ∧
    0 < lengthLimit (pavAt loadedD 0) sess0 := by decide +kernel
theorem wit_column_block : (columnBlock loadedD progD 0 3).isSome = true := by decide +kernel
theorem wit_query_slot : mget? (pavAt loadedD 0).slots 1 = none := by decide
theorem wit_gather : (onPav 0 (fun p => { p with readyAt := some 0 }) up |> fun s => pavCtrl s 0 |> fun c => bits c 16 31) = 0 ∧
    0 + 0 ≤ up.time := by decide

/-- A frame with nothing left to decide. -/
def doneFrame : Frame := { inFrame0 with cycle := 436, latched := [(0, 0)] }
def ending : State := { loaded with frames := [(0, doneFrame)] }
theorem wit_frame_end : frameOf ending 0 = some (0, doneFrame) ∧ doneFrame.hold = none ∧ doneFrame.stopped = false ∧
    doneFrame.requests = [] ∧ allLatched ending doneFrame = true := by decide +kernel

/-! ### Witnesses: hub traffic, refresh, holds and calibration -/

theorem wit_slots : boundFrame stepping 0 = some (0, inFrame0) ∧
    (baySlots stepping 0).find? (fun r => r.kind = 3 && r.start = 600) = some ⟨3, 0, 0, 0, 600, 16, 0⟩ ∧
    planned inFrame0 0 3 600 = true ∧
    (baySlots stepping 0).find? (fun r => r.kind = 1 && r.start = 100) = some ⟨1, 0, 0, 0, 100, 192, 0⟩ ∧
    planned inFrame0 0 1 100 = true ∧
    (baySlots stepping 0).find? (fun r => r.kind = 2 && r.start = 300) = some ⟨2, 0, 0, 0, 300, 256, 0⟩ ∧
    planned inFrame0 0 2 300 = true := by decide +kernel
theorem wit_window : (baySlots stepping 0).find? (fun r => r.kind = 4 && r.port = 1 && r.dir = 1 - b2n true
      && decide (r.start ≤ 708) && decide (708 < r.start + r.len)) = some ⟨4, 1, 0, 0, 700, 10, 0⟩ ∧ 708 % 2 = 0 ∧
    planned inFrame0 0 (4 + 2 * 1 + (1 - b2n true)) 708 = true := by decide +kernel
theorem wit_free_bay : freeBay loaded 0 = true ∧ boundFrame loaded 0 = none ∧ bayAwake loaded 0 = true := by decide +kernel
theorem wit_beat_class : [(⟨5, true, 1, .depart 0 0⟩ : HubQueued)].any (fun x => x.cls = 5 && x.toBay = true) = true ∧
    beatClass [⟨5, true, 1, .depart 0 0⟩] true 0 = some 5 ∧ 5 ≠ 0 ∧ 1 ≤ 4 ∧ 4 < 5 := by decide

/-- The part a refresh interval after its bay's last. -/
def laterPart : State := { loaded with time := 4000, hclk := 6000 }
theorem wit_interval : bayAwake laterPart 0 = true ∧ (bayAt laterPart 0).refreshAt + 4 * refreshInterval laterPart 0 ≤ 9 * laterPart.time := by
  decide +kernel
theorem wit_delay_step : (({ step := 63 } : BondLine)).step < 64 := by decide

/-- Four refreshes owed, and the hold requested, frozen, and ended. -/
def owing : State := { stepping with bays := [(0, { power := .run, owed := 4 })] }
def hold0 : HoldReq := ⟨0, 1, 48, 192⟩
def askedFrame : Frame := { inFrame0 with requests := [hold0] }
def frozenFrame : Frame := { inFrame0 with cycle := 48, hold := some hold0, serving := [hold0] }
theorem wit_hold_request : boundFrame owing 0 = some (0, inFrame0) ∧ inFrame0.cycle ≤ 999 ∧ 999 < inFrame0.length ∧
    4 ≤ (bayAt owing 0).owed := by decide +kernel
/-- The part whose cores' program needs more than the envelope gives, whose bay has a line 17 steps off, and whose clock is bad. -/
def hungry : State := { running with
  trellis := some { actWindow := 1024 }, time := 1000000
  bays := [(0, { power := .run, lines := [(0, { err := 17 })], clockBad := true, clockOut := [1] })] }
theorem wit_hold_causes : boundFrame hungry 0 = some (0, runFrame) ∧ calDue hungry runFrame 0 999 = true ∧
    bayBudget hungry 0 < bayNeed hungry runFrame 0 ∧ (bayAt hungry 0).clockBad = true ∧ bondBusy owing 0 999 = false ∧
    bondBusy { owing with cores := [(0, { bondEnd := 1000 })] } 0 999 = true := by decide +kernel
theorem wit_clock_fence : (bayAt { hungry with bays := [(0, { power := .run, clockOut := [1] })] } 0).clockOut.contains
    (1 - b2n (bitOf hungry.spares.clocks (physBay hungry 0))) = true := by decide +kernel
theorem wit_late_hold : ({ inFrame0 with requests := [⟨0, 1, 1000, 192⟩] } : Frame).lateHolds = true ∧
    askedFrame.lateHolds = false ∧ frameOver { ending with time := 445 } doneFrame = true ∧
    frameOver { ending with time := 444 } doneFrame = false := by decide +kernel
theorem wit_gathers : (pavAt (noteReadyAll (onPav 0 (fun p => { p with readyAt := some 0 }) loaded)) 0).readyAt = some 0 := by decide +kernel
theorem wit_hold_freeze : frameOf { owing with frames := [(0, askedFrame)] } 0 = some (0, askedFrame) ∧ askedFrame.hold = none ∧
    askedFrame.stopped = false ∧ askedFrame.requests = [hold0] ∧ hold0.cause = 1 := by decide +kernel
theorem wit_hold_end : frameOf { owing with frames := [(0, frozenFrame)] } 0 = some (0, frozenFrame) ∧
    frozenFrame.hold = some hold0 ∧ frozenFrame.requests = [] ∧ ∀ x ∈ frozenFrame.serving, x.cause ≠ 2 := by decide +kernel

theorem wit_phase_alarm : 16 < (-17 : Int).natAbs ∧ bayAwake loaded (coreBay (0 : Fin 10240)) = true ∧
    boundFrame loaded (coreBay (0 : Fin 10240)) = none := by decide +kernel
theorem wit_clock_monitor : 500 < 501 ∧ (bayAt loaded 0).fenced = false ∧ (bayAt loaded 0).power ≠ .off ∧
    (bayAt loaded 0).clockBad = false ∧
    (bayAt loaded 0).clockOut.contains (1 - b2n (bitOf loaded.spares.clocks (physBay loaded 0))) = false ∧
    boundFrame stepping 0 ≠ none ∧ (bayAt stepping 0).clockBad = false := by decide +kernel

/-- The far calendar after training: no window open; a window open; a burst under way. -/
def farIdle : State := { up with farCal := { start := some 0 }, time := 160000000 }
def farOpen (bursts : Nat) (burst : Option Nat) : State :=
  { farIdle with farCal := { farIdle.farCal with windowAt := some 0, bursts := bursts, burstAt := burst } }
theorem wit_far_window : farIdle.farCal.start = some 0 ∧ farIdle.farCal.windowAt = none ∧ farNextAt farIdle ≤ farIdle.time := by
  decide
theorem wit_far_burst : (farOpen 255 none).farCal.windowAt = some 0 ∧ (farOpen 255 none).farCal.burstAt = none ∧
    (farOpen 255 none).farCal.bursts < 256 ∧ 0 + 1000 * 255 ≤ (farOpen 255 none).time := by decide
theorem wit_far_burst_end : (farOpen 255 (some 96)).farCal.burstAt = some 96 ∧ 96 + 96 ≤ (farOpen 255 (some 96)).time ∧
    (farOpen 255 (some 96)).farCal.bursts < 256 ∧ 256 ≤ (farOpen 256 (some 96)).farCal.bursts := by decide
theorem wit_far_early : (31 : Fin 64).val < 4 * farSites farIdle ∧ farIdle.farCal.early.contains 31 = false ∧ farNextCh farIdle ≠ 31 := by
  decide

/-! ### Witnesses: errors -/

/-- An error record of the hub. -/
def rec0 : ErrRec := { source := srcId 0xB 0, cls := 0, code := 1 }
/-- A part whose hub holds one record in service and, in `two`, one pending, 200 ns after the first. -/
def one : State := { up with errSources := [(rec0.source, { service := some rec0 })], time := 200, hclk := 300 }
def two : State := { one with errSources := [(rec0.source, { service := some rec0, pending := some rec0 })] }
/-- A part whose hub's errors were muted 100 ms ago. -/
def muted : State := { up with errSources := [(rec0.source, { mutedSince := some 0 })], time := 100000000 }

theorem wit_first_error : (errSource up rec0.source).mutedSince = none ∧ (errSource up rec0.source).service = none ∧
    (errSource one rec0.source).mutedSince = none ∧ (errSource one rec0.source).service = some rec0 ∧
    (errSource one rec0.source).pending = none := by decide
theorem wit_retire : (errSource two rec0.source).service = some rec0 ∧ rec0.time + 200 ≤ two.time ∧
    (errSource two rec0.source).escalate = false ∧ recordWaits two rec0 = false := by decide
theorem wit_mute_end : (errSource muted rec0.source).mutedSince = some 0 ∧ 0 + 100000000 ≤ muted.time := by decide
theorem wit_err_pop : responds up 0x20008 = true := by decide
/-- The part with a trained far tier of one 4 GiB site. -/
def farPart : State := { up with trellis := some { sites := 1, density := 4 }, bays := [(0, { power := .doze })] }
theorem wit_scrub : (bayAt farPart 0).fenced = false ∧ (bayAt farPart 0).power = .doze ∧
    (some LineRead.corrected) ≠ some LineRead.uncorrectable ∧ farTotal farPart ≠ 0 := by decide
theorem wit_spare : engineUsed up (engineKind .shutter) 32 = true ∧ up.spares.of (engineKind .shutter) ≠ noSpare (engineKind .shutter) ∧
    engineUsed up (engineKind .crypto) 8 = true := by decide
theorem wit_hub_clock : 500 < 501 ∧ 1000 < 1001 := by decide

/-! ### Witnesses: rings -/

/-- Virtual function 1 of port A with its rings running and one request to fetch. -/
def ringV : Ring := { enable := true, rqTail := 1, irqEnable := true, epoch := 1, cqTail := 3, unsig := 2 }
def ringPart : State := { up with rings := [(1, ringV)] }
def req1 : Req := { fn := vfA, tag := 7, session := 5, admin := false, onBehalf := 0, stray := none }

theorem wit_ring_start : (ringOf up vfA.key).enable = false ∧ bitOf (1 : Word).toNat 0 = true := by decide
theorem wit_ring_stop : (ringOf ringPart vfA.key).enable = true ∧ bitOf (2 : Word).toNat 0 = false ∧
    fetchable ringPart vfA.key = true ∧ vfA.isPf = false := by decide
theorem wit_doorbells : (63 : Word).toNat < 2 ^ (ringOf ringPart vfA.key).rqLogL ∧ 2 ^ (ringOf ringPart vfA.key).rqLogL ≤ (64 : Word).toNat := by
  decide
theorem wit_cq_head : let r := ringOf ringPart vfA.key
    r.enable = true ∧ (3 : Word).toNat < 2 ^ r.cqLogL ∧
    ((3 : Word).toNat + 2 ^ r.cqLogL - r.cqHead) % 2 ^ r.cqLogL ≤ (r.cqTail + 2 ^ r.cqLogL - r.cqHead) % 2 ^ r.cqLogL ∧
    r.overflow = [] ∧
    (r.cqTail + 2 ^ r.cqLogL - r.cqHead) % 2 ^ r.cqLogL < ((4 : Word).toNat + 2 ^ r.cqLogL - r.cqHead) % 2 ^ r.cqLogL := by decide
theorem wit_coal : let r := ringOf ringPart vfA.key
    r.irqEnable = true ∧ 0 < r.unsig ∧ r.firstAt + r.coalNs ≤ ringPart.time := by decide
/-- The same ring with its interrupt off. -/
def quietRing : State := { up with rings := [(1, { ringV with irqEnable := false })] }
theorem wit_irq_enable : (ringOf quietRing vfA.key).irqEnable = false ∧ bitOf (3 : Word).toNat 1 = true ∧
    bitOf (3 : Word).toNat 0 = (ringOf quietRing vfA.key).enable ∧
    coalMet { ringV with coalCount := 0, coalNs := 0, irqEnable := true } quietRing.time = true ∧
    coalMet { ringV with coalCount := 255, coalNs := 65535, irqEnable := true } quietRing.time = false := by decide

theorem wit_takes : Takes ringPart req1 := by decide
theorem wit_fence_now : ∀ x ∈ (ringOf ringPart req1.fn.key).fetched, (ringOf ringPart req1.fn.key).seq ≤ x.seq := by decide
/-- The ring with an earlier request that has not completed. -/
def busyRing : State := { up with rings := [(1, { ringV with seq := 1, fetched := [id0] })] }
theorem wit_fence_waits : Takes busyRing req1 ∧ ∃ x ∈ (ringOf busyRing req1.fn.key).fetched, x.seq < (ringOf busyRing req1.fn.key).seq := by
  decide
theorem wit_bad_opcode : opcodeAllocated 0x77 = false ∧ ringPart.releasing = none ∧ fetchable ringPart req1.fn.key = true ∧
    tdiOf ringPart req1.fn.key ≠ .error ∧ ({ req1 with stray := some 26 } : Req).stray = some 26 := by decide
/-- A completion of that function, into the ring, into a full one, and after a stop. -/
def cpl0 : Cpl := { id := id0 }
theorem wit_completion : busyRing.hub.stopped = false ∧ cpl0.more = false ∧ (ringOf busyRing 1).enable = true ∧
    (ringOf busyRing 1).epoch = cpl0.id.epoch ∧ (ringOf busyRing 1).overflow = [] ∧ cqFull (ringOf busyRing 1) = false ∧
    cqFull { ringV with cqTail := 63 } = true ∧ (ringOf up 1).enable = false := by decide

/-! ### Witnesses: sessions -/

/-- The directory row of session 5 of virtual function 1. -/
def row0 : DirRow := DirRow.written { key := sessDirKey 1 5, care := fullCare false, data := { state := 1, object := 5 } }
/-- The part with pavilion 0, assigned to every function of port A, with a loaded program, key domain 3 in use, and `x` as session 5. -/
def sessPart (x : Session) : State := { ringPart with
  trellis := some { sites := 8, density := 4, mapSlots := 32768, shareA := 100 }
  regs := [(0x51010, 2 ^ 64 - 1)]
  bays := [(0, { power := .run })]
  pavs := [(0, { port := 0, quarters := [0], prog := some prog })]
  sec := { domains := [(3, { port := 0, state := 2, mask := 2 ^ 64 - 1 })] }
  dir := { rows := [(0, row0)], shadow := [(0, sealLine up 0 row0)] }
  sessions := [(key0, x)]
  objects := [(objKey 1 5, { kind := .session, kd := 3, ntiles := 3 })] }
/-- Session 5 parked, with an input token and no run; resident in batch slot 0; and with its run going. -/
def parkedS : Session := { sess0 with kd := 3, run := none, place := .parked 3 0 }
def restingS : Session := { parkedS with place := .resident 0 0 }
def goingS : Session := { restingS with run := some run0 }

theorem wit_no_suspects (s : State) (h : s.dir = (sessPart sess0).dir) :
    searchSuspects s false (sessDirKey 1 5) s.dir.epoch false = [] := by
  have : searchSuspects s false (sessDirKey 1 5) s.dir.epoch false
      = searchSuspects (sessPart sess0) false (sessDirKey 1 5) (sessPart sess0).dir.epoch false := by simp only [searchSuspects, h]
  rw [this]; decide +kernel
theorem wit_found (x : Session) (op : Nat) : (found (sessPart x) req1 op).dir = (sessPart sess0).dir := by
  have h := wit_no_suspects (countSearch 0 (taken (sessPart x) req1 op)) rfl
  show (searchNow false (sessDirKey 1 5) (countSearch 0 (taken (sessPart x) req1 op))).dir = _
  rw [searchNow, h]; rfl
theorem wit_finds (x : Session) : Finds (sessPart x) req1 key0 x :=
  ⟨rfl, rfl, fun op => ⟨0, row0, by rw [wit_found]; decide +kernel, by decide⟩⟩
theorem wit_sess_takes (x : Session) : Takes (sessPart x) req1 := ⟨rfl, rfl, (by decide : Tdi.unlocked ≠ .error), rfl, by decide⟩

/-- An OPEN of session 6. -/
def req6 : Req := { req1 with session := 6 }
theorem wit_open : Takes (sessPart parkedS) req6 ∧ openBad 3 0 0 2097152 0xFFFF = none ∧
    mget? (sessPart parkedS).sessions (sessKey req6.identity.key req6.session.toNat) = none ∧
    sessSearch (found (sessPart parkedS) req6 0x10) (takenId (sessPart parkedS) req6 0x10) ≠ 0x34 ∧
    openCheck (found (sessPart parkedS) req6 0x10) (takenId (sessPart parkedS) req6 0x10) 6 3 0 0 3 0xFFFF = none := by
  decide +kernel
theorem wit_open_row : dirAccept (found (sessPart parkedS) req6 0x10) 0 false (sessDirKey 1 6) (fullCare false) = .inr 1 := by
  decide +kernel
theorem wit_step : Clear (sessPart restingS) key0 restingS false ∧ Clear (sessPart parkedS) key0 parkedS false ∧
    outSizeOk 4096 = true ∧ outSizeOk (2 ^ 30) = true ∧ restingS.gen = 0 ∧
    stepCheck (found (sessPart restingS) req1 0x11) (takenId (sessPart restingS) req1 0x11) 0 false restingS = none ∧
    stepCheck (found (sessPart parkedS) req1 0x11) (takenId (sessPart parkedS) req1 0x11) 0 true parkedS = none ∧
    restingS.pav = 0 ∧ restingS.hasInput = true ∧
    (restingS.columns 1).1 < lengthLimit (pavAt (sessPart restingS) 0) restingS := by decide +kernel
theorem wit_run_active : goingS.run.isSome = true := by decide
theorem wit_tag_edit : Between (sessPart restingS) key0 restingS ∧ 2 ^ 21 - 1 < 2 ^ 21 ∧ 0 < 2097152 ∧ 2097152 ≤ 2097152 ∧
    2 ^ 15 - 1 < 2 ^ 15 ∧ restingS.place = .resident 0 0 ∧ Between (sessPart parkedS) key0 parkedS ∧
    parkedS.place = .parked 3 0 := by decide

/-- A session with one DIRTY tile in the near tier, and one whose park waits for nothing more. -/
def dirtyObj : Obj := { kind := .session, kd := 3, ntiles := 3, tiles := [(0, { state := .dirty, upTier := 1, kd := 3, layer := 0 })] }
def cleanObj : Obj := { kind := .session, kd := 3, ntiles := 3, tiles := [(2, { state := .clean, upTier := 1, loTier := 2, kd := 3 })] }
def obj5 : Nat := objKey 1 5
def dirtyPart : State := { sessPart restingS with
  objects := [(obj5, dirtyObj)], regions := [(regionKey 1 3 0, { granules := 1024 })], slotForm := [(0, 2)] }
theorem wit_park : Takes dirtyPart req1 ∧ Clear dirtyPart key0 restingS true ∧ lockedFor (found dirtyPart req1 0x13) req1 (takenId dirtyPart req1 0x13) = false ∧
    tierOk (found dirtyPart req1 0x13) req1.identity.key 3 0 = true ∧ codecValid 2 = true := by decide +kernel
theorem wit_park_writes : (orderWrites (sessObj key0 restingS) 3 0 2
    (parkTiles (movedPushes key0 (found dirtyPart req1 0x13)) (sessObj key0 restingS) 3 0 restingS.parked)
    (movedPushes key0 (found dirtyPart req1 0x13))).isSome = true := by decide +kernel

/-- The part with a job in effect for session 5's object. -/
def jobPart (j : Job) : State := { sessPart restingS with objects := [(obj5, cleanObj)], jobs := [(obj5, j)] }
theorem wit_park_release : mget? (jobPart (.park id0 2 0 0 false false)).jobs (sessObj key0 restingS) = some (.park id0 2 0 0 false false) ∧
    moving (jobPart (.park id0 2 0 0 false false)) obj5 = false ∧ hasFailed (jobPart (.park id0 2 0 0 false false)) obj5 = false ∧
    parkTiles (jobPart (.park id0 2 0 0 false false)) obj5 2 0 false = [] := by decide +kernel
/-- An object with a FAILED tile, one with a tile on its way, and one with only a layer of 1 on its way. -/
def failedObj : Obj := { cleanObj with tiles := [(0, { state := .failed, layer := 0 })] }
def movingObj : Obj := { cleanObj with tiles := [(0, { state := .arriving, loTier := 2, layer := 0 })] }
def laterObj : Obj := { cleanObj with tiles := [(0, { state := .clean, upTier := 1, loTier := 2, layer := 0 }), (1, { state := .arriving, loTier := 2, layer := 1 })] }
def objJob (o : Obj) (j : Job) : State := { jobPart j with objects := [(obj5, o)] }
theorem wit_park_ends : let j := Job.park id0 2 0 0 false false
    moving (objJob movingObj j) obj5 = true ∧ moving (objJob failedObj j) obj5 = false ∧ hasFailed (objJob failedObj j) obj5 = true ∧
    parkTiles (objJob dirtyObj j) obj5 2 0 false = [0] ∧ moving (objJob dirtyObj j) obj5 = false := by decide +kernel
theorem wit_revive_early : let j := Job.revive (some id0) true false false
    moving (objJob laterObj j) obj5 = true ∧ firstLanded (objJob laterObj j) obj5 = true ∧ moving (objJob movingObj j) obj5 = true ∧
    firstLanded (objJob movingObj j) obj5 = false ∧ moving (objJob failedObj j) obj5 = false := by decide +kernel
theorem wit_revive : Clear (sessPart restingS) key0 restingS false ∧ Clear (sessPart parkedS) key0 parkedS false ∧
    parkedS.place = .parked 3 0 ∧ (pavAt (sessPart parkedS) { parkedS with home := 0 }.home).prog.isSome = true ∧
    assigned (found (sessPart parkedS) req1 0x14) 0 req1.identity.key = true ∧
    pavFenced (found (sessPart parkedS) req1 0x14) (pavAt (found (sessPart parkedS) req1 0x14) 0) = false := by decide +kernel
theorem wit_revive_complete : mget? (jobPart (.revive (some id0) true false false)).jobs (sessObj key0 restingS) =
      some (.revive (some id0) true false false) ∧ moving (jobPart (.revive (some id0) true false false)) obj5 = false ∧
    hasFailed (jobPart (.revive (some id0) true false false)) obj5 = false := by decide +kernel
/-- The part with Celay port 1 up. -/
def celayPart (x : Session) : State := { sessPart x with celay := [(1, { state := 2 })] }
theorem wit_migrate : Clear (celayPart parkedS) key0 parkedS true ∧ lockedFor (found (celayPart parkedS) req1 0x15) req1 (takenId (celayPart parkedS) req1 0x15) = false ∧
    migrateBad 0 0 0 0x80 = none ∧ migrateCheck (found (celayPart parkedS) req1 0x15) (takenId (celayPart parkedS) req1 0x15) parkedS 0 0 = none ∧
    migrateBad 1 0 3 0 = none ∧ sendCodecOk (found (celayPart parkedS) req1 0x15) 0 = true ∧
    clyUp (found (celayPart parkedS) req1 0x15) 1 = true := by decide +kernel
theorem wit_migration_ends : mget? (jobPart (.migrate id0 0 0 0 0 200 false 0)).jobs (sessObj key0 restingS) = some (.migrate id0 0 0 0 0 200 false 0) ∧
    allMoved { sessPart restingS with objects := [(obj5, { cleanObj with tiles := [] })] } obj5 = true ∧
    oldPush (sessPart restingS) key0 = false ∧ 0 ≤ (sessPart restingS).time := by decide +kernel

theorem wit_migration_resident : let s := jobPart (.migrate id0 0 0 0 1 200 true 0)
    mget? s.jobs (sessObj key0 restingS) = some (.migrate id0 0 0 0 1 200 true 0) ∧
    allMoved { s with objects := [(obj5, { cleanObj with tiles := [] })] } obj5 = true ∧ oldPush s key0 = false := by decide +kernel
theorem wit_hand_over_ends : let j := Job.handOver id0 1 9 1 0 0 true true
    mget? (jobPart j).jobs (sessObj key0 restingS) = some j ∧ oldPush (jobPart j) key0 = false ∧
    allSent { jobPart j with objects := [(obj5, { cleanObj with tiles := [] })] } obj5 = true := by decide +kernel

/-- Session 5's place in pavilion 0's queue, at level 3, 2 s after it came. -/
def queued0 : Queued := { sess := key0, arrival := 0, level := 3, levelAt := 0, expedited := false, tenant := 0, id := id0 }
def queuePart : State := { sessPart parkedS with
  time := 2000000000, pavs := [(0, { port := 0, quarters := [0], prog := some prog, queue := [queued0] })] }
theorem wit_wait_timeout : (pavAt queuePart 0).queue.find? (fun q => q.sess = sessKey vfA.key (5 : DWord).toNat) = some queued0 ∧
    (tenantOf queuePart (pavAt queuePart 0).port queued0.tenant).waitLimit ≠ 0xFFFFFFFF ∧
    queued0.arrival + 1000 * (tenantOf queuePart (pavAt queuePart 0).port queued0.tenant).waitLimit ≤ queuePart.time := by decide +kernel
theorem wit_promotion : mget? queuePart.pavs 0 = some (pavAt queuePart 0) ∧ (pavAt queuePart 0).share = false ∧
    bits (regGet queuePart 0 0x50000) 16 31 ≠ 0 ∧
    queued0.levelAt + 1000000 * bits (regGet queuePart 0 0x50000) 16 31 < queuePart.time := by decide +kernel
/-- A pre-emption of session 5 that waits to order its writes, and one whose writes have left. -/
def swapPart (o : Obj) (ordered : Bool) : State := { sessPart restingS with
  objects := [(obj5, o)], jobs := [(obj5, .swap queued0 ordered)], regions := [(regionKey 1 3 0, { granules := 1024 })]
  pavs := [(0, { port := 0, quarters := [0], prog := some prog, slots := [(0, { sess := key0 })], queue := [queued0] })] }
theorem wit_swap : mget? (pavAt (swapPart cleanObj false) 0).slots 0 = some { sess := key0 } ∧
    (swapPart cleanObj false).frames = [] ∧ (spillWrites (swapPart cleanObj false) (sessObj key0 restingS)).isSome = true ∧
    mget? (swapPart cleanObj true).jobs (sessObj key0 restingS) = some (.swap queued0 true) ∧
    moving (swapPart cleanObj true) obj5 = false ∧ hasFailed (swapPart cleanObj true) obj5 = false ∧
    inFrame (swapPart cleanObj true) restingS = false := by decide +kernel

theorem wit_swap_ends : hasFailed (swapPart failedObj true) obj5 = true ∧ moving (swapPart failedObj true) obj5 = false ∧
    moving (swapPart movingObj true) obj5 = true ∧
    spillWrites { swapPart dirtyObj false with regions := [] } (sessObj key0 restingS) = none ∧
    pavInFrame { swapPart dirtyObj false with frames := [(0, inFrame0)] } 0 = true := by decide +kernel

/-! ### Witnesses: tiers, objects and tiles -/

/-- The part with object 7 of virtual function 1, and a granted host region 0. -/
def objPart (o : Obj) : State := { sessPart parkedS with
  objects := [(objKey 1 7, o)], regions := [(regionKey 1 3 0, { granules := 1024 })], slotForm := [(0, 2)] }
def plainObj : Obj := { ntiles := 2, tiles := [(0, { state := .clean, upTier := 1, loTier := 2, loAddr := 40000, codec := 2 })] }
theorem wit_place : Takes (objPart plainObj) req1 ∧ Idle (objPart plainObj) (objKey 1 7) ∧
    mget? (objPart plainObj).objects (objKey req1.identity.key (7 : DWord).toNat) = some plainObj ∧ plainObj.kind ≠ .session ∧
    tierOk (taken (objPart plainObj) req1 0x50) req1.identity.key 3 0 = true ∧
    placeBad (taken (objPart plainObj) req1 0x50) (takenId (objPart plainObj) req1 0x50) 1 127 1 plainObj.ntiles = none ∧
    placeBad (taken (objPart plainObj) req1 0x50) (takenId (objPart plainObj) req1 0x50) 2 0 0 plainObj.ntiles = none ∧
    mapRoom (taken (objPart plainObj) req1 0x50) 0 = true := by decide +kernel
/-- The object when its tiles lie in far slots already. -/
def farObj : Obj := { ntiles := 1, tiles := [(0, { state := .clean, upTier := 2, upAddr := 70000 })] }
theorem wit_place_far : (placeFar (objKey 1 7) false ((List.range farObj.ntiles).filter (fun i => needsFar (farObj.tile i)))
    (taken (objPart farObj) req1 0x50)).isSome = true := by decide +kernel
theorem wit_place_index : ({ kind := .index, kd := 3, ntiles := 0 } : Obj).kind = .index ∧
    (placeIndex (objKey 1 7) { kind := .index, kd := 3, ntiles := 0 } 1 false 127 1
      (taken (objPart { kind := .index, kd := 3, ntiles := 0 }) req1 0x50)).isSome = true := by decide +kernel
theorem wit_place_host : (orderOwn (objKey 1 7) 3 0 (tilesWhere (noteEpoch (objKey 1 7) (taken (objPart plainObj) req1 0x50)) (objKey 1 7)
    (fun t => t.state = .dirty || ((t.state = .clean || t.state = .lower) && ! t.liesIn 3 0)))
    (noteEpoch (objKey 1 7) (taken (objPart plainObj) req1 0x50))).isSome = true := by decide +kernel
/-- An object with a DIRTY tile whose lower copy lies in region 0. -/
def editedObj : Obj := { ntiles := 2, tiles := [(1, { state := .dirty, upTier := 1, loTier := 3, codec := 2 })] }
theorem wit_write_back : Takes (objPart editedObj) req1 ∧ Idle (objPart editedObj) (objKey 1 7) ∧ 1 < editedObj.ntiles ∧
    1 + 1 ≤ editedObj.ntiles ∧
    (((tilesWhere (noteEpoch (objKey 1 7) (taken (objPart editedObj) req1 0x52)) (objKey 1 7) (fun t => t.state = .dirty && t.loTier ≠ 0)).filter
      (fun i => decide (1 ≤ i) && decide (i < 1 + 1))).foldl (fun a i => a.bind (fun s => orderWrite (objKey 1 7)
        (relTier (tileOf s (objKey 1 7) i).loTier) (tileOf s (objKey 1 7) i).loRegion (tileOf s (objKey 1 7) i).codec i s))
      (some (noteEpoch (objKey 1 7) (taken (objPart editedObj) req1 0x52)))).isSome = true := by decide +kernel

/-- A step program of 4,096 cycles in quarter 0 that passes every check of a load: no bundles, and the slots and windows it needs. -/
def bareImg : List Byte := fields 416 [(0, 4, 0x50535853), (4, 2, 1), (6, 1, 0xB0), (8, 4, 4096), (0xC, 2, 1), (0x10, 1, 1), (0x34, 2, 2),
  (0x38, 4, 0x100), (0x3C, 4, 416), (0x100, 2, 1), (0x104, 4, 416), (0x110, 2, 6), (0x112, 2, 0xFFFF), (0x114, 4, 0x120),
  (0x118, 4, 128), (0x11C, 4, 8), (0x120, 1, 1), (0x128, 4, 128), (0x130, 1, 2), (0x134, 4, 128), (0x138, 4, 64),
  (0x140, 1, 3), (0x144, 4, 192), (0x148, 4, 64), (0x150, 1, 3), (0x154, 4, 2240), (0x158, 4, 64),
  (0x160, 4, 0x01000004), (0x168, 4, 1024), (0x170, 4, 0x01010004), (0x178, 4, 1024),
  (0x180, 4, 0x01000104), (0x188, 4, 1024), (0x190, 4, 0x01010104), (0x198, 4, 1024)]
/-- The image with its digest. -/
def goodImg : List Byte := splice bareImg 0xE0
  [240, 145, 99, 223, 244, 12, 165, 127, 202, 91, 113, 168, 72, 123, 192, 59, 50, 101, 51, 77, 22, 98, 206, 137, 16, 101, 46, 59, 182, 127, 185, 157]

/-- Object 7 as a model image of two tiles in the near tier: its header with one range, and the step program. -/
def mdHead : List Byte := fields 272 [(0, 4, 0x444D5853), (4, 2, 1), (6, 1, 0xB0), (8, 4, 2), (0xC, 2, 1), (0x10, 4, 1), (0x14, 4, 1),
  (0x18, 4, 1), (0x100, 4, 1), (0x104, 4, 1), (0x108, 1, 1), (0x10A, 2, 1), (0x10C, 4, 2 ^ 20)]
def mdObj : Obj := { kind := .model, ntiles := 2, tiles := [(0, { state := .clean, upTier := 1 }),
  (1, { state := .clean, upTier := 1, upAddr := 2 ^ 20 })] }
def key7 : Nat := objKey 1 7
def mdPart (jobs : NMap Job) : State := { objPart mdObj with slotForm := [], near := memWrite (memWrite [] 0 mdHead) 16384 goodImg, jobs := jobs }
theorem wit_model_load : Takes (mdPart []) req1 ∧ Idle (mdPart []) key7 ∧ mget? (mdPart []).objects key7 = some mdObj ∧
    assigned (taken (mdPart []) req1 0x51) 0 req1.identity.key = true ∧
    pavFenced (taken (mdPart []) req1 0x51) (pavAt (taken (mdPart []) req1 0x51) 0) = false ∧
    (pavAt (taken (mdPart []) req1 0x51) 0).slots = [] ∧ unloadOwed (taken (mdPart []) req1 0x51) 0 = [] := by decide +kernel
theorem wit_model_ok : modelOk (taken (mdPart []) req1 0x51) mdObj (pavAt (taken (mdPart []) req1 0x51) 0)
      (tileNow (taken (mdPart []) req1 0x51) key7 0) = true ∧
    (placeRanges key7 (pavAt (taken (mdPart []) req1 0x51) 0) (modelRanges (tileNow (taken (mdPart []) req1 0x51) key7 0))
      (taken (mdPart []) req1 0x51)).isSome = true := by decide +kernel
/-- The part once every tile of that model image is CLEAN. -/
def mdDone : State := mdPart [(key7, .modelLoad id0 0 3)]
theorem wit_model_apply : mdDone.jobs.find? (fun j => match j.2 with | .modelLoad _ n _ => n = 0 | _ => false) =
      some (key7, .modelLoad id0 0 3) ∧ moving mdDone key7 = false ∧ hasFailed mdDone key7 = false := by decide +kernel
theorem wit_model_clean : modelClean mdDone key7 = true := by decide +kernel
def mdUse : ModelUse := ⟨key7, mdOutRows (tileNow mdDone key7 0), shake256 ((objPlain mdDone key7).getD []) 32⟩
theorem wit_model_passes : loadRefused (onPav 0 (fun p => { p with models := mput p.models 3 mdUse }) (endJob key7 mdDone))
    (fnPort id0.fn) [modelItem mdDone key7 0 3] = none := by decide +kernel
theorem wit_map_read : Takes (objPart plainObj) req1 ∧ 1 < plainObj.ntiles := by decide
theorem wit_regions : Takes (objPart plainObj) req1 ∧ 1023 ≤ 1023 ∧ 0 < 2 ^ 32 - 1 ∧ 2 ^ 32 - 1 < 2 ^ 32 ∧
    regionBusy (taken (objPart plainObj) req1 0x53) req1.identity.key 5 1023 = false ∧
    (regionOf (objPart plainObj) req1.identity.key 3 0).isSome = true ∧
    regionBusy (taken (objPart plainObj) req1 0x54) req1.identity.key 3 0 = false ∧
    mapWf (lostRegion 1 3 0 (taken (objPart plainObj) req1 0x54)).regions = true := by decide +kernel

/-- Object 7 with one tile as given, a near slot's form 2, and a far slot that holds it. -/
def tileObj (t : Tile) : Obj := { ntiles := 1, tiles := [(0, t)] }
def tilePart (t : Tile) : State := { objPart (tileObj t) with
  far := [(40000, { object := key7, bytes := List.replicate 16384 0 })], slotForm := [(0, 2)] }
def ref7 : ObjRef := ⟨vfA, 7⟩
def arrivingTile : Tile := { state := .arriving, upTier := 1, loTier := 2, loAddr := 40000 }
theorem wit_fetch : engineOk (tilePart arrivingTile) 1 = true ∧ tileOf (tilePart arrivingTile) key7 0 = arrivingTile ∧
    arrivingTile.begun = false ∧ earlierFetch (tilePart arrivingTile) key7 arrivingTile = false ∧ arrivingTile.loTier ≠ 5 ∧
    refKey ref7 = key7 := by decide +kernel
theorem wit_fetch_bytes : (spotRead (tilePart arrivingTile) (key7 / 2 ^ 64) arrivingTile.lower).isSome = true ∧
    ((spotRead (tilePart arrivingTile) (key7 / 2 ^ 64) arrivingTile.lower).bind (openStored (tilePart arrivingTile))).isSome = true := by
  decide +kernel
theorem wit_fetch_pool : engineOk (tilePart { arrivingTile with loTier := 5 }) 32 = true ∧
    tileOf (tilePart { arrivingTile with loTier := 5 }) key7 0 = { arrivingTile with loTier := 5 } ∧
    earlierFetch (tilePart { arrivingTile with loTier := 5 }) key7 { arrivingTile with loTier := 5 } = false := by decide +kernel
/-- A tile whose write is owed, to a far slot, to 64 granules of host region 0, or to a pool node's. -/
def owedTile (tier : Nat) : Tile := {
  state := .departing, upTier := 1, newTier := tier, newAddr := 40000, newGran := 64, newCodec := 2
  out := some (2, fields 64 [(0, 2, 0x5A3C), (4, 2, 64)]) }
theorem wit_write : engineOk (tilePart (owedTile 2)) 1 = true ∧ tileOf (tilePart (owedTile 2)) key7 0 = owedTile 2 ∧
    (owedTile 2).owesWrite = true ∧ (owedTile 3).sent = false ∧ (owedTile 5).owesWrite = true ∧
    (owedTile 2).out = some (2, fields 64 [(0, 2, 0x5A3C), (4, 2, 64)]) := by decide +kernel
theorem wit_write_form : ((reform 0 2 2 (fields 64 [(0, 2, 0x5A3C), (4, 2, 64)]) (tilePart (owedTile 3))).map
    (fun x => decide (x.1.bytes.length + 32 ≤ 256 * 64))) = some true := by decide +kernel
/-- The part with a route for port A to node 9, which grants pool region 0. -/
def poolPart (t : Tile) : State := { tilePart t with
  regions := [(regionKey 1 5 0, { granules := 1024, node := 9 })], regs := [(regKey 0 0xD8100, 9), (regKey 0 0xD8104, 1)]
  celay := [(0, { state := 2 })] }
theorem wit_write_pool : (poolSend key7 0 true false (owedTile 5).target [] (poolPart (owedTile 5))).isSome = true := by decide +kernel
/-- Session 5 on its way to batch slot 0 of pavilion 0, its key or value tile still at core 1. -/
def movePart : State := { jobPart (.migrate id0 0 0 1 0 200 true 0) with
  pavs := [(0, { port := 0, quarters := [0], prog := some progD })]
  objects := [(obj5, { kind := .session, kd := 3, ntiles := 3, tiles := [(0, { state := .clean, upTier := 1, upAddr := 1, layer := 0 })] })] }
theorem wit_copy : (migratePlace movePart obj5 0).any (fun m => ! (tileOf movePart obj5 0).moved m && ! m.streamed && ! m.tail) = true ∧
    engineOk movePart 1 = true ∧ (tileOf movePart obj5 0).tail = false ∧ (tileOf movePart obj5 0).state = .clean ∧
    (objOf movePart obj5).any (fun o => hasSlot o (tileOf movePart obj5 0)) = true ∧
    (slotPlain movePart (tileOf movePart obj5 0)).isSome = true := by decide +kernel
/-- A hand-over of session 5 that its peer accepted, its one tile in a far slot. -/
def sendPart : State := { jobPart (.handOver id0 1 9 0 200 0 true false) with
  objects := [(obj5, { kind := .session, kd := 3, ntiles := 3, tiles := [(0, { state := .clean, upTier := 2, upAddr := 40000, layer := 0 })] })]
  far := [(40000, { object := obj5, codec := 2, bytes := fields 64 [(0, 2, 0x5A3C), (4, 2, 64)] })] }
theorem wit_send : mget? sendPart.jobs obj5 = some (.handOver id0 1 9 0 200 0 true false) ∧ engineOk sendPart 1 = true ∧
    sendable (tileOf sendPart obj5 0) = true ∧ (tileOf sendPart obj5 0).sent = false ∧
    tilesWhere sendPart obj5 (fun u => sendable u && ! u.sent && decide (u.order < (tileOf sendPart obj5 0).order)) = [] ∧
    ((tileForm sendPart obj5 0).bind (fun f => reform (objPort obj5) f.1 (sendCodec sendPart obj5 0 f.1) f.2 sendPart)).isSome = true := by
  decide +kernel

def landedTile : Tile := { arrivingTile with landed := true, begun := true }
theorem wit_arrival : (tileOf (tilePart landedTile) key7 0).landed = true ∧ landedTile.state = .arriving ∧
    freesLower (tilePart landedTile) key7 = false ∧
    freesLower { tilePart landedTile with jobs := [(key7, .place id0 1 0 false)] } key7 = true ∧
    ({ landedTile with state := .dirty } : Tile).state ≠ .arriving := by decide +kernel
def ackedTile : Tile := { owedTile 3 with sent := true }
theorem wit_write_ack : mget? (tilePart ackedTile).objects key7 = some (tileObj ackedTile) ∧ mget? (tilePart ackedTile).jobs key7 = none ∧
    (tileOf (tilePart ackedTile) key7 0).owesWrite = true ∧ (tileOf (tilePart ackedTile) key7 0).sent = true ∧ ackedTile.newTier ≠ 5 := by
  decide +kernel
theorem wit_failure : (arrivingTile.state = .arriving ∧ { arrivingTile with begun := true }.begun = true ∧ arrivingTile.landed = false) ∧
    ((owedTile 2).owesWrite = true ∧ { owedTile 2 with begun := true }.begun = true) ∧
    (({ state := .lower, loTier := 2 } : Tile).state = .lower ∧ ({ state := .lower, loTier := 2 } : Tile).owesWrite = false) ∧
    (tileOf (tilePart arrivingTile) key7 0).retried = false ∧
    (tileOf (tilePart { arrivingTile with retried := true }) key7 0).retried = true := by decide +kernel

/-- A program with two layers whose batch slot 0 is a stream slot, and session 5 in it. -/
def progS : Prog := { prog with decode := fields 64 [(0, 1, 1), (4, 2, 2), (6, 1, 1), (7, 1, 1), (10, 2, 1), (0x10, 4, 128), (0x14, 2, 1),
  (0x16, 2, 1), (0x18, 4, 128), (0x34, 2, 32), (0x38, 8, 9)] }
def streamPart : State := { sessPart restingS with
  pavs := [(0, { port := 0, quarters := [0], prog := some progS, slots := [(0, { sess := key0 })] })] }
theorem wit_stream : mget? (pavAt streamPart 0).slots 0 = some { sess := key0 } ∧ mget? streamPart.sessions key0 = some restingS ∧
    restingS.place = .resident 0 0 ∧ slotKindOf (pavAt streamPart 0).desc 0 = 2 ∧ 1 < dLayers (pavAt streamPart 0).desc ∧
    (orderWrites (sessObj key0 restingS) 2 0 0 [] streamPart).isSome = true := by decide +kernel
/-- An index whose first tile, in a near region by its header, has no place and no program names. -/
def unplacedIx : Obj := { kind := .index, kd := 3, ntiles := 1, tiles := [(0, { state := .clean, upTier := 2, upAddr := 40000 })] }
def unplacedPart : State := { objPart unplacedIx with
  far := [(40000, { object := objKey 1 7, bytes := fields 16384 [(8, 4, 100)] })] }
theorem wit_place_unplaced : indexNeedsProg unplacedPart (objKey 1 7) = true ∧
    mget? unplacedPart.objects (objKey 1 7) = some unplacedIx := by decide +kernel
theorem wit_model_fails : let s := mdPart [(key7, .modelLoad id0 0 3)]
    moving { s with objects := [(key7, { mdObj with tiles := [(0, { state := .failed })] })] } key7 = false ∧
    hasFailed { s with objects := [(key7, { mdObj with tiles := [(0, { state := .failed })] })] } key7 = true := by decide +kernel
theorem wit_model_refused : (loadRefused (endJob key7 mdDone) 1 [{ modelItem mdDone key7 0 3 with image := [] }]).isSome = true := by
  decide +kernel
theorem wit_open_read : let t := arrivingTile.lower
    (openRead (tilePart arrivingTile) t { object := key7, bytes := List.replicate 16384 0 } .asWritten).isRight = true ∧
    openRead (tilePart arrivingTile) t { object := key7, bytes := List.replicate 16384 0 } .error = .inl 2 ∧
    poolFull (tilePart arrivingTile) 0 = false ∧
    spotRead { tilePart arrivingTile with far := [] } 1 { t with tier := 3, region := 7 } = none := by decide +kernel
theorem wit_pool_full : poolFull { up with pools := List.replicate 1024 ⟨0, 0, 0, false, 0, 0, 0, 0, false, none⟩ } 0 = true := by
  decide +kernel
theorem wit_write_lost : reform 0 2 0 [] (tilePart (owedTile 2)) = none ∧ tileForm (tilePart { state := .dirty, upTier := 2, upAddr := 7 }) key7 0
    = none ∧ spotAlloc 1 3 0 64 (objPart plainObj) ≠ none := by decide +kernel
/-- The same session when its tile failed, and when its slot's bay is fenced. -/
def failedMove : State := { movePart with
  objects := [(obj5, { kind := .session, kd := 3, ntiles := 3, tiles := [(0, { state := .failed, upTier := 1, upAddr := 1, layer := 0 })] })] }
theorem wit_copy_forms : (migratePlace failedMove obj5 0).any (fun m => ! (tileOf failedMove obj5 0).moved m) = true ∧
    (tileOf failedMove obj5 0).state = .failed ∧
    copyPlain { movePart with bays := [(0, { power := .run, fenced := true })] } obj5 0 = none := by decide +kernel
def snapWriting (tier : Nat) : State := { tilePart ackedTile with snaps := [(0, { run := some {
  epoch := 1, id := none, full := true, since := 0, tier := tier, region := 0, outs := [⟨.record key7 0, tier, 0, 64, 2, [], false⟩] } })] }
theorem wit_snap_write : snapInPool (snapWriting 2) 0 = false ∧ snapInPool (snapWriting 5) 0 = true ∧
    ((snapAt (snapWriting 2) 0).run.map (fun r => r.outs.length)) = some 1 := by decide +kernel
theorem wit_layer_passed : layerPassed streamPart 0 0 = true ∧ layerPassed streamPart 0 1 = false ∧
    layerPassed { streamPart with frames := [(0, { inFrame0 with latched := [(0, 0)] })] } 0 1 = true := by decide +kernel

/-! ### Witnesses: the directory -/

/-- A part that also holds an entry of KIND 1 with key 9 of virtual function 1 and state 5. -/
def dirKey : Nat := sessDirKey 1 9
def row3 : DirRow := DirRow.written { key := dirKey, care := fullCare false, data := { state := 5 } }
def dirPart : State := { sessPart parkedS with
  dir := { rows := [(0, row0), (3, row3)], shadow := [(0, sealLine up 0 row0), (3, sealLine up 3 row3)] } }
/-- The key of virtual function 1 with number 9 as a buffer gives it, with a record of state 4. -/
def keyBuf : List Byte := fields 96 [(0, 8, 9), (9, 1, 1), (32, 8, 2 ^ 64 - 1), (40, 8, 2 ^ 64 - 1), (64, 1, 4)]

theorem wit_search : mapWf dirPart.dir.rows = true ∧ (row0.visible 0 = true ∧ row0.wide = false ∧
      row0.key &&& row0.care = sessDirKey 1 5 &&& row0.care ∧ row0.key2 &&& row0.care = sessDirKey 1 5 &&& row0.care ∧ row0.data.state ≠ 4 ∧ row0.key = sessDirKey 1 5) ∧
    (({ row0 with care := 0, data := { state := 4 } } : DirRow).visible 0 = true) ∧
    dirSearch dirPart.dir.rows false (sessDirKey 1 5) 0 false = some (0, row0) ∧
    dirSearch dirPart.dir.rows false (sessDirKey 1 6) 0 false = none := by decide +kernel
theorem wit_dir_lookup : Takes dirPart req1 ∧ (64 : DWord).toNat % 64 = 0 ∧ keyOk (keyBlock (takenId dirPart req1 0x20) false keyBuf) = true := by
  decide +kernel
theorem wit_dir_insert : keyOk (keyBlock (takenId dirPart req1 0x21) false keyBuf) = true ∧
    insertOk (keyBlock (takenId dirPart req1 0x21) false keyBuf) (leField (keyBuf.drop 64) 0 1) = true ∧
    leField (keyBuf.drop 64) 0 1 = 4 := by decide +kernel
theorem wit_dir_accept : dirAccept (sessPart parkedS) 0 false (keyBlock (takenId dirPart req1 0x21) false keyBuf).key
    (keyBlock (takenId dirPart req1 0x21) false keyBuf).care = .inr 1 := by decide +kernel
theorem wit_dir_delete : ((liveRows (dirFuture dirPart)).find? (fun e => e.2.wide = false
      && e.2.key = (keyBlock (takenId dirPart req1 0x22) false keyBuf).key
      && e.2.care = (keyBlock (takenId dirPart req1 0x22) false keyBuf).care)).map (fun e => (e.1, decide (3 < e.2.data.state))) =
    some (3, true) := by decide +kernel
theorem wit_dir_update : (dirExact dirPart false (keyBlock (takenId dirPart req1 0x23) false keyBuf).key).isSome = true ∧
    (keyBlock (takenId dirPart req1 0x23) false keyBuf).wide = false := by decide +kernel
theorem wit_dir_scan : 4194303 < 4194304 ∧ 0 < 65536 ∧ 65536 ≤ 65536 ∧ (0 : DWord).toNat % 64 = 0 := by decide

/-- A search in the array that is 60 HCLK old, and one that waits for its retry. -/
def search0 : DirSearch := ⟨id0, sessDirKey 1 5, false, 0, 0, 4096, false⟩
def searching : State := { dirPart with hclk := 60, dir := { dirPart.dir with searches := [search0] } }
/-- A flip of the second key copy of row 0, and the same search's part once it has happened. -/
def flip0 : DirFlip := { row := 0, key2 := 1 }
theorem wit_search_result : searching.dir.searches = search0 :: [] ∧ searching.dir.retry = none ∧ search0.issued + 60 ≤ searching.hclk ∧
    searchSuspects { searching with dir := { searching.dir with searches := [] } } false search0.key 0 false = [] ∧
    searchSuspects (flipRow searching flip0) false search0.key 0 false = [0] ∧ rewrittenNow searching 0 = false := by decide +kernel
theorem wit_retry : ({ dirPart with dir := { dirPart.dir with retry := some (search0, [0]) } } : State).dir.retry = some (search0, [0]) := by
  decide +kernel
/-- A write to row 0 that waits, and a row whose hold has ended. -/
def write0 : DirWrite := { row := 0, entry := { row0 with data := { state := 2 } } }
def committing : State := { dirPart with dir := { dirPart.dir with writes := [write0] } }
theorem wit_commit : committing.dir.writes = write0 :: [] ∧ write0.insert = false ∧ write0.delete = false ∧
    mget? committing.dir.rows write0.row = some row0 ∧ row0.prev = none := by decide +kernel
theorem wit_scan_rows : mapWf dirPart.dir.rows = true ∧ 0 < 1 ∧ (∀ e ∈ dirPart.dir.rows, e.2.whole = true) ∧
    (dirPart.dir.rows.filter (fun e => e.2.visible 0 && scanSees id0 false e.2)).length = 2 := by decide +kernel
def heldRow : DirRow := { row0 with prev := some { state := 1 }, holdEnd := 60 }
theorem wit_hold_ends : mget? [(4194303, heldRow)] (4194303 : Fin 4194304).val = some heldRow ∧ heldRow.prev.isSome = true ∧
    heldRow.holdEnd ≤ searching.hclk := by decide +kernel
theorem wit_dir_scrub : dirPart.trellis = some { sites := 8, density := 4, mapSlots := 32768, shareA := 100 } ∧
    ({ sites := 8, density := 4, mapSlots := 32768, shareA := 100 } : Trellis).scrubEnable = true ∧ dirPart.hub.quiet = false ∧
    rowAgrees dirPart 0 = true ∧ rowAgrees (flipRow dirPart flip0) 0 = false ∧ cascaded dirPart (0 / 65536) = false ∧
    rewrittenNow dirPart 0 = false ∧ (openLine dirPart 0).isSome = true := by decide +kernel
/-- A spare block whose copy began 218 µs ago. -/
def copied : State := { dirPart with time := 218000, dir := { dirPart.dir with spareCopy := some (63, 0) } }
theorem wit_spare_block : copied.dir.spareCopy = some (63, 0) ∧ 0 + 218000 ≤ copied.time := by decide +kernel
theorem wit_spare_rows : 0 / 65536 = 0 ∧ cascaded copied 0 = false ∧ mget? copied.dir.rows 0 = some row0 ∧
    (openLine copied 0).isSome = true := by decide +kernel

/-! ### Witnesses: text -/

/-- An allowed list of 64 tokens, as an object's bytes and as a loaded table; and a part with object 7 in a far slot and three tables
bound by session 5. -/
def allowTab : List Byte := fields 72 [(0, 4, 0x4C415853), (4, 4, 64), (64, 8, 2 ^ 64 - 1)]
def textPart (x : Session) : State := { sessPart x with
  objects := [(obj5, { kind := .session, kd := 3, ntiles := 3 }), (objKey 1 7, { ntiles := 1, kd := 3, tiles := [(0, { state := .clean, upTier := 2, upAddr := 40000 })] })]
  far := [(40000, { object := objKey 1 7, bytes := allowTab })]
  tables := [(tableKey 0 1 0, ⟨9, 3, []⟩), (tableKey 0 2 0, ⟨9, 3, fields 8 [(4, 4, 64)]⟩), (tableKey 0 3 0, ⟨9, 3, allowTab⟩),
    (tableKey 0 3 4095, ⟨9, 3, allowTab⟩)] }
/-- The parked session with one position in its state tile. -/
def longS : Session := { parkedS with tile := [(0x48, 1), (0x4C, 3), (0x4F, 0x80)] }

theorem wit_table_load : Takes (textPart parkedS) req1 ∧ tablePlace 3 4095 = none ∧ tablePlace 1 15 = none ∧
    mget? (textPart parkedS).objects (objKey 1 7) =
      some { ntiles := 1, kd := 3, tiles := [(0, { state := .clean, upTier := 2, upAddr := 40000 })] } ∧
    kdUsable (taken (textPart parkedS) req1 0x30) req1.identity.key 3 = true ∧ tableBound (textPart parkedS) 0 3 4095 = false ∧
    storeUsed (textPart parkedS) 0 - ((tableOf (textPart parkedS) 0 3 4095).map (fun t => t.bytes.length)).getD 0 + 16384 ≤ 33554432 := by
  decide +kernel
theorem wit_table_bytes : (objPlain (taken (textPart parkedS) req1 0x30) (objKey 1 7)).any allowOk = true := by decide +kernel
theorem wit_table_unload : (tableOf (textPart parkedS) 0 3 4095).isSome = true ∧ tablePlace 3 4096 ≠ none := by decide +kernel
theorem wit_tokenise : tableOf (textPart parkedS) 0 1 0 = some ⟨9, 3, []⟩ ∧ 16777216 ≤ 16777216 ∧
    (intake [] false (byteSlice [] 0 0)).bad = none ∧ (intake [] false (byteSlice [] 0 0)).toks.length ≤ 0 := by decide +kernel
theorem wit_detokenise : (((List.range 0).map (fun i => tokBytes [] (leField [] (4 * i) 4))).flatten).length ≤ 0 := by decide
theorem wit_text_found (x : Session) (op : Nat) : (found (textPart x) req1 op).dir = (sessPart sess0).dir := by
  have h := wit_no_suspects (countSearch 0 (taken (textPart x) req1 op)) rfl
  show (searchNow false (sessDirKey 1 5) (countSearch 0 (taken (textPart x) req1 op))).dir = _
  rw [searchNow, h]; rfl
theorem wit_text_session (x : Session) : Finds (textPart x) req1 key0 x :=
  ⟨rfl, rfl, fun op => ⟨0, row0, by rw [wit_text_found]; decide +kernel, by decide⟩⟩
theorem wit_text_between : Between (textPart parkedS) key0 parkedS ∧ Between (textPart longS) key0 longS := by decide +kernel
theorem wit_append_tokens : 1048575 ≤ 1048576 ∧ 1048575 % 3 = 0 ∧
    sessInput (found (textPart parkedS) req1 0x33) (takenId (textPart parkedS) req1 0x33) parkedS (byteSlice [1, 0, 0] 0 3) =
      .inl ([1, 0, 0], parkedS) ∧
    parkedS.get 0x5A 2 + ((chunks 3 1 [(1 : Byte), 0, 0]).map leNat).length ≤ 4096 := by decide +kernel
theorem wit_append_text : bound (found (textPart parkedS) req1 0x33) key0 parkedS 1 = some [] ∧ (intake [] true []).bad = none ∧
    parkedS.get 0x5A 2 + (intake [] true []).toks.length ≤ 4096 := by decide +kernel
theorem wit_controls : controlsOk (byteSlice (memRead (openTile 5 0) 0 64) 0 64) = true := by decide +kernel
theorem wit_louver : bindCheck (textPart parkedS) 0 2 0 (pavVocab (textPart parkedS) parkedS.pav) = none ∧
    bindCheck (textPart parkedS) 0 3 4095 (pavVocab (textPart parkedS) parkedS.pav) = none ∧ 
    bindCheck (textPart parkedS) 0 3 0xFFFF (pavVocab (textPart parkedS) parkedS.pav) = none := by decide +kernel
theorem wit_stops : parseStops [1, 2, 65, 66] = some [[65, 66]] ∧ parseStops [0] = some [] := by decide +kernel
theorem wit_resample : longS.length ≠ 0 := by decide
/-- Session 5 bound to no grammar. -/
def freeS : Session := { parkedS with tile := [(0x42, 0xFF), (0x43, 0xFF)] }
theorem wit_inject : 2 ^ 20 - 1 < 2 ^ 20 ∧ bound (textPart freeS) key0 freeS 2 = none ∧
    (bound (textPart parkedS) key0 parkedS 2).any (fun g => (louverMove g (parkedS.get 0x60 4) parkedS.stack 7).isSome) = true := by
  decide +kernel

/-! ### Witnesses: recall -/

/-- The header of a graph index of 1,024 items of 32 one-byte elements, and of a scan index of pavilion 0. -/
def graphHead : List Byte := fields 128 [(0, 4, 0x43525853), (4, 1, 1), (6, 1, 2), (8, 4, 1024), (0xC, 2, 32), (0xE, 1, 16), (0xF, 1, 0xFF)]
def scanHead : List Byte := fields 128 [(0, 4, 0x43525853), (6, 1, 2), (8, 4, 1024), (0xC, 2, 32)]
theorem wit_rcl_create : Takes (sessPart parkedS) req1 ∧ mget? (sessPart parkedS).objects (objKey 1 7) = none ∧
    indexOk (byteSlice graphHead 0 128) = true ∧ indexOk (byteSlice scanHead 0 128) = true ∧
    mapRoom (taken (sessPart parkedS) req1 0x40) (ceilDiv (32 * 19) 16384) = true := by decide +kernel
theorem wit_rcl_domain : kdsOf (sessPart parkedS) req1.identity.key = [3] ∧ kdUsable (sessPart parkedS) req1.identity.key 3 = true := by
  decide +kernel
theorem wit_rcl_room : (placeFar (objKey 1 7) true (List.range (1 + (indexTiles (byteSlice graphHead 0 128)).1))
    { drew (taken (sessPart parkedS) req1 0x40) with
      objects := mput (sessPart parkedS).objects (objKey 1 7) { kind := .index, ntiles := 19, kd := 3 } }).isSome = true :=
  placeFar_isSome (objKey 1 7) _ _ _ { kind := .index, ntiles := 19, kd := 3 } (mget_mput_self ..) (fun _ => rfl) rfl rfl
    (by decide +kernel) (by decide +kernel)
/-- Object 7 as that graph index, its header in one far slot and every other tile in another, whose records 0 and 1 are of a visible
item and of a free one; the other records are of deleted items. -/
def ixHead : List Byte := byteSlice (indexFill graphHead) 0 128
def ixTile (a : Nat) : Tile := { state := .clean, upTier := 2, upAddr := a }
def ixObj : Obj := { kind := .index, ntiles := 19, tiles := (0, ixTile 70000) :: (List.range 18).map (fun i => (i + 1, ixTile 70001)) }
def ixRecs : List Byte := fields 512 [(0x10, 8, noEpoch), (256 + 8, 8, noEpoch), (256 + 16, 8, noEpoch), (256 + 25, 1, 1)]
def ixPart : State := { sessPart parkedS with
  objects := [(objKey 1 7, ixObj)], far := [(70000, { bytes := ixHead }), (70001, { bytes := ixRecs })] }
def ixKey : Nat := objKey 1 7
theorem wit_index : Takes ixPart req1 ∧ mget? ixPart.objects ixKey = some ixObj ∧ ixObj.kind = .index ∧ mget? ixPart.jobs ixKey = none ∧
    ixPart.held.any (fun h => h.why = .object ixKey) = false ∧ 1 ≤ 256 ∧ 256 ≤ 256 ∧ indexReady ixPart ixKey (indexHeader ixPart ixKey) = true ∧
    ixGraph (indexHeader ixPart ixKey) = true ∧ ixCap (indexHeader ixPart ixKey) = 1024 := by decide +kernel
/-- Buffers that name item 1 to insert, item 0 to delete and to give edges, and item 2 to purge. -/
theorem wit_rcl_insert : (insEntries (indexHeader ixPart ixKey) [1] 1).map (·.item) = [1] ∧
    (insEntries (indexHeader ixPart ixKey) [1] 1).all (fun x => x.edges.all (edgeOk (indexHeader ixPart ixKey))) = true ∧
    insBusy ixPart ixKey (indexHeader ixPart ixKey) 1 = false := by decide +kernel
theorem wit_rcl_delete : itemList [0] 1 = [0] ∧ itVisible (recRead ixPart ixKey (indexHeader ixPart ixKey) 0) (lastEpoch ixPart ixKey) = true ∧
    distinctNat [0] = true ∧ itIns (recRead ixPart ixKey (indexHeader ixPart ixKey) 0) ≠ noEpoch ∧
    edgeOk (indexHeader ixPart ixKey) (2 ^ 23 + 1023) = true := by decide +kernel
theorem wit_rcl_purge : itemList [2] 1 = [2] ∧ itDel (recRead ixPart ixKey (indexHeader ixPart ixKey) 2) ≠ noEpoch := by decide +kernel
theorem wit_rcl_query : queryOk (indexHeader ixPart ixKey) [] 256 256 16 65535 = true ∧ ixPart.queries.length < 1024 := by decide +kernel
theorem wit_rcl_drop : (∀ q ∈ ixPart.queries, q.obj ≠ ixKey) ∧ (indexAt ixPart ixKey).pend = [] := by decide +kernel
def query0 : Query := ⟨id0, ixKey, true, [], 4096, 1, 1, 16, 1, none, false, 0⟩
theorem wit_rcl_walk : ({ ixPart with queries := [query0] } : State).queries.find? (fun q => q.graph && fnPort q.id.fn = Port.a.idx) =
    some query0 := by decide +kernel

/-! ### Witnesses: pavilions and tenants -/

/-- The part with port A's physical function asking, an image object in the near tier, and an entry that names it for pavilion 0. -/
def reqP : Req := { req1 with fn := pfA }
def imgObj : Obj := { kind := .model, ntiles := 1, tiles := [(0, { state := .clean, upTier := 1 })] }
def pfPart : State := { sessPart parkedS with
  rings := [(0, { ringV with fetched := [] })], objects := [(objKey 0 7, imgObj)], near := memWrite [] 0 goodImg }
def entry0 : List Byte := fields 256 [(4, 8, 7)]
theorem wit_pav_load : Takes pfPart reqP ∧ reqP.fn.isPf = true ∧ entriesOk ((List.range 1).map (loadEntry entry0)) = true ∧
    80 ≤ 80 := by decide +kernel
theorem wit_pav_load_refused : loadRefused (taken pfPart reqP 0x80) 0 [loadItem (taken pfPart reqP 0x80) 0 (loadEntry (fields 256 [(4, 8, 8)]) 0)] =
    some (1, 0) := by decide +kernel
theorem wit_pav_load_passes : loadRefused (taken pfPart reqP 0x80) 0 [loadItem (taken pfPart reqP 0x80) 0 (loadEntry entry0 0)] = none := by
  decide +kernel
theorem wit_pav_unload : mget? pfPart.pavs 0 = some { port := 0, quarters := [0], prog := some prog } ∧
    ({ port := 0, quarters := [0], prog := some prog } : Pav).slots = [] := by decide +kernel
theorem wit_tenant_set : tenantOk (byteSlice (fields 64 [(0, 2, 4095), (2, 1, 3), (4, 2, 65535)]) 0 64) = true ∧
    tenantRuns pfPart 4095 = false ∧ pfPart.held.any (fun h => h.why = .tenant 4095) = false := by decide +kernel
theorem wit_func_tenant : 63 ≤ 63 ∧ 4095 ≤ 4095 := by decide
theorem wit_expedite : mget? (sessPart parkedS).sessions key0 = some parkedS ∧
    ((pavAt (sessPart parkedS) parkedS.home).queue.any (fun q => q.sess = key0)) = false ∧
    (({ pavAt queuePart 0 with queue := [queued0] } : Pav).queue.any (fun q => q.sess = key0)) = true := by decide +kernel
theorem wit_no_write : Takes (textPart parkedS) { req1 with noWrite := true } ∧ kdSealed (textPart parkedS) parkedS.kd = false := by
  decide +kernel
theorem wit_louver_reset : longS.get 0x42 2 ≠ 4095 ∧ longS.get 0x42 2 = 0 := by decide +kernel
theorem wit_query_ready : queryReady ixPart ixKey (indexHeader ixPart ixKey) = true ∧
    ixPart.queries.any (fun q => q.obj = ixKey && q.busy) = false ∧
    ({ ixPart with queries := [query0] } : State).queries.any (fun q => q.obj = ixKey && q.busy) = false := by decide +kernel
theorem wit_func_locked : lockedFns { pfPart with sec := { pfPart.sec with tdi := [(1, .locked)] } } 0 (2 ^ 1) = [1] ∧
    lockedFns pfPart 0 (2 ^ 1) = [] ∧ fnTenant pfPart 1 = 0 := by decide +kernel
theorem wit_unload_next : ({ port := 0, prog := none, next := some prog, nextId := some id0, unload := some id0 } : Pav).next.isSome = true := by
  decide

/-! ### Witnesses: snapshots and restores -/

/-- A snapshot attempt of port A to the far tier: before its cut, and after it with tile 0 of object 7 owed to shard 21. -/
def snapRun : SnapRun := { epoch := 4, id := none, full := false, since := 0, tier := 2, region := 0 }
def snapOf7 : SnapObj := { obj := objKey 1 7, kind := .other, kd := 0, ntiles := 1 }
def cutRun : SnapRun := { snapRun with cutAt := some 0, owed := [(objKey 1 7, 0, 21)], objs := [snapOf7] }
/-- The part with every trigger of port A enabled on a far target, and `x` as its snapshots. -/
def snapPart (x : SnapPort) : State := { pfPart with
  regs := [(0x51010, 2 ^ 64 - 1), (0x70000, 0x27), (0x7000C, 1)]
  time := 3600000000000, hclk := 5400000000000
  objects := [(objKey 1 7, { ntiles := 1, tiles := [(0, { state := .clean, upTier := 1 })] })]
  snaps := [(0, x)] }

theorem wit_snp_take : Takes (snapPart {}) reqP ∧ (snapAt (snapPart {}) (fnPort reqP.fn.key)).run = none ∧
    snapTarget (taken (snapPart {}) reqP 0x60) (fnPort reqP.fn.key) = some (2, 0) := by decide +kernel
theorem wit_snp_triggers : bitOf (regGet (snapPart {}) 0 0x70000) 0 = true ∧ bitOf (regGet (snapPart {}) 0 0x70000) 1 = true ∧
    bitOf (regGet (snapPart {}) 0 0x70000) 2 = true ∧ (snapAt (snapPart {}) 0).timerFrom + snapPeriod (snapPart {}) 0 ≤ (snapPart {}).time ∧
    max 1 (regGet (snapPart { frames := 1 }) 0 0x7000C) ≤ (snapAt (snapPart { frames := 1 }) 0).frames ∧
    snapTarget (snapPart { frames := 1 }) 0 = some (2, 0) ∧ (snapAt (snapPart { frames := 1 }) 0).run = none ∧
    (snapAt (snapPart { run := some snapRun, frames := 1 }) 0).run.isSome = true := by decide +kernel
theorem wit_snp_target : pfA.isPf = true ∧ writeGate up pfA 0x70000 = .open := by decide +kernel
theorem wit_snp_include : (mget? (snapPart {}).objects (objKey reqP.identity.key 7)).isSome = false ∧
    (mget? pfPart.objects (objKey reqP.identity.key 7)).isSome = true ∧ Takes pfPart reqP ∧ reqP.fn.isPf = true := by decide +kernel
theorem wit_snp_cut : (snapAt (snapPart { run := some snapRun, slots := [40000] }) 0).run = some snapRun ∧ snapRun.cutAt = none ∧
    cutReady (snapPart { run := some snapRun, slots := [40000] }) 0 = true ∧
    (takeManifests 0 snapRun.tier snapRun.region (snapPart { run := some snapRun, slots := [40000] })).isSome = true := by decide +kernel
/-- A tile's record finds a far slot, whatever form the part stores it in. -/
theorem wit_snp_record (zeroed : Bool) (plain : List Byte) :
    ∃ u, storeRecord 0 cutRun (objKey 1 7) 0 21 0 zeroed plain (snapPart { run := some cutRun }) = some u := by
  have ⟨n, site, h⟩ := farAlloc_isSome (drew (snapPart { run := some cutRun })) 70000 (by decide +kernel) (by decide +kernel)
  obtain ⟨x, hx⟩ : ∃ x, farAlloc (drew (snapPart { run := some cutRun })) = some x := ⟨_, h⟩
  rw [← Option.isSome_iff_exists]
  simp only [storeRecord, spotAlloc, show cutRun.tier = 2 from rfl, if_true, hx]
  rfl
theorem wit_snp_stored : let s := snapPart { run := some cutRun }
    (snapAt s 0).run = some cutRun ∧ cutRun.owed.find? (fun o => o.1 = refKey ref7 && o.2.1 = 0) = some (refKey ref7, 0, 21) ∧
    cutRun.objs.find? (fun o => o.obj = refKey ref7) = some snapOf7 ∧ mget? s.cows (cowKey (refKey ref7) 0) = none ∧
    (tilePlain s (refKey ref7) 0).isSome = true ∧
    mget? (mput s.cows (cowKey (refKey ref7) 0) { bytes := [1] }) (cowKey (refKey ref7) 0) = some { bytes := [1] } := by decide +kernel
/-- An attempt whose tiles are stored. -/
def wholeRun : SnapRun := { cutRun with owed := [] }
theorem wit_snp_commit : let s := snapPart { run := some wholeRun }
    (snapAt s 0).run = some wholeRun ∧ wholeRun.cutAt.isSome = true ∧ wholeRun.owed = [] ∧ s.pools = [] ∧
    (closeShards 0 wholeRun (dedupNat ((wholeRun.recs.filter (fun x => x.epoch = wholeRun.epoch)).map (·.shard) ++ [20])) [] s).isSome =
      true := by decide +kernel
theorem wit_snp_list : tierOk (taken (snapPart {}) reqP 0x64) (64 * 0) (bits (regGet (taken (snapPart {}) reqP 0x64) 0 0x70000) 4 6)
    (bits (regGet (taken (snapPart {}) reqP 0x64) 0 0x70000) 16 25) = true := by decide +kernel

/-- A committed epoch that holds session 5 of virtual function 1 with one record, in key domain 3. -/
def form0 : Stored := { kd := 3, object := objKey 1 5 }
def snapOf5 : SnapObj := { obj := objKey 1 5, kind := .session, kd := 3, ntiles := 3, sess := some (key0, parkedS) }
def epoch3 : Manifest := { epoch := 3, full := true, cutTime := 0, dirEpoch := 0, tier := 2, region := 0, base := 0, node := 0, keyId := 0
                           recs := [⟨objKey 1 5, 0, 21, 3, false, 2, 0, 40000, 0, form0⟩], objs := [snapOf5], rows := [(0, row0)] }
/-- The part with that epoch, host regions 0, and no session on port A, or `sessions`. -/
def epochPart (fn : Fn) (sessions : NMap Session) : State := { snapPart { manifests := [epoch3], slots := List.replicate 8 70005 } with
  rings := [(fn.key, { ringV with fetched := [] })]
  far := [(40000, form0), (70005, {})]
  regions := [(regionKey 0 3 0, { granules := 4096 }), (regionKey 1 3 0, { granules := 4096 })]
  dir := {}, objects := [], sessions := sessions }

theorem wit_port_restore : let s := epochPart pfA []
    let t := taken s reqP 0x62
    Takes s reqP ∧ restoreCheck t (takenId s reqP 0x62) 0 3 0 0 = none ∧ s.sessions = [] ∧ (snapAt s 0).run = none ∧
    tryEpochs (portFails t 0 [] (fun m y => (m.backs t 0).any (fun o => o.obj = y.obj)))
      (candidates t 0 (bits (regGet t 0 0x70000) 4 6) 0 0) [] = ([], some epoch3) ∧
    ((bringAll epoch3 0 3 0 (epoch3.backs t 0) t).bind (fun u => insertAll 0 (takenId s reqP 0x62) (epoch3.entries t 0 3) u)).isSome =
      true := by decide +kernel
theorem wit_session_restore_new : let s := epochPart vfA []
    let t := taken s req1 0x62
    let u := dmaWrite 0 4096 (reportBytes 3 []) t
    Takes s req1 ∧ mget? s.sessions key0 = none ∧ mget? s.objects (objKey (key0 / 2 ^ 64) parkedS.object) = none ∧
    restoreCheck t (takenId s req1 0x62) 0 3 0 0 = none ∧
    tryEpochs (sessFails t 0 [] (fun m y => (m.session 0 key0).any (fun z => z.1.obj = y.obj)))
      ((candidates t 0 (bits (regGet t 0 0x70000) 4 6) 0 0).filter (fun m => (m.session 0 key0).isSome)) [] = ([], some epoch3) ∧
    epoch3.session 0 key0 = some (snapOf5, parkedS) ∧ kdUsable u (key0 / 2 ^ 64) snapOf5.kd = true ∧
    ((restoreSession (takenId s req1 0x62) key0 epoch3 snapOf5 parkedS 0 3 0 u).bind (·.2)).isSome = true ∧
    dirAccept u 0 false (sessDirKey 1 5) (fullCare false) = .inr 0 := by decide +kernel
theorem wit_session_restore : let s := epochPart vfA [(key0, parkedS)]
    let t := taken s req1 0x62
    let u := dmaWrite 0 4096 (reportBytes 3 []) t
    Takes s req1 ∧ mget? s.sessions key0 = some parkedS ∧ Clear s key0 parkedS true ∧
    restoreCheck t (takenId s req1 0x62) 0 3 0 0 = none ∧
    tryEpochs (sessFails t 0 [] (fun m y => (m.session 0 key0).any (fun z => z.1.obj = y.obj)))
      ((candidates t 0 (bits (regGet t 0 0x70000) 4 6) 0 0).filter (fun m => (m.session 0 key0).isSome)) [] = ([], some epoch3) ∧
    (restoreSession (takenId s req1 0x62) key0 epoch3 snapOf5 parkedS 0 3 0 u).map (·.2) = some none := by decide +kernel

/-- The attempt whose body is written: with a write that is not acknowledged, without, and once its commit record is written. -/
def manRun (outs : List SnapOut) (committing : Bool) : SnapRun :=
  { wholeRun with man := some { epoch3 with epoch := 4 }, outs := outs, committing := committing }
def out0 : SnapOut := ⟨.body, 2, 0, 0, 128, [], false⟩
theorem wit_snp_body : let s := snapPart { run := some wholeRun, slots := List.replicate 32 70005 }
    ((closeShards 0 wholeRun [20] [] s).bind (fun h => writeBody 0 { epoch3 with shards := h.1, slot := List.replicate 32768 0 } h.2)).isSome = true ∧
    wholeRun.man = none ∧
    dedupNat ((wholeRun.recs.filter (fun x => x.epoch = wholeRun.epoch)).map (·.shard) ++ [20]) = [20] := by
  refine ⟨by decide +kernel, rfl, by decide +kernel⟩
theorem wit_snp_stages : (manRun [out0] false).outs ≠ [] ∧ (manRun [] false).outs = [] ∧ (manRun [] false).committing = false ∧
    (manRun [] true).committing = true ∧ (snapAt (snapPart { run := some (manRun [] true) }) 0).run = some (manRun [] true) := by
  decide +kernel
theorem wit_snp_commit_record : (writeCommit 0 epoch3 (snapPart { run := some (manRun [] false), slots := List.replicate 32 70005 })).isSome
    = true := rfl
theorem wit_restore_none : let s := epochPart pfA []
    let t := taken s reqP 0x62
    restoreCheck t (takenId s reqP 0x62) 0 3 0 0 = none ∧
    tryEpochs (portFails t 0 [] (fun m y => (m.backs t 0).any (fun o => o.obj = y.obj))) (candidates t 0 2 0 9) [] = ([], none) ∧
    Takes s { reqP with noWrite := true } := by decide +kernel

/-! ### Witnesses: boot and security -/

/-- A firmware image of SVN 3 that raises the floor, with its digest and a zero signature. -/
def fwBare : List Byte := fields 10149 [(0, 4, 0x57465853), (4, 2, 1), (6, 1, 0xB0), (7, 1, 1), (8, 4, 3), (0xC, 4, 10149), (0x10, 4, 256)]
def fwImg : List Byte := splice fwBare 0x20 (shake256 (fwBare.take 256) 32)
/-- The part before boot, with the image's length in BOOT_LEN, and with the boot at a given step. -/
def bootPart (x : Security) : State := { State.reset with regs := [(0x40010, 10149)], sec := x }

theorem wit_boot_go : (bootPart {}).hub.inReset = false ∧ (bootPart {}).sec.boot = 0 ∧ (bootPart {}).sec.owner = none ∧
    bitOf (1 : Word).toNat 0 = true ∧ pfA.isPf = true ∧ (bootPart { boot := 4, owner := some 0 }).sec.owner = some pfA.port.idx := by decide
theorem wit_boot_read : (bootPart { boot := 1 }).sec.boot = 1 ∧ 10149 < 9893 + 256 + 1 ∧
    bootHeader 10149 (fwBare.take 10149) = 0 ∧ bootHeader 10149 ((List.replicate 10149 0).take 10149) = 1 ∧
    9893 + 256 ≤ regGet (bootPart { boot := 1 }) 0 0x40010 % 2 ^ 24 ∧ regGet State.reset 0 0x40010 % 2 ^ 24 < 9893 + 256 ∧
    regGet (bootPart { boot := 1 }) 0 0x40010 % 2 ^ 24 ≤ fwBare.length := by decide +kernel
theorem wit_boot_verify : fwDigest fwImg = byteSlice fwImg 0x20 32 ∧
    (bootPart { boot := 2, image := fwImg }).sec.floor ≤ leField fwImg 8 4 ∧ (bootPart { boot := 2, image := fwImg }).sec.boots < 1048576 := by
  decide +kernel

/-- The part with `x` as its security state and both functions' rings running. -/
def secPart (x : Security) : State := { sessPart parkedS with rings := [(0, { ringV with fetched := [] }), (1, ringV)], sec := x }
theorem wit_attest : Takes (secPart {}) req1 ∧ (secPart {}).sec.faulted = false ∧ xmssSpent (secPart {}).sec = false := by decide
def attest0 : AttestReq := ⟨id0, 4096, true, List.replicate 1760 0⟩
theorem wit_signed : xmssSpent { queue := [attest0], block := 1, next := 5 } = false ∧ (0 : Nat) < 64 * 1 ∧
    (64 * (secPart { queue := [attest0], block := 1, next := 5 }).sec.block ≤ 5) = False ∧
    64 * (secPart { queue := [attest0] }).sec.block ≤ (secPart { queue := [attest0] }).sec.next := by
  refine ⟨by decide, by decide, by simp [secPart], by decide⟩
/-- A release block for key domain 3 under the pending key of report 7. -/
def relBlock : List Byte := fields 1776 [(0, 4, 0x524B5853), (4, 8, 7), (12, 2, 3), (14, 1, 1), (16, 4, 9)]
def pend7 : PendingKey := ⟨7, 0, [], 0, 1⟩
def kdPart (k : KeyDom) : State := secPart { domains := [(3, k)], pendingKeys := [pend7] }
theorem wit_release : let s := kdPart { port := 0, state := 1, mask := 2 ^ 64 - 1 }
    Takes s req1 ∧ releaseOk relBlock = true ∧ leField relBlock 12 2 = 3 ∧ kdMine (kdOf s 3) req1.identity.key 3 = true ∧
    (kdOf s 3).state = 1 ∧
    s.sec.pendingKeys.find? (fun p => p.index = leField relBlock 4 8 && decide (s.time < p.since + 60000000000)) = some pend7 := by
  decide +kernel
theorem wit_bind : let s := kdPart { port := 0, state := 2, mask := 2 ^ 64 - 1 }
    Takes s reqP ∧ reqP.fn.isPf = true ∧ (kdOf s 4095).state = 0 ∧ lockedFns s (fnPort reqP.fn.key) (0 ^^^ (2 ^ 64 - 1)) = [] ∧
    (kdOf s 3).state ≠ 0 ∧ (kdOf s 3).port = fnPort reqP.fn.key ∧ lockedFns s (fnPort reqP.fn.key) ((kdOf s 3).mask ^^^ 1) = [] ∧
    lockedFns s (fnPort reqP.fn.key) ((kdOf s 3).mask ^^^ 0) = [] ∧
    kdUsers { s with dir := {}, objects := [] } 3 = 0 := by decide +kernel
theorem wit_ide : mget? (secPart { ide := [(24, { key := [1] })] }).sec.ide (Port.b.idx * 16 + 8) = some { key := [1] } ∧
    mget? (secPart {}).sec.ide 24 = none ∧
    tdiOf (secPart {}) vfA.key = .unlocked ∧ tdiOf (secPart { tdi := [(1, .locked)] }) vfA.key = .locked ∧ vfA.isPf = false := by decide
/-- A message on a port without a channel, and one on a port with a channel that the seal passes. -/
def msg0 : Secured := ⟨none, [], []⟩
theorem wit_secured_none : openSecured 0 msg0 (secPart {}) = none := by decide
theorem wit_secured (k b : List Byte) (h : Config.gcmOpen k [] [] [] = some b) :
    openSecured 0 msg0 (secPart { channels := [(0, k)] }) = some (b, secPart { channels := [(0, k)] }) := by
  simp [openSecured, channelKey, msg0, secPart, mget?, h]
theorem wit_boot_spent : (bootPart { boot := 1, boots := 1048576 }).sec.boot = 1 ∧
    1048576 ≤ (bootPart { boot := 2, boots := 1048576 }).sec.boots := by decide
theorem wit_sign_fault : ({ queue := [attest0], block := 1, next := 64 } : Security).faulted = false ∧
    64 * ({ queue := [attest0], block := 1, next := 64 } : Security).block ≤ 64 ∧
    ({ queue := [attest0], faulted := true } : Security).faulted = true ∧
    xmssSpent { queue := [attest0], next := 2 ^ 32, block := 67108864 } = true := by decide +kernel

/-! ### Witnesses: the hatch -/

/-- The part whose window 0 of port A shows quarter 0, with bay 0 in hatch mode as `b` gives it. -/
def hatchPart (b : Bay) : State := { upPav with regs := [(0x100010, 0x80000000)], bays := [(0, { b with hatch := true })] }
/-- A window offset of the command area, and one of the second line of core 1. -/
def hcAt (a : Nat) : Nat := winNear + a
def nearAt : Nat := 2 ^ 14 + 64

theorem wit_hatch_near : winQuarter (hatchPart {}) 0 nearAt = some 0 ∧ winOff nearAt < winNear ∧
    (∀ x ∈ hatchParts 0 (winOff nearAt) (List.replicate 130 0),
      (bayAt (hatchTouch 0 (hatchPart {})) (coreBay x.core)).fenced = false ∧ hatchSealed (hatchTouch 0 (hatchPart {})) x = false ∧
      isDamaged (hatchTouch 0 (hatchPart {})) x.core x.line = false) ∧
    (hatchParts 0 (winOff nearAt) (List.replicate 130 0)).length = 3 := by decide +kernel
theorem wit_hatch_area : winQuarter (hatchPart {}) 0 (hcAt 0x40) = some 0 ∧ winArea (winOff (hcAt 0x40)) = true ∧
    winArea (winOff (hcAt 0x1FFFF)) = true ∧ winArea (winOff (hcAt 62)) = true ∧ winOff (hcAt 62) - winNear < 63 ∧
    winOff (hcAt 0x1000) - winNear = 0x1000 ∧ winOff (hcAt 0x1FFF) - winNear = 0x1FFF ∧
    winQuarter (hatchPart {}) 0 (2 ^ 33) = none := by decide +kernel
/-- A RUN of port A's. -/
def hcCmd0 : HcCmd := { flags := 0, quarters := 15, d := 0, a := 4, b := 8, c := 12, lines := 1, rx := 0, ry := 0, rz := 0, imm := 0
                        repeats := 1, stride := 0, first := 0, reserved := false }
def hcRun0 : HcEntry := ⟨1, 0, 0x20, hcCmd0⟩
theorem wit_hatch_store : (bayAt (hatchPart {}) 0).hcRun = none ∧ (bayAt (hatchPart { hcRun := some (hcRun0, 0) }) 0).hcRun = some (hcRun0, 0) ∧
    hcRun0.op = 0x20 := by decide
/-- A held write of port A to line 1 of core 0. -/
def held0 : HeldWrite := ⟨0, 0, 1, 0, [1], 1, none⟩
def heldPart : State := { hatchPart {} with hatchHeld := [held0] }
theorem wit_hatch_held : heldPart.hatchHeld = [held0] ∧ held0.port = Port.a.idx ∧ held0.arrive = none ∧
    hatchFate { heldPart with hatchHeld := [] } held0.core held0.line = .apply := by decide +kernel
theorem wit_hat_window : responds up 0x100010 = true ∧
    upPav.pavs.any (fun x => x.2.port = Port.a.idx && x.2.quarters.contains (bits (0x80000000 : Word).toNat 0 6)) = true ∧
    upPav.pavs.any (fun x => x.2.port = Port.a.idx && x.2.quarters.contains (bits (0x80000001 : Word).toNat 0 6)) = false := by decide
theorem wit_hatch_mode : responds upPav 0x100000 = true ∧ (∀ x ∈ upPav.pavs, x.2.port ≠ Port.a.idx → x.2.bays.contains 0 = false) ∧
    frameOf upPav 0 = none ∧ (bayAt upPav 0).hatch = false ∧ (bayAt upPav 0).fenced = false := by decide
/-- The part with bay 0 in hatch mode at port A's request, and at both ports'. -/
def asked : State := { hatchPart {} with regs := [(0x100000, 1)] }
def askedBoth : State := regOr 1 0x100000 1 asked
theorem wit_hatch_exit : (bayAt asked 0).hatch = true ∧ hatchWanted (regClear 0 0x100000 (2 ^ 0) asked) 0 = false ∧
    responds askedBoth 0x100000 = true ∧
    hatchWanted (regClear 0 0x100000 (2 ^ 0) askedBoth) 0 = true ∧
    (bayAt (hatchPart { hatchExit := true }) 0).hatchExit = true ∧ (bayAt (hatchPart { hatchExit := true }) 0).hcQueue = [] ∧
    (bayAt (hatchPart { hatchExit := true }) 0).hcRun = none := by decide
/-- On an idle bay nothing refuses a command of any of the twelve operations, while the port shows the bay; of one with no
quarter R361 refuses each. -/
theorem wit_hatch_commands : (bayAt (hatchPart {}) 0).hcRun = none ∧ (bayAt (hatchPart {}) 0).hcQueue = [] ∧
    (∀ op ∈ ([0x01, 0x02, 0x03, 0x04, 0x05, 0x06, 0x07, 0x08, 0x0B, 0x0C, 0x10, 0x20] : List Nat),
      hcCheck (hatchPart { hcSubmitted := 1 }) 0 0 op false hcCmd0 = 0 ∧
      hcCheck (hatchPart { hcSubmitted := 1 }) 0 0 op false { hcCmd0 with quarters := 0 } = 2) ∧
    (bayAt (hatchPart { hcRun := some (hcRun0, 0) }) 0).hcQueue.length < 63 ∧
    64 ≤ (bayAt (hatchPart { hcRun := some (hcRun0, 0), hcQueue := List.replicate 63 hcRun0 }) 0).hcQueue.length + 1 := by decide +kernel
/-- R360's example: ADD of 16,384 lines takes 15,825 core cycles. A command with that time left has not completed. -/
theorem test_hatch_add_time : hcCycles 1 { hcCmd0 with lines := 16384 } = 15825 := by decide
theorem wit_hatch_time : 9 * (hatchPart {}).time < (bayAt (hatchPart { hcRun := some (hcRun0, 0), hcEnd := 10000000000000 }) 0).hcEnd ∧
    (bayAt (hatchPart { hcRun := some (hcRun0, 0) }) 0).hcEnd ≤ 9 * (hatchPart {}).time := by decide +kernel
theorem wit_hatch_unallocated : hcAllocated (9 : Byte).toNat false = false ∧ hcAllocated (0 : Byte).toNat false = false ∧
    hcAllocated (255 : Byte).toNat false = false := by decide
/-- The same part while a frame binds the bay, while the bay is fenced, and with the line in the slot of a tile of a SEALED domain. -/
def hatchFrame : State := { hatchPart {} with frames := [(0, runFrame)] }
def hatchFenced : State := { hatchPart { fenced := true } with time := 0 }
def hatchHidden : State := { hatchPart {} with
  objects := [(objKey 1 7, { ntiles := 1, kd := 3, tiles := [(0, { state := .clean, upTier := 1, upAddr := 1, kd := 3 })] })]
  sec := { domains := [(3, { port := 0, state := 2, isSealed := true })] } }
theorem wit_hatch_queues : hatchQueues (hatchTouch 0 hatchFrame) 0 = true ∧ hatchQueues (hatchTouch 0 (hatchPart {})) 0 = false ∧
    winQuarter hatchFrame 0 nearAt = some 0 := by decide +kernel
theorem wit_hatch_stops : let parts := hatchParts 0 (winOff nearAt) (List.replicate 130 0)
    (∃ x ∈ parts, (bayAt (hatchTouch 0 hatchFenced) (coreBay x.core)).fenced = true) ∧
    (∀ x ∈ parts, (bayAt (hatchTouch 0 hatchHidden) (coreBay x.core)).fenced = false) ∧
    (parts.find? (hatchSealed (hatchTouch 0 hatchHidden))).isSome = true ∧
    (∀ y ∈ parts, isDamaged (hatchTouch 0 hatchHidden) y.core y.line = false) ∧
    (parts.find? (fun x => true || isDamaged (hatchTouch 0 (hatchPart {})) x.core x.line)).isSome = true := by decide +kernel
theorem wit_hatch_beyond : winNear ≤ winOff (hcAt 0x20000) ∧ winArea (winOff (hcAt 0x20000)) = false ∧
    winQuarter (hatchPart {}) 0 (hcAt 0x20000) = some 0 := by decide +kernel

/-! ### Witnesses: Celay -/

/-- The part with Celay port 1 as given, port A controlling it. -/
def linkPart (regs : List (Nat × Nat)) (x : CelayPort) : State := { up with
  regs := regs, time := 100000000, hclk := 150000000, celay := [(1, x)] }
/-- Good first flits, with four empty places: SEQ 0, ACK 4,095, and the second with a NAK. -/
def flitHead : List Byte := [0, 0, 0xFF, 0x0F, 0, 0, 0, 0, 0, 0, 0, 0]
def nakHead : List Byte := [0, 0, 0xFF, 0x8F, 0, 0, 0, 0, 0, 0, 0, 0]
def flitOf (head : List Byte) : List Byte := head ++ natLe 4 (crc32c (head ++ List.replicate 1024 0)) ++ List.replicate 1024 0
def flit0 : List Byte := flitOf flitHead
def nakFlit : List Byte := flitOf nakHead

theorem crcBits_lt (n x : Nat) (h : x < 2 ^ 32) : crcBits n x < 2 ^ 32 := by
  induction n generalizing x with
  | zero => exact h
  | succ n ih =>
    simp only [crcBits]
    refine ih _ ?_
    split
    · exact Nat.xor_lt_two_pow (by omega) (by decide)
    · omega

theorem crc32c_lt (bs : List Byte) : crc32c bs < 2 ^ 32 := by
  refine Nat.xor_lt_two_pow ?_ (by decide)
  suffices h : ∀ c < 2 ^ 32, bs.foldl (fun c b => crcBits 8 (c ^^^ b.toNat)) c < 2 ^ 32 from h _ (by decide)
  induction bs with
  | nil => exact fun c h => h
  | cons b bs ih => exact fun c h => ih _ (crcBits_lt 8 _ (Nat.xor_lt_two_pow h (by omega)))

theorem leNat_natLe4 (v : Nat) (h : v < 2 ^ 32) : leNat (natLe 4 v) = v := by
  simp only [natLe, leNat, BitVec.toNat_ofNat]; omega

theorem flit_parts (head z : List Byte) (c : Nat) (hl : head.length = 12) (hz : z.length = 1024) :
    (head ++ natLe 4 c ++ z).take 12 ++ ((head ++ natLe 4 c ++ z).drop 16).take 1024 = head ++ z ∧
    leField (head ++ natLe 4 c ++ z) 12 4 = leNat (natLe 4 c) := by
  simp [leField, natLe, hl, hz, List.take_of_length_le, List.drop_append]
theorem flitOf_crc (head : List Byte) (hl : head.length = 12) : leField (flitOf head) 12 4 = crc32c ((flitOf head).take 12 ++
    ((flitOf head).drop 16).take 1024) := by
  have h := flit_parts head (List.replicate 1024 0) (crc32c (head ++ List.replicate 1024 0)) hl List.length_replicate
  rw [flitOf, h.1, h.2, leNat_natLe4 _ (crc32c_lt _)]
theorem flit0_good : flitGood { state := 2 } flit0 = true := by
  simp only [flitGood, flit0, flitOf_crc flitHead rfl, decide_true, Bool.true_and]
  decide +kernel
theorem nakFlit_good (x : CelayPort) (h : x.rxSeq = 4095) : flitGood x nakFlit = true := by
  simp only [flitGood, nakFlit, flitOf_crc nakHead rfl, decide_true, Bool.true_and, h]
  decide +kernel

theorem wit_flit_sent : (clyAt (linkPart [] { state := 2, resend := [⟨0, []⟩] }) 1).resend = [⟨0, []⟩] ∧
    (clyAt (linkPart [] { state := 2 }) 1).resend = [] ∧ (clyAt (linkPart [] { state := 2 }) 1).replay.length < 512 ∧
    (clyAt (linkPart [] { state := 2, resend := [⟨0, []⟩] }) 1).swap = false ∧
    (clyAt (linkPart [] { state := 2, swap := true }) 1).swap = true := by decide
theorem wit_flit_received : (clyAt (linkPart [] { state := 2 }) 1).state = 2 ∧ flitGood (clyAt (linkPart [] { state := 2 }) 1) flit0 = true ∧
    bitOf (leField flit0 2 2) 15 = false ∧ bitOf (leField flit0 5 1) 0 = false ∧
    flitGood (clyAt (linkPart [] { state := 2, rxSeq := 0 }) 1) [] = false :=
  ⟨rfl, flit0_good, by decide +kernel, by decide +kernel, by decide +kernel⟩
theorem wit_gate : bitOf (clyReg (linkPart [(0xD1000, 3), (0xD1080, 1000)] {}) 1 0) 1 = true ∧
    (gateNow (linkPart [(0xD1000, 3), (0xD1080, 1000)] {}) 1).isSome = true := by decide +kernel
theorem wit_celay_enable : clyController (linkPart [] {}) pfA 0 = true ∧ responds (linkPart [] {}) (clyOff 0 0) = true ∧
    bitOf (clyReg (linkPart [] {}) 0 0) 0 = false ∧ bitOf (clyReg (linkPart [(0xD0000, 1)] {}) 0 0) 0 = true ∧
    clyController (linkPart [(0xD0000, 1)] {}) pfA 0 = true := by decide
theorem wit_link_up : (clyAt (linkPart [] { state := 1 }) 1).state = 1 ∧
    ((List.range 9).filter (fun l => bitOf (0x7F : BitVec 9).toNat l)).length = 7 ∧
    ((List.range 9).filter (fun l => bitOf (0x17F : BitVec 9).toNat l)).length = 8 := by decide
theorem wit_bringup_retry : (clyAt (linkPart [(0xD1000, 1)] { state := 3 }) 1).state = 3 ∧
    bitOf (clyReg (linkPart [(0xD1000, 1)] { state := 3 }) 1 0) 0 = true ∧
    (clyAt (linkPart [(0xD1000, 1)] { state := 3 }) 1).downAt + 100000000 ≤ (linkPart [(0xD1000, 1)] { state := 3 }).time := by decide
theorem wit_lane_swap : laneUsed { state := 2, lanesOk := 0x1FF } (7 : Fin 9) = true ∧ bitOf 0x1FF 8 = true ∧
    laneUsed { state := 2, lanesOk := 0x1FF } (8 : Fin 9) = false ∧
    laneUsed { state := 2, lanesOk := 0x1FF, outLane := 3 } (8 : Fin 9) = true ∧
    bitOf ({ state := 2, lanesOk := 0xFF } : CelayPort).lanesOk 8 = false := by decide

/-! ### Witnesses: streams and pools -/

/-- A message in Celay port 1's receive buffer, from node 9 under tag 4. -/
def msg (kind : Nat) (payload : List Byte) : Cell := ⟨kind, 0, true, true, 0, 9, 4, 0, payload⟩
/-- A state push of session 5, open. -/
def push0 : Stream := { hand := false, cport := 1, node := 9, tag := 4, gen := 0, sess := key0, count := 32, opened := true }
/-- The part with session 5 resident, a decode descriptor, port A accepting pushes and hand-overs, one message and the streams. -/
def msgPart (m : Cell) (streams : List Stream) : State := { sessPart restingS with
  regs := [(0x51010, 2 ^ 64 - 1), (0xD8000, 0xFFFFFFFF), (0xD8004, 0xE0000001)]
  pavs := [(0, { port := 0, quarters := [0], prog := some progD, models := [(3, ⟨9, 0, List.replicate 32 0⟩)] })]
  celay := [(1, { state := 2, rx := [m] })], streams := streams }
/-- The part once that message is taken. -/
def after (m : Cell) (streams : List Stream) : State := ((takeMsg 1 m.kind (msgPart m streams)).map (·.2)).getD up
theorem wit_take (kind : Nat) (payload : List Byte) (streams : List Stream)
    (hk : kind ∈ [1, 4, 5, 6, 8, 9, 0x0A, 0x0B, 0x0C, 0x0D, 0x0E, 0x11, 0x13, 0x14]) :
    takeMsg 1 kind (msgPart (msg kind payload) streams) = some (msg kind payload, after (msg kind payload) streams) := by
  simp only [List.mem_cons, List.not_mem_nil, or_false] at hk
  rcases hk with rfl | rfl | rfl | rfl | rfl | rfl | rfl | rfl | rfl | rfl | rfl | rfl | rfl | rfl <;>
    simp [after, takeMsg, nextMsg, msgPart, clyAt, mgetD, mget?, msg, wholeMsg, sameMsg]

/-- PUSH_OPEN of 32 positions for session 5; of none; and for an old generation. -/
def openMsg (count : Nat) : Cell := msg 1 (fields 32 [(0, 8, 5), (9, 1, 1), (16, 4, count)])
theorem wit_push_open : pushRefused (countSearch 0 (after (openMsg 32) [])) (openMsg 32) = none ∧
    pushRefused (countSearch 0 (after (openMsg 0) [])) (openMsg 0) = some 6 ∧
    pushRefused (countSearch 0 (after { openMsg 32 with gen := 1 } [])) { openMsg 32 with gen := 1 } = some 3 := by decide +kernel
theorem wit_push_stray : findStream (after (msg 4 []) []) false 1 (msg 4 []) = none ∧
    findStream (after (msg 5 []) []) false 1 (msg 5 []) = none ∧ findStream (after (msg 6 []) []) false 1 (msg 6 []) = none := by
  decide +kernel
theorem wit_push_data : findStream (after (msg 4 []) [push0]) false 1 (msg 4 []) = some push0 ∧ push0.aborted = false ∧
    mget? (after (msg 4 []) [push0]).sessions push0.sess = some restingS ∧ restingS.gen = (msg 4 []).gen ∧
    tileHolds (pavAt (after (msg 4 []) [push0]) restingS.pav).desc restingS.lmax 0 push0.first push0.count = true ∧
    tileHolds (pavAt (after (msg 4 []) [push0]) restingS.pav).desc restingS.lmax 77 push0.first push0.count = false := by decide +kernel
theorem wit_push_end : pushWhole (after (msg 5 []) [push0]) push0 restingS = false ∧
    pushWhole (after (msg 5 []) [push0]) { push0 with landed := List.range 64 } restingS = true ∧
    findStream (after (msg 5 []) [push0]) false 1 (msg 5 []) = some push0 ∧
    findStream (after (msg 6 []) [push0]) false 1 (msg 6 []) = some push0 := by decide +kernel
theorem wit_stream_idle : push0 ∈ (msgPart (msg 4 []) [push0]).streams ∧
    push0.lastAt + streamIdle { msgPart (msg 4 []) [push0] with time := 65536000 } (sessPort push0.sess) ≤ 65536000 ∧
    (∀ z ∈ (msgPart (msg 4 []) [push0]).streams, z.cport = 1 → z.tag = 4 → z = push0) := by decide +kernel

/-- An offer of session 6 from node 9 under key domain 3. -/
def offer : Cell := msg 8 (fields 64 [(0, 8, 6), (8, 2, 3), (12, 4, 64), (16, 4, 32), (20, 4, 3)])
def offerPart : State := { after offer [] with sessions := [] }
theorem wit_offer : handRefused offerPart offer false = none ∧ (handEntry offerPart offer.src).isSome = true ∧
    handRefused offerPart offer true = some 12 := by decide +kernel
/-- A hand-over of session 5 that waits for its peer, and one the peer accepted; and a hand-over from a peer. -/
def sending (accepted : Bool) : Job := .handOver id0 1 9 4 200 0 accepted false
def handIn : Stream := { push0 with hand := true }
def handPart (m : Cell) (accepted : Bool) : State := { after m [] with jobs := [(obj5, sending accepted)] }
theorem wit_hand_in : findStream (after (msg 0x0B []) [handIn]) true 1 (msg 0x0B []) = some handIn ∧
    mget? (after (msg 0x0B []) [handIn]).sessions handIn.sess = some restingS ∧ restingS.gen = (msg 0x0B []).gen ∧
    findStream (after (msg 0x0C []) [handIn]) true 1 (msg 0x0C []) = some handIn ∧
    findStream (after (msg 0x0E []) [handIn]) true 1 (msg 0x0E []) = some handIn ∧
    findStream (after (msg 0x0E []) []) true 1 (msg 0x0E []) = none := by decide +kernel
theorem wit_hand_out : handJob (handPart (msg 9 []) false) 1 (msg 9 []) = some (obj5, sending false) ∧
    sessOfObj (handPart (msg 9 []) false) obj5 = some (key0, restingS) ∧
    handJob (handPart (msg 0x0A [13]) false) 1 (msg 0x0A [13]) = some (obj5, sending false) ∧
    leField (msg 0x0A [13]).payload 0 1 = 13 ∧ leField (msg 0x0A [14]).payload 0 1 = 14 ∧ leField (msg 0x0A [1]).payload 0 1 ≠ 13 ∧
    handJob (handPart (msg 0x0D []) true) 1 (msg 0x0D []) = some (obj5, sending true) ∧
    handJob (handPart (msg 0x0E []) false) 1 (msg 0x0E []) = some (obj5, sending false) := by decide +kernel

/-- A pool read of tile 0 of object 7, a write, and one for a snapshot; the tile's record lies in region 0 of the pool. -/
def poolTx (write snap : Bool) : PoolTx := ⟨0, 1, 4, write, key7, 0, 1, 0, false, if snap then some (.record key7 0) else none⟩
def poolSt (m : Cell) (x : PoolTx) : State := { after m [] with
  pools := [x], objects := [(key7, tileObj { arrivingTile with loTier := 5, loAddr := 0, loGran := 1 })]
  regions := [(regionKey 1 5 0, { granules := 8 })], records := [(recKey 1 5 0 0, {})] }
theorem wit_pool : poolOf (poolSt (msg 0x11 []) (poolTx true false)) 1 4 = some (poolTx true false) ∧
    poolOf (poolSt (msg 0x11 []) (poolTx true true)) 1 4 = some (poolTx true true) ∧
    poolOf (poolSt (msg 0x13 []) (poolTx false false)) 1 4 = some (poolTx false false) ∧
    ([] : List Byte).length < 256 * (poolTx false false).gran ∧ 256 * (poolTx false false).gran ≤ (List.replicate 256 (0 : Byte)).length ∧
    (tileOf (poolSt (msg 0x14 []) (poolTx false false)) key7 0).retried = false := by decide +kernel
theorem wit_pool_opens : spotRead (poolSt (msg 0x13 []) (poolTx false false)) (key7 / 2 ^ 64)
      (tileOf (poolSt (msg 0x13 []) (poolTx false false)) key7 0).lower = some {} ∧
    poolOf (poolSt (msg 0x13 []) (poolTx false false)) 1 5 = none ∧
    spotRead { poolSt (msg 0x13 []) (poolTx false false) with regions := [] } (key7 / 2 ^ 64)
      (tileOf (poolSt (msg 0x13 []) (poolTx false false)) key7 0).lower = none := by decide +kernel
theorem wit_nak : flitGood { state := 2, fails := 8 } nakFlit = true ∧ bitOf (leField nakFlit 2 2) 15 = true ∧
    ackFlits (leField nakFlit 2 2 % 4096) [] = [] :=
  ⟨nakFlit_good _ rfl, by decide +kernel, by decide +kernel⟩
theorem wit_push_dropped : staleMsg (after { msg 4 [] with gen := 1 } [push0]) push0 { msg 4 [] with gen := 1 } = true ∧
    ({ push0 with aborted := true }).aborted = true ∧ (mget? (after (msg 5 []) [push0]).sessions push0.sess).isSome = true := by
  decide +kernel
theorem wit_hand_idle : ({ handPart (msg 9 []) false with time := 65536000 } : State).jobs.find? (fun j => match j.2 with
      | .handOver _ d _ t _ since false _ => d = 1 && t = 4
        && decide (since + streamIdle { handPart (msg 9 []) false with time := 65536000 } (objPort j.1) ≤ 65536000)
      | _ => false) = some (obj5, sending false) ∧
    (∀ y ∈ (handPart (msg 9 []) false).streams, y.cport = 1 → y.tag ≠ 4) ∧
    handJob (handPart (msg 0x0E []) true) 1 (msg 0x0E []) = some (obj5, sending true) := by decide +kernel
theorem wit_pool_timeout : (poolTx false false).since + 1000 * max 1 (regGet State.reset 0 0xD8300 % 65536) ≤ 65536000 ∧
    (∀ z ∈ (poolSt (msg 0x14 []) (poolTx false false)).pools, z.tag = 4 → z = poolTx false false) := by decide +kernel

/-! ### Witnesses: profiles, module reset and start -/

/-- The part before an image is in force, and with one in slot 0 that authorises port A, or both ports with consent of all. -/
def bare (x : Store) : State := { up with trellis := none, store := x }
def storePart (auth : Nat) (x : Store) : State := { up with trellis := some { slot := 0, auth := auth }, store := x }
def pcmd : ProfileCmd := { source := 0, op := 1, slot := 1, since := 0, joined := [0] }

theorem wit_profile_refusals : responds (storePart 1 {}) 0x30000 = true ∧ trlAllowed (storePart 1 {}) (profSrc (.port .b)) = false ∧
    trlAllowed (storePart 1 {}) (profSrc .mgmt) = false ∧ trlAllowed (storePart 1 { running := some pcmd }) (profSrc (.port .a)) = true ∧
    (storePart 1 { running := some pcmd }).store.running.isSome = true := by decide
theorem wit_profile_commands : trlAllowed (storePart 1 {}) (profSrc (.port .a)) = true ∧ (storePart 1 {}).store.running = none ∧
    slotInForce (storePart 1 {}) (0 : Fin 4) = true ∧ slotInForce (storePart 1 {}) (3 : Fin 4) = false ∧
    (storePart 1 {}).store.waiting = none := by decide
theorem wit_select : (∀ q ∈ consentPorts (storePart 1 {}), q = profSrc (.port .a)) ∧
    (∃ q ∈ consentPorts (storePart 11 {}), q ≠ profSrc (.port .a)) ∧ trlAllowed (storePart 11 {}) (profSrc (.port .a)) = true := by decide
theorem wit_profile_commit : (storePart 1 { running := some pcmd }).store.running = some pcmd ∧ pcmd.op = 1 ∧
    pcmd.since + 1000000000 ≤ { storePart 1 { waiting := some pcmd } with time := 1000000000 }.time := by decide
theorem wit_select_joins : let s := storePart 11 { waiting := some { pcmd with op := 3, joined := [1] } }
    s.store.running = none ∧ s.store.waiting = some { pcmd with op := 3, joined := [1] } ∧
    (∀ q ∈ consentPorts s, q ∈ ([1].filter (fun x => decide (x ≠ profSrc (.port .a))) ++ [profSrc (.port .a)])) ∧
    ({ pcmd with op := 3, joined := [1] } : ProfileCmd).slot ≠ 2 ∧ trlAllowed s (profSrc (.port .a)) = true := by decide +kernel
theorem wit_bad_op : responds (storePart 1 {}) 0x30000 = true ∧ 5 < 6 := by decide
/-- A warm select that runs, its slot empty, or with an image that is no profile image. -/
def warm (slots : NMap ProfileSlot) : State := bare { running := some { pcmd with op := 3, quiescing := true }, slots := slots }
theorem wit_warm : ({ pcmd with op := 3, quiescing := true } : ProfileCmd).quiescing = true ∧
    (mget? (warm []).store.slots 1).filter (fun x => x.valid) = none ∧
    mget? (warm [(1, ⟨[], true⟩)]).store.slots 1 = some ⟨[], true⟩ ∧ warmCheck (warm [(1, ⟨[], true⟩)]) [] ≠ 0xC := by decide +kernel

theorem wit_release_module : let s : State := { State.reset with time := 1000000, hclk := 1500000, hub := { inReset := true, causes := [.trip] } }
    s.hub.inReset = true ∧ s.hub.resetAt + 1000000 ≤ s.time ∧ allCool s = true ∧ tapWorks s = true := by decide
theorem wit_train : (pinActs { up with time := 1000040 } 0) = false ∧
    max up.hub.releasedAt ((pinAt up 0).changedAt.getD 0) + 1000000 ≤ 1000040 := by decide
theorem wit_far_training : (bare {}).hub.firmware = true ∧ (bare {}).hub.inReset = false ∧ (bare {}).farCal.start = none ∧
    mget? (bare { slots := [(0, ⟨[], true⟩)] }).store.slots (bare {}).hub.pinsTaken = some ⟨[], true⟩ ∧
    (bare {}).store.slots = [] := by decide

theorem wit_far_fails : let s := bare { slots := [(0, ⟨[], true⟩), (1, ⟨[1], true⟩), (2, ⟨[2], false⟩)] }
    ([0, 1, 2, 3] : List Nat).all (fun k => (((mget? s.store.slots k).filter (fun x => x.valid)).map (fun x => x.image)).all (fun b =>
      decide (applyCheck s b ≠ 0))) = true ∧
    ((0 : Nat) :: ([0, 1, 2, 3] : List Nat).filter (· ≠ 0)) = [0, 1, 2, 3] := by decide +kernel

/-! ### Witnesses: bay power and the gatehouse -/

/-- The part with bay 0, used by port A's pavilion, as given, 1 s after start; and the same bay unused, with bits of GH_BAY_OFF. -/
def bayPart (b : Bay) : State := { upPav with time := 1000000000, hclk := 1500000000, bays := [(0, b)] }
def offPart (b : Bay) (bitsA : Nat) : State := { up with time := 1000000000, regs := [(0x10028, bitsA)], bays := [(0, b)] }

theorem wit_doze : (bayAt (bayPart { power := .run }) 0).power = .run ∧ bayBusy (bayPart { power := .run }) 0 = false ∧
    40 * bayCtrl (bayPart { power := .run }) 0 0 7 ≤ 1000000000 := by decide +kernel
theorem wit_rest : (bayAt (bayPart { power := .doze }) 0).wake = none ∧ bayBusy (bayPart { power := .doze }) 0 = false ∧
    prewakeSoon (bayPart { power := .doze }) 0 = false ∧ 1000 * bayCtrl (bayPart { power := .doze }) 0 20 31 ≤ 1000000000 := by decide +kernel
theorem wit_rest_done : (bayAt (bayPart { power := .resting 0 }) 0).power = .resting 0 ∧ 0 + 5000 ≤ (bayPart {}).time := by decide
theorem wit_wakes : ((bayPart {}).gate.wakes.filter (fun t => decide ((bayPart {}).time < t + 2000))).length ≤ 10 := by decide
theorem wit_run_ready : (bayAt (bayPart { power := .waking 0 false true }) 0).power = .waking 0 false true ∧
    (bayAt (bayPart { power := .waking 0 true false }) 0).power = .waking 0 true false ∧ 0 + 20000 ≤ (bayPart {}).time := by decide
theorem wit_wake_decision : let s := bayPart { power := .doze, transom := [⟨5, true, 1, .depart 0 0⟩] }
    bayBusy s 0 = true ∧ bayUsed s 0 = true ∧ (bayAt s 0).fenced = false ∧ (bayAt s 0).power = .doze ∧
    (bayAt (bayPart { power := .rest, transom := [⟨5, true, 1, .depart 0 0⟩] }) 0).power = .rest := by decide +kernel
theorem wit_off : responds (offPart {} 0) 0x10028 = true ∧ bitOf (regGet (offPart {} 0) 0 0x10028) 0 = false ∧
    offAllowed (offPart {} 0) 0 0 = true ∧ offAllowed (bayPart {}) 1 0 = false ∧ responds (bayPart {}) 0x10028 = true ∧
    bitOf (regGet (bayPart {}) 1 0x10028) 0 = false := by decide +kernel
theorem wit_off_release : bitOf (regGet (offPart { power := .off } 1) 0 0x10028) 0 = true ∧
    (bayAt (offPart { power := .off } 1) 0).power = .off ∧
    bitOf (regGet (regClear 0 0x10028 1 (offPart { power := .off } 1)) 1 0x10028) 0 = false ∧
    bitOf (regGet (regClear 0 0x10028 1 (regOr 1 0x10028 1 (offPart { power := .off } 1))) 1 0x10028) 0 = true := by decide +kernel
theorem wit_returning : (bayAt (offPart { power := .returning 0 } 0) 0).power = .returning 0 := by decide

/-- The part with every bay at rest, long idle; and with its hub quiet and called. -/
def asleep : State := { up with time := 10000000000, bays := (List.range 20).map (fun b => (b, { power := .rest })) }
theorem wit_quiet : asleep.hub.quiet = false ∧ hubServes asleep = true ∧ hubBusy asleep = false ∧
    ((List.range 20).all (fun b => (bayAt asleep b).power = .rest || (bayAt asleep b).power = .off)) = true ∧
    asleep.hub.idleSince + hubQuietNs asleep ≤ asleep.time ∧
    hubCalled { asleep with hub := { asleep.hub with quiet := true, wake := true } } = true := by decide +kernel
theorem wit_cap : up.trellis = some {} ∧ effectiveCap up {} ≠ up.gate.effective := by decide
/-- The part when sensor 10 has read 115 °C once. -/
def hot : State := { up with time := 100000, gate := { sensors := [(10, sensorRead 10 115 {})] } }
theorem wit_readings : up.time % 100000 = 0 ∧ up.gate.readAt ≠ some up.time ∧
    (∀ id ∈ sensorIds, sensorAt up id 4 = false →
      sensorAt (sensorIds.foldl (fun t id => readSensor id 40 t) { up with gate := { up.gate with readAt := some up.time } }) id 4 = false) := by
  decide +kernel
theorem wit_trip : hot.time % 100000 = 0 ∧ hot.gate.readAt ≠ some hot.time ∧ 10 ∈ sensorIds ∧ sensorAt hot 10 4 = false ∧
    sensorAt (sensorIds.foldl (fun t id => readSensor id (if id = 10 then 115 else 0) t)
      { hot with gate := { hot.gate with readAt := some hot.time } }) 10 4 = true := by decide +kernel
/-- The part with slow pin `n` as given, 2 ms after start. -/
def pinPart (n : Nat) (x : Pin) : State := { up with time := 2000000, gate := { pins := [(n, x)] } }
theorem wit_pins : (1 : Fin 4).val % 2 ≠ (pinAt (pinPart 3 { accepted := 0, acted := 1 }) 3).accepted ∧
    pinFree (pinPart 3 {}) { accepted := 0, acted := 1 } = true ∧ pinHeld 3 = true ∧ pinHeld 1 = false ∧
    pinFree (pinPart 3 {}) { accepted := 0, acted := 1, changedAt := some 1500000 } = false := by decide
theorem wit_pin_expiry : pinHeld (pinIdx .wake) = true ∧
    (pinAt (pinPart 3 { accepted := 0, acted := 1 }) 3).accepted ≠ (pinAt (pinPart 3 { accepted := 0, acted := 1 }) 3).acted ∧
    pinFree (pinPart 3 { accepted := 0, acted := 1 }) (pinAt (pinPart 3 { accepted := 0, acted := 1 }) 3) = true := by decide
theorem wit_pin_stuck : pinIdx .coolant ≠ 2 ∧ mgetD (pinPart 5 { acted := 0 }).gate.limits 5 0 ≠ 0 ∧ (pinAt (pinPart 5 { acted := 0 }) 5).acted = 0 ∧
    (pinAt (pinPart 5 { acted := 0 }) 5).stuck = false ∧
    (pinAt (pinPart 5 { acted := 0 }) 5).changedAt.getD 0 + 10 * 1000000000 < 10000000040 := by decide
/-- Port A's wake timer 255 armed for pavilion 0, with a pre-wake of 5 µs. -/
def timed (t : Nat) : State := { upPav with time := t, regs := [(0x11000 + 16 * 255, 100000), (0x11008 + 16 * 255, 2 ^ 31 + 5)] }
theorem wit_timer : bitOf (timerCtrl (timed 100000) 0 (255 : Fin 256)) 31 = true ∧
    timerDeadline (timed 100000) 0 (255 : Fin 256) ≤ (timed 100000).time ∧
    timerPrewake (timed 95000) 0 (255 : Fin 256) = some (95000, [0]) ∧ 95000 ≤ timerDeadline (timed 95000) 0 (255 : Fin 256) := by
  decide +kernel
theorem wit_notices : responds up 0x10030 = true ∧ responds up 0x10034 = true ∧ responds up 0x10100 = true ∧
    (127 - (127 &&& regGet up 0 0x10034)) &&& regGet up 0 0x10030 = 0 ∧
    (127 - (127 &&& regGet (ghNotice 0 1 up) 0 0x10034)) &&& regGet (ghNotice 0 1 up) 0 0x10030 ≠ 0 := by decide
theorem wit_sensor_read : (∀ t, up.trellis = some t → t.mgmtRaw = false) ∧ 22 ∈ sensorIds ∧ 60 < 61 ∧
    (∀ t, ({ up with trellis := some { mgmtRaw := true } } : State).trellis = some t → t.mgmtRaw = true) := by
  refine ⟨?_, by decide, by decide, ?_⟩ <;> (intro t h; simp [up] at h; subst h; rfl)
theorem wit_power_window : ({ up with time := 100000000 } : State).trellis = some {} ∧
    ({ up with time := 100000000 } : State).gate.window < 100000000 / (max 1 ({} : Trellis).windowMs * 1000000) := by decide

/-! ### Witnesses: the whole block -/

theorem wit_row : regRow 0x10008 = some (reg32 0x10008 .perPort 0x1F43E832 0xFFFFFFFF) := by decide
/-- Reset keeps its invariant, and the first step answers a next state. -/
theorem wit_sound : Sound State.reset ∧ State.reset.goes := by
  refine ⟨⟨rfl, rfl, rfl, rfl, ?_⟩, ?_⟩
  · exact ⟨by decide, by decide⟩
  · exact ⟨_, rfl⟩
theorem wit_device_time : (∃ t, exec .hubPllLock State.reset = .next t) ∧ Instr.hubPllLock ≠ .aonPowerUp ∧
    State.reset.pending.head? ≠ some .aonPowerUp ∧ (∀ h ∈ State.reset.held, h.cmd ≠ .aonPowerUp) :=
  ⟨⟨_, rfl⟩, by decide, by decide, by intro h hh; cases hh⟩
theorem wit_signing : InBlock (secPart { queue := [attest0], block := 1, next := 5 }).sec ∧
    xmssSpent (secPart { queue := [attest0], block := 1, next := 5 }).sec = false := by
  exact ⟨⟨by decide, by decide⟩, by decide⟩

/-- The table gives no word of bits a command, so none spells one. -/
theorem test_no_word_spells_a_command : decodeTableWord 16 0 = none ∧ decodeTableWord 32 0xFFFFFFFF = none := by decide

end Sys2Proof.Tests
end

section
/-! PROOF. The FP32 vector instructions (R54, R59): what a core's issue of a vector instruction answers, the order of `fpBelow`, and
from them the results of VADD, VSUB, VMUL, VFMA, VMAX, VMIN and VABS. -/

namespace Sys2Proof.Machine

/-! ### What a core answers when it issues an instruction -/

section Issue
variable {s : State} {k : Fin 10240} {cyc key : Nat} {f : Frame} {i : Instr}

/-- A core that issues an instruction whose operands exist becomes what the instruction makes of it. -/
theorem coreStep_of_issues {g : Core → CoreRes} {c : Core} {fl : BitVec 5} (h : issues s k cyc i = some (key, f))
    (hg : g (coreNow s k cyc) = .ok c fl) : coreStep i k cyc g s = .next (issued s k cyc key f c fl) := by
  simp only [coreStep, h, hg]

/-- A vector instruction on a core that issues computes its lane results from the core as it stands at issue (R33). -/
theorem coreStep_vecOut_of_issues (w lat : Nat) (vd : Fin 32) (m : Mask) (rs : Core → List (LaneRes Nat))
    (h : issues s k cyc i = some (key, f)) :
    coreStep i k cyc (fun c => vecOut w lat cyc vd m (rs c) c) s = vecNext s k cyc key f vd m w lat (rs (coreNow s k cyc)) :=
  coreStep_of_issues h rfl

/-- An FP32 instruction of two operands on a core that issues (R54, R59). -/
theorem fp2_of_issues (g : FVal → FVal → LaneRes Word) (vd va vb : Fin 32) (m : Mask) (h : issues s k cyc i = some (key, f)) :
    fp2 i g k cyc vd va vb m s =
      vecNext s k cyc key f vd m 32 4 (fpBin g ((coreNow s k cyc).vreg va) ((coreNow s k cyc).vreg vb)) :=
  coreStep_vecOut_of_issues 32 4 vd m (fun c => fpBin g (c.vreg va) (c.vreg vb)) h

end Issue

/-! ### The order of `fpBelow` -/

/-- Either way round, two dyadic numbers compare as integers on the finer of their two exponents. -/
theorem dyLt_asymm {x y : Dy} (h : dyLt x y = true) : dyLt y x = false := by
  simp only [dyLt, dyLe, Bool.not_eq_true', decide_eq_false_iff_not, Bool.not_eq_false', decide_eq_true_eq, not_le] at h ⊢
  rw [min_comm]
  exact h.le

/-- With no infinity among them, two zeros go by their signs and every other pair by the exact numbers. -/
theorem fpBelow_of_not_inf {x y : FVal} (hx : x.isInf = false) (hy : y.isInf = false) :
    fpBelow x y = if x.isZero && y.isZero then x.neg && !y.neg else dyLt x.dy y.dy := by
  cases x with
  | inf _ => cases hx
  | nan | fin _ _ _ =>
    cases y with
    | inf _ => cases hy
    | nan | fin _ _ _ => rfl

theorem fpBelow_asymm_of_not_inf {x y : FVal} (hx : x.isInf = false) (hy : y.isInf = false) (h : fpBelow x y = true) :
    fpBelow y x = false := by
  rw [fpBelow_of_not_inf hx hy] at h
  rw [fpBelow_of_not_inf hy hx, Bool.and_comm y.isZero]
  by_cases hz : (x.isZero && y.isZero) = true
  · rw [if_pos hz] at h ⊢
    rw [Bool.and_eq_true] at h
    simp [h.1]
  · rw [if_neg hz] at h ⊢
    exact dyLt_asymm h

/-- Of two values at most one lies below the other. -/
theorem fpBelow_asymm {x y : FVal} (h : fpBelow x y = true) : fpBelow y x = false := by
  cases x with
  | inf a =>
    cases y with
    | inf b =>
      obtain ⟨ha, -⟩ : a = true ∧ b = false := by simpa [fpBelow] using h
      simp [fpBelow, ha]
    | nan | fin _ _ _ => simpa [fpBelow] using h
  | nan | fin _ _ _ =>
    cases y with
    | inf b => simpa [fpBelow] using h
    | nan | fin _ _ _ => exact fpBelow_asymm_of_not_inf rfl rfl h

/-! ### VMAX and VMIN (R54) -/

theorem fpMax_of_nan {x y : FVal} (h : x.isNan = true ∨ y.isNan = true) : fpMax x y = ⟨fp32Nan, 0⟩ :=
  if_pos (by rwa [Bool.or_eq_true])

theorem fpMin_of_nan {x y : FVal} (h : x.isNan = true ∨ y.isNan = true) : fpMin x y = ⟨fp32Nan, 0⟩ :=
  if_pos (by rwa [Bool.or_eq_true])

theorem fpMax_of_not_nan {x y : FVal} (hx : x.isNan = false) (hy : y.isNan = false) :
    fpMax x y = ⟨fp32OfVal (if fpBelow x y then y else x), 0⟩ := if_neg (by simp [hx, hy])

theorem fpMin_of_not_nan {x y : FVal} (hx : x.isNan = false) (hy : y.isNan = false) :
    fpMin x y = ⟨fp32OfVal (if fpBelow x y then x else y), 0⟩ := if_neg (by simp [hx, hy])

/-- The larger of two operands that are not NaN is one of them, and the other does not lie above it. -/
theorem fpMax_is_upper {x y : FVal} (hx : x.isNan = false) (hy : y.isNan = false) :
    fpMax x y = ⟨fp32OfVal x, 0⟩ ∧ fpBelow x y = false ∨ fpMax x y = ⟨fp32OfVal y, 0⟩ ∧ fpBelow y x = false := by
  rw [fpMax_of_not_nan hx hy]
  cases h : fpBelow x y with
  | false => exact .inl ⟨rfl, rfl⟩
  | true => exact .inr ⟨rfl, fpBelow_asymm h⟩

/-- The smaller of two operands that are not NaN is one of them, and the other does not lie below it. -/
theorem fpMin_is_lower {x y : FVal} (hx : x.isNan = false) (hy : y.isNan = false) :
    fpMin x y = ⟨fp32OfVal y, 0⟩ ∧ fpBelow x y = false ∨ fpMin x y = ⟨fp32OfVal x, 0⟩ ∧ fpBelow y x = false := by
  rw [fpMin_of_not_nan hx hy]
  cases h : fpBelow x y with
  | false => exact .inl ⟨rfl, rfl⟩
  | true => exact .inr ⟨rfl, fpBelow_asymm h⟩

/-- Zeros of either sign compare by their signs, whatever exponents they are written with. -/
theorem fpBelow_zeros (a b : Bool) (e g : Int) : fpBelow (.fin a 0 e) (.fin b 0 g) = (a && !b) := rfl

theorem fp32OfVal_pos_zero (e : Int) : fp32OfVal (.fin false 0 e) = 0 := by
  simp [fp32OfVal, fp32Round, roundIdx, b2n]

/-- Of +0 and −0, in either order, VMAX gives +0. -/
theorem fpMax_zeros (e g : Int) :
    fpMax (.fin false 0 e) (.fin true 0 g) = ⟨0, 0⟩ ∧ fpMax (.fin true 0 e) (.fin false 0 g) = ⟨0, 0⟩ := by
  rw [fpMax_of_not_nan rfl rfl, fpMax_of_not_nan rfl rfl, fpBelow_zeros, fpBelow_zeros]
  simp [fp32OfVal_pos_zero]

/-- Settles O8: each instruction is `coreStep` on the lane results, and VMAX and VMIN choose by `fpBelow`, which is asymmetric. -/
theorem vectorFp32Results : Obligations.VectorFp32Results := by
  refine ⟨fun k cyc key f vd va vb vc m s => ⟨?vadd, ?vsub, ?vmul, ?vfma, ?vmax, ?vmin, ?vabs⟩,
    fun x y h => ⟨fpMax_of_nan h, fpMin_of_nan h⟩, fpMax_zeros, fun x y hx hy => ⟨fpMax_is_upper hx hy, fpMin_is_lower hx hy⟩⟩
  case vadd => exact fun h => (exec_vadd ..).trans (fp2_of_issues fpAdd vd va vb m h)
  case vsub => exact fun h => (exec_vsub ..).trans (fp2_of_issues (fun x y => fpAdd x y.flip) vd va vb m h)
  case vmul => exact fun h => (exec_vmul ..).trans (fp2_of_issues fpMul vd va vb m h)
  case vfma =>
    exact fun h => (exec_vfma ..).trans
      (coreStep_vecOut_of_issues 32 4 vd m (fun c => fpTer fpFma (c.vreg va) (c.vreg vb) (c.vreg vc)) h)
  case vmax => exact fun h => (exec_vmax ..).trans (fp2_of_issues fpMax vd va vb m h)
  case vmin => exact fun h => (exec_vmin ..).trans (fp2_of_issues fpMin vd va vb m h)
  case vabs =>
    exact fun h => (exec_vabs ..).trans (coreStep_vecOut_of_issues 32 4 vd m (fun c => fpUn fpAbs (c.vreg va)) h)

end Sys2Proof.Machine
end

section
/-! PROOF. Refused register accesses (R7, R486, R487): what each of the three commands answers once its guard holds. -/

namespace Sys2Proof.Machine

/-- A BAR0 access that is not a naturally aligned 32-bit access is recorded, and a read of it answers zeros (R7). -/
theorem execMisalignedRegisterAccess_of_misaligned {f : Fn} {off size : Nat} (write : Bool) (s : State)
    (hbar : inBar f .bar0 off = true) (hmis : size ≠ 4 ∨ off % 4 ≠ 0) :
    execMisalignedRegisterAccess f off size write s =
      .next (if write then raiseErr (regAccessErr f .bar0 off size write) s
        else { raiseErr (regAccessErr f .bar0 off size write) s with reply := .bytes (List.replicate size 0) }) :=
  if_pos (by rw [hbar, Bool.true_and, Bool.or_eq_true, decide_eq_true_iff, decide_eq_true_iff]; exact hmis)

/-- An aligned access to an offset that names no register: a write is recorded, and a read answers zero (R487). -/
theorem execUndecodedAccess_of_not_decodes {f : Fn} {bar : Bar} {off : Nat} (write : Bool) (s : State)
    (hbar : inBar f bar off = true) (halign : off % 4 = 0) (hdec : decodes f bar off = false) :
    execUndecodedAccess f bar off write s =
      .next (if write then raiseErr (regAccessErr f bar off 4 true) s else { s with reply := .word 0 }) :=
  if_pos (by simp [hbar, halign, hdec])

/-- A virtual function's write to its BAR0 is recorded, whatever its offset and size (R486). -/
theorem execVfBar0Write_of_vf {f : Fn} {off : Nat} (size : Nat) (s : State) (hvf : f.isPf = false)
    (hbar : inBar f .bar0 off = true) :
    execVfBar0Write f off size s = .next (raiseErr (regAccessErr f .bar0 off size true) s) :=
  if_pos (by simp [hvf, hbar])

/-- Settles O3: each clause is its command's answer under its guard, with the direction of the access put in. -/
theorem refusedAccessesAreRecorded : Obligations.RefusedAccessesAreRecorded := by
  refine ⟨fun f off size s hbar hmis => ?misaligned, fun f bar off s hbar halign hdec => ?undecoded,
    fun f off size s hvf hbar => ?vfWrite⟩
  case misaligned =>
    have answers := fun write => execMisalignedRegisterAccess_of_misaligned write s hbar hmis
    exact ⟨(exec_misalignedRegisterAccess ..).trans (answers true), (exec_misalignedRegisterAccess ..).trans (answers false)⟩
  case undecoded =>
    have answers := fun write => execUndecodedAccess_of_not_decodes write s hbar halign hdec
    exact ⟨(exec_undecodedAccess ..).trans (answers true), (exec_undecodedAccess ..).trans (answers false)⟩
  case vfWrite => exact (exec_vfBar0Write ..).trans (execVfBar0Write_of_vf size s hvf hbar)

end Sys2Proof.Machine
end

section
/-! PROOF. What a completion can change (R340 to R345, R352): the rings, the tenants' charges, the interrupts sent and host memory,
and nothing else of the state. -/

namespace Sys2Proof.Machine

/-- `t` differs from `s` in the rings, the tenants, the interrupts sent and host memory at most. -/
def OnRings (s t : State) : Prop :=
  t = { s with rings := t.rings, tenants := t.tenants, irqs := t.irqs, hostMem := t.hostMem }

theorem OnRings.refl (s : State) : OnRings s s := rfl

theorem OnRings.trans {s t u : State} (h : OnRings s t) (g : OnRings t u) : OnRings s u :=
  calc u = { t with rings := u.rings, tenants := u.tenants, irqs := u.irqs, hostMem := u.hostMem } := g
    _ = { ({ s with rings := t.rings, tenants := t.tenants, irqs := t.irqs, hostMem := t.hostMem } : State) with
          rings := u.rings, tenants := u.tenants, irqs := u.irqs, hostMem := u.hostMem } := by rw [← (h : t = _)]

theorem setRing_onRings (fn : Nat) (r : Ring) (s : State) : OnRings s (setRing fn r s) := rfl

theorem sendIrq_onRings (fn vec : Nat) (s : State) : OnRings s (sendIrq fn vec s) := rfl

theorem dmaWrite_onRings (p addr : Nat) (bs : List Byte) (s : State) : OnRings s (dmaWrite p addr bs s) := rfl

theorem applyCharge_onRings (c : Option Charge) (s : State) : OnRings s (applyCharge c s) := by
  cases c <;> rfl

theorem fireCoal_onRings (fn : Nat) (s : State) : OnRings s (fireCoal fn s) := by
  unfold fireCoal
  dsimp only
  split
  · exact (setRing_onRings ..).trans (sendIrq_onRings ..)
  · exact .refl s

theorem writeCpl_onRings (fn : Nat) (c : Cpl) (s : State) : OnRings s (writeCpl fn c s) :=
  (((dmaWrite_onRings ..).trans (setRing_onRings ..)).trans (applyCharge_onRings ..)).trans (fireCoal_onRings ..)

theorem drainOverflow_onRings (fn n : Nat) (s : State) : OnRings s (drainOverflow fn n s) := by
  induction n generalizing s with
  | zero => exact .refl s
  | succ n ih =>
    unfold drainOverflow
    dsimp only
    split
    · exact .refl s
    · split
      · exact .refl s
      · exact ((setRing_onRings ..).trans (writeCpl_onRings ..)).trans (ih _)

/-- The rings once a completion is delivered or discarded: the last one of a request takes it off the fetched requests (R340). -/
def Ring.left (r : Ring) (c : Cpl) : Ring := if c.more then r else { r with fetched := r.fetched.filter (· ≠ c.id) }

/-- What becomes of a completion while the hub runs (R340, R345): discarded, queued, or written. -/
theorem postCpl_eq {s : State} (c : Cpl) (h : s.hub.stopped = false) :
    let r := (ringOf s c.id.fn).left c
    let t := setRing c.id.fn r s
    postCpl c s = if cplDead r c.id then applyCharge c.charge t
      else if r.overflow ≠ [] || cqFull r then setRing c.id.fn { r with overflow := r.overflow ++ [c] } t
      else writeCpl c.id.fn c t := by
  unfold postCpl
  rw [if_neg (by simp [h])]
  rfl

theorem postCpl_onRings (c : Cpl) (s : State) : OnRings s (postCpl c s) := by
  cases h : s.hub.stopped
  case true => unfold postCpl; rw [if_pos h]; exact .refl s
  case false =>
    rw [postCpl_eq c h]
    split
    · exact (setRing_onRings ..).trans (applyCharge_onRings ..)
    · split
      · exact (setRing_onRings ..).trans (setRing_onRings ..)
      · exact (setRing_onRings ..).trans (writeCpl_onRings ..)

theorem complete_onRings (id : ReqId) (detail : Nat) (status : Option Nat) (info : Nat) (s : State) :
    OnRings s (complete id detail status info s) := postCpl_onRings ..

theorem done_onRings (id : ReqId) (s : State) : OnRings s (done id s) := complete_onRings ..

theorem fail_onRings (id : ReqId) (detail : Nat) (s : State) : OnRings s (fail id detail s) := complete_onRings ..

theorem withOut_done_onRings (id : ReqId) (addr : Nat) (bs : List Byte) (s : State) :
    OnRings s (withOut id addr bs (done id) s) := by
  unfold withOut
  split
  · exact fail_onRings ..
  · exact (dmaWrite_onRings ..).trans (done_onRings ..)

end Sys2Proof.Machine
end

section
/-! PROOF. The whole block (R310, R312, R405, R406, R471, R490): what reset leaves, and from `step_kept` what every step keeps of
the clocks, the memories and the counters that never fall. -/

namespace Sys2Proof.Machine

/-- Settles O1: a step matches on the queue, whose front is `c`. -/
theorem stepRunsFront : Obligations.StepRunsFront := fun _ _ _ => rfl

/-- Right after reset no register is stored, so each reads as its reset value (R490). -/
theorem regGet_reset {p off : Nat} {row : RegRow} (h : regRow off = some row) : regGet State.reset p off = row.reset := by
  unfold regGet
  rw [h]
  rfl

/-- Settles O55: reset holds nothing, and each of the five named registers has its row in the map. -/
theorem resetLeavesItsValues : Obligations.ResetLeavesItsValues :=
  ⟨rfl, rfl, rfl, rfl, rfl, rfl, fun _ _ _ => regGet_reset, fun _ _ =>
    ⟨regGet_reset (row := reg32 0x0 .shared 0x5320B000 0) (by decide),
      regGet_reset (row := reg32 0x10008 .perPort 0x1F43E832 0xFFFFFFFF) (by decide),
      regGet_reset (row := reg32 0x50000 .perPort 0x00320014 0xFFFFFFFF) (by decide),
      regGet_reset (row := reg32 0x70008 .perPort 0xE10 0x1FFFF) (by decide),
      regGet_reset (row := reg32 0xB0000 .perPort 0x02710001 0xFFFFF001) (by decide)⟩⟩

/-- Settles O56: at reset both clocks read 0, both memories are empty, and no signing index has been taken. -/
theorem soundAtReset : Obligations.SoundAtReset :=
  ⟨rfl, rfl, rfl, rfl, by decide, by decide⟩

/-- Settles O57: by `step_kept` the step keeps what every command keeps from a state whose clocks either stand, move by one ACLK
cycle, or start again at 0; each of the three keeps their ratio and their step. -/
theorem everyStepKeepsItSound : Obligations.EveryStepKeepsItSound := by
  intro s t hs h
  obtain ⟨hclocks, hticks, hhost, hnear, hsigned⟩ := hs
  obtain ⟨a, k, hsec, -, hhm, hnr, hclk⟩ := step_kept h
  have clocks : 2 * a.hclk = 3 * a.time ∧ a.time % 40 = 0 := by
    rcases hclk with ⟨ht, hc⟩ | ⟨-, ht, hc⟩ | ⟨ht, hc, -⟩ <;> rw [ht, hc] <;> omega
  exact {
    clocks := by rw [k.hclk, k.time]; exact clocks.1
    ticks := by rw [k.time]; exact clocks.2
    host := k.host (hhm ▸ hhost)
    near := k.near (hnr ▸ hnear)
    signed := (k.signed (hsec ▸ hsigned)).2 }

/-- Settles O58: a command keeps the clocks and the queue by `kept_exec`; of the three ways `step_kept` gives a step to move the
clocks, the restart is AON_POWER_UP's alone. -/
theorem deviceTimeNeverMovesBack : Obligations.DeviceTimeNeverMovesBack := by
  refine ⟨fun c s t hc h => ?command, fun s t hfront hheld h => ?step⟩
  case command =>
    have k := (kept_exec c s (.refl s) hc).kept t h
    exact ⟨k.time, k.hclk, k.pending⟩
  case step =>
    obtain ⟨a, k, -, -, -, -, hclk⟩ := step_kept h
    rw [k.time]
    rcases hclk with ⟨ht, -⟩ | ⟨hp, ht, -⟩ | ⟨-, -, hfr | ⟨q, hq, hcmd⟩⟩
    · exact ⟨ht.ge, by omega, fun _ => ht⟩
    · exact ⟨by omega, by omega, fun hne => absurd hp hne⟩
    · exact absurd hfr hfront
    · exact absurd hcmd (hheld q hq)

/-- The next index lies, together with its successor, in the block that signs it: the one in use, or where that is spent the next
one (R312). -/
theorem index_in_block {x : Security} (h : InBlock x) :
    64 * ((if decide (64 * x.block ≤ x.next) = true then x.block + 1 else x.block) - 1) ≤ x.next ∧
      x.next < 64 * (if decide (64 * x.block ≤ x.next) = true then x.block + 1 else x.block) := by
  obtain ⟨hlo, hhi⟩ := h
  simp only [decide_eq_true_iff]
  split <;> omega

/-- A report that can be signed takes the next index, in the block in use or a fresh one (R312, R314). -/
theorem execAttestSigned_takes {s : State} {q : AttestReq} {qs : List AttestReq} (hq : s.sec.queue = q :: qs)
    (hf : s.sec.faulted = false) (hx : xmssSpent s.sec = false) :
    ∃ t, execAttestSigned true s = .next t ∧ t.sec.next = s.sec.next + 1 ∧
      t.sec.block = if decide (64 * s.sec.block ≤ s.sec.next) = true then s.sec.block + 1 else s.sec.block := by
  have hx' : xmssSpent { s.sec with queue := qs } = false := hx
  simp only [execAttestSigned, hq, onSec, Bool.not_true, Bool.and_false]
  rw [if_neg (by simp [hf]), if_neg (by simp [hx']), if_neg (by simp)]
  refine ⟨_, rfl, ?_, ?_⟩
  · exact congrArg (·.sec.next) (withOut_done_onRings ..)
  · exact congrArg (·.sec.block) (withOut_done_onRings ..)

/-- Settles O59: no counter falls in a step by `step_kept`, and a signed report takes the index of `index_in_block`. -/
theorem fusedCountersNeverFall : Obligations.FusedCountersNeverFall := by
  refine ⟨fun s t hin h => ?step, fun q qs s hq hf hx hin => ?sign⟩
  case step =>
    obtain ⟨a, k, hsec, hstore, -⟩ := step_kept h
    have hs := k.signed (hsec ▸ hin)
    rw [← hsec, ← hstore]
    exact ⟨k.floor, k.boots, k.block, k.serial, hs.1, hs.2⟩
  case sign =>
    obtain ⟨t, ht, hnext, hblock⟩ := execAttestSigned_takes hq hf hx
    refine ⟨t, (exec_attestSigned ..).trans ht, hnext, ?_⟩
    rw [hblock]
    exact index_in_block hin

end Sys2Proof.Machine
end

section
/-! PROOF. The rings (R335, R336, R339 to R346, R352): what a completion does to its own ring and to the others, what stopping a
function's rings leaves, and from them the ring commands, the doorbells, and the requests that act on nothing but the rings. -/

namespace Sys2Proof.Machine

/-! ### Maps -/

theorem mget_map {α β : Type} (m : NMap α) (f : α → β) (k : Nat) :
    mget? (m.map (fun x => (x.1, f x.2))) k = (mget? m k).map f := by
  induction m with
  | nil => rfl
  | cons c m ih =>
    obtain ⟨j, v⟩ := c
    simp only [List.map_cons, mget?]
    split
    · rfl
    · exact ih

theorem natLe_length (n v : Nat) : (natLe n v).length = n := by
  induction n generalizing v with
  | zero => rfl
  | succ n ih => simp [natLe, ih]

theorem mput_mput {α : Type} (m : NMap α) (k : Nat) (v w : α) : mput (mput m k v) k w = mput m k w := by
  induction m with
  | nil => simp [mput]
  | cons c m ih =>
    obtain ⟨j, u⟩ := c
    by_cases h : k < j
    · simp [mput, h]
    · by_cases h' : k = j
      · simp [mput, h']
      · simp [mput, h, h', ih]

/-! ### Completions -/

theorem cplBytes_length (phase : Bool) (c : Cpl) : (cplBytes phase c).length = 32 := by
  simp [cplBytes, natLe_length]

theorem applyCharge_rings (c : Option Charge) (s : State) : (applyCharge c s).rings = s.rings := by
  cases c <;> rfl

@[simp] theorem ringOf_applyCharge (c : Option Charge) (s : State) (g : Nat) : ringOf (applyCharge c s) g = ringOf s g := by
  simp [ringOf, applyCharge_rings]

/-- Committing charges in turn changes the tenants alone. -/
theorem chargeAll_eq (l : List Cpl) (s : State) :
    l.foldl (fun s c => applyCharge c.charge s) s =
      { s with tenants := (l.foldl (fun s c => applyCharge c.charge s) s).tenants } := by
  induction l generalizing s with
  | nil => rfl
  | cons c l ih =>
    rw [List.foldl_cons, ih]
    cases c.charge <;> rfl

/-- The completion interrupt leaves a ring with the count of unsignalled completions it had, or none. -/
theorem ringOf_fireCoal_self (fn : Nat) (s : State) :
    ∃ n, ringOf (fireCoal fn s) fn = { ringOf s fn with unsig := n } := by
  unfold fireCoal
  dsimp only
  split
  · exact ⟨0, ringOf_setRing_self ..⟩
  · exact ⟨(ringOf s fn).unsig, rfl⟩

theorem ringOf_fireCoal_ne {fn g : Nat} (h : g ≠ fn) (s : State) : ringOf (fireCoal fn s) g = ringOf s g := by
  unfold fireCoal
  dsimp only
  split
  · exact ringOf_setRing_ne s fn g _ h
  · rfl

theorem setRing_setRing (fn : Nat) (q r : Ring) (s : State) : setRing fn r (setRing fn q s) = setRing fn r s := by
  simp [setRing, mput_mput]

/-- The interrupt fires as rings are set where it is enabled and its condition holds (R352). -/
theorem fireCoal_setRing (fn : Nat) (r : Ring) (s : State) :
    fireCoal fn (setRing fn r s) = if r.irqEnable && coalMet r s.time then sendIrq fn 0 (setRing fn { r with unsig := 0 } s)
      else setRing fn r s := by
  simp only [fireCoal, ringOf_setRing_self, setRing_setRing]
  rfl

theorem fireCoal_hostMem (fn : Nat) (s : State) : (fireCoal fn s).hostMem = s.hostMem := by
  unfold fireCoal
  dsimp only
  split <;> rfl

theorem applyCharge_hostMem (c : Option Charge) (s : State) : (applyCharge c s).hostMem = s.hostMem := by
  cases c <;> rfl

theorem writeCpl_hostMem (fn : Nat) (c : Cpl) (s : State) :
    (writeCpl fn c s).hostMem = memWrite s.hostMem (hostKey (fnPort fn) ((ringOf s fn).cqBaseL + 32 * (ringOf s fn).cqTail))
      (cplBytes (ringOf s fn).phase c) := by
  rw [writeCpl, fireCoal_hostMem, applyCharge_hostMem]
  rfl

/-- A written completion moves CQ_TAIL on by one, inverts the phase where it returns to 0, and joins the entries (R340). -/
theorem ringOf_writeCpl_self (fn : Nat) (c : Cpl) (s : State) :
    let r := ringOf s fn
    let t := (r.cqTail + 1) % 2 ^ r.cqLogL
    ∃ n, ringOf (writeCpl fn c s) fn = { r with
      cqTail := t, phase := if t = 0 then ! r.phase else r.phase, unsig := n
      firstAt := if r.unsig = 0 then s.time else r.firstAt
      entries := r.entries ++ [⟨r.cqTail, c.sessKey, c.id.seq, c.outBytes⟩] } := by
  obtain ⟨n, hn⟩ := ringOf_fireCoal_self fn (applyCharge c.charge (setRing fn _ (dmaWrite (fnPort fn) _ _ s)))
  exact ⟨n, hn.trans (by rw [ringOf_applyCharge, ringOf_setRing_self])⟩

theorem ringOf_writeCpl_ne {fn g : Nat} (h : g ≠ fn) (c : Cpl) (s : State) : ringOf (writeCpl fn c s) g = ringOf s g := by
  rw [writeCpl, ringOf_fireCoal_ne h, ringOf_applyCharge, ringOf_setRing_ne _ _ _ _ h]
  rfl

theorem ringOf_postCpl_ne {g : Nat} {c : Cpl} (h : g ≠ c.id.fn) (s : State) : ringOf (postCpl c s) g = ringOf s g := by
  cases hs : s.hub.stopped
  case true => rw [postCpl, if_pos hs]
  case false =>
    rw [postCpl_eq c hs]
    split
    · simp [h]
    · split
      · simp [h]
      · rw [ringOf_writeCpl_ne h, ringOf_setRing_ne _ _ _ _ h]

/-- A function's rings are stopped, and no completion waits for room in them (R340). -/
def RingDown (s : State) (fn : Nat) : Prop := (ringOf s fn).enable = false ∧ (ringOf s fn).overflow = []

/-- No completion starts a stopped ring or waits in it. -/
theorem RingDown.postCpl {s : State} {fn : Nat} (h : RingDown s fn) (c : Cpl) : RingDown (postCpl c s) fn := by
  by_cases hne : fn = c.id.fn
  case neg => unfold RingDown; rw [ringOf_postCpl_ne hne]; exact h
  case pos =>
    subst hne
    obtain ⟨he, ho⟩ := h
    have hl : ((ringOf s c.id.fn).left c).enable = false ∧ ((ringOf s c.id.fn).left c).overflow = [] := by
      unfold Ring.left; split <;> exact ⟨he, ho⟩
    cases hs : s.hub.stopped
    case true => rw [Machine.postCpl, if_pos hs]; exact ⟨he, ho⟩
    case false =>
      rw [postCpl_eq c hs, if_pos (by simp [cplDead, hl.1])]
      unfold RingDown
      rw [ringOf_applyCharge, ringOf_setRing_self]
      exact hl

/-! ### Stopping a function's rings -/

/-- A session whose run's request came from a function ends that run at its next step (R340). -/
def endedFor (fn : Nat) (x : Session) : Session :=
  { x with run := x.run.map (fun y => if y.id.fn = fn then { y with ending := true } else y) }

/-- What stopping rings does, field by field (R340). -/
theorem stopRings_eq (fn : Nat) (cause : Option Nat) (s : State) :
    let r := ringOf s fn
    stopRings fn cause s = { s with
      tenants := (r.overflow.foldl (fun s c => applyCharge c.charge s) s).tenants
      rings := mput s.rings fn
        { r with enable := false, overflow := [], error := r.error || cause.isSome, cause := cause.getD r.cause }
      sessions := s.sessions.map (fun x => (x.1, endedFor fn x.2)) } := by
  unfold stopRings
  dsimp only
  rw [chargeAll_eq]
  simp [endRuns, setRing, endedFor]

theorem ringOf_stopRings_self (fn : Nat) (cause : Option Nat) (s : State) :
    ringOf (stopRings fn cause s) fn = { ringOf s fn with
      enable := false, overflow := [], error := (ringOf s fn).error || cause.isSome
      cause := cause.getD (ringOf s fn).cause } := by
  rw [stopRings_eq]
  exact mgetD_mput_self ..

theorem ringOf_stopRings_ne {fn g : Nat} (h : g ≠ fn) (cause : Option Nat) (s : State) :
    ringOf (stopRings fn cause s) g = ringOf s g := by
  rw [stopRings_eq]
  exact mgetD_mput_ne _ _ _ _ _ h

theorem ringDown_stopRings (fn : Nat) (cause : Option Nat) (s : State) : RingDown (stopRings fn cause s) fn := by
  unfold RingDown
  rw [ringOf_stopRings_self]
  exact ⟨rfl, rfl⟩

theorem RingDown.stopRings {s : State} {fn : Nat} (h : RingDown s fn) (g : Nat) (cause : Option Nat) :
    RingDown (stopRings g cause s) fn := by
  by_cases hg : fn = g
  · exact hg ▸ ringDown_stopRings g cause s
  · unfold RingDown
    rw [ringOf_stopRings_ne hg]
    exact h

theorem RingDown.of_rings {s t : State} {fn : Nat} (h : RingDown s fn) (e : t.rings = s.rings) : RingDown t fn := by
  unfold RingDown ringOf
  rw [e]
  exact h

theorem RingDown.foldl {α : Type} {fn : Nat} {f : State → α → State} (hf : ∀ s x, RingDown s fn → RingDown (f s x) fn)
    (l : List α) (s : State) (h : RingDown s fn) : RingDown (l.foldl f s) fn := by
  induction l generalizing s with
  | nil => exact h
  | cons x l ih => exact ih _ (hf s x h)

/-- Stopping rings in turn stops each of them. -/
theorem ringDown_foldl_stopRings {is : List Nat} {i : Nat} (h : i ∈ is) (g : Nat → Nat) (s : State) :
    RingDown (is.foldl (fun s i => stopRings (g i) none s) s) (g i) := by
  induction is generalizing s with
  | nil => cases h
  | cons j is ih =>
    rcases List.mem_cons.mp h with rfl | hmem
    · exact RingDown.foldl (fun s j hs => hs.stopRings (g j) none) is _ (ringDown_stopRings ..)
    · exact ih hmem _

/-! ### A port reset -/

theorem spotFree_rings (fn : Nat) (sp : Spot) (s : State) : (spotFree fn sp s).rings = s.rings := by
  unfold spotFree
  repeat' split
  all_goals rfl

theorem foldl_rings {α : Type} {f : State → α → State} (h : ∀ s x, (f s x).rings = s.rings) (l : List α) (s : State) :
    (l.foldl f s).rings = s.rings := by
  induction l generalizing s with
  | nil => rfl
  | cons x l ih => exact (ih _).trans (h s x)

/-- An attempt that fails starts no stopped ring: of the rings it touches that of its request alone, by the completion. -/
theorem RingDown.snapFail {s : State} {fn : Nat} (h : RingDown s fn) (p : Nat) : RingDown (snapFail p s) fn := by
  unfold Machine.snapFail
  split
  · exact h
  · rename_i r _
    dsimp only
    generalize hu : List.foldl (fun s x => spotFree (64 * p) x s) s _ = u
    have hd : RingDown u fn := h.of_rings (by rw [← hu]; exact foldl_rings (fun s x => spotFree_rings ..) _ s)
    have hf : RingDown (regAdd p 0x70044 1 (unpend p (onSnap p (fun x => { x with run := none })
        { u with poolWait := u.poolWait.filter (fun w => ! (w.snap.isSome && decide (fnPort w.fn = p))) }))) fn :=
      hd.of_rings rfl
    split
    · exact hf
    · exact hf.postCpl _

theorem RingDown.lostRegion {s : State} {fn : Nat} (h : RingDown s fn) (f tier region : Nat) :
    RingDown (lostRegion f tier region s) fn := by
  unfold Machine.lostRegion
  dsimp only
  split
  · exact h.snapFail _
  · exact h

/-- A port's host-tier regions are withdrawn, with the records in them and the attempts that write to them (R149, R299). -/
def withdrawHost (p : Nat) (s : State) : State :=
  let gone := (s.regions.filter (fun r => hostRegionOf p r.1)).map (·.1)
  let s := gone.foldl (fun s k => lostRegion (k / 2 ^ 20) 3 (k % 2 ^ 12) s) s
  { s with objects := s.objects.map (orphan p), regions := s.regions.filter (fun r => ! hostRegionOf p r.1)
           records := s.records.filter (fun r => ! hostRegionOf p (r.1 / 2 ^ 32)) }

theorem portReset_eq (p : Nat) (s : State) :
    portReset p s = withdrawHost p ((List.range 64).foldl (fun s i => stopRings (p * 64 + i) none s) s) := rfl

theorem RingDown.withdrawHost {s : State} {fn : Nat} (h : RingDown s fn) (p : Nat) : RingDown (withdrawHost p s) fn :=
  (RingDown.foldl (fun _ _ hs => hs.lostRegion _ _ _) _ s h).of_rings rfl

/-- A port reset stops all of the port's rings (R335). -/
theorem ringDown_portReset (p : Nat) (s : State) {i : Nat} (h : i < 64) : RingDown (portReset p s) (p * 64 + i) := by
  rw [portReset_eq]
  exact (ringDown_foldl_stopRings (List.mem_range.mpr h) (p * 64 + ·) s).withdrawHost p

theorem withdrawHost_regions (p : Nat) (s : State) : ∀ x ∈ (withdrawHost p s).regions, hostRegionOf p x.1 = false := by
  intro x hx
  simpa using (List.mem_filter.mp hx).2

theorem portReset_regions (p : Nat) (s : State) : ∀ x ∈ (portReset p s).regions, hostRegionOf p x.1 = false := by
  rw [portReset_eq]
  exact withdrawHost_regions p _

/-! ### The commands -/

/-- Settles O30: `stopRings_eq` says what stopping does, and each command stops the rings under its guard; a port reset by
`ringDown_portReset`. -/
theorem ringsStartAndStop : Obligations.RingsStartAndStop := by
  refine ⟨fun fn cause s => ⟨ringOf_stopRings_self .., fun g hg => ringOf_stopRings_ne hg .., ?_, fun key x hx => ?_, ?_⟩,
    fun f v s he hv => ?start, fun f v s he hv => ?stop, fun f s hf => ?fetch, fun f s he => ?write, fun f s hf => ?flr,
    fun port cause s => ?reset⟩
  · rw [stopRings_eq]
  · rw [stopRings_eq]
    exact (mget_map s.sessions (endedFor fn) key).trans (by rw [hx]; rfl)
  · rw [stopRings_eq]
  case start => rw [exec_ringStart, execRingStart, if_pos (by simp [he, hv])]; rfl
  case stop => rw [exec_ringStop, execRingStop, if_pos (by simp [he, hv])]; rfl
  case fetch => rw [exec_requestFetchFault, execRequestFetchFault, if_pos hf]
  case write => rw [exec_completionWriteFault, execCompletionWriteFault, if_pos he]
  case flr => rw [exec_vfFlr, execVfFlr, if_neg (by simp [hf])]
  case reset =>
    exact ⟨portReset port.idx s, by cases cause <;> rfl, fun i hi => ringDown_portReset port.idx s hi, portReset_regions port.idx s⟩

/-- Consuming output bytes changes the sessions alone (R349). -/
theorem consume_eq (fn : Nat) (es : List CqEntry) (s : State) :
    consume fn es s = { s with sessions := (consume fn es s).sessions } := by
  unfold consume
  induction es generalizing s with
  | nil => rfl
  | cons e es ih => rw [List.foldl_cons, ih]

/-- With no completion waiting there is nothing to drain. -/
theorem drainOverflow_nil {fn : Nat} {s : State} (n : Nat) (h : (ringOf s fn).overflow = []) : drainOverflow fn n s = s := by
  cases n with
  | zero => rfl
  | succ n => simp [drainOverflow, h]

/-- CQ_HEAD takes a value that releases only entries already written (R340, R345). -/
theorem execCqHeadDoorbell_of_written {f : Fn} {v : Word} {s : State} (he : (ringOf s f.key).enable = true)
    (hv : v.toNat < 2 ^ (ringOf s f.key).cqLogL)
    (hw : (v.toNat + 2 ^ (ringOf s f.key).cqLogL - (ringOf s f.key).cqHead) % 2 ^ (ringOf s f.key).cqLogL ≤
      ((ringOf s f.key).cqTail + 2 ^ (ringOf s f.key).cqLogL - (ringOf s f.key).cqHead) % 2 ^ (ringOf s f.key).cqLogL) :
    let r := ringOf s f.key
    execCqHeadDoorbell f v s = .next (drainOverflow f.key 1024 (consume f.key (released r v.toNat)
      (setRing f.key { r with
        cqHead := v.toNat, entries := r.entries.filter (fun e => ! (released r v.toNat).contains e) } s))) := by
  simp only [execCqHeadDoorbell]
  rw [if_neg (by simp [he]), if_neg (by omega)]

/-- Settles O31: each doorbell takes the branch of its guard; with an empty overflow queue a release changes the rings and the
sessions alone. -/
theorem doorbellsMoveTheRings : Obligations.DoorbellsMoveTheRings := by
  refine ⟨fun f v s hv => ?tail, fun f v s he hv => ?tailStops, fun f v s he hv hw => ⟨?head, fun ho => ?released⟩,
    fun f v s he hv => ?headStops, fun f s hi hu ht => ?coal, fun f v s hi h1 h0 => ⟨fun hm => ?fires, fun hm => ?quiet⟩⟩
  case tail => rw [exec_rqTailDoorbell, execRqTailDoorbell, if_neg (by simp; omega)]
  case tailStops => rw [exec_rqTailDoorbell, execRqTailDoorbell, if_pos (by simp [he, hv])]
  case head => exact execCqHeadDoorbell_of_written he hv hw
  case released =>
    refine ⟨_, execCqHeadDoorbell_of_written he hv hw, ?_⟩
    have hr : ∀ (es : List CqEntry) (r : Ring), ringOf (consume f.key es (setRing f.key r s)) f.key = r := fun es r => by
      rw [consume_eq]
      exact ringOf_setRing_self ..
    rw [drainOverflow_nil _ (by rw [hr]; exact ho), hr]
    exact ⟨rfl, rfl, by rw [consume_eq]; rfl⟩
  case headStops =>
    rw [exec_cqHeadDoorbell, execCqHeadDoorbell, if_neg (by simp [he]), if_pos hv]
  case coal => rw [exec_coalTimeout, execCoalTimeout, if_pos (by simp [hi, hu, ht])]; rfl
  case fires =>
    rw [exec_irqEnableSet, execIrqEnableSet, if_pos (by simp [hi, h1, h0]), fireCoal_setRing]
    exact congrArg _ (if_pos hm)
  case quiet =>
    rw [exec_irqEnableSet, execIrqEnableSet, if_pos (by simp [hi, h1, h0]), fireCoal_setRing]
    exact congrArg _ (if_neg (Bool.not_eq_true _ ▸ hm))

/-- RING_FENCE waits while an earlier request of its ring is left (R346). -/
theorem ringFence_of_takes {r : Req} {s : State} (h : Takes s r) :
    exec (.ringFence r) s = .next (if (ringOf s r.fn.key).fetched.any (fun x => decide (x.seq < (ringOf s r.fn.key).seq))
      then holdReq (takenId s r 1) .ring (.ringFence r) (taken s r 1) else done (takenId s r 1) (taken s r 1)) := by
  rw [exec_ringFence, execRingFence, onReq_takes 1 _ h]
  have fetched : (ringOf (taken s r 1) (takenId s r 1).fn).fetched = (ringOf s r.fn.key).fetched ++ [takenId s r 1] :=
    congrArg Ring.fetched (ringOf_setRing_self ..)
  have self : decide ((takenId s r 1).seq < (takenId s r 1).seq) = false := by simp
  simp only [fetched, List.any_append, List.any_cons, List.any_nil, self, Bool.or_false]
  rfl

/-- A request with a reserved header byte that is not 0 completes with BAD_ENTRY and that byte (R342). -/
theorem nop_of_stray {r : Req} {s : State} {b : Nat} (hr : s.releasing = none) (hf : fetchable s r.fn.key = true)
    (ht : tdiOf s r.fn.key ≠ .error) (hb : r.stray = some b) :
    exec (.nop r) s = .next (badEntry (takenId s r 0) b (taken s r 0)) := by
  have ht' : ¬ tdiOf (taken s r 0) r.fn.key = .error := ht
  have hfetch : fetchReq r 0 s = some (takenId s r 0, taken s r 0) := by simp [fetchReq, hr, hf, takenId, taken]
  simp only [exec_nop, execNop, onReq, hfetch, ht', if_false, hb]

/-- The rings of a request once its last completion is delivered: it is one of the fetched requests no longer. -/
theorem Ring.left_of_last {c : Cpl} (h : c.more = false) (r : Ring) :
    r.left c = { r with fetched := r.fetched.filter (· ≠ c.id) } := by
  simp [Ring.left, h]

/-- Settles O32: a request the hub takes runs its body by `onReq_takes`, and a completion goes the way `postCpl_eq` gives it. -/
theorem requestsAndCompletions : Obligations.RequestsAndCompletions := by
  refine ⟨⟨fun r s h => ?nop, fun r s h hall => ?fence, fun r s h hex => ?fenceWaits, fun r op s ho hr hf => ?badOpcode,
    fun r s b => nop_of_stray⟩, fun c s hs hm => ⟨fun he hep ho hfull => ?written, fun he hep hfull => ?queued, fun hdead => ?dead⟩⟩
  case nop => rw [exec_nop, execNop, onReq_takes 0 _ h]
  case fence =>
    rw [ringFence_of_takes h, if_neg (by simpa using hall)]
  case fenceWaits =>
    rw [ringFence_of_takes h, if_pos (by simpa using hex)]
  case badOpcode =>
    have hfetch : fetchReq r op s = some (takenId s r op, taken s r op) := by simp [fetchReq, hr, hf, takenId, taken]
    rw [exec_badOpcode, execBadOpcode, if_neg (by simp [ho])]
    simp only [hfetch]
  case written =>
    rw [postCpl_eq c hs, Ring.left_of_last hm, if_neg (by simp [cplDead, he, hep]),
      if_neg (by simpa [cqFull, ho] using hfull)]
    obtain ⟨n, hself⟩ := ringOf_writeCpl_self c.id.fn c
      (setRing c.id.fn { ringOf s c.id.fn with fetched := (ringOf s c.id.fn).fetched.filter (· ≠ c.id) } s)
    rw [writeCpl_hostMem, hself, ringOf_setRing_self]
    refine ⟨rfl, cplBytes_length .., rfl, ?_, rfl, fun g hg => ?_⟩
    · by_cases ht : ((ringOf s c.id.fn).cqTail + 1) % 2 ^ (ringOf s c.id.fn).cqLogL = 0 <;> simp [ht]
    · rw [ringOf_writeCpl_ne hg, ringOf_setRing_ne _ _ _ _ hg]
  case queued =>
    rw [postCpl_eq c hs, Ring.left_of_last hm, if_neg (by simp [cplDead, he, hep]), if_pos (by simpa [cqFull] using hfull),
      setRing_setRing]
  case dead =>
    rw [postCpl_eq c hs, Ring.left_of_last hm, if_pos (by simpa [cplDead] using hdead)]

end Sys2Proof.Machine
end

section
/-! PROOF. The lossless codes (R162 to R169): packing and unpacking numbers, the ZMASK and XEXP groups and their decoders, the
sub-streams of a tile and its header, and from them that a tile decodes to the bytes it was coded from. -/

namespace Sys2Proof.Machine

/-! ### Bytes and packed numbers -/

theorem leNat_lt (bs : List Byte) : leNat bs < 256 ^ bs.length := by
  induction bs with
  | nil => simp [leNat]
  | cons b bs ih =>
    have hb : b.toNat < 256 := b.isLt
    rw [List.length_cons, pow_succ, leNat]
    omega

theorem leNat_natLe (n v : Nat) : leNat (natLe n v) = v % 256 ^ n := by
  induction n generalizing v with
  | zero => simp [natLe, leNat, Nat.mod_one]
  | succ n ih =>
    calc leNat (natLe (n + 1) v) = v % 256 + 256 * (v / 256 % 256 ^ n) := by rw [natLe, leNat, ih, BitVec.toNat_ofNat]
      _ = v % 256 ^ (n + 1) := by rw [pow_succ' 256 n, Nat.mod_mul]

theorem natLe_leNat (bs : List Byte) : natLe bs.length (leNat bs) = bs := by
  induction bs with
  | nil => rfl
  | cons b bs ih =>
    have hb : b.toNat < 256 := b.isLt
    have hlow : BitVec.ofNat 8 (b.toNat + 256 * leNat bs) = b :=
      BitVec.eq_of_toNat_eq (by rw [BitVec.toNat_ofNat]; omega)
    have hhigh : (b.toNat + 256 * leNat bs) / 256 = leNat bs := by omega
    rw [List.length_cons, leNat, natLe, hlow, hhigh, ih]

theorem packBits_lt (w : Nat) (xs : List Nat) : packBits w xs < 2 ^ (w * xs.length) := by
  induction xs with
  | nil => simp [packBits]
  | cons x xs ih =>
    have hx : x % 2 ^ w < 2 ^ w := Nat.mod_lt _ (Nat.two_pow_pos w)
    calc packBits w (x :: xs) < 2 ^ w + 2 ^ w * packBits w xs := by rw [packBits]; omega
      _ = 2 ^ w * (packBits w xs + 1) := by ring
      _ ≤ 2 ^ w * 2 ^ (w * xs.length) := Nat.mul_le_mul_left _ ih
      _ = 2 ^ (w * (x :: xs).length) := by rw [← pow_add, List.length_cons]; congr 1; ring

theorem unpackBits_packBits {w : Nat} {xs : List Nat} (h : ∀ x ∈ xs, x < 2 ^ w) :
    unpackBits w xs.length (packBits w xs) = xs := by
  induction xs with
  | nil => rfl
  | cons x xs ih =>
    have hx : x % 2 ^ w = x := Nat.mod_eq_of_lt (h x List.mem_cons_self)
    rw [List.length_cons, packBits, unpackBits, Nat.add_mul_mod_self_left, Nat.mod_mod, hx,
      Nat.add_mul_div_left _ _ (Nat.two_pow_pos w), Nat.div_eq_of_lt (h x List.mem_cons_self), Nat.zero_add,
      ih (fun y hy => h y (List.mem_cons_of_mem _ hy))]

/-- Packed numbers survive the bytes that hold them. -/
theorem leNat_natLe_packBits {w n : Nat} {xs : List Nat} (h : w * xs.length ≤ 8 * n) :
    leNat (natLe n (packBits w xs)) = packBits w xs := by
  rw [leNat_natLe]
  refine Nat.mod_eq_of_lt (lt_of_lt_of_le (packBits_lt w xs) ?_)
  rw [show (256 : Nat) = 2 ^ 8 from rfl, ← pow_mul]
  exact Nat.pow_le_pow_right (by omega) h

/-! ### Pieces -/

theorem takeN_append (xs ys : List Byte) {n : Nat} (h : xs.length = n) : takeN n (xs ++ ys) = some (xs, ys) := by
  subst h
  simp [takeN]

theorem chunks_length {α : Type} (w n : Nat) (xs : List α) : (chunks w n xs).length = n := by
  induction n generalizing xs with
  | zero => rfl
  | succ n ih => simp [chunks, ih]

theorem chunks_flatten {α : Type} {w n : Nat} {xs : List α} (h : xs.length = w * n) : (chunks w n xs).flatten = xs := by
  induction n generalizing xs with
  | zero => simpa [chunks] using (List.length_eq_zero_iff.mp (by simpa using h)).symm
  | succ n ih =>
    rw [chunks, List.flatten_cons, ih (by rw [List.length_drop, h, Nat.mul_succ, Nat.add_sub_cancel]), List.take_append_drop]

theorem length_of_mem_chunks {α : Type} {w n : Nat} {xs : List α} (h : xs.length = w * n) :
    ∀ c ∈ chunks w n xs, c.length = w := by
  induction n generalizing xs with
  | zero => simp [chunks]
  | succ n ih =>
    intro c hc
    rcases List.mem_cons.mp hc with rfl | hc
    · rw [List.length_take, h, Nat.mul_succ]; omega
    · exact ih (by rw [List.length_drop, h, Nat.mul_succ, Nat.add_sub_cancel]) c hc

/-! ### ZMASK (R165) -/

/-- Whether an element of a ZMASK group has a byte that is not 0. -/
def nonzero (e : List Byte) : Bool := e.any (· ≠ 0)

theorem eq_zeros_of_not_nonzero {e : List Byte} (h : nonzero e = false) : e = List.replicate e.length 0 := by
  rw [List.eq_replicate_iff]
  simpa [nonzero] using h

/-- The mask's places give back the elements: a coded one from the stream, any other as zeros. -/
theorem zmaskFill_coded {w : Nat} {els : List (List Byte)} (h : ∀ e ∈ els, e.length = w) (rest : List Byte) :
    zmaskFill w (els.map nonzero) ((els.filter nonzero).flatten ++ rest) = some (els.flatten, rest) := by
  induction els with
  | nil => rfl
  | cons e els ih =>
    have hlen : e.length = w := h e List.mem_cons_self
    have ih' := ih (fun x hx => h x (List.mem_cons_of_mem _ hx))
    cases hz : nonzero e
    case true =>
      simp only [List.map_cons, hz, List.filter_cons_of_pos, List.flatten_cons, List.append_assoc, zmaskFill, if_true,
        takeN_append e _ hlen, ih']
    case false =>
      rw [List.map_cons, hz, List.filter_cons_of_neg (by simp [hz]), zmaskFill, if_neg (by simp), ih', List.flatten_cons]
      rw [← hlen, ← eq_zeros_of_not_nonzero hz]

theorem bitOf_packBits_one (bs : List Bool) (i : Nat) (h : i < bs.length) :
    bitOf (packBits 1 (bs.map b2n)) i = bs[i] := by
  induction bs generalizing i with
  | nil => simp at h
  | cons b bs ih =>
    have hb : b2n b % 2 ^ 1 = b2n b := by cases b <;> rfl
    rw [List.map_cons, packBits, hb]
    cases i with
    | zero => cases b <;> simp [bitOf, b2n, Nat.add_mod]
    | succ i =>
      have hhalf : (b2n b + 2 ^ 1 * packBits 1 (bs.map b2n)) / 2 = packBits 1 (bs.map b2n) := by
        cases b <;> simp [b2n]
        omega
      rw [List.getElem_cons_succ, ← ih i (by simpa using h), bitOf, bitOf, pow_succ' 2 i, ← Nat.div_div_eq_div_mul, hhalf]

/-- A ZMASK group decodes to the 32 bytes it was coded from (R165). -/
theorem zmaskUngroup_zmaskGroup {w : Nat} (hw : w = 1 ∨ w = 2 ∨ w = 4) {plain : List Byte} (h : plain.length = 32)
    (rest : List Byte) : zmaskUngroup w (zmaskGroup w plain ++ rest) = some (plain, rest) := by
  have hdiv : w * (32 / w) = 32 ∧ 1 * (32 / w) ≤ 8 * ceilDiv 32 (8 * w) := by
    rcases hw with rfl | rfl | rfl <;> decide
  have hlen : plain.length = w * (32 / w) := by omega
  have hbits : (List.range (32 / w)).map
      (fun i => bitOf (leNat (natLe (ceilDiv 32 (8 * w)) (packBits 1 (((chunks w (32 / w) plain).map nonzero).map b2n)))) i)
        = (chunks w (32 / w) plain).map nonzero := by
    rw [leNat_natLe_packBits (by simpa [chunks_length] using hdiv.2)]
    refine List.ext_getElem (by simp [chunks_length]) fun i hi _ => ?_
    rw [List.getElem_map, List.getElem_range, bitOf_packBits_one]
  have hgroup : zmaskGroup w plain =
      natLe (ceilDiv 32 (8 * w)) (packBits 1 (((chunks w (32 / w) plain).map nonzero).map b2n)) ++
        ((chunks w (32 / w) plain).filter nonzero).flatten := rfl
  rw [hgroup, zmaskUngroup, List.append_assoc, takeN_append _ _ (natLe_length ..)]
  dsimp only
  rw [hbits, zmaskFill_coded (length_of_mem_chunks hlen), chunks_flatten hlen]

/-! ### XEXP (R166) -/

/-- An exponent field and the remainder of an element join to the element. -/
theorem xexpJoin_xexpSplit (m x : Nat) : xexpJoin m (xexpSplit m x).1 (xexpSplit m x).2 = x := by
  have hrem : (x % 2 ^ expLow m + x / 2 ^ (expLow m + expWidth m) * 2 ^ expLow m) % 2 ^ expLow m = x % 2 ^ expLow m := by
    rw [Nat.add_mul_mod_self_right, Nat.mod_mod]
  have hquot : (x % 2 ^ expLow m + x / 2 ^ (expLow m + expWidth m) * 2 ^ expLow m) / 2 ^ expLow m =
      x / 2 ^ (expLow m + expWidth m) := by
    rw [Nat.add_mul_div_right _ _ (Nat.two_pow_pos _), Nat.div_eq_of_lt (Nat.mod_lt _ (Nat.two_pow_pos _)), Nat.zero_add]
  simp only [xexpJoin, xexpSplit, hrem, hquot, Nat.mod_mod]
  have h1 := Nat.mod_add_div x (2 ^ expLow m)
  have h2 := Nat.mod_add_div (x / 2 ^ expLow m) (2 ^ expWidth m)
  rw [Nat.div_div_eq_div_mul, ← pow_add] at h2
  calc x % 2 ^ expLow m + x / 2 ^ expLow m % 2 ^ expWidth m * 2 ^ expLow m +
        x / 2 ^ (expLow m + expWidth m) * 2 ^ (expLow m + expWidth m)
      = x % 2 ^ expLow m + 2 ^ expLow m * (x / 2 ^ expLow m % 2 ^ expWidth m +
          2 ^ expWidth m * (x / 2 ^ (expLow m + expWidth m))) := by rw [pow_add]; ring
    _ = x := by rw [h2, h1]

theorem xexpSplit_exp_lt (m x : Nat) : (xexpSplit m x).1 < 256 := by
  refine lt_of_lt_of_le (Nat.mod_lt _ (Nat.two_pow_pos _)) (Nat.pow_le_pow_right (by omega) (?_ : expWidth m ≤ 8))
  unfold expWidth
  split <;> [omega; split <;> omega]

theorem xexpSplit_rest_lt {m x : Nat} {b : Nat} (hb : expLow m + expWidth m ≤ b) (hx : x < 2 ^ b) :
    (xexpSplit m x).2 < 2 ^ (b - expWidth m) := by
  obtain ⟨d, rfl⟩ := Nat.exists_eq_add_of_le hb
  have htop : x / 2 ^ (expLow m + expWidth m) < 2 ^ d :=
    Nat.div_lt_of_lt_mul (by rwa [← pow_add])
  have hlow : x % 2 ^ expLow m < 2 ^ expLow m := Nat.mod_lt _ (Nat.two_pow_pos _)
  calc (xexpSplit m x).2 = x % 2 ^ expLow m + x / 2 ^ (expLow m + expWidth m) * 2 ^ expLow m := rfl
    _ < (x / 2 ^ (expLow m + expWidth m) + 1) * 2 ^ expLow m := by rw [Nat.add_mul, Nat.one_mul]; omega
    _ ≤ 2 ^ d * 2 ^ expLow m := Nat.mul_le_mul_right _ htop
    _ = 2 ^ (expLow m + expWidth m + d - expWidth m) := by rw [← pow_add]; congr 1; omega

theorem foldl_min_le (l : List (Nat × Nat)) (a : Nat) :
    l.foldl (fun a p => min a p.1) a ≤ a ∧ ∀ p ∈ l, l.foldl (fun a p => min a p.1) a ≤ p.1 := by
  induction l generalizing a with
  | nil => simp
  | cons p l ih =>
    obtain ⟨h1, h2⟩ := ih (min a p.1)
    refine ⟨h1.trans (min_le_left ..), fun q hq => ?_⟩
    rcases List.mem_cons.mp hq with rfl | hq
    · exact h1.trans (min_le_right ..)
    · exact h2 q hq

theorem le_foldl_max (l : List (Nat × Nat)) (a : Nat) :
    a ≤ l.foldl (fun a p => max a p.1) a ∧ ∀ p ∈ l, p.1 ≤ l.foldl (fun a p => max a p.1) a := by
  induction l generalizing a with
  | nil => simp
  | cons p l ih =>
    obtain ⟨h1, h2⟩ := ih (max a p.1)
    refine ⟨(le_max_left ..).trans h1, fun q hq => ?_⟩
    rcases List.mem_cons.mp hq with rfl | hq
    · exact (le_max_right ..).trans h1
    · exact h2 q hq

theorem foldl_max_lt {l : List (Nat × Nat)} {a b : Nat} (ha : a < b) (h : ∀ p ∈ l, p.1 < b) :
    l.foldl (fun a p => max a p.1) a < b := by
  induction l generalizing a with
  | nil => exact ha
  | cons p l ih =>
    exact ih (max_lt ha (h p List.mem_cons_self)) fun q hq => h q (List.mem_cons_of_mem _ hq)

/-- The lowest exponent field of a group. -/
def expMin (els : List (Nat × Nat)) : Nat := els.foldl (fun a p => min a p.1) 255

/-- The width of a group's differences to its lowest exponent field (R166). -/
def expBits (els : List (Nat × Nat)) : Nat :=
  let mx := els.foldl (fun a p => max a p.1) 0
  if mx ≤ expMin els then 0 else Nat.log2 (mx - expMin els) + 1

theorem expMin_lt (els : List (Nat × Nat)) : expMin els < 256 := Nat.lt_succ_of_le (foldl_min_le els 255).1

theorem exp_sub_lt {els : List (Nat × Nat)} {p : Nat × Nat} (h : p ∈ els) : p.1 - expMin els < 2 ^ expBits els := by
  have hmin : expMin els ≤ p.1 := (foldl_min_le els 255).2 p h
  have hmax := (le_foldl_max els 0).2 p h
  unfold expBits
  dsimp only
  split
  · rename_i hle; simp; omega
  · exact lt_of_le_of_lt (Nat.sub_le_sub_right hmax _) Nat.lt_log2_self

theorem expBits_lt {els : List (Nat × Nat)} (h : ∀ p ∈ els, p.1 < 256) : expBits els < 256 := by
  have hmax := foldl_max_lt (a := 0) (by omega : (0 : Nat) < 256) h
  unfold expBits
  dsimp only
  split
  · omega
  · rename_i hgt
    have : Nat.log2 (els.foldl (fun a p => max a p.1) 0 - expMin els) < 8 := (Nat.log2_lt (by omega)).mpr (by omega)
    omega

/-- The code of the split elements of a group (R166). -/
def xexpCode (m : Nat) (els : List (Nat × Nat)) : List Byte :=
  [BitVec.ofNat 8 (expMin els), BitVec.ofNat 8 (expBits els)] ++
    (natLe (4 * expBits els) (packBits (expBits els) (els.map (fun p => p.1 - expMin els))) ++
      natLe (32 * (8 * modeWidth m - expWidth m) / 8) (packBits (8 * modeWidth m - expWidth m) (els.map (·.2))))

theorem xexpGroup_eq (m : Nat) (plain : List Byte) :
    xexpGroup m plain = xexpCode m ((chunks (modeWidth m) 32 plain).map (fun e => xexpSplit m (leNat e))) := by
  rw [xexpCode, ← List.append_assoc]
  rfl

/-- The code of 32 split elements decodes to the elements they join to. -/
theorem xexpUngroup_xexpCode {m : Nat} {els : List (Nat × Nat)} (hcount : els.length = 32) (hexp : ∀ p ∈ els, p.1 < 256)
    (hrest : ∀ p ∈ els, p.2 < 2 ^ (8 * modeWidth m - expWidth m)) (rest : List Byte) :
    xexpUngroup m (xexpCode m els ++ rest) =
      some ((els.map (fun p => natLe (modeWidth m) (xexpJoin m p.1 p.2))).flatten, rest) := by
  have hmin : leField [BitVec.ofNat 8 (expMin els), BitVec.ofNat 8 (expBits els)] 0 1 = expMin els := by
    simpa [leField, leNat] using Nat.mod_eq_of_lt (expMin_lt els)
  have hbits : leField [BitVec.ofNat 8 (expMin els), BitVec.ofNat 8 (expBits els)] 1 1 = expBits els := by
    simpa [leField, leNat] using Nat.mod_eq_of_lt (expBits_lt hexp)
  have hdiffs : unpackBits (expBits els) 32 (packBits (expBits els) (els.map (fun p => p.1 - expMin els))) =
      els.map (fun p => p.1 - expMin els) := by
    have := unpackBits_packBits (w := expBits els) (List.forall_mem_map.mpr fun p hp => exp_sub_lt hp)
    rwa [List.length_map, hcount] at this
  have hrests : unpackBits (8 * modeWidth m - expWidth m) 32 (packBits (8 * modeWidth m - expWidth m) (els.map (·.2))) =
      els.map (·.2) := by
    have := unpackBits_packBits (List.forall_mem_map.mpr hrest)
    rwa [List.length_map, hcount] at this
  have hjoin : ((els.map (fun p => p.1 - expMin els)).zip (els.map (·.2))).map
      (fun p => natLe (modeWidth m) (xexpJoin m (expMin els + p.1) p.2)) =
        els.map (fun p => natLe (modeWidth m) (xexpJoin m p.1 p.2)) := by
    rw [List.zip_map', List.map_map]
    refine List.map_congr_left fun p hp => ?_
    simp only [Function.comp]
    rw [Nat.add_sub_cancel' (show expMin els ≤ p.1 from (foldl_min_le els 255).2 p hp)]
  simp only [xexpUngroup, xexpCode, List.append_assoc]
  rw [takeN_append _ _ (by rfl : _ = 2)]
  simp only [hmin, hbits]
  rw [takeN_append _ _ (natLe_length ..)]
  simp only []
  rw [takeN_append _ _ (natLe_length ..)]
  simp only []
  rw [leNat_natLe_packBits (by rw [List.length_map, hcount]; omega), hdiffs,
    leNat_natLe_packBits (by rw [List.length_map, hcount]; omega), hrests, hjoin]

/-- The modes with an exponent code have a field that fits their element (R38, R39). -/
theorem expLow_add_expWidth_le {m : Nat} (hm : 4 ≤ m) (hm' : m ≤ 7) : expLow m + expWidth m ≤ 8 * modeWidth m := by
  interval_cases m <;> decide

/-- An XEXP group decodes to the 32 elements it was coded from (R166). -/
theorem xexpUngroup_xexpGroup {m : Nat} (hm : 4 ≤ m) (hm' : m ≤ 7) {plain : List Byte}
    (h : plain.length = modeWidth m * 32) (rest : List Byte) :
    xexpUngroup m (xexpGroup m plain ++ rest) = some (plain, rest) := by
  have hlen := length_of_mem_chunks h
  have hjoin : (chunks (modeWidth m) 32 plain).map
      ((fun p => natLe (modeWidth m) (xexpJoin m p.1 p.2)) ∘ fun e => xexpSplit m (leNat e)) =
        chunks (modeWidth m) 32 plain := by
    refine (List.map_congr_left fun e he => ?_).trans (List.map_id _)
    simp only [Function.comp, xexpJoin_xexpSplit, id]
    rw [← hlen e he, natLe_leNat]
  rw [xexpGroup_eq, xexpUngroup_xexpCode (by simp [chunks_length]) (List.forall_mem_map.mpr fun e _ => xexpSplit_exp_lt ..),
    List.map_map, hjoin, chunks_flatten h]
  refine List.forall_mem_map.mpr fun e he => xexpSplit_rest_lt (expLow_add_expWidth_le hm hm') ?_
  rw [pow_mul, ← hlen e he]
  exact leNat_lt e

/-! ### Groups and sub-streams (R164) -/

/-- A CODEC byte without K4R is its MODE. -/
theorem codec_eq_mode {c : Nat} (hv : codecValid c = true) (hk : codecK4r c = false) : c < 8 ∧ codecMode c = c := by
  simp only [codecValid, hk, Bool.and_eq_true, decide_eq_true_iff, Bool.false_eq_true, if_false] at hv
  obtain ⟨hlt, ht⟩ := hv
  have hbit : ¬ c / 2 ^ 3 % 2 = 1 := by simpa [codecK4r, bitOf] using hk
  simp only [codecTable, bits] at ht
  have h8 : c < 8 := by omega
  exact ⟨h8, by simp only [codecMode, bits]; omega⟩

/-- A group under a CODEC byte without K4R decodes to the plain bytes it was coded from. -/
theorem uncodeGroup_codeGroup {c : Nat} (hv : codecValid c = true) (hk : codecK4r c = false) (t t' : KTable) {plain : List Byte}
    (h : plain.length = groupPlain c) (rest : List Byte) :
    uncodeGroup c t' (codeGroup c t plain ++ rest) = some (plain, rest) := by
  obtain ⟨hc, hm⟩ := codec_eq_mode hv hk
  rw [uncodeGroup, codeGroup, hk, hm]
  simp only [Bool.false_eq_true, if_false]
  rw [groupPlain, hm] at h
  by_cases h4 : c < 4
  · rw [if_pos h4] at h ⊢
    rw [if_pos h4]
    exact zmaskUngroup_zmaskGroup (by interval_cases c <;> decide) h rest
  · rw [if_neg h4] at h ⊢
    rw [if_neg h4]
    exact xexpUngroup_xexpGroup (by omega) (by omega) (by rw [h, Nat.mul_comm]) rest

/-- The sub-stream of a list of groups, each of which decodes, decodes to their plain bytes. -/
theorem uncodeSub_flatten {c : Nat} {t : KTable} (code : List Byte → List Byte) (gs : List (List Byte))
    (h : ∀ g ∈ gs, ∀ rest, uncodeGroup c t (code g ++ rest) = some (g, rest)) :
    uncodeSub c t gs.length (gs.map code).flatten = some gs.flatten := by
  induction gs with
  | nil => rfl
  | cons g gs ih =>
    have ih' := ih fun x hx => h x (List.mem_cons_of_mem _ hx)
    rw [List.length_cons, List.map_cons, List.flatten_cons, uncodeSub, h g List.mem_cons_self]
    simp only [ih', List.flatten_cons]

/-- The coded sub-stream of 1,024 plain bytes (R164). -/
def codeSub (c : Nat) (t : KTable) (plain : List Byte) : List Byte :=
  ((chunks (groupPlain c) (1024 / groupPlain c) plain).map (codeGroup c t)).flatten

theorem uncodeSub_codeSub {c : Nat} (hv : codecValid c = true) (hk : codecK4r c = false) (t t' : KTable) {plain : List Byte}
    (h : plain.length = 1024) : uncodeSub c t' (1024 / groupPlain c) (codeSub c t plain) = some plain := by
  have hdiv : plain.length = groupPlain c * (1024 / groupPlain c) := by
    obtain ⟨hc, hm⟩ := codec_eq_mode hv hk
    rw [h]
    interval_cases c <;> decide
  have := uncodeSub_flatten (codeGroup c t) (chunks (groupPlain c) (1024 / groupPlain c) plain)
    fun g hg rest => uncodeGroup_codeGroup hv hk t t' (length_of_mem_chunks hdiv g hg) rest
  rwa [chunks_length, chunks_flatten hdiv] at this

/-! ### The bounds of sub-streams -/

theorem sumNat_eq_sum (xs : List Nat) : sumNat xs = xs.sum := List.sum_eq_foldl.symm

theorem sumNat_cons (x : Nat) (xs : List Nat) : sumNat (x :: xs) = x + sumNat xs := by
  rw [sumNat_eq_sum, sumNat_eq_sum, List.sum_cons]

/-- Each sub-stream's bounds, the first starting at `o`. -/
def subBounds (o : Nat) : List (List Byte) → List (Nat × Nat)
  | [] => []
  | s :: ss => (o, o + s.length) :: subBounds (o + s.length) ss

/-- Each sub-stream ends where the next begins, and the last one at the length. -/
theorem subOffsets_zip (o : Nat) (ss : List (List Byte)) :
    (subOffsets o ss).zip ((subOffsets o ss).drop 1 ++ [o + sumNat (ss.map List.length)]) = subBounds o ss := by
  induction ss generalizing o with
  | nil => rfl
  | cons s ss ih =>
    have ih' := ih (o + s.length)
    rw [List.map_cons, sumNat_cons, ← Nat.add_assoc]
    cases ss with
    | nil => simp [subOffsets, subBounds, sumNat]
    | cons s' ss => simpa [subOffsets, subBounds] using ih'

/-- Sub-streams that decode one by one decode together, where they lie. -/
theorem uncodeSubs_flatten {c : Nat} {t : KTable} (code : List Byte → List Byte) (ps : List (List Byte))
    (h : ∀ p ∈ ps, uncodeSub c t (1024 / groupPlain c) (code p) = some p) (pre : List Byte) :
    uncodeSubs c t (pre ++ (ps.map code).flatten) (subBounds pre.length (ps.map code)) = some ps.flatten := by
  induction ps generalizing pre with
  | nil => rfl
  | cons p ps ih =>
    have ih' := ih (fun x hx => h x (List.mem_cons_of_mem _ hx)) (pre ++ code p)
    rw [List.append_assoc, List.length_append] at ih'
    have hcut : ((pre ++ (code p ++ (ps.map code).flatten)).drop pre.length).take (pre.length + (code p).length - pre.length)
        = code p := by
      rw [List.drop_left, Nat.add_sub_cancel_left, List.take_left]
    simp only [List.map_cons, List.flatten_cons, subBounds, uncodeSubs, hcut, h p List.mem_cons_self, ih']

theorem subOffsets_le (o : Nat) (ss : List (List Byte)) : ∀ x ∈ subOffsets o ss, x ≤ o + sumNat (ss.map List.length) := by
  induction ss generalizing o with
  | nil => simp [subOffsets]
  | cons s ss ih =>
    intro x hx
    rw [List.map_cons, sumNat_cons, ← Nat.add_assoc]
    rcases List.mem_cons.mp hx with rfl | hx
    · omega
    · exact ih _ x hx

theorem subOffsets_length (o : Nat) (ss : List (List Byte)) : (subOffsets o ss).length = ss.length := by
  induction ss generalizing o with
  | nil => rfl
  | cons s ss ih => simp [subOffsets, ih]

theorem subBounds_le (o : Nat) (ss : List (List Byte)) : ∀ p ∈ subBounds o ss, p.1 ≤ p.2 := by
  induction ss generalizing o with
  | nil => simp [subBounds]
  | cons s ss ih =>
    intro p hp
    rcases List.mem_cons.mp hp with rfl | hp
    · exact Nat.le_add_right ..
    · exact ih _ p hp

/-! ### CRC-32C -/

theorem crcBits_lt (n : Nat) {x : Nat} (h : x < 2 ^ 32) : crcBits n x < 2 ^ 32 := by
  induction n generalizing x with
  | zero => exact h
  | succ n ih =>
    rw [crcBits]
    split
    · exact ih (Nat.xor_lt_two_pow (by omega) (by omega))
    · exact ih (by omega)

theorem crc32c_lt (bs : List Byte) : crc32c bs < 2 ^ 32 := by
  have : ∀ (bs : List Byte) (c : Nat), c < 2 ^ 32 → bs.foldl (fun c b => crcBits 8 (c ^^^ b.toNat)) c < 2 ^ 32 := by
    intro bs
    induction bs with
    | nil => exact fun c hc => hc
    | cons b bs ih =>
      have hb : b.toNat < 2 ^ 32 := lt_of_lt_of_le b.isLt (by decide)
      exact fun c hc => ih _ (crcBits_lt 8 (Nat.xor_lt_two_pow hc hb))
  exact Nat.xor_lt_two_pow (this bs _ (by decide)) (by decide)

/-! ### The header (R163) -/

theorem leField_append {xs : List Byte} (ys : List Byte) {o : Nat} (n : Nat) (h : xs.length ≤ o) :
    leField (xs ++ ys) o n = leField ys (o - xs.length) n := by
  simp only [leField]
  rw [List.drop_append, List.drop_eq_nil_of_le h, List.nil_append]

theorem leField_natLe (n v : Nat) (ys : List Byte) : leField (natLe n v ++ ys) 0 n = v % 256 ^ n := by
  have : ((natLe n v ++ ys).drop 0).take n = natLe n v := by
    rw [List.drop_zero]
    exact List.take_left' (natLe_length n v)
  rw [leField, this, leNat_natLe]

theorem leField_byte (v : Nat) (ys : List Byte) : leField (BitVec.ofNat 8 v :: ys) 0 1 = v % 256 :=
  leField_natLe 1 v ys

/-- Offsets written as halfwords read back. -/
theorem leField_offsets {l : List Nat} (h : ∀ x ∈ l, x < 65536) (ys : List Byte) :
    (List.range l.length).map (fun i => leField ((l.map (natLe 2)).flatten ++ ys) (2 * i) 2) = l := by
  induction l with
  | nil => rfl
  | cons x l ih =>
    rw [List.length_cons, List.range_succ_eq_map, List.map_cons, List.map_map, List.map_cons, List.flatten_cons, List.append_assoc]
    congr 1
    · rw [Nat.mul_zero, leField_natLe]
      exact Nat.mod_eq_of_lt (h x List.mem_cons_self)
    · refine (List.map_congr_left fun i _ => ?_).trans (ih fun y hy => h y (List.mem_cons_of_mem _ hy))
      simp only [Function.comp]
      rw [leField_append _ _ (by rw [natLe_length]; omega), natLe_length]
      congr 1

/-- The header of a form: its codec, length, CRC, the offsets of its sub-streams and its code table (R163). -/
def tileHeader (c len crc : Nat) (offs : List Nat) (table : List Byte) : List Byte :=
  natLe 2 0x5A3C ++ ([BitVec.ofNat 8 c, 0] ++ (natLe 2 len ++ ([0, 0] ++ (natLe 4 crc ++ ([0, 0, 0, 0] ++
    ((offs.map (natLe 2)).flatten ++ table))))))

section Header
variable {c len crc : Nat} {offs : List Nat} {table body : List Byte}

theorem tileHeader_length (ho : offs.length = 16) (ht : table.length = 16) : (tileHeader c len crc offs table).length = 64 := by
  have hoffs : ((offs.map (natLe 2)).flatten).length = 32 := by
    rw [List.length_flatten, List.map_map, List.map_congr_left (f := List.length ∘ natLe 2) (g := fun _ => 2) (fun x _ => natLe_length 2 x)]
    simp [ho]
  simp only [tileHeader, List.length_append, natLe_length, hoffs, ht]
  rfl

theorem tileHeader_magic : leField (tileHeader c len crc offs table ++ body) 0 2 = 0x5A3C := by
  rw [tileHeader, List.append_assoc]
  exact (leField_natLe 2 0x5A3C _).trans (by decide)

theorem tileHeader_codec (h : c < 256) : leField (tileHeader c len crc offs table ++ body) 2 1 = c := by
  rw [tileHeader, List.append_assoc, leField_append _ _ (by rw [natLe_length]), natLe_length, List.append_assoc]
  exact (leField_byte c _).trans (Nat.mod_eq_of_lt h)

theorem tileHeader_len (h : len < 65536) : leField (tileHeader c len crc offs table ++ body) 4 2 = len := by
  rw [tileHeader, List.append_assoc, leField_append _ _ (by rw [natLe_length]; omega), natLe_length, List.append_assoc,
    leField_append _ _ (by simp), List.append_assoc]
  exact (leField_natLe 2 len _).trans (Nat.mod_eq_of_lt h)

theorem tileHeader_crc (h : crc < 2 ^ 32) : leField (tileHeader c len crc offs table ++ body) 8 4 = crc := by
  rw [tileHeader, List.append_assoc, leField_append _ _ (by rw [natLe_length]; omega), natLe_length, List.append_assoc,
    leField_append _ _ (by simp), List.append_assoc, leField_append _ _ (by simp [natLe_length]), natLe_length,
    List.append_assoc, leField_append _ _ (by simp), List.append_assoc]
  exact (leField_natLe 4 crc _).trans (Nat.mod_eq_of_lt h)

theorem tileHeader_offsets (ho : offs.length = 16) (h : ∀ x ∈ offs, x < 65536) :
    (List.range 16).map (fun i => leField (tileHeader c len crc offs table ++ body) (16 + 2 * i) 2) = offs := by
  rw [← ho]
  refine (List.map_congr_left fun i _ => ?_).trans (leField_offsets h (table ++ body))
  simp only [tileHeader, List.append_assoc]
  rw [leField_append _ _ (by rw [natLe_length]; omega), natLe_length, leField_append _ _ (by simp; omega),
    leField_append _ _ (by rw [natLe_length]; simp; omega), natLe_length, leField_append _ _ (by simp; omega),
    leField_append _ _ (by rw [natLe_length]; simp; omega), natLe_length, leField_append _ _ (by simp; omega)]
  congr 1
  simp
  omega

end Header

/-! ### A tile -/

/-- The encoder of a lossless code: RAW where the form would be too long, and otherwise a header and the sub-streams (R168). -/
theorem encodeTile_lossless {c : Nat} (hm : codecMode c ≠ 0) (hk : codecK4r c = false) (t : KTable) (plain : List Byte) :
    let subs := (chunks 1024 16 plain).map (codeSub c t)
    let len := 64 + sumNat (subs.map List.length)
    encodeTile c t plain = if 16320 < len then ⟨plain, 0, true⟩
      else ⟨tileHeader c len (crc32c plain) (subOffsets 64 subs) (natLe 16 0) ++ subs.flatten, c, false⟩ := by
  simp only [encodeTile, hm, hk, if_false, Bool.false_eq_true, tileHeader, List.append_assoc]
  rfl

theorem decodeTile_raw {plain : List Byte} (h : plain.length = 16384) : decodeTile 0 plain = some plain := by
  have : byteSlice plain 0 16384 = plain := by
    simp only [byteSlice, List.drop_zero, ← h, List.take_length, Nat.sub_self, List.replicate_zero, List.append_nil]
  rw [decodeTile, if_pos (by decide), this]

/-- Settles O20: a tile kept RAW is read as it is; a coded one has a header that passes the decoder's checks, sub-streams that
decode one by one, and the CRC of its plain bytes. -/
theorem losslessCodesReturnTheTile : Obligations.LosslessCodesReturnTheTile := by
  intro c t plain hv hk hlen
  obtain ⟨hc, hmode⟩ := codec_eq_mode hv hk
  by_cases hm : codecMode c = 0
  · rw [encodeTile, if_pos hm]
    exact decodeTile_raw hlen
  rw [encodeTile_lossless hm hk]
  generalize hsubs : (chunks 1024 16 plain).map (codeSub c t) = subs
  split
  · exact decodeTile_raw hlen
  · rename_i hfit
    have hcount : (subOffsets 64 subs).length = 16 := by rw [subOffsets_length, ← hsubs, List.length_map, chunks_length]
    have hsmall : ∀ x ∈ subOffsets 64 subs, x < 65536 := fun x hx => by have := subOffsets_le 64 subs x hx; omega
    have hhead : (subOffsets 64 subs).headD 0 = 64 := by rw [← hsubs]; rfl
    have hbytes : (tileHeader c (64 + sumNat (subs.map List.length)) (crc32c plain) (subOffsets 64 subs) (natLe 16 0)).length = 64 :=
      tileHeader_length hcount (natLe_length ..)
    have hdecode : ∀ t', uncodeSubs c t' (tileHeader c (64 + sumNat (subs.map List.length)) (crc32c plain) (subOffsets 64 subs)
        (natLe 16 0) ++ subs.flatten) (subBounds 64 subs) = some plain := fun t' => by
      have := uncodeSubs_flatten (c := c) (t := t') (codeSub c t) (chunks 1024 16 plain)
        (fun p hp => uncodeSub_codeSub hv hk t t' (length_of_mem_chunks hlen p hp))
        (tileHeader c (64 + sumNat (subs.map List.length)) (crc32c plain) (subOffsets 64 subs) (natLe 16 0))
      rwa [hsubs, hbytes, chunks_flatten hlen] at this
    rw [decodeTile, if_neg hm]
    dsimp only
    rw [tileHeader_offsets hcount hsmall, tileHeader_len (by omega), tileHeader_crc (crc32c_lt plain), subOffsets_zip, if_pos, hdecode]
    · simp
    · refine ⟨tileHeader_magic, tileHeader_codec (by omega), by omega, by omega, ?_, hhead, ?_⟩
      · rw [List.length_append, hbytes, List.length_flatten, sumNat_eq_sum]
      · simpa using fun a b hab => subBounds_le 64 subs (a, b) hab

end Sys2Proof.Machine
end

section
/-! PROOF. Arithmetic on the sliver cores (R39, R41 to R58): an FP32 element is its value's own rounding, INT16 results saturate or
wrap, and what each vector, scalar and matrix instruction answers on a core that issues it. -/

namespace Sys2Proof.Machine

/-! ### An FP32 element is its value's own rounding (R39) -/

/-- A word is its sign, its exponent field and its mantissa. -/
theorem word_fields (w : Word) :
    w.toNat = bits w.toNat 23 30 * 2 ^ 23 + bits w.toNat 0 22 + b2n (bitOf w.toNat 31) * 2 ^ 31 ∧
      bits w.toNat 23 30 < 256 ∧ bits w.toNat 0 22 < 2 ^ 23 := by
  have hw : w.toNat < 2 ^ 32 := w.isLt
  have hsign : b2n (bitOf w.toNat 31) = w.toNat / 2 ^ 31 := by
    obtain h | h : w.toNat / 2 ^ 31 = 0 ∨ w.toNat / 2 ^ 31 = 1 := by omega
    all_goals simp only [bitOf, b2n, h]; decide
  rw [hsign]
  simp only [bits]
  omega

/-- A subnormal mantissa rounds to itself. -/
theorem roundIdx_subnormal {f : Nat} (h : f < 2 ^ 23) : roundIdx 23 (-149) f (-149) = f := by
  unfold roundIdx
  split
  · omega
  · rename_i hf
    have hlog : Nat.log2 f < 23 := (Nat.log2_lt hf).mpr h
    have hq : max ((Nat.log2 f : Int) + -149 - ((23 : Nat) : Int)) (-149) = -149 := by omega
    simp only [hq]
    simp [rneShift]

/-- A mantissa with its leading one rounds to the encoding of its exponent. -/
theorem roundIdx_normal {x f : Nat} (hx : 1 ≤ x) (hf : f < 2 ^ 23) :
    roundIdx 23 (-149) (2 ^ 23 + f) (-149 + (x : Int) - 1) = x * 2 ^ 23 + f := by
  have hlog : Nat.log2 (2 ^ 23 + f) = 23 := by
    rw [Nat.log2_eq_iff (by omega)]
    omega
  have hq : max (((Nat.log2 (2 ^ 23 + f) : Nat) : Int) + (-149 + (x : Int) - 1) - ((23 : Nat) : Int)) (-149) =
      -149 + (x : Int) - 1 := by rw [hlog]; omega
  have hexp : (-149 + (x : Int) - 1 - -149).toNat = x - 1 := by omega
  rw [roundIdx, if_neg (by omega)]
  simp only [hq, hexp, sub_self, rneShift, le_refl, if_true, neg_zero, Int.toNat_zero, pow_zero, mul_one]
  omega

theorem fp32Round_of_fits {neg : Bool} {m : Nat} {e : Int} {i : Nat} (h : roundIdx 23 (-149) m e = i) (hi : i < 0x7F800000) :
    (fp32Round neg m e).bits = BitVec.ofNat 32 (i + b2n neg * 2 ^ 31) := by
  simp only [fp32Round, h]
  rw [if_neg (by omega)]

theorem eq_fp32Inf {w : Word} (hx : bits w.toNat 23 30 = 255) (hf : bits w.toNat 0 22 = 0) : fp32Inf (bitOf w.toNat 31) = w := by
  obtain ⟨hw, -⟩ := word_fields w
  apply BitVec.eq_of_toNat_eq
  rw [hw, hx, hf]
  cases bitOf w.toNat 31 <;> rfl

/-- Settles O9: by the exponent field: an infinity, a subnormal or zero, or a number with a leading one. -/
theorem fp32ValuesAreTheirOwnRounding : Obligations.Fp32ValuesAreTheirOwnRounding := by
  intro w hnan
  obtain ⟨hw, hx, hf⟩ := word_fields w
  have hback : BitVec.ofNat 32 (bits w.toNat 23 30 * 2 ^ 23 + bits w.toNat 0 22 + b2n (bitOf w.toNat 31) * 2 ^ 31) = w := by
    rw [← hw, BitVec.ofNat_toNat, BitVec.setWidth_eq]
  simp only [fp32Val] at hnan ⊢
  split at hnan
  · rename_i h255
    rw [if_pos h255]
    split at hnan
    · rename_i h0
      rw [if_pos h0]
      exact eq_fp32Inf h255 h0
    · cases hnan
  · rename_i h255
    rw [if_neg h255]
    by_cases h0 : bits w.toNat 23 30 = 0
    · simp only [finOf, h0, if_true, fp32OfVal]
      rw [fp32Round_of_fits (roundIdx_subnormal hf) (by omega)]
      simpa [h0] using hback
    · simp only [finOf, h0, if_false, fp32OfVal]
      rw [fp32Round_of_fits (roundIdx_normal (by omega) hf) (by omega)]
      exact hback

/-! ### INT16 results (R56) -/

theorem toInt_ofNat_of_range {x : Int} (h : -32768 ≤ x) (h' : x ≤ 32767) :
    (BitVec.ofNat 16 (x % 65536).toNat).toInt = x := by
  rw [BitVec.toInt_eq_toNat_cond, BitVec.toNat_ofNat]
  split <;> omega

theorem sat16_of_range {x : Int} (h : -32768 ≤ x) (h' : x ≤ 32767) : sat16 x = ⟨(x % 65536).toNat, 0⟩ := by
  rw [sat16, if_neg (by omega), if_neg (by omega)]

section Issue
variable {s : State} {k : Fin 10240} {cyc key : Nat} {f : Frame} {i : Instr}

/-- An INT16 instruction of two operands on a core that issues (R56, R59). -/
theorem int2_of_issues (g : Int → Int → LaneRes Nat) (vd va vb : Fin 32) (m : Mask) (h : issues s k cyc i = some (key, f)) :
    int2 i g k cyc vd va vb m s =
      vecNext s k cyc key f vd m 16 2 (i16Bin g ((coreNow s k cyc).vreg va) ((coreNow s k cyc).vreg vb)) :=
  coreStep_vecOut_of_issues 16 2 vd m (fun c => i16Bin g (c.vreg va) (c.vreg vb)) h

/-- A special function on a core that issues (R58, R59). -/
theorem special1_of_issues (g : FVal → LaneRes Word) (vd va : Fin 32) (m : Mask) (h : issues s k cyc i = some (key, f)) :
    special1 i g k cyc vd va m s = vecNext s k cyc key f vd m 32 14 (fpUn g ((coreNow s k cyc).vreg va)) :=
  coreStep_vecOut_of_issues 32 14 vd m (fun c => fpUn g (c.vreg va)) h

/-- A scalar instruction on a core that issues (R57, R59). -/
theorem scalar_of_issues (sd : Fin 16) (g : Core → DWord) (h : issues s k cyc i = some (key, f)) :
    coreStep i k cyc (fun c => .ok (fly (cyc + 1) (.scal sd (g c)) c) 0) s =
      scalNext s k cyc key f sd (g (coreNow s k cyc)) :=
  coreStep_of_issues h rfl

/-- A scalar instruction of two operands on a core that issues. -/
theorem scalar2_of_issues (g : DWord → DWord → DWord) (sd sa : Fin 16) (sb : SOperand) (h : issues s k cyc i = some (key, f)) :
    scalar2 i g k cyc sd sa sb s =
      scalNext s k cyc key f sd (g ((coreNow s k cyc).sreg sa) ((coreNow s k cyc).sval sb)) :=
  scalar_of_issues sd (fun c => g (c.sreg sa) (c.sval sb)) h

end Issue

/-- Settles O10: each instruction is `int2` on a core that issues, VMADD.I16 with its latency of 3, and `sat16` and `wrap16` give
a result in range back. -/
theorem vectorInt16Results : Obligations.VectorInt16Results := by
  refine ⟨fun k cyc key f vd va vb vc m s => ⟨?_, ?_, ?_, ?_, ?_, ?_, ?_, ?_, ?_, ?vmadd⟩,
    fun x => ⟨fun h h' => ?inRange, fun h => ?below, fun h => ?above, ?wraps, rfl⟩⟩
  case vmadd =>
    intro h
    rw [exec_vmaddI16, execVmaddI16]
    exact coreStep_vecOut_of_issues 16 3 vd m _ h
  case inRange =>
    rw [sat16_of_range h h']
    exact ⟨toInt_ofNat_of_range h h', rfl⟩
  case below => rw [sat16, if_pos h]; decide
  case above => rw [sat16, if_neg (by omega), if_pos h]; decide
  case wraps => simp only [wrap16]; omega
  all_goals exact fun h => int2_of_issues _ vd va vb m h

/-- Settles O12: each instruction is `scalar2` on a core that issues; a shift's amount decides between the shift and the free
value. -/
theorem scalarAndLoopResults : Obligations.ScalarAndLoopResults := by
  refine ⟨fun k cyc key f sd sa sb imm s => ⟨?add, ?sub, ?mul, fun hb => ?shifts, fun hb => ?tooFar, ?and, ?or, ?xor, ?not, ?ceq,
    ?clt, ?cltu, ?movi, ?mov⟩, fun k cyc key f level trip last s h => (exec_loop ..).trans (coreStep_of_issues h rfl)⟩
  case add => exact fun h => (exec_scAdd ..).trans (scalar2_of_issues (fun a b => a + b) sd sa sb h)
  case sub => exact fun h => (exec_scSub ..).trans (scalar2_of_issues (fun a b => a - b) sd sa sb h)
  case mul => exact fun h => (exec_scMul ..).trans (scalar2_of_issues (fun a b => a * b) sd sa sb h)
  case shifts =>
    have runs : ∀ op g, shiftBy op g ((coreNow s k cyc).sreg sa) ((coreNow s k cyc).sval sb) =
        g ((coreNow s k cyc).sreg sa) ((coreNow s k cyc).sval sb).toNat := fun op g => if_pos hb
    exact ⟨fun h => runs 0 (fun a n => a <<< n) ▸ scalar2_of_issues _ sd sa sb h,
      fun h => runs 1 (fun a n => a >>> n) ▸ scalar2_of_issues _ sd sa sb h,
      fun h => runs 2 (fun a n => a.sshiftRight n) ▸ scalar2_of_issues _ sd sa sb h⟩
  case tooFar =>
    have runs : ∀ op g, shiftBy op g ((coreNow s k cyc).sreg sa) ((coreNow s k cyc).sval sb) =
        Config.scalarShift op ((coreNow s k cyc).sreg sa) ((coreNow s k cyc).sval sb) := fun op g => if_neg (by omega)
    exact ⟨fun h => runs 0 (fun a n => a <<< n) ▸ scalar2_of_issues _ sd sa sb h,
      fun h => runs 1 (fun a n => a >>> n) ▸ scalar2_of_issues _ sd sa sb h,
      fun h => runs 2 (fun a n => a.sshiftRight n) ▸ scalar2_of_issues _ sd sa sb h⟩
  case and => exact fun h => (exec_scAnd ..).trans (scalar2_of_issues (fun a b => a &&& b) sd sa sb h)
  case or => exact fun h => (exec_scOr ..).trans (scalar2_of_issues (fun a b => a ||| b) sd sa sb h)
  case xor => exact fun h => (exec_scXor ..).trans (scalar2_of_issues (fun a b => a ^^^ b) sd sa sb h)
  case not => exact fun h => (exec_scNot ..).trans (scalar_of_issues sd (fun c => ~~~ c.sreg sa) h)
  case ceq => exact fun h => (exec_scCeq ..).trans (scalar2_of_issues (fun a b => Config.compareResult (a == b)) sd sa sb h)
  case clt => exact fun h => (exec_scClt ..).trans (scalar2_of_issues (fun a b => Config.compareResult (a.slt b)) sd sa sb h)
  case cltu => exact fun h => (exec_scCltu ..).trans (scalar2_of_issues (fun a b => Config.compareResult (a.ult b)) sd sa sb h)
  case movi => exact fun h => (exec_scMovi ..).trans (scalar_of_issues sd (fun _ => imm.signExtend 64) h)
  case mov => exact fun h => (exec_scMov ..).trans (scalar_of_issues sd (fun c => c.sreg sa) h)

/-- A reduction on a core that issues, into a scalar register (R55). -/
theorem reduce_scalar_of_issues {s : State} {k : Fin 10240} {cyc key : Nat} {f : Frame} {i : Instr}
    (g : FVal → FVal → LaneRes Word) (sd : Fin 16) (va : Fin 32) (h : issues s k cyc i = some (key, f)) :
    let r := pairTree g ((coreNow s k cyc).vreg va)
    reduce i g k cyc (.scalar sd) va s =
      .next (issued s k cyc key f (fly (cyc + 8) (.scal sd (r.val.zeroExtend 64)) (coreNow s k cyc)) r.flags) :=
  coreStep_of_issues h (by rw [BitVec.zeroExtend, ← BitVec.ofNat_toNat])

/-- A reduction on a core that issues, into one lane of a vector register (R55). -/
theorem reduce_lane_of_issues {s : State} {k : Fin 10240} {cyc key : Nat} {f : Frame} {i : Instr}
    (g : FVal → FVal → LaneRes Word) (vd : Fin 32) (n : Fin 32) (va : Fin 32) (h : issues s k cyc i = some (key, f)) :
    let r := pairTree g ((coreNow s k cyc).vreg va)
    reduce i g k cyc (.lane vd n) va s =
      .next (issued s k cyc key f (fly (cyc + 8) (.vec vd (BitVec.ofNat 1024 ((2 ^ 32 - 1) * 2 ^ (32 * n.val)))
        (BitVec.ofNat 1024 (r.val.toNat * 2 ^ (32 * n.val)))) (coreNow s k cyc)) r.flags) :=
  coreStep_of_issues h rfl

/-- Settles O11: the special functions by `special1`, the reductions by `reduce`, and VCVT and ACCRD by their formats. -/
theorem specialAndReductionResults : Obligations.SpecialAndReductionResults := by
  refine ⟨fun k cyc key f vd va vm m s => ⟨?_, ?_, ?_, ?_, ?_, ?_, ?_, ?_, ?expsub⟩, fun k cyc key f s =>
    ⟨fun va vd sd i => ⟨fun h => reduce_scalar_of_issues fpAdd sd va h, fun h => reduce_scalar_of_issues fpMax sd va h,
      fun h => reduce_lane_of_issues fpAdd vd i va h, fun h => reduce_lane_of_issues fpMax vd i va h⟩, fun vd va src dst nonsat kt hd => ?cvt, fun vd va src nonsat kt => ?cvtK4,
      fun acc col vd fmt nonsat => ?accrd⟩⟩
  case expsub =>
    exact fun h => (exec_vexpsub ..).trans (coreStep_vecOut_of_issues 32 14 vd m (fun c => fpBin fpExpSub (c.vreg va) (c.vreg vm)) h)
  case cvt =>
    dsimp only
    intro h
    refine (exec_vcvt ..).trans (coreStep_of_issues h ?_)
    cases dst
    case k4 => exact absurd rfl hd
    all_goals dsimp only; rw [List.map_map]; rfl
  case cvtK4 =>
    dsimp only
    intro h
    exact (exec_vcvt ..).trans (coreStep_of_issues h rfl)
  case accrd =>
    exact fun h => (exec_accrd ..).trans (coreStep_vecOut_of_issues (fmtBits fmt) 4 vd none
      (fun c => (fpLanes (c.accCol acc col)).map (accrdElem fmt nonsat)) h)
  all_goals exact fun h => special1_of_issues _ vd va m h

end Sys2Proof.Machine
end

section
/-! PROOF. The matrix instructions (R44 to R52), and what landing results and raising flags do to a core and its port's registers
(R32, R63). -/

namespace Sys2Proof.Machine

/-! ### The matrix instructions -/

/-- What an MMA answers: 32 results, flying as one to column `col`, not before an MMA that issued earlier lands there (R44, R48). -/
theorem mmaOut_ok (lat cyc : Nat) (acc : Fin 8) (col : Fin 32) (z : Bool) (extra : BitVec 5) (dot : Nat → Option FVal → LaneRes Word)
    (c : Core) :
    let old := fpLanes (accIssued c acc col)
    let rs := (List.range 32).map (fun i => dot i (if z then none else some (old.getD i (.fin false 0 0))))
    mmaOut lat cyc acc col z extra dot c = .ok (fly (max (cyc + lat) (accDue c acc col))
      (.acc acc col (ofLanes 32 (rs.map (fun r => r.val.toNat)))) c) (rs.foldl (fun x r => x ||| r.flags) extra) := by
  simp only [mmaOut, List.map_map, List.foldl_map]
  rfl

/-- Settles O14: with its operands in the pane store each instruction is `mmaOut` of its rows' products. -/
theorem matrixResults : Obligations.MatrixResults := by
  refine fun k cyc key f acc ktA ktB col a sc b z s => ⟨fun ab bb ha hb h => ?bf16, fun ab bb aEnc bEnc ha hb h => ?f8,
    fun codes scales bb bFmt ha hs hb h => ?k4, fun am scales bb bFmt ha hs hb h => ?k4s⟩
  case bf16 =>
    refine (exec_mmaBf16 ..).trans (coreStep_of_issues h ?_)
    rw [ha, hb]
    exact mmaOut_ok ..
  case f8 =>
    refine (exec_mmaF8 ..).trans (coreStep_of_issues h ?_)
    rw [ha, hb]
    exact mmaOut_ok ..
  case k4 =>
    refine (exec_mmaK4 ..).trans (coreStep_of_issues h ?_)
    rw [ha, hs, hb]
    exact mmaOut_ok ..
  case k4s =>
    refine (exec_mmaK4s ..).trans (coreStep_of_issues h ?_)
    rw [ha, hs, hb]
    exact mmaOut_ok ..

/-! ### Lanes (R32) -/

/-- A bit of packed elements is a bit of the element that holds it. -/
theorem testBit_packBits {w j : Nat} (hj : j < w) (xs : List Nat) (i : Nat) :
    (packBits w xs).testBit (w * i + j) = (xs.getD i 0).testBit j := by
  induction xs generalizing i with
  | nil => simp [packBits]
  | cons x xs ih =>
    rw [packBits, Nat.add_comm, Nat.testBit_two_pow_mul_add _ (Nat.mod_lt _ (Nat.two_pow_pos w))]
    cases i with
    | zero => rw [Nat.mul_zero, Nat.zero_add, if_pos hj, Nat.testBit_mod_two_pow]; simp [hj]
    | succ i =>
      have hge : ¬ w * (i + 1) + j < w := by rw [Nat.mul_succ]; omega
      have hsub : w * (i + 1) + j - w = w * i + j := by rw [Nat.mul_succ]; omega
      rw [if_neg hge, hsub, ih]
      rfl

theorem unpackBits_getD (w n v i : Nat) (h : i < n) : (unpackBits w n v).getD i 0 = v / 2 ^ (w * i) % 2 ^ w := by
  induction n generalizing v i with
  | zero => omega
  | succ n ih =>
    cases i with
    | zero => simp [unpackBits]
    | succ i =>
      have := ih (v / 2 ^ w) i (by omega)
      rw [Nat.div_div_eq_div_mul, ← pow_add] at this
      rw [unpackBits, List.getD_cons_succ, this, Nat.mul_succ, Nat.add_comm w]

/-- A bit of a lane of a register. -/
theorem testBit_lane {w n i : Nat} (v : Vec) (h : i < n) (j : Nat) :
    ((lanes w n v).getD i 0).testBit j = (decide (j < w) && v.getLsbD (w * i + j)) := by
  rw [lanes, unpackBits_getD _ _ _ _ h, Nat.testBit_mod_two_pow, ← Nat.shiftRight_eq_div_pow, Nat.testBit_shiftRight]
  rfl

/-- A bit of a register of elements. -/
theorem getLsbD_ofLanes {w n i j : Nat} (hwn : w * n = 1024) (hi : i < n) (hj : j < w) (xs : List Nat) :
    (ofLanes w xs).getLsbD (w * i + j) = (xs.getD i 0).testBit j := by
  have hlt : w * i + j < 1024 := by
    have : w * (i + 1) ≤ w * n := Nat.mul_le_mul_left _ hi
    rw [Nat.mul_succ] at this
    omega
  rw [ofLanes, BitVec.getLsbD_ofNat, testBit_packBits hj]
  simp [hlt]

theorem vreg_landVal_same (c : Core) (vd : Fin 32) (m x : Vec) :
    (landVal c (.vec vd m x)).vreg vd = (c.vreg vd &&& ~~~ m) ||| (x &&& m) := by
  simp only [landVal, Core.vreg, mget_mput_self, Option.getD_some]

theorem vreg_landVal_ne (c : Core) {vd v : Fin 32} (h : v ≠ vd) (m x : Vec) : (landVal c (.vec vd m x)).vreg v = c.vreg v := by
  simp only [landVal, Core.vreg, mget_mput_ne _ _ _ _ (fun e => h (Fin.ext e) : v.val ≠ vd.val)]
  rfl

/-- Settles O15: bit by bit, the mask's bits of a lane being all 1 or all 0. -/
theorem laneMaskGovernsLanding : Obligations.LaneMaskGovernsLanding := by
  intro c vd w n on xs hwn hon hxs hsmall
  refine ⟨fun i hi => Nat.eq_of_testBit_eq fun j => ?_, fun v hv => vreg_landVal_ne c hv ..⟩
  rw [testBit_lane _ hi, vreg_landVal_same]
  by_cases hj : j < w
  case neg =>
    have hlane : ((lanes w n (c.vreg vd)).getD i 0).testBit j = false := by rw [testBit_lane _ hi]; simp [hj]
    have hx : (xs.getD i 0).testBit j = false := by
      refine Nat.testBit_lt_two_pow (lt_of_lt_of_le ?_ (Nat.pow_le_pow_right (by omega) (Nat.le_of_not_lt hj)))
      rw [List.getD_eq_getElem _ _ (by omega)]
      exact hsmall _ (List.getElem_mem _)
    rw [decide_eq_false hj, Bool.false_and]
    split
    · exact hx.symm
    · exact hlane.symm
  case pos =>
    have hmask : (laneBits w on).getLsbD (w * i + j) = on.getD i false := by
      have hi' : i < on.length := by omega
      rw [laneBits, getLsbD_ofLanes hwn hi hj, List.getD_eq_getElem _ _ (by simpa using hi'), List.getElem_map,
        List.getD_eq_getElem _ _ hi']
      cases on[i] <;> simp [hj]
    have hlt : w * i + j < 1024 := by
      have : w * (i + 1) ≤ w * n := Nat.mul_le_mul_left _ hi
      rw [Nat.mul_succ] at this
      omega
    rw [BitVec.getLsbD_or, BitVec.getLsbD_and, BitVec.getLsbD_and, BitVec.getLsbD_not, hmask, getLsbD_ofLanes hwn hi hj]
    cases hb : on.getD i false
    · rw [if_neg (by simp), testBit_lane _ hi]; simp [hj, hlt]
    · simp [hj]

/-! ### Flags (R63) -/

/-- BAY_ARITH_FLAGS of the 21 bays (R490). -/
theorem regRow_arithFlags {b : Nat} (h : b < 21) :
    regRow (0x1080000 + b * 0x100000) = some (regs32 0x1080000 0x100000 21 .perPort 0 0) := by
  interval_cases b <;> decide

/-- BAY_ARITH_FIRST of the 21 bays (R490). -/
theorem regRow_arithFirst {b : Nat} (h : b < 21) :
    regRow (0x1080004 + b * 0x100000) = some (regs32 0x1080004 0x100000 21 .perPort 0 0) := by
  interval_cases b <;> decide

/-- A 32-bit register read back after bits of it are set. -/
theorem regGet_regOr {off : Nat} {row : RegRow} (h : regRow off = some row) (hw : row.wide = false) (p m : Nat) (s : State) :
    regGet (regOr p off m s) p off = (regGet s p off ||| m) % 2 ^ 32 := by
  rw [regOr, regGet_regSet_self, h]
  simp [hw]

/-- Setting BAY_ARITH_FIRST of a bay leaves its BAY_ARITH_FLAGS. -/
theorem regGet_arithFlags_regSet_arithFirst {b : Nat} (h : b < 21) (p v : Nat) (s : State) :
    regGet (regSet p (0x1080004 + b * 0x100000) v s) p (0x1080000 + b * 0x100000) = regGet s p (0x1080000 + b * 0x100000) := by
  have keyFlags : regKey p (0x1080000 + b * 0x100000) = p * 2 ^ 32 + (0x1080000 + b * 0x100000) := by
    rw [regKey, regRow_arithFlags h]; rfl
  have keyFirst : regKey p (0x1080004 + b * 0x100000) = p * 2 ^ 32 + (0x1080004 + b * 0x100000) := by
    rw [regKey, regRow_arithFirst h]; rfl
  refine regGet_regSet_ne _ _ _ _ _ _ ?_
  rw [keyFlags, keyFirst]
  omega

theorem setFlags_zero (k key : Nat) (f : Frame) (cyc : Nat) (s : State) : setFlags k key f cyc 0 s = s := if_pos rfl

/-- The two ways flags are recorded beside the core: nowhere, where no pavilion has the core's quarter, or in the port's register
and, for the first flag, beside it (R63). -/
theorem setFlags_cases (k key : Nat) (f : Frame) (cyc : Nat) {fl : BitVec 5} (s : State) (h : fl ≠ 0) :
    let t := setCore k { coreAt s k with flags := (coreAt s k).flags ||| fl } s
    (quarterPav s (coreQuarter k) = none ∧ setFlags k key f cyc fl s = t) ∨
    ∃ n p, quarterPav s (coreQuarter k) = some (n, p) ∧ ∃ u, (u = regOr p.port (0x1080000 + physBay s (coreBay k) * 0x100000) fl.toNat t) ∧
      (setFlags k key f cyc fl s = u ∨ ∃ v a, setFlags k key f cyc fl s =
        { regSet p.port (0x1080004 + physBay s (coreBay k) * 0x100000) v u with arithAt := a }) := by
  intro t
  have hq : quarterPav t (coreQuarter k) = quarterPav s (coreQuarter k) := rfl
  have hb : physBay t (coreBay k) = physBay s (coreBay k) := rfl
  have h0 : 0x1000000 + physBay s (coreBay k) * 0x100000 + 0x80000 = 0x1080000 + physBay s (coreBay k) * 0x100000 := by omega
  have h4 : 0x1000000 + physBay s (coreBay k) * 0x100000 + 0x80004 = 0x1080004 + physBay s (coreBay k) * 0x100000 := by omega
  rw [setFlags, if_neg h]
  dsimp only
  rw [hq]
  cases hp : quarterPav s (coreQuarter k) with
  | none => exact .inl ⟨rfl, rfl⟩
  | some np =>
    obtain ⟨n, p⟩ := np
    refine .inr ⟨n, p, rfl, _, rfl, ?_⟩
    dsimp only
    rw [hb, h0, h4]
    split
    · exact .inr ⟨_, _, rfl⟩
    · exact .inl rfl

/-- Settles O17: flags that are 0 change nothing, and others go the way `setFlags_cases` gives them. -/
theorem flagsAreSticky : Obligations.FlagsAreSticky := by
  intro k key cyc f fl s
  by_cases h0 : fl = 0
  case pos =>
    subst h0
    rw [setFlags_zero]
    exact ⟨by simp, fun _ _ => rfl, rfl, fun n p _ h => absurd rfl h⟩
  case neg =>
    have hself := coreAt_setCore_self s k { coreAt s k with flags := (coreAt s k).flags ||| fl }
    have hother := fun j hj => coreAt_setCore_ne s k j { coreAt s k with flags := (coreAt s k).flags ||| fl } hj
    rcases setFlags_cases k key f cyc s h0 with ⟨hq, ht⟩ | ⟨n, p, hq, u, rfl, ht | ⟨v, a, ht⟩⟩
    · rw [ht]
      exact ⟨hself, hother, rfl, fun n p hp => by rw [hq] at hp; cases hp⟩
    · rw [ht]
      refine ⟨hself, hother, rfl, fun m q hp _ hb => ?_⟩
      rw [hq] at hp
      cases hp
      exact regGet_regOr (regRow_arithFlags hb) rfl ..
    · rw [ht]
      refine ⟨hself, hother, rfl, fun m q hp _ hb => ?_⟩
      rw [hq] at hp
      cases hp
      exact (regGet_arithFlags_regSet_arithFirst hb ..).trans (regGet_regOr (regRow_arithFlags hb) rfl ..)

end Sys2Proof.Machine
end

section
/-! PROOF. What a write to the near tier can change (R62, R141, R172, R292 to R294): first what the snapshot writer reaches when a
pending tile is copied before the write, then what a core reaches as it stands at a frame cycle. Everything outside, the near
tier's other bytes included, stays. -/

namespace Sys2Proof.Machine

/-! ### The snapshot writer's reach -/

/-- `t` differs from `s` at most in what the snapshot writer reaches: objects and their copies, places in the lower tiers, the
messages and transactions of the pool, registers, domains' counters, and what a completion reaches. -/
def OnSnaps (s t : State) : Prop :=
  t = { s with
    hostMem := t.hostMem, irqs := t.irqs, free := t.free, regs := t.regs, rings := t.rings, tenants := t.tenants,
    objects := t.objects, far := t.far, farNext := t.farNext, regions := t.regions, records := t.records, cows := t.cows,
    cutLen := t.cutLen, poolWait := t.poolWait, pools := t.pools, poolTag := t.poolTag, celay := t.celay, sec := t.sec,
    snaps := t.snaps }

theorem OnSnaps.refl (s : State) : OnSnaps s s := rfl

theorem OnSnaps.trans {s t u : State} (h : OnSnaps s t) (g : OnSnaps t u) : OnSnaps s u := by
  unfold OnSnaps at g
  rw [(h : t = _)] at g
  exact g

theorem OnRings.onSnaps {s t : State} (h : OnRings s t) : OnSnaps s t := by
  unfold OnRings at h
  rw [h]
  rfl

theorem OnSnaps.foldl {α : Type} {f : State → α → State} (hf : ∀ s x, OnSnaps s (f s x)) (l : List α) (s : State) :
    OnSnaps s (l.foldl f s) := by
  induction l generalizing s with
  | nil => exact .refl s
  | cons x l ih => exact (hf s x).trans (ih _)

theorem OnSnaps.getD {s d : State} {o : Option State} (h : ∀ t, o = some t → OnSnaps s t) (hd : OnSnaps s d) :
    OnSnaps s (o.getD d) := by
  cases o with
  | none => exact hd
  | some t => exact h t rfl

theorem OnSnaps.ite {c : Prop} [Decidable c] {s t u : State} (ht : OnSnaps s t) (hu : OnSnaps s u) :
    OnSnaps s (if c then t else u) := by
  split
  · exact ht
  · exact hu

theorem regAdd_onSnaps (p off n : Nat) (s : State) : OnSnaps s (regAdd p off n s) := rfl

theorem onTile_onSnaps (key i : Nat) (f : Tile → Tile) (s : State) : OnSnaps s (onTile key i f s) := by
  unfold onTile
  split <;> rfl

theorem onSnap_onSnaps (p : Nat) (f : SnapPort → SnapPort) (s : State) : OnSnaps s (onSnap p f s) := rfl

theorem onRun_onSnaps (p : Nat) (f : SnapRun → SnapRun) (s : State) : OnSnaps s (onRun p f s) := rfl

theorem sendMsg_onSnaps (p cls kind dest tag gen : Nat) (payload : List Byte) (s : State) :
    OnSnaps s (sendMsg p cls kind dest tag gen payload s) := rfl

theorem spotFree_onSnaps (fn : Nat) (sp : Spot) (s : State) : OnSnaps s (spotFree fn sp s) := by
  unfold spotFree
  split
  · rfl
  · split <;> rfl

theorem dropCow_onSnaps (key i : Nat) (s : State) : OnSnaps s (dropCow key i s) := by
  unfold dropCow
  split
  · rfl
  · dsimp only
    split <;> rfl

theorem unpend_onSnaps (p : Nat) (s : State) : OnSnaps s (unpend p s) := rfl

theorem snapFail_onSnaps (p : Nat) (s : State) : OnSnaps s (snapFail p s) := by
  unfold snapFail
  split
  · rfl
  · dsimp only
    generalize hu : List.foldl (fun s x => spotFree (64 * p) x s) s _ = u
    have freed : OnSnaps s u := by
      rw [← hu]
      exact OnSnaps.foldl (fun s x => spotFree_onSnaps (64 * p) x s) _ s
    clear hu
    have ended : ∀ l, OnSnaps u (regAdd p 0x70044 1 (unpend p (onSnap p (fun x => { x with run := none })
        { u with poolWait := l }))) := fun _ => rfl
    split
    · exact freed.trans (ended _)
    · exact (freed.trans (ended _)).trans (fail_onRings ..).onSnaps

theorem poolOpen_onSnaps {w : PoolWait} {s t : State} (h : poolOpen w s = some t) : OnSnaps s t := by
  unfold poolOpen at h
  dsimp only at h
  split at h
  · cases h
  · split at h
    · cases h
    · cases h
      split <;> rfl

theorem poolSendAs_onSnaps {fn key i : Nat} {write retried : Bool} {snap : Option SnapPart} {sp : Spot} {record : List Byte}
    {s t : State} (h : poolSendAs fn key i write retried snap sp record s = some t) : OnSnaps s t := by
  unfold poolSendAs at h
  dsimp only at h
  split at h
  · cases h
  · split at h
    · cases h
    · split at h
      · cases h; rfl
      · exact poolOpen_onSnaps h

theorem snapOut_onSnaps {p : Nat} {part : SnapPart} {sp : Spot} {retried : Bool} {bytes : List Byte} {s t : State}
    (h : snapOut p part sp retried bytes s = some t) : OnSnaps s t := by
  unfold snapOut at h
  dsimp only at h
  split at h
  · exact (onRun_onSnaps ..).trans (poolSendAs_onSnaps h)
  · cases h; exact onRun_onSnaps ..

theorem farAlloc_onSnaps {n : Nat} {s t : State} (h : farAlloc s = some (n, t)) : OnSnaps s t := by
  unfold farAlloc at h
  dsimp only at h
  split at h
  · cases h
  · cases h; rfl

theorem spotAlloc_onSnaps {fn tier region len : Nat} {sp : Spot} {s t : State}
    (h : spotAlloc fn tier region len s = some (sp, t)) : OnSnaps s t := by
  unfold spotAlloc at h
  dsimp only at h
  split at h
  · split at h
    · cases h
    · rename_i e
      cases h
      exact farAlloc_onSnaps e
  · split at h
    · cases h
    · split at h
      · cases h
      · cases h; rfl

theorem spotWriteAs_onSnaps (fn key tile kd : Nat) (sp : Spot) (e : Encoded) (s : State) :
    OnSnaps s (spotWriteAs fn key tile kd sp e s) := by
  unfold spotWriteAs
  dsimp only
  split
  · rfl
  · split
    · rfl
    · split <;> rfl

theorem storeRecord_onSnaps {p : Nat} {r : SnapRun} {key i shard kd : Nat} {zeroed : Bool} {plain : List Byte} {s t : State}
    (h : storeRecord p r key i shard kd zeroed plain s = some t) : OnSnaps s t := by
  unfold storeRecord at h
  dsimp only at h
  split at h
  · cases h
  · rename_i sp u e
    have hu : OnSnaps s u := OnSnaps.trans (t := drew s) (by rfl) (spotAlloc_onSnaps e)
    refine OnSnaps.trans ?_ (snapOut_onSnaps h)
    refine (hu.trans ?_).trans (onRun_onSnaps ..)
    refine OnSnaps.trans ?_ (onTile_onSnaps ..)
    refine OnSnaps.trans ?_ (dropCow_onSnaps ..)
    refine OnSnaps.trans ?_ (regAdd_onSnaps ..)
    refine OnSnaps.trans ?_ (spotWriteAs_onSnaps ..)
    split <;> rfl

theorem snapStore_onSnaps (p key i : Nat) (plain : List Byte) (s : State) : OnSnaps s (snapStore p key i plain s) := by
  unfold snapStore
  split
  · rfl
  · split
    · exact OnSnaps.getD (fun t h => storeRecord_onSnaps h) (snapFail_onSnaps ..)
    · rfl

theorem cowFar_onSnaps (key i n : Nat) (bs : List Byte) (s : State) : OnSnaps s (cowFar key i n bs s) := rfl

theorem cowKeep_onSnaps (key i : Nat) (s : State) : OnSnaps s (cowKeep key i s) := by
  have stored : ∀ bs, OnSnaps s (snapStore (objPort key) key i bs (regAdd (objPort key) 0x7003C 1 s)) := fun bs =>
    (regAdd_onSnaps ..).trans (snapStore_onSnaps ..)
  unfold cowKeep
  dsimp only
  split
  · rfl
  cases tilePlain s key i with
  | none => exact snapFail_onSnaps ..
  | some bs =>
    dsimp only
    by_cases near : (tileOf s key i).isNear = true
    · rw [if_pos near]
      exact OnSnaps.ite (stored bs) rfl
    · rw [if_neg near]
      cases e : farAlloc s with
      | none => exact stored bs
      | some n => exact ((farAlloc_onSnaps e).trans (cowFar_onSnaps ..)).trans (regAdd_onSnaps ..)

/-! ### The near tier -/

theorem nearSet_near (k byte : Nat) (bs : List Byte) (s : State) :
    (nearSet k byte bs s).near = memWrite s.near (nearKey k byte) bs := rfl

/-- The pending tiles of a range that are copied before it is written. -/
theorem cowKeeps_onSnaps (l : List (Nat × Nat)) (s : State) : OnSnaps s (l.foldl (fun st p => cowKeep p.1 p.2 st) s) :=
  OnSnaps.foldl (fun st p => cowKeep_onSnaps p.1 p.2 st) l s

theorem OnSnaps.near {s t : State} (h : OnSnaps s t) : t.near = s.near := by
  rw [show t = _ from h]

/-- A write to the near tier writes its bytes, whatever pending tiles are copied before it. -/
theorem nearStoreAt_near (k byte : Nat) (bs : List Byte) (s : State) :
    (nearStoreAt k byte bs s).near = memWrite s.near (nearKey k byte) bs := by
  unfold nearStoreAt
  dsimp only
  rw [nearSet_near, (cowKeeps_onSnaps ..).near]

/-- `t` differs from `s` at most in what a core reaches as it stands at a frame cycle: what the snapshot writer reaches, the near
tier with the bits of its slots, bays, cores and the colonnade. -/
def OnNear (s t : State) : Prop :=
  t = { s with
    hostMem := t.hostMem, irqs := t.irqs, free := t.free, regs := t.regs, rings := t.rings, tenants := t.tenants,
    objects := t.objects, far := t.far, farNext := t.farNext, regions := t.regions, records := t.records, cows := t.cows,
    cutLen := t.cutLen, poolWait := t.poolWait, pools := t.pools, poolTag := t.poolTag, celay := t.celay, sec := t.sec,
    snaps := t.snaps, near := t.near, slotDirty := t.slotDirty, slotForm := t.slotForm, bays := t.bays, cores := t.cores,
    colonnade := t.colonnade }

theorem OnNear.refl (s : State) : OnNear s s := rfl

theorem OnNear.trans {s t u : State} (h : OnNear s t) (g : OnNear t u) : OnNear s u := by
  unfold OnNear at g
  rw [(h : t = _)] at g
  exact g

theorem OnSnaps.onNear {s t : State} (h : OnSnaps s t) : OnNear s t := by
  unfold OnSnaps at h
  rw [h]
  rfl

theorem OnNear.foldl {α : Type} {f : State → α → State} (hf : ∀ s x, OnNear s (f s x)) (l : List α) (s : State) :
    OnNear s (l.foldl f s) := by
  induction l generalizing s with
  | nil => exact .refl s
  | cons x l ih => exact (hf s x).trans (ih _)

theorem nearSet_onNear (k byte : Nat) (bs : List Byte) (s : State) : OnNear s (nearSet k byte bs s) := rfl

theorem nearStoreAt_onNear (k byte : Nat) (bs : List Byte) (s : State) : OnNear s (nearStoreAt k byte bs s) := by
  unfold nearStoreAt
  dsimp only
  exact (cowKeeps_onSnaps ..).onNear.trans (nearSet_onNear ..)

theorem setForm_onNear (k form : Nat) (slots : List Nat) (s : State) : OnNear s (setForm k form slots s) := rfl

theorem bstStoreAt_onNear (k byte : Nat) (bs : List Byte) (s : State) : OnNear s (bstStoreAt k byte bs s) := by
  unfold bstStoreAt
  refine OnNear.foldl (fun s x => ?_) _ s
  split
  · rfl
  · exact nearStoreAt_onNear ..

theorem bstTile_onNear (k byte mode : Nat) (data : List Byte) (s : State) : OnNear s (bstTile k byte mode data s) := by
  have counted : ∀ (b : Bool) (p : Nat) (u : State), OnNear s u → OnNear s (if b then regAdd p 0xC0018 1 u else u) := by
    intro b p u h
    split
    · exact h.trans (regAdd_onSnaps ..).onNear
    · exact h
  refine counted _ _ _ ?_
  split
  · exact (nearStoreAt_onNear ..).trans (setForm_onNear ..)
  · rfl

theorem bondStore_onNear (k : Nat) (x : BondStore) (s : State) : OnNear s (bondStore k x s) := by
  have stored : OnNear s (if x.mode = 0 then
      setForm k 0 (slotsAt s k (x.byte / 64) (ceilDiv (x.byte + x.data.length) 64 - x.byte / 64)) (bstStoreAt k x.byte x.data s)
    else bstTile k x.byte x.mode x.data s) := by
    split
    · exact (bstStoreAt_onNear ..).trans (setForm_onNear ..)
    · exact bstTile_onNear ..
  exact stored.trans rfl

/-- A core that comes to stand at a frame cycle (R62, R78). -/
theorem advance_onNear (k cyc : Nat) (s : State) : OnNear s (advance k cyc s) :=
  OnNear.trans (t := setCore k _ (pullBeats k cyc s)) rfl (OnNear.foldl (fun s x => bondStore_onNear k x s) _ _)

theorem advance_pavs (k cyc : Nat) (s : State) : (advance k cyc s).pavs = s.pavs := by
  rw [show advance k cyc s = _ from advance_onNear k cyc s]

theorem coreStrides_advance (k j cyc x : Nat) (s : State) : coreStrides (advance k cyc s) j x = coreStrides s j x := by
  unfold coreStrides coreImage quarterPav
  rw [advance_pavs]

end Sys2Proof.Machine
end

section
/-! PROOF. Loads and stores of the pane store, and where an access of a core stops (R29, R36, R57, R60, R448). -/

namespace Sys2Proof.Machine

section
variable {s : State} {k : Fin 10240} {cyc key : Nat} {f : Frame} {i : Instr}

/-- A core that issues an instruction whose operands do not exist stops at it. -/
theorem coreStep_faults {g : Core → CoreRes} {e : Fault} (h : issues s k cyc i = some (key, f))
    (hg : g (coreNow s k cyc) = .bad e) : coreStep i k cyc g s = .fault e := by
  simp only [coreStep, h, hg]

end

/-- What a VLD lays into its register (R60). -/
def vldStep (k : Fin 10240) (cyc : Nat) (v : Fin 32) (addr : PAddr) (x : Option Vec) (s : State) (c : Core) : CoreRes :=
  match paneAt s k cyc 64 128 addr c with
  | none => .bad .outsidePane
  | some bs => .ok (fly (cyc + 3) (.vec v (BitVec.allOnes 1024) (x.getD (BitVec.ofNat 1024 (leNat bs)))) c) 0

theorem execVld_whole (k : Fin 10240) (cyc : Nat) (v : Fin 32) (addr : PAddr) (s : State) :
    execVld k cyc v addr none s = coreStep (.vld k cyc v addr none) k cyc (vldStep k cyc v addr none s) s := by
  unfold execVld
  dsimp only
  split
  · contradiction
  · rfl

theorem execVld_lost {s : State} {k : Fin 10240} {cyc : Nat} {v : Fin 32} {addr : PAddr} {m : CoreMem} {x : Nat × Frame}
    (h : issues s k cyc (.vld k cyc v addr (some m)) = some x) :
    execVld k cyc v addr (some m) s = coreStep (.vld k cyc v addr (some m)) k cyc
      (vldStep k cyc v addr (if m = .pane then some (Config.lostVec (s.free + 1) v) else none)
        { coreMemLost k m s with free := s.free + 1 }) { coreMemLost k m s with free := s.free + 1 } := by
  unfold execVld
  dsimp only
  rw [h]
  rfl

theorem paneAt_of_paneAddr {s : State} {k cyc u n : Nat} {a : PAddr} {c : Core} {x : Nat}
    (h : paneAddr (coreStrides s k a.expr) c cyc u n a = some x) : paneAt s k cyc u n a c = some (c.paneRead x n) := by
  rw [paneAt, h]

theorem paneAt_outside {s : State} {k cyc u n : Nat} {a : PAddr} {c : Core}
    (h : paneAddr (coreStrides s k a.expr) c cyc u n a = none) : paneAt s k cyc u n a c = none := by
  rw [paneAt, h]

/-- A bond instruction outside the slots that bar the bay's bond interfaces issues as any other (R83, R91). -/
theorem bondIssues_of_clear {s : State} {k cyc : Nat} (h : bondBarred s k cyc = false) (i : Instr) :
    bondIssues s k cyc i = issues s k cyc i := by
  rw [bondIssues, h]
  rfl

theorem bondIssues_of_barred {s : State} {k cyc : Nat} (h : bondBarred s k cyc = true) (i : Instr) :
    bondIssues s k cyc i = none := by
  rw [bondIssues, h]
  rfl

/-- Settles O13: each instruction is a `coreStep` on the core as it stands at issue, or reads its address from that core. -/
theorem paneAccessesAndTheirStops : Obligations.PaneAccessesAndTheirStops := by
  refine ⟨fun k cyc key f v kt sr addr a s => ⟨fun ha => ⟨fun h => ?vld, fun h => ?vst⟩, fun ha h => ?tld,
    fun ha hal => ⟨fun h => ?sld, fun h => ?sst⟩, fun m g b hg hb h => ?lost⟩,
    fun k cyc key f v col kt acc sr addr other n bf e z mode tag bad dst s => ⟨fun ha => ⟨fun h => ?vldStop, fun h => ?vstStop⟩,
      fun ha h => ?tldStop, fun ha => ⟨fun h => ?sldStop, fun h => ?sstStop⟩,
      fun a ha hal => ⟨fun h => ?sldMis, fun h => ?sstMis⟩, fun ha h => ?k4, fun ha h => ?k4s, fun ha h => ?f8, fun ha h => ?bf16,
      fun ha => ⟨fun h => ?lsend, fun h => ?lrecv⟩, fun hb ha => ⟨fun h => ?bld, fun h => ?bst⟩,
      fun hb a ha hs => ⟨fun h => ?bldSliver, fun h => ?bstSliver⟩⟩⟩
  case vld =>
    rw [exec_vld, execVld_whole]
    exact coreStep_of_issues h (by rw [vldStep, paneAt_of_paneAddr ha]; rfl)
  case vst => exact (exec_vst ..).trans (coreStep_of_issues h (by rw [ha]))
  case tld => exact (exec_tld ..).trans (coreStep_of_issues h (by rw [paneAt_of_paneAddr ha]))
  case sld => exact (exec_sld ..).trans (coreStep_of_issues h (by rw [ha]; exact if_pos hal))
  case sst => exact (exec_sst ..).trans (coreStep_of_issues h (by rw [ha]; exact if_pos hal))
  case lost =>
    rw [exec_vld, execVld_lost h]
    refine coreStep_of_issues hg ?_
    rw [vldStep, paneAt_of_paneAddr hb]
    cases m <;> rfl
  case vldStop =>
    rw [exec_vld, execVld_whole]
    exact coreStep_faults h (by rw [vldStep, paneAt_outside ha])
  case vstStop => exact (exec_vst ..).trans (coreStep_faults h (by rw [ha]))
  case tldStop => exact (exec_tld ..).trans (coreStep_faults h (by rw [paneAt_outside ha]))
  case sldStop => exact (exec_sld ..).trans (coreStep_faults h (by rw [ha]))
  case sstStop => exact (exec_sst ..).trans (coreStep_faults h (by rw [ha]))
  case sldMis => exact (exec_sld ..).trans (coreStep_faults h (by rw [ha]; exact if_neg hal))
  case sstMis => exact (exec_sst ..).trans (coreStep_faults h (by rw [ha]; exact if_neg hal))
  case k4 => exact (exec_mmaK4 ..).trans (coreStep_faults h (by rw [paneAt_outside ha]))
  case k4s => exact (exec_mmaK4s ..).trans (coreStep_faults h (by rw [paneAt_outside ha]))
  case f8 => exact (exec_mmaF8 ..).trans (coreStep_faults h (by rw [paneAt_outside ha]))
  case bf16 => exact (exec_mmaBf16 ..).trans (coreStep_faults h (by rw [paneAt_outside ha]))
  all_goals
    have hs : ∀ x : PAddr, coreStrides (advance k cyc s) k x.expr = coreStrides s k x.expr := fun x => coreStrides_advance ..
    have now : coreAt (advance k cyc s) k = coreNow s k cyc := rfl
  case lsend =>
    rw [exec_lsend, execLsend, h]
    dsimp only
    rw [hs, now, ha]
  case lrecv =>
    rw [exec_lrecv, execLrecv, h]
    dsimp only
    rw [hs, now, ha]
  case bld =>
    rw [exec_bld, execBld, bondIssues_of_clear hb, h]
    dsimp only
    rw [hs, now, ha]
  case bst =>
    rw [exec_bst, execBst, bondIssues_of_clear hb, h]
    dsimp only
    rw [hs, now, ha]
  case bldSliver hs' =>
    rw [exec_bld, execBld, bondIssues_of_clear hb, h]
    dsimp only
    rw [hs, hs, now, ha, hs']
  case bstSliver hs' =>
    rw [exec_bst, execBst, bondIssues_of_clear hb, h]
    dsimp only
    rw [hs, hs, now, ha, hs']

end Sys2Proof.Machine
end

section
/-! PROOF. Bond transfers, the lattice and the colonnade (R59, R62, R77, R78, R83, R90, R174, R175). -/

namespace Sys2Proof.Machine

/-! ### The near tier -/

/-- Bytes read in two parts. -/
theorem memRead_add (m : Memory) (a x y : Nat) : memRead m a (x + y) = memRead m a x ++ memRead m (a + x) y := by
  induction x generalizing a with
  | zero => simp [memRead]
  | succ x ih => rw [Nat.succ_add, memRead, memRead, ih, List.cons_append, show a + 1 + x = a + (x + 1) by omega]

/-- Lines of a sliver are its lines one by one. -/
theorem nearRead_eq_flatten (s : State) (k line n : Nat) :
    nearRead s k line n = ((List.range n).map (fun i => nearRead s k (line + i) 1)).flatten := by
  induction n with
  | zero => rfl
  | succ n ih =>
    have last : nearKey k (64 * line) + 64 * n = nearKey k (64 * (line + n)) := by simp only [nearKey]; omega
    rw [List.range_succ, List.map_append, List.flatten_append, ← ih, nearRead, Nat.mul_succ, memRead_add, last]
    simp [nearRead]

/-- A plain BLD of lines none of which is damaged brings the sliver's bytes (R446). -/
theorem bldLines_of_whole {s : State} {k line n : Nat} (h : ∀ i, i < n → isDamaged s k (line + i) = false) :
    bldLines s k line n [] = nearRead s k line n := by
  rw [bldLines, nearRead_eq_flatten]
  refine congrArg List.flatten (List.map_congr_left fun i hi => ?_)
  rw [h i (List.mem_range.mp hi)]
  rfl

/-- Settles O18: the transfers as they are defined, and a near-tier write as a write of its bytes (`nearStoreAt_near`). -/
theorem nearTierTransfers : Obligations.NearTierTransfers := by
  refine ⟨fun k cyc key f pane sliver lines mode bad tag s => ⟨fun hb => ⟨?bldBarred, ?bstBarred⟩,
    fun hb a l ha hl => ⟨fun h => ?bld, fun h => ?bst, fun h => ?plain⟩⟩, fun k line bs s b => ⟨fun h => ?out, fun h i hi => ?into⟩⟩
  case bldBarred => rw [exec_bld, execBld, bondIssues_of_barred hb]
  case bstBarred => rw [exec_bst, execBst, bondIssues_of_barred hb]
  case bld =>
    rw [exec_bld, execBld, bondIssues_of_clear hb, h]
    dsimp only
    rw [ha, hl]
  case bst =>
    rw [exec_bst, execBst, bondIssues_of_clear hb, h]
    dsimp only
    rw [ha, hl] <;> rfl
  case plain => exact bldLines_of_whole h
  case out => rw [nearStore, nearStoreAt_near, memByte_memWrite_out _ _ _ _ h]
  case into => rw [nearStore, nearStoreAt_near, memByte_memWrite_in _ _ _ h hi]

/-! ### The lattice and the colonnade -/

/-- Writing the pane store leaves everything else a core holds. -/
theorem paneWrite_eq (c : Core) (a : Nat) (bs : List Byte) : c.paneWrite a bs = { c with pane := (c.paneWrite a bs).pane } := by
  induction bs generalizing c a with
  | nil => rfl
  | cons b bs ih =>
    rw [Core.paneWrite, ih]
    rfl

/-- A core with nothing under way to which one colonnade beat is due: the beat lands and nothing else does (R78). -/
theorem advance_one_beat {s : State} {k cyc : Nat} {b : ColBeat} (hcol : s.colonnade = [b]) (hdst : b.dst = k)
    (hdue : b.due ≤ cyc) (hfl : (coreAt s k).flight = []) (hr : (coreAt s k).reads = []) (hst : (coreAt s k).stores = []) :
    advance k cyc s = setCore k ((coreAt s k).paneWrite b.addr b.data) (setCore k (fly b.due (.pane b.addr b.data) (coreAt s k))
      { s with colonnade := [] }) := by
  have pulled : pullBeats k cyc s = setCore k (fly b.due (.pane b.addr b.data) (coreAt s k)) { s with colonnade := [] } := by
    simp [pullBeats, hcol, hdst, hdue]
  have landed : retire cyc (fly b.due (.pane b.addr b.data) (coreAt s k)) = (coreAt s k).paneWrite b.addr b.data := by
    have none : { coreAt s k with flight := [] } = coreAt s k := by rw [← hfl]
    simp only [retire, fly, hfl, insertFlight]
    simp [hdue, Nat.not_lt.mpr hdue, none, landVal]
  have idle := paneWrite_eq (coreAt s k) b.addr b.data
  have reads : (fly b.due (.pane b.addr b.data) (coreAt s k)).reads = [] := hr
  have stores : ((coreAt s k).paneWrite b.addr b.data).stores = [] := by rw [idle]; exact hst
  have reads' : ((coreAt s k).paneWrite b.addr b.data).reads = [] := by rw [idle]; exact hr
  have same : { (coreAt s k).paneWrite b.addr b.data with reads := [], stores := [] } = (coreAt s k).paneWrite b.addr b.data := by
    rw [← stores, ← reads']
  simp only [advance, pulled, coreAt_setCore_self, reads, List.filter_nil, List.foldl_nil, landed, stores, same, reads']

/-- Settles O19: each transfer as it is defined; a beat that is due lands by `advance_one_beat`. -/
theorem latticeAndColonnade : Obligations.LatticeAndColonnade := by
  refine ⟨fun k cyc key f pane beats a s ha => ⟨fun dst hd h => ?lsend, fun dst hd h => ?self, fun m hm h => ?lrecv, fun hm h => ?none⟩,
    fun cyc key f src d path beats due s hi hok hl => ⟨fun hs hd => ?pane, fun hout => ?outside⟩,
    fun cyc key f bs d ds path beats s hi hok hin => ?hub, fun cyc src ds path beats s hno => ?refused,
    fun k cyc key f s hi => ⟨?arrive, fun b hcol hdst hdue hfl hr hst => ?beat⟩⟩
  case lsend =>
    rw [exec_lsend, execLsend, h]
    dsimp only
    rw [ha]
    exact if_neg hd
  case self =>
    rw [exec_lsend, execLsend, h]
    dsimp only
    rw [ha]
    exact if_pos hd
  case lrecv =>
    rw [exec_lrecv, execLrecv, h]
    dsimp only
    rw [ha]
    dsimp only
    rw [show (setFrame key _ (advance k cyc s)).lattice = (advance k cyc s).lattice from rfl, hm]
  case none =>
    rw [exec_lrecv, execLrecv, h]
    dsimp only
    rw [ha]
    dsimp only
    rw [show (setFrame key _ (advance k cyc s)).lattice = (advance k cyc s).lattice from rfl, hm]
  case pane =>
    rw [exec_colonnadeTransfer, execColonnadeTransfer]
    simp only [Option.toList_some, List.singleton_append, List.map_cons, List.map_nil, List.head?_cons, hi, hok, Bool.not_true,
      Bool.false_eq_true, if_false, List.any_cons, List.any_nil, Bool.or_false, decide_eq_true_eq, hl, Option.getD_some,
      List.flatten_cons, List.flatten_nil, List.append_nil]
    exact if_neg (by omega)
  case outside =>
    rw [exec_colonnadeTransfer, execColonnadeTransfer]
    simp only [Option.toList_some, List.singleton_append, List.map_cons, List.map_nil, List.head?_cons, hi, hok, Bool.not_true,
      Bool.false_eq_true, if_false, List.any_cons, List.any_nil, Bool.or_false, decide_eq_true_eq]
    exact if_pos hout
  case hub =>
    have fits : (d :: ds).any (fun x => decide (paneBytes < 64 * x.line + 512 * beats)) = false := by
      rw [List.any_eq_false]
      intro x hx
      have := hin x hx
      simp only [decide_eq_true_eq]
      omega
    have fits0 : paneBytes < 64 * 0 + 512 * beats → False := by
      have := hin d (by simp)
      omega
    rw [exec_colonnadeTransfer, execColonnadeTransfer]
    simp only [Option.toList_none, List.nil_append, List.map_cons, List.head?_cons, hi, hok, Bool.not_true,
      Bool.false_eq_true, if_false, fits, or_false]
    exact if_neg fits0
  case refused =>
    have no : ∀ x, cyc % 2 = 1 ∨ colOk s cyc x ds path = false → (! colOk s cyc x ds path) = true := by
      rintro x (odd | no)
      · simp [colOk, odd]
      · rw [no]; rfl
    rw [exec_colonnadeTransfer]
    unfold execColonnadeTransfer
    dsimp only
    split
    · rfl
    · split
      · rfl
      · exact if_pos (no _ hno)
  case arrive => rw [exec_colonnadeBeatArrival, execColonnadeBeatArrival, hi]
  case beat =>
    rw [advance_one_beat hcol hdst hdue hfl hr hst]
    exact ⟨coreAt_setCore_self .., rfl⟩

end Sys2Proof.Machine
end

section
/-! PROOF. Refresh and deskew (R84, R91, R95, R427). -/

namespace Sys2Proof.Machine

/-- What a deskew pass makes of a line: its element moves towards zero error, within its range, and what it could not move stays as
error (R427). -/
theorem passStep_moves (n : Nat) (l : BondLine) (err : Int) (h : l.step < 64) :
    (passStep n l err).step < 64 ∧ (((passStep n l err).step : Int) - l.step).natAbs ≤ n ∧
      ((passStep n l err).step : Int) + (passStep n l err).err = l.step + err ∧ (passStep n l err).err.natAbs ≤ err.natAbs := by
  simp only [passStep]
  omega

/-- Settles O25: the slots and the controller's own schedule as they are defined; `passStep_moves` for the pass. -/
theorem refreshAndDeskew : Obligations.RefreshAndDeskew := by
  refine ⟨⟨fun bay start key f r s hf hr hp => ?refresh, fun bay start key f r passes s hf hr hp => ?deskew,
    fun bay passes s hf hw => ?idle, fun bay s hw ht => ?interval⟩, fun n l err h => ?pass⟩
  case refresh =>
    refine ⟨serveRefresh bay (markPlan key f bay 1 start s), ?_, bayAt_setBay_self .., fun b hb => bayAt_setBay_ne _ _ _ _ hb, rfl⟩
    simp only [exec_refreshSlot, execRefreshSlot, hf, hr, hp, if_true]
  case deskew => simp only [exec_deskewSlot, execDeskewSlot, hf, hr, hp, if_true]
  case idle =>
    rw [exec_bayIdleRefresh, execBayIdleRefresh, hf, hw]
    rfl
  case interval =>
    rw [exec_refreshIntervalElapse, execRefreshIntervalElapse, hw,
      decide_eq_false (Nat.not_lt.mpr ht)]
    rfl
  case pass =>
    obtain ⟨range, steps, sum, left⟩ := passStep_moves n l err h
    exact ⟨range, steps, sum, left, rfl⟩

end Sys2Proof.Machine
end

section
/-! PROOF. Tag edits (R119, R120): their requests, and the tags of a range as they stand after one. -/

namespace Sys2Proof.Machine

/-! ### The edit of a range of tags -/

/-- Two bytes of a memory changed by a function of their value, as a tag is (R120). -/
def tagPut (f : Nat → Nat) (m : Memory) (a : Nat) : Memory := memWrite m a (natLe 2 (f (leNat (memRead m a 2))))

theorem tagPut_wf {m : Memory} (f : Nat → Nat) (a : Nat) (h : Memory.wf m = true) : Memory.wf (tagPut f m a) = true :=
  Memory.wf_memWrite a _ h

theorem memByte_tagPut_out (f : Nat → Nat) (m : Memory) {a b : Nat} (h : b < a ∨ a + 2 ≤ b) :
    memByte (tagPut f m a) b = memByte m b :=
  memByte_memWrite_out m a b _ (by rwa [natLe_length])

theorem memRead_two (m : Memory) (a : Nat) : memRead m a 2 = [memByte m a, memByte m (a + 1)] := rfl

/-- A tag outside two changed bytes stays. -/
theorem memRead_tagPut_out (f : Nat → Nat) (m : Memory) {a b : Nat} (h : b + 2 ≤ a ∨ a + 2 ≤ b) :
    memRead (tagPut f m a) b 2 = memRead m b 2 := by
  rw [memRead_two, memRead_two, memByte_tagPut_out f m (by omega), memByte_tagPut_out f m (by omega)]

/-- A tag that is changed. -/
theorem memRead_tagPut_same (f : Nat → Nat) {m : Memory} (a : Nat) (h : Memory.wf m = true) :
    leNat (memRead (tagPut f m a) a 2) = f (leNat (memRead m a 2)) % 2 ^ 16 := by
  have read : memRead (tagPut f m a) a 2 = natLe 2 (f (leNat (memRead m a 2))) := by
    rw [memRead_two, tagPut]
    have lo := memByte_memWrite_in a 0 (natLe 2 (f (leNat (memRead m a 2)))) h (by simp [natLe_length])
    have hi := memByte_memWrite_in a 1 (natLe 2 (f (leNat (memRead m a 2)))) h (by simp [natLe_length])
    rw [Nat.add_zero] at lo
    rw [lo, hi]
    rfl
  rw [read, leNat_natLe]
  rfl

section
variable {α : Type} (f : Nat → Nat) (place : α → Nat)

/-- Bytes outside every tag that is changed stay. -/
theorem memByte_tagPuts_out (l : List α) (m : Memory) {b : Nat} (h : ∀ x ∈ l, b < place x ∨ place x + 2 ≤ b) :
    memByte (l.foldl (fun m x => tagPut f m (place x)) m) b = memByte m b := by
  induction l generalizing m with
  | nil => rfl
  | cons x l ih =>
    rw [List.foldl_cons, ih _ fun y hy => h y (List.mem_cons_of_mem _ hy), memByte_tagPut_out f m (h x List.mem_cons_self)]

/-- A tag that is changed once and overlaps no other one changed takes its new value. -/
theorem leNat_tagPuts {l : List α} {m : Memory} (hw : Memory.wf m = true) (hl : l.Nodup) {x : α} (hx : x ∈ l)
    (h : ∀ y ∈ l, y ≠ x → place y + 2 ≤ place x ∨ place x + 2 ≤ place y) :
    leNat (memRead (l.foldl (fun m y => tagPut f m (place y)) m) (place x) 2) = f (leNat (memRead m (place x) 2)) % 2 ^ 16 := by
  induction l generalizing m with
  | nil => simp at hx
  | cons y l ih =>
    obtain ⟨hy, hnd⟩ := List.nodup_cons.mp hl
    rw [List.foldl_cons]
    by_cases hyx : y = x
    · subst hyx
      have apart : ∀ z ∈ l, place z + 2 ≤ place y ∨ place y + 2 ≤ place z := fun z hz =>
        h z (List.mem_cons_of_mem _ hz) (fun e => hy (e ▸ hz))
      have rest : ∀ b, place y ≤ b → b < place y + 2 → memByte (l.foldl (fun m y => tagPut f m (place y)) (tagPut f m (place y))) b
          = memByte (tagPut f m (place y)) b := fun b h1 h2 =>
        memByte_tagPuts_out f place l _ fun z hz => by have := apart z hz; omega
      rw [memRead_two, rest _ (by omega) (by omega), rest _ (by omega) (by omega), ← memRead_two, memRead_tagPut_same f _ hw]
    · rw [ih (tagPut_wf f _ hw) hnd ((List.mem_cons.mp hx).resolve_left (Ne.symm hyx)) fun z hz => h z (List.mem_cons_of_mem _ hz),
        memRead_tagPut_out f m ((h y List.mem_cons_self hyx).symm)]

end

/-! ### The tags of a resident session -/

/-- Where group `x.2`'s holder keeps the tag of position `a + x.1`. -/
def tagPlace (p : Pav) (slot a : Nat) (x : Nat × Nat) : Nat := nearKey (tagByte p slot x.2 (a + x.1)).1 (tagByte p slot x.2 (a + x.1)).2

theorem tagStore_near (k byte : Nat) (bs : List Byte) (s : State) :
    (tagStore k byte bs s).near = memWrite s.near (nearKey k byte) bs := rfl

/-- A position's tag changed in every group's holder, as its bytes in the near tier. -/
theorem tagChange_near (p : Pav) (slot a j : Nat) (f : Nat → Nat) (s : State) :
    (tagChange p slot (a + j) f s).near =
      ((List.range (dGroups p.desc)).map (Prod.mk j)).foldl (fun m x => tagPut f m (tagPlace p slot a x)) s.near := by
  rw [tagChange, List.foldl_map]
  generalize List.range (dGroups p.desc) = l
  induction l generalizing s with
  | nil => rfl
  | cons g l ih => rw [List.foldl_cons, ih, List.foldl_cons]; rfl

/-- The tags of a range changed, as their bytes in the near tier. -/
theorem tagChanges_near (p : Pav) (slot a n : Nat) (f : Nat → Nat) (s : State) :
    ((List.range n).foldl (fun s j => tagChange p slot (a + j) f s) s).near =
      ((List.range n) ×ˢ (List.range (dGroups p.desc))).foldl (fun m x => tagPut f m (tagPlace p slot a x)) s.near := by
  generalize List.range n = l
  induction l generalizing s with
  | nil => rfl
  | cons j l ih => rw [List.foldl_cons, ih, tagChange_near, List.product_cons, List.foldl_append]

theorem OnSnaps.pavs {s t : State} (h : OnSnaps s t) : t.pavs = s.pavs := by
  rw [show t = _ from h]

theorem writeTile_onSnaps (key i : Nat) (s : State) : OnSnaps s (writeTile key i s) := onTile_onSnaps ..

/-- The near tier once a range of a resident session's tags is changed: those tags, whatever tiles are copied before. -/
theorem writeTags_near {key a b n slot : Nat} {x : Session} {s : State} (keep : Bool) (f : Nat → Nat)
    (hx : x.place = .resident n slot) (hp : (pavAt s n).desc ≠ []) :
    (writeTags keep key x a b f s).near =
      ((List.range (b - a)) ×ˢ (List.range (dGroups (pavAt s n).desc))).foldl
        (fun m x => tagPut f m (tagPlace (pavAt s n) slot a x)) s.near := by
  unfold writeTags
  dsimp only
  generalize hu : (if keep then _ else s : State) = u
  have copied : OnSnaps s u := by
    rw [← hu]
    split
    · exact OnSnaps.foldl (fun s i => cowKeep_onSnaps _ i s) _ s
    · rfl
  have home : tagHomes u key x = [(pavAt s n, slot)] := by
    have pav : mgetD u.pavs n {} = pavAt s n := by rw [copied.pavs, pavAt]
    rw [tagHomes, hx]
    simp only [tagSlot, pav, if_neg hp]
  rw [(OnSnaps.foldl (fun s i => writeTile_onSnaps _ i s) _ _).near, home]
  exact (tagChanges_near ..).trans (by rw [copied.near])

/-! ### The requests -/

section
variable {s : State} {r : Req} {first count segment key : Nat} {x : Session}

/-- An edit of a range that its checks pass runs on the session (R120). -/
theorem tagEdit_runs (cmd : Instr) (body : ReqId → Nat → Session → State → State) (hr : Takes s r) (hf : Finds s r key x)
    (hb : Between s key x) (h1 : first < 2 ^ 21) (h2 : 0 < count) (h3 : count ≤ 2097152) (h4 : segment < 2 ^ 15) :
    tagEdit r (some (first, count)) segment cmd body s = body (takenId s r 0x1C) key x (found s r 0x1C) := by
  have ok : (if (some (first, count)).any (fun x => decide (2 ^ 21 ≤ x.1)) then some 32
      else if (some (first, count)).any (fun x => decide (x.2 = 0 ∨ 2097152 < x.2)) then some 36
      else if 2 ^ 15 ≤ segment then some 41 else none) = (none : Option Nat) := by
    simp only [Option.any_some, decide_eq_true_eq]
    rw [if_neg (by omega), if_neg (by omega), if_neg (by omega)]
  unfold tagEdit
  dsimp only
  rw [ok]
  exact boundReq_runs 0x1C cmd body hr hf hb

/-- One of MASK_MODE or the current segment, which ignores the range (R120). -/
theorem tagEdit_runs_whole (cmd : Instr) (body : ReqId → Nat → Session → State → State) (hr : Takes s r) (hf : Finds s r key x)
    (hb : Between s key x) (h : segment < 2 ^ 15) :
    tagEdit r none segment cmd body s = body (takenId s r 0x1C) key x (found s r 0x1C) := by
  unfold tagEdit
  dsimp only
  rw [if_neg (by simp), if_neg (by simp), if_neg (by omega)]
  exact boundReq_runs 0x1C cmd body hr hf hb

theorem editTags_resident (f : Nat → Nat) (id : ReqId) (t : State) (h : ∃ pav slot, x.place = .resident pav slot) :
    editTags first count f id key x t = done id (writeTags true key x first (min (first + count) x.length) f t) := by
  obtain ⟨pav, slot, e⟩ := h
  rw [editTags, e]

theorem editTags_away (f : Nat → Nat) (id : ReqId) (t : State) (h : ∀ pav slot, x.place ≠ .resident pav slot) :
    editTags first count f id key x t = complete id 0 (some 0xB) 0 t := by
  unfold editTags
  split
  · exact absurd ‹_› (h _ _)
  · rfl

end

/-- Settles O34: the requests run between frames (`tagEdit_runs`); the range's tags are changed one by one (`writeTags_near`). -/
theorem tagEditsChangeTheirRange : Obligations.TagEditsChangeTheirRange := by
  refine ⟨fun r first count segment key x s hr hf hb h1 h2 h3 h4 => ⟨fun hx => ⟨?clear, ?set, ?segment⟩, fun hx => ⟨?clearAway, ?setAway, ?segmentAway⟩⟩,
    fun keep key a b n slot x f s hx hp hw => ⟨fun g pos hg ha hpos hapart => ?inside, fun byte hout => ?outside⟩,
    fun r first count segment key x s hr hf hb hs => ⟨?mask, ?current⟩⟩
  case clear => rw [exec_tagClearV, execTagClearV, tagEdit_runs _ _ hr hf hb h1 h2 h3 h4, editTags_resident _ _ _ hx]
  case set => rw [exec_tagSetV, execTagSetV, tagEdit_runs _ _ hr hf hb h1 h2 h3 h4, editTags_resident _ _ _ hx]
  case segment => rw [exec_tagSetSegment, execTagSetSegment, tagEdit_runs _ _ hr hf hb h1 h2 h3 h4, editTags_resident _ _ _ hx]
  case clearAway => rw [exec_tagClearV, execTagClearV, tagEdit_runs _ _ hr hf hb h1 h2 h3 h4, editTags_away _ _ _ hx]
  case setAway => rw [exec_tagSetV, execTagSetV, tagEdit_runs _ _ hr hf hb h1 h2 h3 h4, editTags_away _ _ _ hx]
  case segmentAway => rw [exec_tagSetSegment, execTagSetSegment, tagEdit_runs _ _ hr hf hb h1 h2 h3 h4, editTags_away _ _ _ hx]
  case inside =>
    have here : tagPlace (pavAt s n) slot a (pos - a, g) = nearKey (tagByte (pavAt s n) slot g pos).1 (tagByte (pavAt s n) slot g pos).2 := by
      simp only [tagPlace, Nat.add_sub_cancel' ha]
    have put := leNat_tagPuts f (tagPlace (pavAt s n) slot a) hw
      (List.Nodup.product (List.nodup_range (n := b - a)) (List.nodup_range (n := dGroups (pavAt s n).desc)))
      (x := (pos - a, g)) (by simp only [List.mem_product, List.mem_range]; omega) fun y hy hne => ?_
    · rw [here] at put
      simp only [tagAt, writeTags_near keep f hx hp]
      exact put
    · obtain ⟨j, h⟩ := y
      simp only [List.mem_product, List.mem_range] at hy
      rw [here]
      refine hapart h (a + j) hy.2 (by omega) (by omega) fun e => hne ?_
      obtain ⟨rfl, rfl⟩ := Prod.mk.inj e
      rw [Nat.add_sub_cancel_left]
  case outside =>
    rw [writeTags_near keep f hx hp]
    refine memByte_tagPuts_out f _ _ _ fun y hy => ?_
    obtain ⟨j, g⟩ := y
    simp only [List.mem_product, List.mem_range] at hy
    exact hout g (a + j) hy.2 (by omega) (by omega)
  case mask => rw [exec_setMaskMode, execSetMaskMode, tagEdit_runs_whole _ _ hr hf hb hs]
  case current => rw [exec_setCurrentSegment, execSetCurrentSegment, tagEdit_runs_whole _ _ hr hf hb hs]

end Sys2Proof.Machine
end

section
/-! PROOF. The result of a directory search (R179, R183). -/

namespace Sys2Proof.Machine

/-! ### Rows in their order -/

section
variable {α : Type}

theorem mem_of_mget {m : NMap α} {n : Nat} {v : α} (h : mget? m n = some v) : (n, v) ∈ m := by
  induction m with
  | nil => cases h
  | cons c m ih =>
    obtain ⟨k, w⟩ := c
    by_cases hk : n = k
    · simp only [mget?, if_pos hk] at h
      cases h
      rw [hk]
      exact List.mem_cons_self
    · simp only [mget?, if_neg hk] at h
      exact List.mem_cons_of_mem _ (ih h)

/-- The keys of a well-formed map lie above its bound. -/
theorem lt_of_mem {m : NMap α} {b n : Nat} {v : α} (h : mapWfFrom (some b) m = true) (hm : (n, v) ∈ m) : b < n := by
  induction m generalizing b with
  | nil => simp at hm
  | cons c m ih =>
    obtain ⟨k, w⟩ := c
    rw [mapWfFrom_cons] at h
    obtain ⟨hb, hrest⟩ := h
    have hk := hb b rfl
    rcases List.mem_cons.mp hm with e | hm
    · cases e; exact hk
    · exact lt_trans hk (ih hrest hm)

theorem mget_of_mem {m : NMap α} {lo : Option Nat} {n : Nat} {v : α} (h : mapWfFrom lo m = true) (hm : (n, v) ∈ m) :
    mget? m n = some v := by
  induction m generalizing lo with
  | nil => simp at hm
  | cons c m ih =>
    obtain ⟨k, w⟩ := c
    rw [mapWfFrom_cons] at h
    rcases List.mem_cons.mp hm with e | inRest
    · cases e; simp [mget?]
    · have above : k < n := lt_of_mem h.2 inRest
      rw [mget?, if_neg (Nat.ne_of_gt above), ih h.2 inRest]

/-- What is found first in a well-formed map has the lowest key of all that could be found. -/
theorem find_lowest {m : NMap α} {lo : Option Nat} {p : Nat × α → Bool} {k n : Nat} {w v : α} (h : mapWfFrom lo m = true)
    (hf : m.find? p = some (k, w)) (hm : (n, v) ∈ m) (hp : p (n, v) = true) : k ≤ n := by
  induction m generalizing lo with
  | nil => simp at hm
  | cons c m ih =>
    rw [mapWfFrom_cons] at h
    rcases List.mem_cons.mp hm with e | inRest
    · cases e
      rw [List.find?_cons_of_pos hp] at hf
      cases hf
      exact le_refl _
    · by_cases hc : p c = true
      · rw [List.find?_cons_of_pos hc] at hf
        cases hf
        exact le_of_lt (lt_of_mem h.2 inRest)
      · rw [List.find?_cons_of_neg hc] at hf
        exact ih h.2 hf inRest

end

/-! ### Searches -/

/-- A row that a search hits: visible at its epoch, with both key copies agreeing in every care bit (R183). -/
def hitBy (wide : Bool) (q ep : Nat) (e : DirRow) : Bool := e.visible ep && e.matchesKey wide q

theorem hitBy_iff (wide : Bool) (q ep : Nat) (e : DirRow) :
    hitBy wide q ep e = true ↔
      e.visible ep = true ∧ e.wide = wide ∧ e.key &&& e.care = q &&& e.care ∧ e.key2 &&& e.care = q &&& e.care := by
  simp only [hitBy, DirRow.matchesKey, DirRow.copyMatches, Bool.and_eq_true, decide_eq_true_eq, and_assoc]

/-- The lowest block entry a search hits, unless it ignores them. -/
def blockHit (rows : NMap DirRow) (wide : Bool) (q ep : Nat) (ignoreBlock : Bool) : Option (Nat × DirRow) :=
  if ignoreBlock then none else rows.find? (fun r => hitBy wide q ep r.2 && decide (r.2.data.state = 4))

/-- The exact entry a search hits. -/
def exactHit (rows : NMap DirRow) (wide : Bool) (q ep : Nat) : Option (Nat × DirRow) :=
  rows.find? (fun r => hitBy wide q ep r.2 && (decide (r.2.data.state ≠ 4) && decide (r.2.key = q)))

theorem dirSearch_eq (rows : NMap DirRow) (wide : Bool) (q ep : Nat) (ignoreBlock : Bool) :
    dirSearch rows wide q ep ignoreBlock = (blockHit rows wide q ep ignoreBlock).or (exactHit rows wide q ep) := by
  have block : (if ignoreBlock then none else (rows.filter (fun r => r.2.visible ep && r.2.matchesKey wide q)).find?
      (fun r => decide (r.2.data.state = 4))) = blockHit rows wide q ep ignoreBlock := by
    simp only [List.find?_filter, blockHit, hitBy, Bool.decide_and, Bool.decide_eq_true]
  have exact : (rows.filter (fun r => r.2.visible ep && r.2.matchesKey wide q)).find?
      (fun r => decide (r.2.data.state ≠ 4) && decide (r.2.key = q)) = exactHit rows wide q ep := by
    simp only [List.find?_filter, exactHit, hitBy, Bool.decide_and, Bool.decide_eq_true]
  unfold dirSearch
  dsimp only
  rw [block, exact]
  cases blockHit rows wide q ep ignoreBlock <;> rfl

section
variable {rows : NMap DirRow} {wide : Bool} {q ep : Nat} {ignoreBlock : Bool} {n : Nat} {e : DirRow}

theorem blockHit_some (h : blockHit rows wide q ep ignoreBlock = some (n, e)) :
    (n, e) ∈ rows ∧ hitBy wide q ep e = true ∧ e.data.state = 4 := by
  unfold blockHit at h
  split at h
  · cases h
  · exact ⟨List.mem_of_find?_eq_some h, by simpa using List.find?_some h⟩

theorem exactHit_some (h : exactHit rows wide q ep = some (n, e)) :
    (n, e) ∈ rows ∧ hitBy wide q ep e = true ∧ e.data.state ≠ 4 ∧ e.key = q := by
  exact ⟨List.mem_of_find?_eq_some h, by simpa using List.find?_some h⟩

theorem blockHit_none (h : blockHit rows wide q ep false = none) (hm : (n, e) ∈ rows) (hh : hitBy wide q ep e = true) :
    e.data.state ≠ 4 := by
  simpa [hh] using List.find?_eq_none.mp h _ hm

theorem exactHit_none (h : exactHit rows wide q ep = none) (hm : (n, e) ∈ rows) (hh : hitBy wide q ep e = true) :
    e.key ≠ q ∨ e.data.state = 4 := by
  have := List.find?_eq_none.mp h _ hm
  simp only [hh, Bool.true_and, Bool.and_eq_true, decide_eq_true_eq, not_and_or, not_not] at this
  exact this.symm

end

/-- Settles O39: the search is its block hit or else its exact hit (`dirSearch_eq`), each the lowest of its kind. -/
theorem searchResolvesItsMatches : Obligations.SearchResolvesItsMatches := by
  intro rows wide q ep ignoreBlock hw
  simp only [← hitBy_iff, dirSearch_eq]
  refine ⟨fun n e h => ?found, fun hi n e hg hh h4 => ?block, fun hb n e hg hh h4 hq => ?exact, fun h n e hg hh => ?miss⟩
  case found =>
    rcases Option.or_eq_some_iff.mp h with h | ⟨-, h⟩
    · obtain ⟨hm, hh, h4⟩ := blockHit_some h
      exact ⟨mget_of_mem hw hm, hh, .inl h4⟩
    · obtain ⟨hm, hh, -, hq⟩ := exactHit_some h
      exact ⟨mget_of_mem hw hm, hh, .inr hq⟩
  case block =>
    subst hi
    cases h : blockHit rows wide q ep false with
    | none => exact absurd h4 (blockHit_none h (mem_of_mget hg) hh)
    | some r =>
      obtain ⟨hm, hr, r4⟩ := blockHit_some h
      exact ⟨r.1, r.2, rfl, r4, find_lowest hw h (mem_of_mget hg) (by simp [hh, h4])⟩
  case exact =>
    have none : blockHit rows wide q ep ignoreBlock = none := by
      rcases hb with hb | hb
      · rw [hb]; rfl
      · cases h : blockHit rows wide q ep ignoreBlock with
        | none => rfl
        | some r =>
          obtain ⟨hm, hr, r4⟩ := blockHit_some h
          exact absurd r4 (hb r.1 r.2 (mget_of_mem hw hm) hr)
    rw [none, Option.none_or]
    cases h : exactHit rows wide q ep with
    | none => exact absurd (exactHit_none h (mem_of_mget hg) hh) (not_or.mpr ⟨not_not.mpr hq, h4⟩)
    | some r =>
      obtain ⟨hm, hr, r4, rq⟩ := exactHit_some h
      exact ⟨r.1, r.2, rfl, rq, r4, find_lowest hw h (mem_of_mget hg) (by simp [hh, h4, hq])⟩
  case miss =>
    exact exactHit_none (Option.or_eq_none_iff.mp h).2 (mem_of_mget hg) hh

end Sys2Proof.Machine
end

section
/-! PROOF. Celay links (R366 to R373, R388 to R390): what each command makes of its port. -/

namespace Sys2Proof.Machine

/-! ### Ports -/

@[simp] theorem clyAt_onCly_self (p : Nat) (f : CelayPort → CelayPort) (s : State) : clyAt (onCly p f s) p = f (clyAt s p) := by
  simp [clyAt, onCly]

@[simp] theorem clyAt_onCly_ne {p q : Nat} (h : q ≠ p) (f : CelayPort → CelayPort) (s : State) :
    clyAt (onCly p f s) q = clyAt s q := by
  simp [clyAt, onCly, h]

@[simp] theorem clyAt_clyAdd (p off n q : Nat) (s : State) : clyAt (clyAdd p off n s) q = clyAt s q := rfl

theorem clyUp_of_up {s : State} {p : Nat} (h : (clyAt s p).state = 2) : clyUp s p = true := decide_eq_true h

/-! ### Sending cells -/

/-- Between `s` and `t` port `p` takes cells from its queues: only those, its credits and its buckets move (R370 to R372). -/
def SendsCells (p : Nat) (s t : State) : Prop :=
  (∀ q, q ≠ p → clyAt t q = clyAt s q) ∧
    clyAt t p = { clyAt s p with
      queues := (clyAt t p).queues, credits := (clyAt t p).credits, tokens := (clyAt t p).tokens, tokensAt := (clyAt t p).tokensAt }

theorem SendsCells.refl (p : Nat) (s : State) : SendsCells p s s := ⟨fun _ _ => rfl, rfl⟩

theorem SendsCells.trans {p : Nat} {s t u : State} (h : SendsCells p s t) (g : SendsCells p t u) : SendsCells p s u := by
  obtain ⟨others, own⟩ := h
  obtain ⟨others', own'⟩ := g
  refine ⟨fun q hq => (others' q hq).trans (others q hq), ?_⟩
  rw [own] at own'
  exact own'

theorem onCly_sendsCells (p : Nat) {f : CelayPort → CelayPort} (s : State)
    (hf : ∀ x, f x = { x with queues := (f x).queues, credits := (f x).credits, tokens := (f x).tokens, tokensAt := (f x).tokensAt }) :
    SendsCells p s (onCly p f s) :=
  ⟨fun _ hq => clyAt_onCly_ne hq .., by rw [clyAt_onCly_self]; exact hf _⟩

theorem fillBuckets_sendsCells (p : Nat) (s : State) : SendsCells p s (fillBuckets p s) := onCly_sendsCells p s fun _ => rfl

theorem nextCell_sendsCells (p : Nat) (s : State) : SendsCells p s (nextCell p s).2 := by
  unfold nextCell
  split
  · exact .refl ..
  · split
    · exact .refl ..
    · split
      · exact .refl ..
      · exact onCly_sendsCells p s fun _ => rfl

theorem fillPlaces_sendsCells (p n : Nat) (s : State) : SendsCells p s (fillPlaces p n s).2 := by
  induction n generalizing s with
  | zero => exact .refl ..
  | succ n ih => exact (nextCell_sendsCells p s).trans (ih _)

/-! ### Taking cells -/

/-- Between `s` and `t` port `p` takes the cells of a flit: only its receive buffer and the credits it owes move (R370). -/
def TakesCells (p : Nat) (s t : State) : Prop :=
  clyAt t p = { clyAt s p with owed := (clyAt t p).owed, rx := (clyAt t p).rx }

theorem takeCell_eq (p : Nat) (c : Cell) (s : State) :
    takeCell p c s =
      if (msgListed c.kind && c.dest = clyNode (clyAdd p 0x118 1 s) p && c.dest ≠ 0xFFFFFFFF) = true then
        onCly p (fun x => { x with rx := x.rx ++ [c] }) (clyAdd p 0x118 1 s)
      else clyAdd p 0x120 1 (onCly p (fun x => { x with owed := malter x.owed c.tc 0 (· + 1) }) (clyAdd p 0x118 1 s)) := by
  unfold takeCell
  with_reducible rfl

theorem clyAt_received (p : Nat) (c : Cell) (s : State) :
    clyAt (onCly p (fun x => { x with rx := x.rx ++ [c] }) (clyAdd p 0x118 1 s)) p =
      { clyAt s p with rx := (clyAt s p).rx ++ [c] } := by
  rw [clyAt_onCly_self, clyAt_clyAdd]

theorem clyAt_dropped (p : Nat) (c : Cell) (s : State) :
    clyAt (clyAdd p 0x120 1 (onCly p (fun x => { x with owed := malter x.owed c.tc 0 (· + 1) }) (clyAdd p 0x118 1 s))) p =
      { clyAt s p with owed := malter (clyAt s p).owed c.tc 0 (· + 1) } := by
  rw [clyAt_clyAdd, clyAt_onCly_self, clyAt_clyAdd]

theorem takeCell_takesCells (p : Nat) (c : Cell) (s : State) : TakesCells p s (takeCell p c s) := by
  rw [takeCell_eq]
  unfold TakesCells
  split
  · rw [clyAt_received]
  · rw [clyAt_dropped]

theorem takeCells_takesCells (p : Nat) (g : Nat → Cell) (l : List Nat) (s : State) :
    TakesCells p s (l.foldl (fun s i => takeCell p (g i) s) s) := by
  induction l generalizing s with
  | nil => exact rfl
  | cons i l ih =>
    have first := takeCell_takesCells p (g i) s
    have rest := ih (takeCell p (g i) s)
    unfold TakesCells at first rest ⊢
    rw [first] at rest
    exact rest

/-- What an accepted flit makes of its port's sequence numbers, replay and NAKs (R368). -/
theorem takeFlit_port (p : Nat) (b : List Byte) (s : State) :
    let x := clyAt s p
    let kept := ackFlits (leField b 2 2 % 4096) x.replay
    let nak := bitOf (leField b 2 2) 15
    let y := clyAt (takeFlit p b s) p
    y.rxSeq = leField b 0 2 ∧ y.replay = kept ∧ y.state = x.state ∧ y.resend = (if nak = true then kept else x.resend) ∧
      y.fails = (if nak = false then 0 else if kept.length ≠ x.replay.length then 1
        else if x.fails ≠ 0 ∧ x.resend = kept then x.fails else x.fails + 1) := by
  have cells := takeCells_takesCells p (fun i => cellOf ((b.drop (16 + 256 * i)).take 256))
    ((List.range 4).filter (fun i => bitOf (leField b 8 1) i))
  unfold TakesCells at cells
  unfold takeFlit
  dsimp only
  rw [cells]
  simp only [clyAt_onCly_self]
  refine ⟨trivial, trivial, trivial, trivial, ?_⟩
  cases bitOf (leField b 2 2) 15 <;> rfl

/-! ### Credits -/

/-- The non-zero values of a list of keys, read back. -/
theorem mgetD_nonzero (f : Nat → Nat) (l : List Nat) (i : Nat) :
    mgetD ((l.map (fun t => (t, f t))).filter (fun c => decide (c.2 ≠ 0))) i 0 = if i ∈ l then f i else 0 := by
  induction l with
  | nil => rfl
  | cons t l ih =>
    rw [List.map_cons, List.filter_cons]
    by_cases ht : i = t
    · subst ht
      by_cases h0 : f i = 0
      · rw [if_neg (by simp [h0]), ih]
        simp [h0]
      · rw [if_pos (by simp [h0]), mgetD, mget?, if_pos rfl]
        simp
    · have hmem : (i ∈ t :: l) = (i ∈ l) := by simp [ht]
      simp only [hmem, ← ih]
      split
      · rw [mgetD, mget?, if_neg ht, mgetD]
      · rfl

/-! ### The commands -/

section
variable {c : Fin 4} {s : State}

/-- A new flit takes the next sequence number and joins the replay buffer (R368, R389). -/
theorem flitTransmit_new (h : (clyAt s c).state = 2) (hr : (clyAt s c).resend = [] ∨ (clyAt s c).swap = true)
    (hn : (clyAt s c).replay.length < 512) :
    ∃ t, exec (.flitTransmit c) s = .next t ∧ (clyAt t c).txSeq = ((clyAt s c).txSeq + 1) % 4096 ∧
      (clyAt t c).replay.length = (clyAt s c).replay.length + 1 ∧ (clyAt t c).nak = false ∧ (clyAt t c).rx = (clyAt s c).rx ∧
      (clyAt t c).swap = false ∧ (clyAt t c).resend = (if (clyAt s c).swap then (clyAt t c).replay else []) ∧
      ∀ q, q ≠ c.val → clyAt t q = clyAt s q := by
  have sends : SendsCells c s (fillPlaces c 4 (fillBuckets c s)).2 :=
    (fillBuckets_sendsCells c s).trans (fillPlaces_sendsCells c 4 _)
  obtain ⟨others, own⟩ := sends
  have none : (if (clyAt s c).swap && decide ((clyAt s c).replay.length < 512) then [] else (clyAt s c).resend) = [] := by
    split
    · rfl
    · rename_i hs
      simp only [Bool.and_eq_true, decide_eq_true_eq, not_and] at hs
      exact hr.resolve_right fun e => hs e hn
  have old : (clyAt s c).swap = false → (clyAt s c).resend = [] := fun e => hr.resolve_right (by simp [e])
  rw [exec_flitTransmit]
  unfold execFlitTransmit
  dsimp only
  rw [if_neg (not_not.mpr h), none]
  dsimp only
  rw [if_neg (by omega)]
  refine ⟨_, rfl, ?_⟩
  simp only [clyAt_onCly_self, clyAt_clyAdd]
  generalize (fillPlaces c 4 (fillBuckets c s)).2 = u at own others ⊢
  rw [own]
  refine ⟨rfl, by simp, trivial, rfl, trivial, ?_, fun q hq => by rw [clyAt_onCly_ne hq, clyAt_clyAdd, others q hq]⟩
  cases hs : (clyAt s c).swap with
  | true => rfl
  | false => exact old hs

end

/-- Settles O48: command by command; a new flit by `flitTransmit_new`, an accepted one by `takeFlit_port`. -/
theorem celayLinksCarryFlits : Obligations.CelayLinksCarryFlits := by
  refine ⟨fun c f fs s h hr hs => ?replay, fun c s h hr hn => flitTransmit_new h hr hn, fun c k b s h hb => ?bad,
    fun c k b s h hg => ?good, fun c i left s h hg => ?gate, fun f c v s hc hr => ⟨fun hv he => ?enable, fun hv he => ?disable⟩,
    fun c lanes s h => ⟨fun hn => ?down, fun hn => ?up⟩, fun c s h he ht => ?retry, fun c lane s h hl => ⟨fun hs => ?swap, fun hs => ?lost⟩⟩
  case replay =>
    have some : (if (clyAt s c).swap && decide ((clyAt s c).replay.length < 512) then [] else (clyAt s c).resend) = f :: fs := by
      rw [if_neg, hr]
      rcases hs with hs | hs
      · simp [hs]
      · simp [Nat.not_lt.mpr hs]
    rw [exec_flitTransmit]
    unfold execFlitTransmit
    dsimp only
    rw [if_neg (not_not.mpr h), some]
  case bad =>
    refine ⟨onCly c (fun x => { x with nak := true }) (clyAdd c 0x100 k s), ?_, clyAt_onCly_self .., rfl⟩
    rw [exec_flitReceive]
    unfold execFlitReceive
    rw [clyUp_of_up h]
    cases b with
    | none => rfl
    | some y => simp [hb y rfl]
  case good =>
    obtain ⟨seq, kept, state, resend, fails⟩ := takeFlit_port c b (clyAdd c 0x100 k s)
    simp only [clyAt_clyAdd] at seq kept state resend fails
    generalize hu : takeFlit c b (clyAdd c 0x100 k s) = u at seq kept state resend fails
    have accepted : exec (.flitReceive c (some b) k) s =
        let t := if bitOf (leField b 5 1) 0 then onCly c (fun x => { x with resend := x.replay }) u else u
        .next (if 9 ≤ (clyAt t c).fails then portDown c 3 0xFF t else t) := by
      rw [exec_flitReceive]
      unfold execFlitReceive
      rw [clyUp_of_up h]
      dsimp only
      rw [clyAt_clyAdd, hg, hu]
      rfl
    dsimp only at accepted
    generalize ht : (if bitOf (leField b 5 1) 0 then onCly c (fun x => { x with resend := x.replay }) u else u) = t at accepted
    have port : clyAt t c = { clyAt u c with
        resend := if bitOf (leField b 5 1) 0 = true then (clyAt u c).replay else (clyAt u c).resend } := by
      rw [← ht]
      split
      · rw [clyAt_onCly_self]
      · rfl
    have failed : (clyAt t c).fails = (clyAt u c).fails := by rw [port]
    refine ⟨t, by rw [port]; exact seq, by rw [failed]; exact fails, by rw [port]; exact kept, by rw [port]; exact state.trans h, ?_,
      fun hf => ?_, fun hf => ?_⟩
    · rw [port]
      dsimp only
      rw [resend, kept]
      by_cases swap : bitOf (leField b 5 1) 0 = true <;> simp [swap]
    · rw [accepted, if_neg (by rw [failed, fails]; exact Nat.not_le.mpr hf)]
    · rw [accepted, if_pos (by rw [failed, fails]; exact hf)]
  case gate => rw [exec_gateEntryAdvance, execGateEntryAdvance, h, hg]; rfl
  case enable =>
    refine ⟨onCly c (fun x => { x with state := 1 }) (regOr 0 (clyOff c 0) 1 (setFields f.port.idx (clyOff c 0) v.toNat s)), ?_,
      by rw [clyAt_onCly_self]⟩
    rw [exec_celayEnable, execCelayEnable, hc, hr, hv, he]
    rfl
  case disable =>
    rw [exec_celayDisable, execCelayDisable, if_pos (by simp [hc, hr, hv, he])]
    simp only [clyDisable, clyUp, decide_eq_true_eq]
  case down =>
    rw [exec_celayLinkUp, execCelayLinkUp, if_neg (not_not.mpr h), if_pos hn]
  case up =>
    refine ⟨_, (exec_celayLinkUp ..).trans ((if_neg (not_not.mpr h)).trans (if_neg (Nat.not_lt.mpr hn))), ?_⟩
    simp only [clyAt_onCly_self, true_and]
    intro i hi
    rw [mgetD_nonzero (fun t => rxShare s c t), if_pos (List.mem_range.mpr hi)]
  case retry =>
    rw [exec_celayBringupRetry, execCelayBringupRetry, if_pos (by simp [h, he, ht])]
  case swap =>
    refine ⟨clyAdd c 0x10C 1 (onCly c (fun x => { x with outLane := lane, swap := true, resend := x.replay }) s), ?_,
      (clyAt_clyAdd ..).trans (clyAt_onCly_self ..)⟩
    rw [exec_laneSwap, execLaneSwap, if_neg (by simp [h, hl]), if_neg (by simp [hs.1, hs.2])]
  case lost =>
    rw [exec_laneSwap, execLaneSwap, if_neg (by simp [h, hl]), if_pos (by simpa [imp_iff_not_or] using hs)]

end Sys2Proof.Machine
end

section
/-! PROOF. Register accesses (R8, R9, R17, R63, R177, R339): reads under the holding register, writes of fields, BAY_ARITH_FLAGS and
the hub's K4 tables. -/

namespace Sys2Proof.Machine

/-! ### Reads (R8) -/

/-- Settles O4: a read is decided by the half its offset names and by what the holding register was last filled for. -/
theorem readsFollowTheHoldingRegister : Obligations.ReadsFollowTheHoldingRegister := by
  intro f off s ha hin hd
  have reads : execLowHalfRead f .bar0 off s = if (readPlace s f .bar0 off).2 = 1 then
        .next { s with readHold := mput s.readHold f.key ⟨0, off, (readPlace s f .bar0 off).1 / 2 ^ 32 % 2 ^ 32⟩
                       reply := .word (BitVec.ofNat 32 (readPlace s f .bar0 off).1) }
      else if (readPlace s f .bar0 off).2 = 2 then
        match mget? s.readHold f.key with
        | some h => .next { s with reply := .word (BitVec.ofNat 32
            (if h.bar = 0 ∧ h.off = off - 4 then h.val else (readPlace s f .bar0 off).1 / 2 ^ 32)) }
        | none => .next { s with reply := .word (BitVec.ofNat 32 ((readPlace s f .bar0 off).1 / 2 ^ 32)) }
      else .next { s with reply := .word (BitVec.ofNat 32 (readPlace s f .bar0 off).1) } := by
    unfold execLowHalfRead
    exact if_neg (by simp [ha, hin, hd])
  rw [exec_lowHalfRead, reads]
  refine ⟨fun hl hh => ?low, fun hh v hv => ?held, fun hh hn => ?live, fun hh hl => ?word⟩
  case low =>
    have place : readPlace s f .bar0 off = (regView s f off, 1) := by simp [readPlace, hl, hh]
    rw [place, if_pos rfl]
  case held =>
    have place : readPlace s f .bar0 off = (regView s f (off - 4), 2) := by simp [readPlace, hh]
    rw [place, if_neg (by simp), if_pos rfl, hv]
    simp
  case live =>
    have place : readPlace s f .bar0 off = (regView s f (off - 4), 2) := by simp [readPlace, hh]
    rw [place, if_neg (by simp), if_pos rfl]
    cases hg : mget? s.readHold f.key with
    | none => rfl
    | some h => exact congrArg (fun x => Host.Outcome.next { s with reply := .word (BitVec.ofNat 32 x) }) (if_neg (hn h hg))
  case word =>
    have place : readPlace s f .bar0 off = (regView s f off, 0) := by simp [readPlace, hl, hh]
    rw [place, if_neg (by simp), if_neg (by simp)]

/-! ### Writes (R8, R9, R329, R339) -/

/-- The low half that a write of a high half combines with, as the statements name it. -/
theorem heldLow_of_combines {s : State} {f : Fn} {bar off cur low : Nat} (h : Combines s f bar off cur low) :
    heldLow s f bar off cur = low := by
  unfold heldLow
  rcases h with h | ⟨h, rfl⟩
  · rw [h]
    exact if_pos ⟨rfl, rfl⟩
  · cases hg : mget? s.writeHold f.key with
    | none => rfl
    | some x => exact if_neg (h x hg)

theorem isAssign_fence : isAssign 0xB0000 = false := by decide

/-- A write sets the register's fields, but where it changes PAV_ASSIGN of locked interfaces (R9, R329). -/
theorem setFields_eq {off : Nat} {row : RegRow} (h : regRow off = some row) (p v : Nat) (s : State) :
    setFields p off v s =
      let new := written row off (regGet s p off) v
      let hit := if isAssign off then lockedFns s p (regGet s p off ^^^ new) else []
      if hit = [] then regSet p off new s else tdiError hit s := by
  unfold setFields
  rw [h]
  dsimp only
  cases ha : isAssign off with
  | true =>
    have away : off ≠ 0xB0000 := by
      rintro rfl
      rw [isAssign_fence] at ha
      cases ha
    simp only [written, away, maskChange, if_true, false_and, if_false]
    rfl
  | false => rfl

/-- Settles O5: a write is decided by the function, the half its offset names and its region's gate; `setFields_eq` for the fields. -/
theorem registerWritesSetTheirFields : Obligations.RegisterWritesSetTheirFields := by
  refine ⟨fun f off v s => ⟨fun hp hd hl => ⟨fun hg => ?lowOpen, fun hg => ?lowDropped, fun hg => ?lowRecorded⟩,
      fun hp hd hh => ⟨fun row low hg hr hc => ?highOpen, fun hg => ?highDropped, fun hg => ?highRecorded⟩,
      fun hp => ⟨?lowVf, ?highVf⟩, fun hs => ?ringLow, fun low hs hc => ?rqBase, fun low hs hc => ?cqBase, fun hs => ⟨?lowOther, ?highOther⟩⟩,
    fun f off v s => ⟨fun hp hd hl hh => ⟨fun row hg hr => ?wordOpen, fun hg => ?wordDropped, fun hg => ?wordRecorded⟩,
      fun hp => ?wordVf, fun hs => ?rqSize, fun hs => ?cqSize, fun hs => ?ringCtrl, fun hs => ?other⟩⟩
  case lowOpen => rw [exec_lowHalfWrite, execLowHalfWrite, if_pos (by simp [hp, hd, hl]), hg]
  case lowDropped => rw [exec_lowHalfWrite, execLowHalfWrite, if_pos (by simp [hp, hd, hl]), hg]
  case lowRecorded => rw [exec_lowHalfWrite, execLowHalfWrite, if_pos (by simp [hp, hd, hl]), hg]; rfl
  case highOpen =>
    rw [exec_highHalfWrite, execHighHalfWrite, if_pos (by simp [hp, hd, hh]), hg]
    dsimp only
    rw [heldLow_of_combines hc, setFields_eq hr]
    rfl
  case highDropped => rw [exec_highHalfWrite, execHighHalfWrite, if_pos (by simp [hp, hd, hh]), hg]
  case highRecorded => rw [exec_highHalfWrite, execHighHalfWrite, if_pos (by simp [hp, hd, hh]), hg]; rfl
  case lowVf => rw [exec_lowHalfWrite, execLowHalfWrite, if_neg (by simp [hp])]
  case highVf => rw [exec_highHalfWrite, execHighHalfWrite, if_neg (by simp [hp])]
  case ringLow => rw [exec_lowHalfWrite, execLowHalfWrite, if_pos (by rcases hs with hs | hs <;> simp [hs])]
  case rqBase =>
    rw [exec_highHalfWrite, execHighHalfWrite]
    dsimp only
    rw [if_pos (by simp [hs]), heldLow_of_combines hc]
  case cqBase =>
    rw [exec_highHalfWrite, execHighHalfWrite]
    dsimp only
    rw [if_neg (by simp [hs]), if_pos (by simp [hs]), heldLow_of_combines hc]
  case lowOther => rw [exec_lowHalfWrite, execLowHalfWrite, if_neg (fun h => hs h.1)]
  case highOther =>
    rw [exec_highHalfWrite, execHighHalfWrite]
    dsimp only
    rw [if_neg (fun h => hs h.1), if_neg (fun h => hs h.1)]
  case wordOpen =>
    rw [exec_registerWrite, execRegisterWrite, if_pos (by simp [hp, hd, hl, hh]), hg]
    exact congrArg Host.Outcome.next (setFields_eq hr ..)
  case wordDropped => rw [exec_registerWrite, execRegisterWrite, if_pos (by simp [hp, hd, hl, hh]), hg]
  case wordRecorded => rw [exec_registerWrite, execRegisterWrite, if_pos (by simp [hp, hd, hl, hh]), hg]; rfl
  case wordVf => rw [exec_registerWrite, execRegisterWrite, if_neg (by simp [hp])]
  case rqSize => simp [execRegisterWrite, hs]
  case cqSize => simp [execRegisterWrite, hs]
  case ringCtrl => simp [execRegisterWrite, hs]
  case other =>
    rw [exec_registerWrite, execRegisterWrite]
    dsimp only
    split
    · rename_i own
      have away := hs.resolve_left (not_not.mpr own)
      simp only [List.mem_cons, List.not_mem_nil, or_false, not_or] at away
      obtain ⟨h1, h2, h3⟩ := away
      rw [if_neg h1, if_neg h2, if_neg h3]
    · rfl

/-! ### BAY_ARITH_FLAGS (R17, R63) -/

theorem regKey_arithFlags {b : Nat} (h : b < 21) (p : Nat) :
    regKey p (0x1080000 + b * 0x100000) = p * 2 ^ 32 + (0x1080000 + b * 0x100000) := by
  rw [regKey, regRow_arithFlags h]; rfl

theorem regKey_arithFirst {b : Nat} (h : b < 21) (p : Nat) :
    regKey p (0x1080004 + b * 0x100000) = p * 2 ^ 32 + (0x1080004 + b * 0x100000) := by
  rw [regKey, regRow_arithFirst h]; rfl

theorem port_idx_lt (x : Port) : x.idx < 2 := by cases x <;> decide

theorem port_other_idx (x : Port) : x.other.idx ≠ x.idx := by cases x <;> decide

/-- Settles O6: the flags lose the bits written; BAY_ARITH_FIRST is another register, and so are the other port's copies. -/
theorem arithFlagsClearOnOnes : Obligations.ArithFlagsClearOnOnes := by
  intro f b v s hp hb
  dsimp only
  intro hold
  have flagsAt : 0x1000000 + b.val * 0x100000 + 0x80000 = 0x1080000 + b.val * 0x100000 := by omega
  have firstAt : 0x1000000 + b.val * 0x100000 + 0x80004 = 0x1080004 + b.val * 0x100000 := by omega
  have flagsKey := regKey_arithFlags b.isLt
  have firstKey := regKey_arithFirst b.isLt
  have apart := port_other_idx f.port
  have run : ∃ cores, exec (.bayArithFlagsClear f b v) s =
      let u := { regClear f.port.idx (0x1080000 + b.val * 0x100000) (v.toNat % 32) s with cores := cores }
      .next (if regGet u f.port.idx (0x1080000 + b.val * 0x100000) = 0 then
        regSet f.port.idx (0x1080004 + b.val * 0x100000) 0 u else u) := by
    rw [exec_bayArithFlagsClear]
    unfold execBayArithFlagsClear
    dsimp only
    rw [if_neg (by simp [hp]), if_neg (by simp [hb])]
    simp only [flagsAt, firstAt]
    exact ⟨_, rfl⟩
  rw [flagsAt] at hold ⊢
  rw [firstAt]
  obtain ⟨cores, run⟩ := run
  dsimp only at run
  generalize hu : ({ regClear f.port.idx (0x1080000 + b.val * 0x100000) (v.toNat % 32) s with cores := cores } : State) = u at run
  have regs : ∀ p off, regGet u p off = regGet (regClear f.port.idx (0x1080000 + b.val * 0x100000) (v.toNat % 32) s) p off :=
    fun p off => by rw [← hu]; rfl
  have rest : { u with regs := s.regs, cores := s.cores } = s := by rw [← hu]; rfl
  have flags : regGet u f.port.idx (0x1080000 + b.val * 0x100000) =
      regGet s f.port.idx (0x1080000 + b.val * 0x100000) -
        (regGet s f.port.idx (0x1080000 + b.val * 0x100000) &&& (v.toNat % 32)) := by
    rw [regs, regClear, regGet_regSet_self, regRow_arithFlags b.isLt]
    exact Nat.mod_eq_of_lt (lt_of_le_of_lt (Nat.sub_le ..) hold)
  have kept : ∀ q off, regKey q off ≠ regKey f.port.idx (0x1080000 + b.val * 0x100000) → regGet u q off = regGet s q off :=
    fun q off hne => (regs q off).trans (regGet_regSet_ne _ _ _ _ _ _ hne)
  have first := kept f.port.idx (0x1080004 + b.val * 0x100000) (by rw [flagsKey, firstKey]; omega)
  have otherFlags := kept f.port.other.idx (0x1080000 + b.val * 0x100000) (by rw [flagsKey, flagsKey]; omega)
  have otherFirst := kept f.port.other.idx (0x1080004 + b.val * 0x100000) (by rw [flagsKey, firstKey]; omega)
  rw [flags] at run
  rw [run]
  by_cases clear : regGet s f.port.idx (0x1080000 + b.val * 0x100000) -
      (regGet s f.port.idx (0x1080000 + b.val * 0x100000) &&& (v.toNat % 32)) = 0
  · rw [if_pos clear]
    have still : ∀ q off, regKey q off ≠ regKey f.port.idx (0x1080004 + b.val * 0x100000) →
        regGet (regSet f.port.idx (0x1080004 + b.val * 0x100000) 0 u) q off = regGet u q off :=
      fun q off hne => regGet_regSet_ne _ _ _ _ _ _ hne
    refine ⟨_, rfl, ?_, fun _ => ?_, fun h => absurd clear h, ?_, ?_, rest⟩
    · rw [still _ _ (by rw [flagsKey, firstKey]; omega), flags]
    · rw [regGet_regSet_self, Nat.zero_mod]
    · rw [still _ _ (by rw [flagsKey, firstKey]; omega), otherFlags]
    · rw [still _ _ (by rw [firstKey, firstKey]; omega), otherFirst]
  · rw [if_neg clear]
    exact ⟨u, rfl, flags, fun h => absurd h clear, fun _ => first, otherFlags, otherFirst, rest⟩

/-! ### The hub's K4 tables (R177) -/

/-- The words of the hub's K4 tables (R490). -/
theorem regRow_k4 (n : Fin 16) (w : Fin 4) : regRow (k4Off n w) = some (regs32 0xC0100 4 64 .perPort 0 0xFFFFFFFF) := by
  revert n w
  decide

theorem regKey_k4 (p : Nat) (n : Fin 16) (w : Fin 4) : regKey p (k4Off n w) = p * 2 ^ 32 + k4Off n w := by
  rw [regKey, regRow_k4]; rfl

theorem regGet_k4_same (p : Nat) (n : Fin 16) (w : Fin 4) {v : Nat} (h : v < 2 ^ 32) (s : State) :
    regGet (regSet p (k4Off n w) v s) p (k4Off n w) = v := by
  rw [regGet_regSet_self, regRow_k4]
  exact Nat.mod_eq_of_lt h

theorem regGet_k4_ne (p : Nat) (n : Fin 16) {w u : Fin 4} (h : u ≠ w) (v : Nat) (s : State) :
    regGet (regSet p (k4Off n w) v s) p (k4Off n u) = regGet s p (k4Off n u) := by
  refine regGet_regSet_ne _ _ _ _ _ _ ?_
  have := Fin.val_ne_of_ne h
  rw [regKey_k4, regKey_k4, k4Off, k4Off]
  omega

/-- A word of a table takes its held value, where one is held (R177). -/
def k4Word (p : Nat) (n : Fin 16) (w : Fin 4) (s : State) : State :=
  match mget? s.k4Held (k4Key p n w) with
  | none => s
  | some x => { regSet p (k4Off n w) x s with k4Held := mdel s.k4Held (k4Key p n w) }

/-- What a word's held value makes of the tables and of what is held. -/
structure K4Takes (p : Nat) (n : Fin 16) (w : Fin 4) (s t : State) : Prop where
  value : regGet t p (k4Off n w) = (mget? s.k4Held (k4Key p n w)).getD (regGet s p (k4Off n w))
  released : mget? t.k4Held (k4Key p n w) = none
  wf : mapWf t.k4Held = true
  values : ∀ u, u ≠ w → regGet t p (k4Off n u) = regGet s p (k4Off n u)
  helds : ∀ u : Fin 4, u ≠ w → mget? t.k4Held (k4Key p n u) = mget? s.k4Held (k4Key p n u)
  rest : { t with regs := s.regs, k4Held := s.k4Held } = s

theorem k4Word_takes (p : Nat) (n : Fin 16) (w : Fin 4) {s : State} (hw : mapWf s.k4Held = true)
    (hlt : ∀ x, mget? s.k4Held (k4Key p n w) = some x → x < 2 ^ 32) : K4Takes p n w s (k4Word p n w s) := by
  unfold k4Word
  cases h : mget? s.k4Held (k4Key p n w) with
  | none => exact ⟨by rw [h]; rfl, h, hw, fun _ _ => rfl, fun _ _ => rfl, rfl⟩
  | some x =>
    refine ⟨by rw [h]; exact regGet_k4_same p n w (hlt x h) s, mget_mdel_self _ hw, mapWf_mdel _ hw,
      fun u hu => regGet_k4_ne p n hu x s, fun u hu => mget_mdel_ne _ _ _ ?_, rfl⟩
    have := Fin.val_ne_of_ne hu
    simp only [k4Key]
    omega

/-- Settles O7: each of the three held words in turn by `k4Word_takes`, then word 3. -/
theorem k4TablesChangeWhole : Obligations.K4TablesChangeWhole := by
  refine ⟨fun f n w v s hp hr => ?held, fun f n v s hp hr hw hlt => ?commit⟩
  case held => rw [exec_k4TableHeldWrite, execK4TableHeldWrite, if_pos (by simp [hp, hr])]
  case commit =>
    generalize hq : f.port.idx = p at hlt
    have runs : exec (.k4TableCommitWrite f n v) s =
        .next (regSet p (k4Off n (3 : Fin 4)) v.toNat (k4Word p n 2 (k4Word p n 1 (k4Word p n 0 s)))) := by
      rw [exec_k4TableCommitWrite, execK4TableCommitWrite, if_pos (by simp [hp, hr]), ← hq]
      rfl
    obtain ⟨s0, e0, t0⟩ : ∃ t, k4Word p n 0 s = t ∧ K4Takes p n 0 s t := ⟨_, rfl, k4Word_takes p n 0 hw (hlt _)⟩
    obtain ⟨s1, e1, t1⟩ : ∃ t, k4Word p n 1 s0 = t ∧ K4Takes p n 1 s0 t :=
      ⟨_, rfl, k4Word_takes p n 1 t0.wf (fun x h => hlt _ x ((t0.helds 1 (by decide)).symm.trans h))⟩
    obtain ⟨s2, e2, t2⟩ : ∃ t, k4Word p n 2 s1 = t ∧ K4Takes p n 2 s1 t :=
      ⟨_, rfl, k4Word_takes p n 2 t1.wf
        (fun x h => hlt _ x ((t0.helds 2 (by decide)).symm.trans ((t1.helds 2 (by decide)).symm.trans h)))⟩
    rw [e0, e1, e2] at runs
    have value : ∀ w : Fin 4, w ≠ 3 → regGet (regSet p (k4Off n (3 : Fin 4)) v.toNat s2) p (k4Off n w) = regGet s2 p (k4Off n w) :=
      fun w hne => regGet_k4_ne p n hne _ _
    have word0 := ((value 0 (by decide)).trans (t2.values 0 (by decide))).trans ((t1.values 0 (by decide)).trans t0.value)
    have word1 := ((value 1 (by decide)).trans (t2.values 1 (by decide))).trans t1.value
    have word2 := (value 2 (by decide)).trans t2.value
    rw [t0.helds 1 (by decide), t0.values 1 (by decide)] at word1
    rw [t1.helds 2 (by decide), t0.helds 2 (by decide), t1.values 2 (by decide), t0.values 2 (by decide)] at word2
    refine ⟨_, runs, regGet_k4_same p n 3 v.isLt s2, fun w => ?_, fun w => ?_, ?_⟩
    · match w with
      | 0 => exact word0
      | 1 => exact word1
      | 2 => exact word2
    · match w with
      | 0 => exact ((t2.helds 0 (by decide)).trans (t1.helds 0 (by decide))).trans t0.released
      | 1 => exact (t2.helds 1 (by decide)).trans t1.released
      | 2 => exact t2.released
    · calc ({ regSet p (k4Off n (3 : Fin 4)) v.toNat s2 with regs := s.regs, k4Held := s.k4Held } : State)
          = { s2 with regs := s.regs, k4Held := s.k4Held } := rfl
        _ = { s1 with regs := s.regs, k4Held := s.k4Held } :=
            congrArg (fun x : State => { x with regs := s.regs, k4Held := s.k4Held }) t2.rest
        _ = { s0 with regs := s.regs, k4Held := s.k4Held } :=
            congrArg (fun x : State => { x with regs := s.regs, k4Held := s.k4Held }) t1.rest
        _ = s := t0.rest

end Sys2Proof.Machine
end

section
/-! PROOF. The error log (R443 to R445), scrubbing and clock faults (R438, R452 to R457): what raising an error can change, and the
commands that end with one. -/

namespace Sys2Proof.Machine

/-! ### What raising an error can change -/

/-- `t` differs from `s` at most in what delivering a record reaches: the ports' queues, registers and messages (R445). -/
def OnQueues (s t : State) : Prop :=
  t = { s with errQueueA := t.errQueueA, errQueueB := t.errQueueB, regs := t.regs, irqs := t.irqs }

/-- `t` differs from `s` at most in what raising an error reaches: the sources' places, the module log and the ports' queues,
registers and messages (R443 to R445). -/
def OnLog (s t : State) : Prop :=
  t = { s with errSources := t.errSources, errQueueA := t.errQueueA, errQueueB := t.errQueueB, modLog := t.modLog,
               regs := t.regs, irqs := t.irqs }

theorem OnQueues.trans {s t u : State} (h : OnQueues s t) (g : OnQueues t u) : OnQueues s u := by
  unfold OnQueues at g
  rw [(h : t = _)] at g
  exact g

theorem OnQueues.ite {c : Prop} [Decidable c] {s t u : State} (ht : OnQueues s t) (hu : OnQueues s u) :
    OnQueues s (if c then t else u) := by
  split
  · exact ht
  · exact hu

theorem OnLog.refl (s : State) : OnLog s s := rfl

theorem OnLog.trans {s t u : State} (h : OnLog s t) (g : OnLog t u) : OnLog s u := by
  unfold OnLog at g
  rw [(h : t = _)] at g
  exact g

theorem OnQueues.onLog {s t : State} (h : OnQueues s t) : OnLog s t := by
  unfold OnQueues at h
  rw [h]
  rfl

theorem OnQueues.errSource {s t : State} (h : OnQueues s t) (x : Nat) : errSource t x = errSource s x := by
  rw [show t = _ from h]
  rfl

theorem OnQueues.modLog {s t : State} (h : OnQueues s t) : t.modLog = s.modLog := by rw [show t = _ from h]

theorem setErrQueue_onQueues (p : Nat) (q : ErrQueue) (s : State) : OnQueues s (setErrQueue p q s) := by
  unfold setErrQueue
  split <;> rfl

theorem regAdd_onQueues (p off n : Nat) (s : State) : OnQueues s (regAdd p off n s) := rfl

theorem noticeIrq_onQueues (p : Nat) (s : State) : OnQueues s (noticeIrq p s) := rfl

theorem queueErr_onQueues (p : Nat) (e : ErrRec) (s : State) : OnQueues s (queueErr p e s) := by
  have counted := regAdd_onQueues p (0x20010 + 4 * e.cls) 1 s
  unfold queueErr
  dsimp only
  generalize regAdd p (0x20010 + 4 * e.cls) 1 s = s1 at counted ⊢
  split
  · exact counted
  · generalize hu : (if decide (256 ≤ (errQueue s1 p).recs.length) = true then regAdd p 0x2000C 1 s1 else s1) = u
    have lost : OnQueues s1 u := by
      rw [← hu]
      split
      · rfl
      · rfl
    have queued : ∀ q, OnQueues s (setErrQueue p q u) := fun q => (counted.trans lost).trans (setErrQueue_onQueues p q u)
    exact OnQueues.ite ((queued _).trans (noticeIrq_onQueues ..)) (queued _)

theorem queueErrs_onQueues (e : ErrRec) (s : State) :
    OnQueues s (if e.port = 0xFF then queueErr 1 e (queueErr 0 e s) else queueErr e.port e s) := by
  split
  · exact (queueErr_onQueues ..).trans (queueErr_onQueues ..)
  · exact queueErr_onQueues ..

theorem errSource_deliverErr (e : ErrRec) (s : State) (x : Nat) : errSource (deliverErr e s) x = errSource s x :=
  (queueErrs_onQueues e { s with modLog := (e :: s.modLog).take 256 }).errSource x

theorem modLog_deliverErr (e : ErrRec) (s : State) : (deliverErr e s).modLog = (e :: s.modLog).take 256 :=
  (queueErrs_onQueues e { s with modLog := (e :: s.modLog).take 256 }).modLog

theorem deliverErr_onLog (e : ErrRec) (s : State) : OnLog s (deliverErr e s) :=
  OnLog.trans (t := { s with modLog := (e :: s.modLog).take 256 }) rfl (queueErrs_onQueues e _).onLog

theorem setErrSource_onLog (src : Nat) (x : ErrSource) (s : State) : OnLog s (setErrSource src x s) := rfl

theorem raiseErr_onLog (e : ErrRec) (s : State) : OnLog s (raiseErr e s) := by
  unfold raiseErr
  dsimp only
  split
  · rfl
  · split
    · exact (setErrSource_onLog ..).trans (deliverErr_onLog ..)
    · rfl
    · split <;> rfl

@[simp] theorem errSource_setErrSource_self (src : Nat) (x : ErrSource) (s : State) : errSource (setErrSource src x s) src = x := by
  simp [errSource, setErrSource]

@[simp] theorem errSource_setErrSource_ne {src a : Nat} (h : a ≠ src) (x : ErrSource) (s : State) :
    errSource (setErrSource src x s) a = errSource s a := by
  simp [errSource, setErrSource, h]

theorem errSource_regAdd (p off n : Nat) (s : State) (a : Nat) : errSource (regAdd p off n s) a = errSource s a := rfl

/-- An error of one source leaves every other source's places (R443). -/
theorem errSource_raiseErr_ne {e : ErrRec} {x : Nat} (h : x ≠ e.source) (s : State) :
    errSource (raiseErr e s) x = errSource s x := by
  unfold raiseErr
  dsimp only
  split
  · exact errSource_setErrSource_ne h ..
  · split
    · rw [errSource_deliverErr, errSource_setErrSource_ne h]
    · exact errSource_setErrSource_ne h ..
    · split
      · rw [errSource_regAdd, errSource_setErrSource_ne h]
      · exact errSource_setErrSource_ne h ..

/-- Settles O28: the branches of `raiseErr` that an empty place takes. -/
theorem firstErrorIsDelivered : Obligations.FirstErrorIsDelivered := by
  intro e s hm
  refine ⟨fun hs => ?first, fun r hs hp => ?second, fun x hx => errSource_raiseErr_ne hx s⟩
  case first =>
    have raised : raiseErr e s = deliverErr { e with time := s.time }
        (setErrSource e.source { errSource s e.source with service := some { e with time := s.time } } s) := by
      unfold raiseErr
      dsimp only
      rw [hm, hs]
      rfl
    rw [raised]
    refine ⟨by rw [errSource_deliverErr, errSource_setErrSource_self], ?_⟩
    rw [modLog_deliverErr]
    rfl
  case second =>
    have raised : raiseErr e s = setErrSource e.source { errSource s e.source with pending := some { e with time := s.time } } s := by
      unfold raiseErr
      dsimp only
      rw [hm, hs, hp]
      rfl
    rw [raised]
    exact ⟨errSource_setErrSource_self .., rfl⟩

/-! ### The log's own commands -/

theorem errQueue_setErrQueue (p : Port) (q : ErrQueue) (s : State) : errQueue (setErrQueue p.idx q s) p.idx = q := by
  cases p <;> rfl

theorem errQueue_setErrQueue_other (p : Port) (q : ErrQueue) (s : State) :
    errQueue (setErrQueue p.idx q s) p.other.idx = errQueue s p.other.idx := by
  cases p <;> rfl

theorem setErrQueue_rest (p : Port) (q : ErrQueue) (s : State) :
    { setErrQueue p.idx q s with errQueueA := s.errQueueA, errQueueB := s.errQueueB } = s := by
  cases p <;> rfl

/-- A record with nothing to wait for leaves, and the pending one takes its place (R443). -/
theorem errorRecordRetire_moves {source : Nat} {r : ErrRec} {s : State} (hs : (errSource s source).service = some r)
    (ht : r.time + 200 ≤ s.time) (he : (errSource s source).escalate = false) (hw : recordWaits s r = false) :
    ∃ t, exec (.errorRecordRetire source) s = .next t ∧
      errSource t source = { errSource s source with service := (errSource s source).pending, pending := none } ∧
      (∀ x, x ≠ source → errSource t x = errSource s x) := by
  have ready : ¬ ((decide (s.time < r.time + 200) || (! (errSource s source).escalate && recordWaits s r)) = true) := by
    simp [he, hw, ht]
  rw [exec_errorRecordRetire, execErrorRecordRetire]
  dsimp only
  rw [hs]
  dsimp only
  rw [if_neg ready]
  generalize hu : setErrSource source
    { errSource s source with service := (errSource s source).pending, pending := none, escalate := false } s = u
  have own : errSource u source = { errSource s source with service := (errSource s source).pending, pending := none } := by
    rw [← hu, errSource_setErrSource_self, ← he]
  have others : ∀ x, x ≠ source → errSource u x = errSource s x := fun x hx => by rw [← hu, errSource_setErrSource_ne hx]
  rw [if_neg (by simp [he])]
  cases hp : (errSource s source).pending with
  | none =>
    rw [hp] at own
    exact ⟨u, rfl, own, others⟩
  | some p =>
    rw [hp] at own
    exact ⟨deliverErr p u, rfl, (errSource_deliverErr ..).trans own, fun x hx => (errSource_deliverErr ..).trans (others x hx)⟩

/-! ### Engines and the hub -/

theorem OnLog.spares {s t : State} (h : OnLog s t) : t.spares = s.spares := by rw [show t = _ from h]

theorem spares_of_take (x : Spares) (k : EngineKind) (out : List (Nat × Nat)) :
    Spares.of { x.take (engineKind k) with out := out } (engineKind k) = noSpare (engineKind k) := by
  cases k <;> rfl

theorem farAccess_onQueues (slot : Nat) (s : State) : OnQueues s (farAccess slot s) := by
  unfold farAccess
  exact OnQueues.ite (regAdd_onQueues ..) rfl

theorem hubFault_stops (detail : Nat) (s : State) : (hubFault detail s).hub.stopped = true ∧ (hubFault detail s).frames = [] :=
  ⟨rfl, rfl⟩

/-- Settles O29: command by command. -/
theorem errorLogScrubbersAndFaults : Obligations.ErrorLogScrubbersAndFaults := by
  refine ⟨⟨fun source r s hs ht he hw => errorRecordRetire_moves hs ht he hw, fun source since s hm ht => ?unmute,
    fun port s hr => ?pop⟩, fun k line corrected s => ?near, fun slot line corrected s => ?far, fun place corrected x s => ?again,
    fun bay bad s hf hp hb => ?nearScrub, fun bad line s ht hb => ?farScrub, fun kind e s hu hs => ?engine,
    fun ppm s hp => ?pll, fun s => ⟨_, exec_hubClockFault .., hubFault_stops ..⟩, fun ppm s hp => ?aclk⟩
  case unmute =>
    rw [exec_errorMuteEnd, execErrorMuteEnd]
    dsimp only
    rw [hm]
    dsimp only
    rw [if_neg (Nat.not_lt.mpr ht)]
    rfl
  case pop =>
    refine ⟨_, exec_errPop .., ?_⟩
    rw [if_pos hr, errQueue_setErrQueue]
    exact ⟨rfl, rfl, errQueue_setErrQueue_other .., setErrQueue_rest ..⟩
  case near => exact exec_correctedLineRewrite ..
  case far => exact exec_correctedLineRewrite ..
  case again => cases place <;> exact ⟨_, exec_correctedLineRewrite ..⟩
  case nearScrub =>
    have awake : ¬ (((bayAt s bay).fenced || (decide ((bayAt s bay).power ≠ .run) && decide ((bayAt s bay).power ≠ .doze))) = true) := by
      rcases hp with hp | hp <;> simp [hf, hp]
    rw [exec_nearScrubRead, execNearScrubRead]
    dsimp only
    rw [if_neg awake, if_neg hb]
  case farScrub =>
    rw [exec_farScrubRead, execFarScrubRead, if_neg ht]
    dsimp only
    rw [if_neg hb]
    generalize hu : ({ s with farScrub := (s.farScrub % farTotal s + 1) % farTotal s } : State) = u
    have scanned : farAccess (s.farScrub % farTotal s) u = _ := farAccess_onQueues ..
    refine ⟨_, rfl, ?_⟩
    rw [scanned, ← hu]
    exact ⟨rfl, rfl, rfl⟩
  case engine =>
    have switched : engineOut (engineKind kind) e s = raiseErr
        { source := srcId (engineKind kind) e, cls := 3, code := 0x16, spare := s.spares.of (engineKind kind) }
        { s with spares := { s.spares.take (engineKind kind) with out := s.spares.out ++ [(engineKind kind, e)] } } := by
      unfold engineOut
      rw [hu]
      exact if_neg hs
    refine ⟨_, exec_engineSpareSwitch .., ?_⟩
    rw [switched, (raiseErr_onLog ..).spares]
    exact ⟨spares_of_take .., rfl⟩
  case pll =>
    refine ⟨_, exec_hubClockFault .., ?_⟩
    rw [if_pos hp]
    exact hubFault_stops ..
  case aclk =>
    rw [exec_hubClockFault, execHubClockFault, if_pos hp]

end Sys2Proof.Machine
end

section
/-! PROOF. Holds (R95 to R98, R428, R437), monitors and the far calendar (R428 to R432). -/

namespace Sys2Proof.Machine

/-! ### Holds -/

/-- A fold of operations that each leave a part of the state as it is leaves that part. -/
theorem foldl_keeps {α β : Type} (part : State → β) {f : State → α → State} (hf : ∀ s x, part (f s x) = part s) (l : List α)
    (s : State) : part (l.foldl f s) = part s := by
  induction l generalizing s with
  | nil => rfl
  | cons x l ih => rw [List.foldl_cons, ih, hf]

theorem OnLog.frames {s t : State} (h : OnLog s t) : t.frames = s.frames := by rw [show t = _ from h]

theorem OnLog.bays {s t : State} (h : OnLog s t) : t.bays = s.bays := by rw [show t = _ from h]

theorem switchClock_frames (bay : Nat) (s : State) : (switchClock bay s).frames = s.frames :=
  (raiseErr_onLog _ _).frames

/-- The frame as a hold that is due freezes it (R96 to R98). -/
def heldFrame (f : Frame) (r : HoldReq) (rs : List HoldReq) : Frame :=
  { f with cycle := r.freezeAt, requests := [], serving := r :: rs,
           hold := some { r with length := (r :: rs).foldl (fun m x => max m x.length) 0 } }

/-- The freeze puts the hold in effect in its frame and in no other. -/
theorem beginHold_frames {f : Frame} {r : HoldReq} {rs : List HoldReq} (h : f.requests = r :: rs) (key : Nat) (s : State) :
    (beginHold key f s).frames = mput s.frames key (heldFrame f r rs) := by
  unfold beginHold
  rw [h]
  dsimp only
  generalize hu : List.foldl (fun s (x : HoldReq) => regSet 0 (bayReg s x.bay 0x90010) (r.freezeAt % 2 ^ 32) s)
    (setFrame key _ s) (r :: rs) = u
  have frozen : u.frames = mput s.frames key (heldFrame f r rs) := by
    rw [← hu]
    exact foldl_keeps (f := fun s (x : HoldReq) => regSet 0 (bayReg s x.bay 0x90010) (r.freezeAt % 2 ^ 32) s) State.frames
      (fun _ _ => rfl) (r :: rs) _
  generalize hw : (if (r :: rs).any (fun x => x.cause = 1) = true then f.bays.foldl (fun s b => serveRefresh b s) u else u) = w
  have served : w.frames = u.frames := by
    rw [← hw]
    split
    · exact foldl_keeps (f := fun s b => serveRefresh b s) State.frames (fun _ _ => rfl) _ _
    · rfl
  refine (foldl_keeps State.frames (fun s x => ?_) _ w).trans (served.trans frozen)
  split
  · exact switchClock_frames ..
  · rfl

/-- A request that may be made: the frame runs, is not frozen, and no freeze of it is due (R96). -/
theorem requestHold_asks {s : State} {bay cyc key : Nat} {f : Frame} (hf : boundFrame s bay = some (key, f)) (hh : f.hold = none)
    (hr : f.requests = []) (hs : f.stopped = false) (hc : f.cycle ≤ cyc) (hl : cyc < f.length) (cause len : Nat) :
    ∃ f', mget? (requestHold bay cause len cyc s).frames key = some f' ∧
      f'.requests = [⟨bay, cause, (cyc + 49) / 2 * 2, len⟩] ∧ f'.cycle = cyc ∧
      (bayAt (requestHold bay cause len cyc s) bay).slipLastCause = cause := by
  unfold requestHold
  rw [hf]
  dsimp only
  rw [if_neg (by simp [hh, hr, hs, hc, hl])]
  refine ⟨_, mget_mput_self .., ?_⟩
  simp only [hh, hr]
  exact ⟨rfl, rfl, congrArg Bay.slipLastCause (bayAt_setBay_self ..)⟩

/-- The CALIBRATION request changes the frame and SLIP_LAST as any other (R428). -/
theorem requestCal_asks (bay cyc : Nat) (s : State) :
    (requestCal bay cyc s).frames = (requestHold bay 2 128 cyc s).frames ∧
      (bayAt (requestCal bay cyc s) bay).slipLastCause = (bayAt (requestHold bay 2 128 cyc s) bay).slipLastCause := by
  unfold requestCal
  dsimp only
  split
  · exact ⟨rfl, rfl⟩
  · exact ⟨rfl, (congrArg Bay.slipLastCause (bayAt_setBay_self (requestHold bay 2 128 cyc s) bay _)).trans rfl⟩

/-- Settles O26: a request by `requestHold_asks`, the freeze by `beginHold_frames`. -/
theorem holdsFreezeAndEnd : Obligations.HoldsFreezeAndEnd := by
  refine ⟨fun bay cause cyc key f s hf hh hr hs hc hl hcause => ?ask, fun bay key f r rs s hf hh hs hr hlate => ?freeze,
    fun bay passes key f h s hf hh => ?finish⟩
  case ask =>
    have asks := requestHold_asks hf hh hr hs hc hl
    cases cause with
    | refresh =>
      obtain ⟨f', got, reqs, cycle, slip⟩ := asks 1 192
      refine ⟨_, f', ?_, got, reqs, cycle, slip⟩
      rw [exec_holdRequest, execHoldRequest, hf]
      exact congrArg Host.Outcome.next (if_pos (by simp [hcause.1, hcause.2]))
    | calibration =>
      obtain ⟨f', got, reqs, cycle, slip⟩ := asks 2 128
      obtain ⟨frames, cause⟩ := requestCal_asks bay cyc s
      refine ⟨requestCal bay cyc s, f', ?_, by rw [frames]; exact got, reqs, cycle, cause.trans slip⟩
      rw [exec_holdRequest, execHoldRequest, hf]
      exact congrArg Host.Outcome.next (if_pos hcause)
    | governor delay =>
      obtain ⟨f', got, reqs, cycle, slip⟩ := asks 3 ((delay + 1) / 2 * 2)
      refine ⟨_, f', ?_, got, reqs, cycle, slip⟩
      rw [exec_holdRequest, execHoldRequest, hf]
      exact congrArg Host.Outcome.next (if_pos hcause)
    | clock =>
      obtain ⟨f', got, reqs, cycle, slip⟩ := asks 4 4096
      refine ⟨_, f', ?_, got, reqs, cycle, slip⟩
      rw [exec_holdRequest, execHoldRequest, hf]
      exact congrArg Host.Outcome.next (if_pos hcause)
  case freeze =>
    refine ⟨beginHold key f s, heldFrame f r rs, ?_, ?_, rfl, rfl, rfl, rfl⟩
    · rw [exec_holdFreeze, execHoldFreeze, hf]
      exact congrArg Host.Outcome.next (if_neg (by simp [hh, hs, hlate]))
    · rw [beginHold_frames hr, mget_mput_self]
  case finish =>
    have ends : ∃ u : State, exec (.holdEnd bay passes) s = .next (beginHold key
        { f with hold := none, serving := [], held := f.held + h.length, slipped := true }
        (setFrame key { f with hold := none, serving := [], held := f.held + h.length, slipped := true } u)) := by
      rw [exec_holdEnd, execHoldEnd, hf]
      dsimp only
      rw [hh]
      exact ⟨_, rfl⟩
    obtain ⟨u, ends⟩ := ends
    cases hq : f.requests with
    | nil =>
      refine ⟨_, { f with hold := none, serving := [], held := f.held + h.length, slipped := true }, ends, ?_, rfl, rfl,
        fun _ => ⟨rfl, rfl⟩, fun r rs e => (by cases e)⟩
      unfold beginHold
      rw [hq]
      exact mget_mput_self ..
    | cons r rs =>
      refine ⟨_, heldFrame { f with hold := none, serving := [], held := f.held + h.length, slipped := true } r rs, ends, ?_, rfl,
        rfl, fun e => (by cases e), fun r' rs' e => ?_⟩
      · rw [beginHold_frames (f := { f with hold := none, serving := [], held := f.held + h.length, slipped := true }) hq,
          mget_mput_self]
      · cases e
        exact ⟨rfl, rfl⟩

/-! ### Clocks and monitors -/

/-- A bit set to the opposite of what it is. -/
theorem bitOf_flip (v i : Nat) : bitOf (setBits v i i (1 - b2n (bitOf v i))) i = ! bitOf v i := by
  have low := Nat.mod_lt v (Nat.two_pow_pos i)
  have whole := Nat.div_add_mod v (2 ^ i)
  unfold bitOf setBits bits b2n
  rw [show i + 1 - i = 1 by omega, pow_one]
  generalize 2 ^ i = p at low whole ⊢
  have half := Nat.div_add_mod (v / p) 2
  rcases Nat.mod_two_eq_zero_or_one (v / p) with h | h
  · have raised : v - v / p % 2 * p + 1 * p = p * (v / p + 1) + v % p := by rw [h, Nat.mul_succ]; omega
    simp only [h, zero_ne_one, decide_false, Bool.false_eq_true, if_false] at raised ⊢
    rw [show (1 - 0) % 2 = 1 from rfl, raised, Nat.mul_add_div (by omega), Nat.div_eq_of_lt low]
    simp only [Bool.not_false, decide_eq_true_eq]
    omega
  · have cleared : v - 1 * p = p * (v / p - 1) + v % p := by
      have : p * (v / p - 1) + p = p * (v / p) := by rw [← Nat.mul_succ]; congr 1; omega
      omega
    simp only [h, decide_true, if_true]
    rw [show (1 - 1) % 2 * p = 0 by simp, Nat.add_zero, cleared, Nat.mul_add_div (by omega), Nat.div_eq_of_lt low]
    simp only [Bool.not_true, decide_eq_false_iff_not]
    omega

theorem switchClock_flips (bay : Nat) (s : State) :
    bitOf (switchClock bay s).spares.clocks (physBay s bay) = ! bitOf s.spares.clocks (physBay s bay) := by
  have kept : (switchClock bay s).spares.clocks =
      setBits s.spares.clocks (physBay s bay) (physBay s bay) (1 - b2n (bitOf s.spares.clocks (physBay s bay))) :=
    congrArg Spares.clocks (raiseErr_onLog _ _).spares
  rw [kept, bitOf_flip]

/-- A generator that its monitor finds bad, of a bay that is neither fenced nor off nor already known to have a bad one (R437). -/
theorem clockMonitor_acts {bay : Fin 20} {ppm : Nat} {lockLost : Bool} {s : State} (hbad : 500 < ppm ∨ lockLost = true)
    (hf : (bayAt s bay).fenced = false) (hp : (bayAt s bay).power ≠ .off) (hc : (bayAt s bay).clockBad = false) :
    ¬ ((ppm ≤ 500 && ! lockLost && ! (bayAt s bay).clockBad) || (bayAt s bay).fenced || decide ((bayAt s bay).power = .off)
      || ((bayAt s bay).clockBad && (boundFrame s bay).isSome)) = true := by
  rcases hbad with h | h <;> simp [h, hf, hp, hc]

/-- Settles O27: each command under its guards. -/
theorem monitorsAndFarCalendar : Obligations.MonitorsAndFarCalendar := by
  refine ⟨⟨fun core line error cyc s he hw => ⟨fun hf => ?alarmIdle, fun key f hf => ?alarm⟩,
    fun bay ppm cyc lockLost s hbad hf hp hc => ⟨fun ho => ?fence, fun ho => ⟨fun hb => ?switch, fun hb => ?ask⟩⟩⟩,
    fun t0 s hs hw ht => ?window, fun w s hw hb hn ht => ?burst, fun b s hb ht => ⟨fun hn => ?burstEnd, fun hn => ?windowEnd⟩,
    fun ch t0 s hs hch he hn => ?early⟩
  case alarmIdle =>
    rw [exec_deskewPhaseAlarm, execDeskewPhaseAlarm]
    dsimp only
    rw [if_neg (by simp [he, hw]), hf]
  case alarm =>
    rw [exec_deskewPhaseAlarm, execDeskewPhaseAlarm]
    dsimp only
    rw [if_neg (by simp [he, hw]), hf]
  case fence =>
    rw [exec_clockMonitorWindow, execClockMonitorWindow]
    dsimp only
    rw [if_neg (clockMonitor_acts hbad hf hp hc), if_pos ho]
  case switch =>
    refine ⟨switchClock bay s, ?_, switchClock_flips bay s⟩
    rw [exec_clockMonitorWindow, execClockMonitorWindow]
    dsimp only
    rw [if_neg (clockMonitor_acts hbad hf hp hc), if_neg (Bool.eq_false_iff.mp ho), if_neg (by simp [hb])]
  case ask =>
    rw [exec_clockMonitorWindow, execClockMonitorWindow]
    dsimp only
    rw [if_neg (clockMonitor_acts hbad hf hp hc), if_neg (Bool.eq_false_iff.mp ho), if_pos (Option.isSome_iff_ne_none.mpr hb)]
  case window =>
    rw [exec_farRetrainWindow, execFarRetrainWindow]
    dsimp only
    rw [if_neg (by simp [hs, hw, ht])]
    exact ⟨_, rfl, rfl, rfl, rfl, rfl, rfl⟩
  case burst =>
    rw [exec_farRetrainBurst, execFarRetrainBurst, hw]
    exact if_neg (by simp [hb, hn, ht])
  case burstEnd =>
    rw [exec_farBurstEnd, execFarBurstEnd, hb]
    exact (if_neg (Nat.not_lt.mpr ht)).trans (congrArg Host.Outcome.next (if_neg (Nat.not_le.mpr hn)))
  case windowEnd =>
    rw [exec_farBurstEnd, execFarBurstEnd, hb]
    exact (if_neg (Nat.not_lt.mpr ht)).trans (congrArg Host.Outcome.next (if_pos hn))
  case early =>
    rw [exec_farDeviceTempChange, execFarDeviceTempChange, if_neg (by rw [he, hs]; simp [hch, hn])]
    rfl

end Sys2Proof.Machine
end

section
/-! PROOF. Frames (R65 to R68, R84, R87 to R89, R107, R213, R261): their start, latch points, inputs, gathering and end. -/

namespace Sys2Proof.Machine

/-! ### Pavilions -/

section
variable {α : Type}

theorem mget_madjust_self (m : NMap α) (x : Nat) (f : α → α) : mget? (madjust m x f) x = (mget? m x).map f := by
  unfold madjust
  cases h : mget? m x with
  | none => exact h
  | some v => exact mget_mput_self ..

theorem mget_madjust_ne {m : NMap α} {x y : Nat} (h : y ≠ x) (f : α → α) : mget? (madjust m x f) y = mget? m y := by
  unfold madjust
  cases mget? m x with
  | none => rfl
  | some v => exact mget_mput_ne _ _ _ _ h

end

theorem mget_pavs_onPav_self (n : Nat) (f : Pav → Pav) (s : State) : mget? (onPav n f s).pavs n = (mget? s.pavs n).map f :=
  mget_madjust_self ..

theorem mget_pavs_onPav_ne {n m : Nat} (h : m ≠ n) (f : Pav → Pav) (s : State) : mget? (onPav n f s).pavs m = mget? s.pavs m :=
  mget_madjust_ne h f

/-- A pavilion that exists, changed. -/
theorem pavAt_onPav_self {n : Nat} {p : Pav} {s : State} (h : mget? s.pavs n = some p) (f : Pav → Pav) :
    pavAt (onPav n f s) n = f p := by
  rw [pavAt, mgetD, mget_pavs_onPav_self, h]
  rfl

theorem pavAt_of_mget {n : Nat} {p : Pav} {s : State} (h : mget? s.pavs n = some p) : pavAt s n = p := by
  rw [pavAt, mgetD, h]
  rfl

/-- Between `s` and `t` no pavilion's quarters change. -/
structure SameQuarters (s t : State) : Prop where
  quarters : ∀ n, (pavAt t n).quarters = (pavAt s n).quarters

theorem SameQuarters.of_pavs {s t : State} (h : t.pavs = s.pavs) : SameQuarters s t := ⟨fun n => by rw [pavAt, pavAt, h]⟩

theorem SameQuarters.trans {s t u : State} (h : SameQuarters s t) (g : SameQuarters t u) : SameQuarters s u :=
  ⟨fun n => (g.quarters n).trans (h.quarters n)⟩

theorem SameQuarters.foldl {α : Type} {f : State → α → State} (hf : ∀ s x, SameQuarters s (f s x)) (l : List α) (s : State) :
    SameQuarters s (l.foldl f s) := ⟨fun n => foldl_keeps (fun s => (pavAt s n).quarters) (fun s x => (hf s x).quarters n) l s⟩

theorem onPav_sameQuarters (n : Nat) {f : Pav → Pav} (hf : ∀ p, (f p).quarters = p.quarters) (s : State) :
    SameQuarters s (onPav n f s) := by
  refine ⟨fun m => ?_⟩
  by_cases h : m = n
  · subst h
    simp only [pavAt, mgetD, mget_pavs_onPav_self]
    cases mget? s.pavs m with
    | none => rfl
    | some p => exact hf p
  · rw [pavAt, pavAt, mgetD, mgetD, mget_pavs_onPav_ne h]

/-! ### The end of a run -/

theorem OnRings.pavs {s t : State} (h : OnRings s t) : t.pavs = s.pavs := by rw [show t = _ from h]

theorem sealOutput_pavs (key : Nat) (x : Session) (bytes : List Byte) (s : State) : (sealOutput key x bytes s).2.pavs = s.pavs := by
  unfold sealOutput
  split <;> rfl

theorem writeOut_pavs (key : Nat) (x : Session) (r : Run) (bytes : List Byte) (s : State) :
    (writeOut key x r bytes s).2.2.2.pavs = s.pavs := by
  unfold writeOut
  dsimp only
  split <;> exact sealOutput_pavs ..

theorem ownLevel_sameQuarters (key : Nat) (s : State) : SameQuarters s (ownLevel key s) := by
  unfold ownLevel
  split
  · refine onPav_sameQuarters _ ?_ s
    exact fun _ => rfl
  · exact .of_pavs rfl

theorem postStep_sameQuarters (key : Nat) (x : Session) (r : Run) (status detail : Nat) (token : Option Nat) (bytes : List Byte)
    (charge : Charge) (last : Bool) (s : State) : SameQuarters s (postStep key x r status detail token bytes charge last s) := by
  unfold postStep
  dsimp only
  refine (ownLevel_sameQuarters key s).trans (.of_pavs ?_)
  exact (postCpl_onRings ..).pavs.trans (writeOut_pavs key x r bytes (ownLevel key s))

theorem owePlain_pavs (obj i : Nat) (bs : List Byte) (s : State) : (owePlain obj i bs s).pavs = s.pavs := by
  unfold owePlain
  split
  · rfl
  · dsimp only
    refine (onTile_onSnaps ..).pavs.trans ?_
    have placed : ∀ place : Option (Spot × State), (∀ x, place = some x → x.2.pavs = s.pavs) →
        ((place.map (·.2)).getD s).pavs = s.pavs := by
      intro place h
      cases place with
      | none => rfl
      | some x => exact h x rfl
    refine placed _ fun x hx => ?_
    split at hx
    · cases hx
    · exact (spotAlloc_onSnaps (sp := x.1) (t := x.2) hx).pavs

theorem setSessTile_pavs (key : Nat) (y : Session) (s : State) : (setSessTile key y s).pavs = s.pavs := by
  unfold setSessTile
  split
  · rfl
  · dsimp only
    split
    · rfl
    · generalize hu : onSess key (fun _ => y) (cowKeep _ _ s) = u
      have kept : u.pavs = s.pavs := by rw [← hu]; exact (cowKeep_onSnaps ..).pavs
      split
      · split
        · exact (owePlain_pavs ..).trans kept
        · exact (onTile_onSnaps ..).pavs.trans kept
      · exact (onTile_onSnaps ..).pavs.trans kept

theorem endStep_sameQuarters (key : Nat) (x : Session) (r : Run) (port status detail : Nat) (s : State) :
    SameQuarters s (endStep key x r port status detail s) := by
  unfold endStep
  dsimp only
  refine SameQuarters.trans (.of_pavs ?_) (postStep_sameQuarters ..)
  have held : (if status = 3 then setSessTile key (if status = 3 then flushHeld x else ([], x)).2 s else s).pavs = s.pavs := by
    split
    · exact setSessTile_pavs ..
    · rfl
  split
  · exact held
  · exact held

theorem applyFate_sameQuarters (x : Nat × Fate) (s : State) : SameQuarters s (applyFate x s) := by
  unfold applyFate
  dsimp only
  split
  · split
    · exact .of_pavs rfl
    · split
      · exact .of_pavs rfl
      · split
        · exact .of_pavs rfl
        · exact endStep_sameQuarters ..
  · exact .of_pavs rfl

/-! ### The start of a frame -/

/-- The frame that a group's start puts in effect, and the state it is put in (R65 to R68, R261). -/
theorem frameStart_starts {bay : Fin 20} {rates : List LeadRate} {g : Prog} {s : State}
    (hg : (((groupPavs s (groupBays s bay)).filter (pavReady s)).head?).bind (fun n => (pavAt s n).prog) = some g)
    (hm : frameMay s (groupBays s bay) (groupPavs s (groupBays s bay)) = true)
    (hr : ∀ x ∈ frameFates s rates ((groupPavs s (groupBays s bay)).filter (pavReady s)), ∀ r, x.2 = .runs r →
      inputReady s (x.1 / 1024) (x.1 % 1024) r = true) :
    let pavs := (groupPavs s (groupBays s bay)).filter (pavReady s)
    let fates := frameFates s rates pavs
    let s1 := fates.foldl (fun s x => applyFate x s) s
    ∃ scans holders u, exec (.frameStart bay rates) s = .next (setFrame ((groupBays s bay).foldl min bay)
      { bays := groupBays s bay, pavs := pavs, quarters := (pavs.map (fun n => (pavAt s1 n).quarters)).flatten
        length := imgCycles g.image, start := s1.time
        runs := fates.foldl (fun m x => match x.2 with | .runs r => mput m x.1 r | _ => m) [], scans := scans, holders := holders } u) := by
  have ready : (frameFates s rates ((groupPavs s (groupBays s bay)).filter (pavReady s))).all
      (fun x => match x.2 with | .runs r => inputReady s (x.1 / 1024) (x.1 % 1024) r | _ => true) = true := by
    rw [List.all_eq_true]
    intro x hx
    split
    · exact hr x hx _ ‹_›
    · rfl
  intro pavs fates s1
  rw [exec_frameStart]
  unfold execFrameStart
  dsimp only
  rw [hg]
  dsimp only
  rw [hm, if_neg]
  · exact ⟨_, _, _, rfl⟩
  · intro h
    exact absurd (ready.symm.trans ((Bool.not_eq_true' _).mp h)) (by decide)

end Sys2Proof.Machine
end

section
/-! PROOF. The commands of frames (R65 to R68, R84, R87 to R89, R107, R213, R240, R261, R279, R455). -/

namespace Sys2Proof.Machine

/-! ### Latch points -/

/-- An arrival check may mask a slot or note a failed session; the frame's course stays (R88). -/
theorem arrivalCheck_keeps (n layer : Nat) (r : Nat × SlotRun) (s : State) (f : Frame) :
    arrivalCheck n layer r s f = { f with damagedSess := (arrivalCheck n layer r s f).damagedSess
                                          masked := (arrivalCheck n layer r s f).masked } := by
  unfold arrivalCheck
  dsimp only
  split
  · rfl
  · split <;> split <;> rfl

theorem arrivalChecks_keep (n layer : Nat) (s : State) (l : List (Nat × SlotRun)) (f : Frame) :
    let g := l.foldl (fun f r => arrivalCheck n layer r s f) f
    g = { f with damagedSess := g.damagedSess, masked := g.masked } := by
  induction l generalizing f with
  | nil => rfl
  | cons r l ih =>
    have rest := ih (arrivalCheck n layer r s f)
    dsimp only at rest ⊢
    rw [List.foldl_cons]
    refine rest.trans ?_
    rw [arrivalCheck_keeps n layer r s f]

/-- Settles O21: the frame's start by `frameStart_starts`; the arrival checks leave the frame's course. -/
theorem framesStartAndLatch : Obligations.FramesStartAndLatch := by
  refine ⟨fun bay rates g s hg hm hr => ?start, fun pav index key f g l s hf hp hl => ⟨fun hh hs hd hc hcyc hreq => ?decide, fun hno => ?none⟩⟩
  case start =>
    obtain ⟨scans, holders, u, run⟩ := frameStart_starts hg hm hr
    generalize hs1 : List.foldl (fun s x => applyFate x s) s _ = s1 at run
    have quarters : SameQuarters s s1 := by
      rw [← hs1]
      exact SameQuarters.foldl (fun s x => applyFate_sameQuarters x s) _ s
    have time : s1.time = s.time := by
      rw [← hs1]
      exact (Kept.foldl (Kept.refl s) fun t x h => kept_applyFate x t h).time
    refine ⟨_, _, run, mget_mput_self .., rfl, time, rfl, rfl, rfl, ?_, rfl, rfl, rfl, rfl, rfl⟩
    simp only [quarters.quarters]
  case decide =>
    have checks := arrivalChecks_keep pav l.layer s (f.runs.filter (fun r => r.1 / 1024 = pav.val))
      { f with cycle := l.cycle - 64, latched := f.latched ++ [(pav.val, index)] }
    dsimp only at checks
    refine ⟨?_, ?_⟩
    · rw [exec_latchDecision, execLatchDecision]
      dsimp only
      rw [hf, hp]
      dsimp only
      rw [hl]
      dsimp only
      rw [if_neg]
      rw [hd, hh, hs]
      simpa [hc, hcyc] using hreq
    · split
      · rw [checks]
        exact ⟨rfl, by simp, hh, hs⟩
      · exact ⟨rfl, by simp, hh, hs⟩
  case none =>
    rw [exec_latchDecision, execLatchDecision]
    dsimp only
    rw [hf, hp]
    dsimp only
    rw [hl]
    dsimp only
    refine if_pos ?_
    rcases hno with h | h | h
    · simp [Option.isSome_iff_ne_none.mpr h]
    · simp [h]
    · rw [h]; simp

/-! ### Inputs, masks and gathering -/

/-- Options that are all there, taken together. -/
theorem mapM_isSome {α β : Type} {f : α → Option β} {l : List α} (h : ∀ x ∈ l, (f x).isSome = true) : ∃ ys, l.mapM f = some ys := by
  induction l with
  | nil => exact ⟨[], rfl⟩
  | cons x l ih =>
    obtain ⟨y, hy⟩ := Option.isSome_iff_exists.mp (h x List.mem_cons_self)
    obtain ⟨ys, hys⟩ := ih fun z hz => h z (List.mem_cons_of_mem _ hz)
    exact ⟨y :: ys, by simp [List.mapM_cons, hy, hys]⟩

theorem queueLines_pavs (cls k line : Nat) (bs : List Byte) (s : State) : (queueLines cls k line bs s).pavs = s.pavs := rfl

/-- Lines queued for some cores: only bays move. -/
theorem queueLines_foldl {α : Type} (cls : α → Nat) (k line : α → Nat) (bs : α → List Byte) (l : List α) (s : State) :
    l.foldl (fun s x => queueLines (cls x) (k x) (line x) (bs x) s) s =
      { s with bays := (l.foldl (fun s x => queueLines (cls x) (k x) (line x) (bs x) s) s).bays } := by
  induction l generalizing s with
  | nil => rfl
  | cons x l ih =>
    rw [List.foldl_cons]
    exact ih _

/-- With every token's row readable a slot's inputs are noted, and only bays move besides (R107). -/
theorem putInputs_notes {pav slot key : Nat} {x : Session} {r : Run} {g : Prog} {p : Pav} {s : State} (hp : mget? s.pavs pav = some p)
    (h : ∀ c ∈ (slotColumns p slot x).2.1.zipIdx, (columnBlock s g ((slotColumns p slot x).1 + c.2) c.1).isSome = true) :
    mget? (pavAt (putInputs pav slot key x r g s) pav).inputs slot = some ((slotColumns p slot x).1, (slotColumns p slot x).2.1) ∧
      { putInputs pav slot key x r g s with bays := s.bays, pavs := s.pavs } = s := by
  obtain ⟨blocks, hb⟩ := mapM_isSome h
  unfold putInputs
  dsimp only
  rw [pavAt_of_mget hp, hb]
  dsimp only
  generalize hu : List.foldl _ s blocks.zipIdx = u
  have queued : u = { s with bays := u.bays } := by
    rw [← hu]
    exact queueLines_foldl (fun _ => 1) (fun b : List Byte × Nat => pavCore p ((slotCol p.desc slot + b.2) % pavCores p))
      (fun b => dInBase g.decode + (slotCol p.desc slot + b.2) / pavCores p * (b.1.length / 64)) (fun b => b.1) blocks.zipIdx s
  have there : mget? u.pavs pav = some p := by rw [queued]; exact hp
  refine ⟨?_, ?_⟩
  · rw [pavAt_onPav_self there]
    exact mget_mput_self ..
  · rw [queued]
    rfl

/-- A mask written to a slot is noted, and only bays move besides (R213). -/
theorem maskWrite_notes {pav : Fin 80} {slot : Nat} {p : Pav} {u : SlotUse} {x : Session} {s : State}
    (hp : mget? s.pavs pav = some p) (hb : groupBusy s pav = false) (hu : mget? p.slots slot = some u)
    (ha : slotActive s pav (slot, u) = true) (hx : mget? s.sessions u.sess = some x) (hc : (slotColumns p slot x).2.2 = true) :
    ∃ t, exec (.maskWrite pav slot) s = .next t ∧
      mget? (pavAt t pav).masks slot = some (sessMask s u.sess x (spVocab p.sample)) ∧ { t with bays := s.bays, pavs := s.pavs } = s := by
  rw [exec_maskWrite]
  unfold execMaskWrite
  dsimp only
  rw [pavAt_of_mget hp, hu]
  dsimp only
  rw [hx]
  dsimp only
  rw [if_neg (by simp [hb, ha, hc])]
  generalize hw : List.foldl _ s (List.range _) = w
  have queued : w = { s with bays := w.bays } := by
    rw [← hw]
    exact queueLines_foldl (fun _ => 1) (fun j : Nat => pavCore p j) _ _ _ s
  have there : mget? w.pavs pav = some p := by rw [queued]; exact hp
  refine ⟨_, rfl, ?_, ?_⟩
  · rw [pavAt_onPav_self there]
    exact mget_mput_self ..
  · rw [queued]
    rfl

/-- Settles O22: the inputs by `putInputs_notes`, the mask by `maskWrite_notes`. -/
theorem inputsAndGathering : Obligations.InputsAndGathering := by
  refine ⟨fun pav slot p s hp hb => ⟨fun g u x r hg hu ha hd hx hr hi hl hcols => ?inputs, fun g hg hu => ?query,
    fun u x hu ha hx hc => maskWrite_notes hp hb hu ha hx hc⟩, fun pav since s hr => ⟨fun ht => ?gathered, fun ht => ?waits, fun t ht n hn => ?others⟩⟩
  case inputs =>
    refine ⟨putInputs pav slot u.sess x r g s, ?_, putInputs_notes hp hcols⟩
    rw [exec_columnInputWrite, execColumnInputWrite]
    rw [if_neg (by simp [hb]), pavAt_of_mget hp, hg, hu]
    dsimp only
    rw [if_neg (by simp [ha, hd]), hx]
    dsimp only
    rw [hr]
    dsimp only
    rw [if_neg (by simp [hi, hl])]
  case query =>
    rw [exec_columnInputWrite, execColumnInputWrite]
    rw [if_neg (by simp [hb]), pavAt_of_mget hp, hg, hu]
  case gathered =>
    rw [exec_gatherExpiry, execGatherExpiry]
    rw [hr]
    exact if_neg (Nat.not_lt.mpr ht)
  case waits =>
    rw [exec_gatherExpiry, execGatherExpiry]
    rw [hr]
    exact if_pos ht
  case others =>
    rw [exec_gatherExpiry, execGatherExpiry] at ht
    rw [hr] at ht
    dsimp only at ht
    split at ht
    · cases ht
      rfl
    · cases ht
      exact mget_pavs_onPav_ne hn ..

/-- Settles O23: the frame's end under its guard. -/
theorem frameEndEndsEverySlot : Obligations.FrameEndEndsEverySlot := by
  intro bay results minima key f s hf hh hends
  have ends : ¬ (f.hold.isSome || (! f.stopped && (! frameOver s f || (decide (f.requests ≠ []) && ! f.lateHolds) || ! allLatched s f)))
      = true := by
    rcases hends with h | ⟨passed, left, latched⟩
    · simp [hh, h]
    · rcases left with h | h <;> simp [hh, passed, latched, h]
  rw [exec_frameEnd, execFrameEnd, hf]
  exact if_neg ends

end Sys2Proof.Machine
end

section
/-! PROOF. What a directory search made at once can change (R183, R200 to R203): the directory, and what raising an error reaches. -/

namespace Sys2Proof.Machine

/-- `t` differs from `s` at most in the directory and in what raising an error reaches. -/
def OnDir (s t : State) : Prop :=
  t = { s with dir := t.dir, errSources := t.errSources, errQueueA := t.errQueueA, errQueueB := t.errQueueB, modLog := t.modLog,
               regs := t.regs, irqs := t.irqs }

theorem OnDir.refl (s : State) : OnDir s s := rfl

theorem OnDir.trans {s t u : State} (h : OnDir s t) (g : OnDir t u) : OnDir s u := by
  unfold OnDir at g
  rw [(h : t = _)] at g
  exact g

theorem OnLog.onDir {s t : State} (h : OnLog s t) : OnDir s t := by
  unfold OnLog at h
  rw [h]
  rfl

theorem OnDir.ite {c : Prop} [Decidable c] {s t u : State} (ht : OnDir s t) (hu : OnDir s u) : OnDir s (if c then t else u) := by
  split
  · exact ht
  · exact hu

theorem OnDir.foldl {α : Type} {f : State → α → State} (hf : ∀ s x, OnDir s (f s x)) (l : List α) (s : State) :
    OnDir s (l.foldl f s) := by
  induction l generalizing s with
  | nil => exact .refl s
  | cons x l ih => exact (hf s x).trans (ih _)

theorem dir_onDir (d : Dir) (s : State) : OnDir s { s with dir := d } := rfl

theorem farAccess_onDir (n : Nat) (s : State) : OnDir s (farAccess n s) := (farAccess_onQueues n s).onLog.onDir

theorem raiseErr_onDir (e : ErrRec) (s : State) : OnDir s (raiseErr e s) := (raiseErr_onLog e s).onDir

theorem regAddBoth_onDir (off n : Nat) (s : State) : OnDir s (regAddBoth off n s) := rfl

theorem cleanRow_onDir (n : Nat) (s : State) : OnDir s (cleanRow n s) := by
  unfold cleanRow
  dsimp only
  split <;> rfl

theorem rewriteRow_onDir (n : Nat) (s : State) : OnDir s (rewriteRow n s) :=
  ((farAccess_onDir ..).trans (cleanRow_onDir ..)).trans (dir_onDir _ _)

theorem moveWrite_onDir (g : List Nat) (s : State) (w : DirWrite) : OnDir s (moveWrite g s w) := by
  unfold moveWrite
  split
  · rfl
  · split <;> rfl

theorem blockFails_onDir (b : Nat) (s : State) : OnDir s (blockFails b s) := by
  unfold blockFails
  dsimp only
  split
  · rfl
  · split
    · exact (dir_onDir _ s).trans (raiseErr_onDir ..)
    · refine OnDir.trans ?_ (OnDir.foldl (moveWrite_onDir _) _ _)
      refine OnDir.trans ?_ (dir_onDir _ _)
      refine (dir_onDir _ s).trans (OnDir.foldl (fun s r => ?_) _ _)
      split
      · rfl
      · exact raiseErr_onDir ..

theorem retireRow_onDir (n : Nat) (s : State) : OnDir s (retireRow n s) := by
  unfold retireRow
  dsimp only
  split
  · exact blockFails_onDir ..
  · refine OnDir.trans ?_ (regAddBoth_onDir ..)
    refine OnDir.trans ?_ (raiseErr_onDir ..)
    exact ((farAccess_onDir ..).trans (cleanRow_onDir ..)).trans (dir_onDir _ _)

theorem markSuspect_onDir (n : Nat) (s : State) : OnDir s (markSuspect n s) := by
  unfold markSuspect
  dsimp only
  split
  · exact (dir_onDir _ s).trans (retireRow_onDir ..)
  · rfl

theorem mendRow_onDir (n : Nat) (s : State) : OnDir s (mendRow n s) := by
  unfold mendRow
  split
  · exact rewriteRow_onDir ..
  · rfl

theorem searchNow_onDir (wide : Bool) (q : Nat) (s : State) : OnDir s (searchNow wide q s) := by
  unfold searchNow
  split
  · rfl
  · refine OnDir.trans ?_ (regAddBoth_onDir ..)
    exact (OnDir.foldl (fun s n => markSuspect_onDir n s) _ _).trans (OnDir.foldl (fun s n => mendRow_onDir n s) _ _)

/-- What the search of a session request leaves of the state that fetched it. -/
theorem found_onDir (s : State) (r : Req) (op : Nat) : OnDir (taken s r op) (found s r op) :=
  OnDir.trans (t := countSearch (fnPort r.fn.key) (taken s r op)) rfl (searchNow_onDir ..)

theorem found_pavs (s : State) (r : Req) (op : Nat) : (found s r op).pavs = s.pavs := by
  rw [show found s r op = _ from found_onDir s r op]
  rfl

theorem pavAt_found (s : State) (r : Req) (op n : Nat) : pavAt (found s r op) n = pavAt s n := by
  rw [pavAt, found_pavs, pavAt]

end Sys2Proof.Machine
end

section
/-! PROOF. OPEN, STEP, CLOSE and HALT (R26, R27, R135, R263, R347 to R350). -/

namespace Sys2Proof.Machine

/-- The session that an OPEN makes (R348). -/
def openedSession (id : ReqId) (object kd pavilion slotKind modelSlot lmax tokeniser : Nat) (t : State) : Session :=
  { busy := some id, object := object, home := pavilion, slotKind := slotKind, lmax := lmax, modelSlot := modelSlot, kd := kd
    tenant := fnTenant t id.ident, tile := openTile id.session tokeniser, mapSlot := mapPick t }

/-- The object that an OPEN makes: every tile ABSENT but the last, which holds the state (R135, R138). -/
def openedObject (kd n : Nat) (t : State) : Obj :=
  { kind := .session, kd := kd, ntiles := n
    tiles := [(n - 1, { state := .dirty, upTier := 2, upAddr := (mapPick t).getD 0, kd := kd })] }

/-- The directory write of an OPEN (R185). -/
def openedWrite (id : ReqId) (object kd modelSlot row : Nat) (t : State) : DirWrite :=
  { row := row, insert := true, id := some id
    entry := { key := sessDirKey id.ident id.session, care := fullCare false
               data := { state := 1, tier := 1, kd := kd, tenant := fnTenant t id.ident, model := modelSlot, object := object } } }

section
variable {s : State} {r : Req} {key : Nat} {x : Session}

theorem staleGen_of_match {check : Bool} {expect : Nat} (h : check = true → x.gen = expect) : staleGen x check expect = false := by
  cases check with
  | false => rfl
  | true => simp [staleGen, h rfl]

/-- An OPEN that no check refuses (R348). -/
theorem openSession_opens {object : DWord} {kd pavilion slotKind modelSlot lmax tokeniser row : Nat}
    (h : Takes s r) (hb : openBad kd pavilion slotKind lmax tokeniser = none)
    (hn : mget? s.sessions (sessKey r.identity.key r.session.toNat) = none)
    (hs : sessSearch (found s r 0x10) (takenId s r 0x10) ≠ 0x34)
    (hc : openCheck (found s r 0x10) (takenId s r 0x10) object.toNat kd pavilion modelSlot
      (kvTiles (pavAt s pavilion).desc lmax + tagTiles lmax + 1) tokeniser = none)
    (hd : dirAccept (found s r 0x10) (fnPort r.fn.key) false (sessDirKey r.identity.key r.session.toNat) (fullCare false) = .inr row) :
    exec (.openSession r object kd pavilion slotKind modelSlot lmax tokeniser) s =
      .next (dirWrite (openedWrite (takenId s r 0x10) object.toNat kd modelSlot row (found s r 0x10))
        { drew (found s r 0x10) with
          sessions := mput (found s r 0x10).sessions (sessKey r.identity.key r.session.toNat)
            (openedSession (takenId s r 0x10) object.toNat kd pavilion slotKind modelSlot lmax tokeniser (found s r 0x10))
          objects := mput (found s r 0x10).objects (objKey r.identity.key object.toNat)
            (openedObject kd (kvTiles (pavAt s pavilion).desc lmax + tagTiles lmax + 1) (found s r 0x10)) }) := by
  have sess : mget? (taken s r 0x10).sessions (sessKey (takenId s r 0x10).ident (takenId s r 0x10).session) = none := hn
  have searched : searchNow false (sessDirKey (takenId s r 0x10).ident (takenId s r 0x10).session)
      (countSearch (fnPort (takenId s r 0x10).fn) (taken s r 0x10)) = found s r 0x10 := rfl
  have accepted : dirAccept (found s r 0x10) (fnPort (takenId s r 0x10).fn) false
      (sessDirKey (takenId s r 0x10).ident (takenId s r 0x10).session) (fullCare false) = .inr row := hd
  rw [exec_openSession]
  unfold execOpenSession
  dsimp only
  rw [hb, onReq_takes _ _ h, orderGate, orderGateOn, sess]
  dsimp only
  rw [searched, pavAt_found, if_neg hs, hc]
  dsimp only
  rw [accepted]
  rfl

/-- A STEP past its gates runs (R263, R349, R350). -/
theorem stepSession_runs {checkGen : Bool} {expectGen : Nat} {outBase : DWord} {outSize : Nat} (h : Takes s r) (hf : Finds s r key x)
    (hc : Clear s key x false) (ho : outSizeOk outSize = true) (hg : checkGen = true → x.gen = expectGen) :
    exec (.stepSession r checkGen expectGen outBase outSize) s = .next (startRun (takenId s r 0x11) key x
      { id := takenId s r 0x11, outBase := outBase.toNat, outSize := outSize
        cmd := .stepSession r checkGen expectGen outBase outSize } (found s r 0x11)) := by
  have sess : (sessOf (taken s r 0x11) (takenId s r 0x11)).any (fun x => x.run.isSome) = false := by
    have own : sessOf (taken s r 0x11) (takenId s r 0x11) = some x := by rw [← hf.2.1, hf.1]; rfl
    rw [own, Option.any_some, hc.1]
    rfl
  have ordered := sessReq_runs 0x11 (.stepSession r checkGen expectGen outBase outSize)
    (fun id key x t => if staleGen x checkGen expectGen then stale id t else startRun id key x
      { id := takenId s r 0x11, outBase := outBase.toNat, outSize := outSize
        cmd := .stepSession r checkGen expectGen outBase outSize } t) h hf hc
  rw [onReq_takes _ _ h] at ordered
  rw [exec_stepSession]
  unfold execStepSession
  dsimp only
  rw [if_pos ho, onReq_takes _ _ h, sess, if_neg (by simp)]
  refine congrArg Host.Outcome.next (ordered.trans ?_)
  rw [staleGen_of_match hg, if_neg (by simp)]

end

/-- A tile of an opened session's object before the last is ABSENT. -/
theorem openedObject_tile {i n : Nat} (kd : Nat) (t : State) (h : i + 1 < n) : (openedObject kd n t).tile i = { kd := kd } := by
  have away : i ≠ n - 1 := by omega
  simp [openedObject, Obj.tile, mgetD, mget?, away]

theorem openedObject_state (kd n : Nat) (t : State) : ((openedObject kd n t).tile (n - 1)).state = .dirty := by
  simp [openedObject, Obj.tile, mgetD, mget?]

/-- An opened session has no position: nothing is written at LENGTH. -/
theorem openTile_blank (sid tokeniser : Nat) {a : Nat} (h : 0x46 ≤ a) : memByte (openTile sid tokeniser) a = 0 := by
  have tail : (natLe 2 tokeniser ++ natLe 2 0xFFFF ++ natLe 2 0xFFFF).length = 6 := by simp [natLe_length]
  have head : (natLe 4 0x3F800000 ++ natLe 4 0x3F800000 ++ natLe 8 0 ++ natLe 8 sid ++ natLe 8 0
      ++ natLe 4 (2 ^ 31) ++ (List.replicate 4 (natLe 4 (2 ^ 31))).flatten).length = 52 := by simp [natLe_length]
  unfold openTile
  dsimp only
  rw [memByte_memWrite_out _ _ _ _ (by rw [tail]; omega), memByte_memWrite_out _ _ _ _ (by rw [head]; omega)]
  rfl

theorem openedSession_length (id : ReqId) (object kd pavilion slotKind modelSlot lmax tokeniser : Nat) (t : State) :
    (openedSession id object kd pavilion slotKind modelSlot lmax tokeniser t).length = 0 := by
  have blank : memRead (openTile id.session tokeniser) 0x48 4 = [0, 0, 0, 0] := by
    simp only [memRead, openTile_blank id.session tokeniser (show 0x46 ≤ 0x48 by decide),
      openTile_blank id.session tokeniser (show 0x46 ≤ 0x48 + 1 by decide),
      openTile_blank id.session tokeniser (show 0x46 ≤ 0x48 + 1 + 1 by decide),
      openTile_blank id.session tokeniser (show 0x46 ≤ 0x48 + 1 + 1 + 1 by decide)]
  exact congrArg leNat blank

/-- What an OPEN leaves of the state. -/
theorem opened_rest (t : State) (w : DirWrite) (sessions : NMap Session) (objects : NMap Obj) :
    let u := dirWrite w { drew t with sessions := sessions, objects := objects }
    u.dir.writes = t.dir.writes ++ [w] ∧ { u with sessions := t.sessions, objects := t.objects, free := t.free, dir := t.dir } = t :=
  ⟨rfl, rfl⟩

/-- Whether a session is parked, and so needs a slot to step (R263). -/
def Session.isParked (x : Session) : Bool :=
  match x.place with
  | .parked _ _ => true
  | _ => false

/-- A step request that a check of R263 refuses completes with that check's detail and status. -/
theorem startRun_of_refused {key : Nat} {x : Session} {run : Run} {id : ReqId} {d : Nat} {st : Option Nat} {t : State}
    (hk : stepCheck t id x.pav x.isParked x = some (d, st)) : startRun id key x run t = complete id d st 0 t := by
  unfold startRun
  dsimp only
  generalize check : stepCheck t id x.pav _ x = out
  obtain rfl : out = some (d, st) := check.symm.trans hk
  rfl

/-- A step request that no check of R263 refuses goes by its input and its length limit (R109, R222). -/
theorem startRun_of_checked {key : Nat} {x : Session} {run : Run} {id : ReqId} {t : State} (hk : stepCheck t id x.pav x.isParked x = none) :
    startRun id key x run t = if x.hasInput = false then complete id 0x48 (some 4) 0 (regAdd (fnPort id.fn) 0x90018 1 t)
      else if lengthLimit (pavAt t x.pav) x ≤ (x.columns 1).1 then
        postStep key (flushHeld x).2 run 3 0 none (flushHeld x).1 { port := fnPort id.fn, tenant := x.tenant } true
          (setSessTile key (flushHeld x).2 t)
      else if x.isParked then enqueue x.pav key id none (onSess key (fun x => { x with run := some run }) t)
      else noteReady x.pav (onSess key (fun x => { x with run := some { run with admitted := true } }) t) := by
  unfold startRun
  dsimp only
  generalize check : stepCheck t id x.pav _ x = out
  obtain rfl : out = none := check.symm.trans hk
  dsimp only
  cases x.hasInput <;> rfl

/-- Settles O33: OPEN by `openSession_opens`, STEP by `stepSession_runs`, CLOSE and HALT as session requests. -/
theorem sessionsOpenStepAndClose : Obligations.SessionsOpenStepAndClose := by
  refine ⟨fun r object kd pavilion slotKind modelSlot lmax tokeniser row s h hb hn hs hc hd => ?opens,
    fun r checkGen expectGen outBase outSize key x s h hf hc ho hg => ⟨fun hk hi hl => ?step, fun d st hk => ?refused, fun hk hi => ?noInput⟩,
    fun r checkGen expectGen outBase outSize key x s h hf hr ho => ?active,
    fun r checkGen expectGen key x s h hf hc hg => ?close, fun r key x s h hf hc => ?halt⟩
  case opens =>
    have run := openSession_opens h hb hn hs hc hd
    generalize found s r 0x10 = t at run ⊢
    obtain ⟨writes, rest⟩ := opened_rest t (openedWrite (takenId s r 0x10) object.toNat kd modelSlot row t)
      (mput t.sessions (sessKey r.identity.key r.session.toNat)
        (openedSession (takenId s r 0x10) object.toNat kd pavilion slotKind modelSlot lmax tokeniser t))
      (mput t.objects (objKey r.identity.key object.toNat)
        (openedObject kd (kvTiles (pavAt s pavilion).desc lmax + tagTiles lmax + 1) t))
    exact ⟨_, _, _, run, mget_mput_self .., mget_mput_self .., rfl, openedSession_length .., rfl, rfl, rfl, rfl, rfl, rfl, rfl, rfl, rfl,
      fun i hi => openedObject_tile kd _ hi, openedObject_state .., rfl, ⟨_, writes, rfl, rfl, rfl⟩, rest⟩
  case step =>
    refine (stepSession_runs h hf hc ho hg).trans (congrArg Host.Outcome.next ((startRun_of_checked hk).trans ?_))
    exact (if_neg (by simp [hi])).trans (if_neg (Nat.not_le.mpr hl))
  case refused => exact (stepSession_runs h hf hc ho hg).trans (congrArg Host.Outcome.next (startRun_of_refused hk))
  case noInput =>
    exact (stepSession_runs h hf hc ho hg).trans (congrArg Host.Outcome.next ((startRun_of_checked hk).trans (if_pos hi)))
  case active =>
    have sess : (sessOf (taken s r 0x11) (takenId s r 0x11)).any (fun x => x.run.isSome) = true := by
      have own : sessOf (taken s r 0x11) (takenId s r 0x11) = some x := by rw [← hf.2.1, hf.1]; rfl
      rw [own, Option.any_some, hr]
    rw [exec_stepSession]
    unfold execStepSession
    dsimp only
    rw [if_pos ho, onReq_takes _ _ h, if_pos sess]
    exact congrArg Host.Outcome.next (withSession_finds 0x11 _ hf)
  case close =>
    rw [exec_closeSession]
    refine congrArg Host.Outcome.next ((sessReq_runs 0x12 _ _ h hf hc).trans ?_)
    rw [staleGen_of_match hg, if_neg (by simp)]
  case halt =>
    rw [exec_haltSession]
    exact congrArg Host.Outcome.next (sessReq_runs 0x16 _ _ h hf hc)

end Sys2Proof.Machine
end

section
/-! PROOF. Sessions that move between tiers, wait and are pre-empted (R129 to R131, R144 to R148, R156 to R160, R264 to R267, R384). -/

namespace Sys2Proof.Machine

/-! ### Requests that move a session -/

section
variable {s : State} {r : Req} {key : Nat} {x : Session}

/-- A session request whose operands are in range and that nothing holds back runs its body, whatever its check of them answers. -/
theorem sessReq_runs_checked {landing : Bool} (op : Nat) (cmd : Instr) (body : ReqId → Nat → Session → State → State) {bad : Option Nat}
    (hb : bad = none) (h : Takes s r) (hf : Finds s r key x) (hc : Clear s key x landing) :
    onReq r op bad (orderGate (fresh s) landing cmd (fun id s => withSession id (body id) s)) s =
      body (takenId s r op) key x (found s r op) := by
  rw [hb]
  exact sessReq_runs op cmd body h hf hc

/-- PARK past its checks (R144 to R147). -/
theorem park_runs {target expectGen region codec : Nat} {keep checkGen : Bool} (h : Takes s r) (hf : Finds s r key x)
    (hc : Clear s key x true) (hg : checkGen = true → x.gen = expectGen)
    (hl : lockedFor (found s r 0x13) r (takenId s r 0x13) = false)
    (ht : tierOk (found s r 0x13) r.identity.key target region = true) (hcodec : codecValid codec = true) :
    exec (.park r target keep checkGen expectGen region codec) s =
      .next (startPark (takenId s r 0x13) key x target region codec keep (found s r 0x13)) := by
  have tier : tierOk (found s r 0x13) (takenId s r 0x13).ident target region = true := ht
  rw [exec_park]
  refine congrArg Host.Outcome.next ((sessReq_runs 0x13 _ _ h hf hc).trans ?_)
  rw [staleGen_of_match hg, if_neg (by simp), hl, if_neg (by simp), tier, hcodec, if_neg (by simp)]

/-- REVIVE past its gates (R148). -/
theorem revive_runs {early rel checkGen : Bool} {expectGen : Nat} (h : Takes s r) (hf : Finds s r key x) (hc : Clear s key x false)
    (hg : checkGen = true → x.gen = expectGen) :
    (∀ tier region, x.place ≠ .parked tier region) →
      exec (.revive r early rel checkGen expectGen) s = .next (done (takenId s r 0x14) (found s r 0x14)) := by
  intro hp
  rw [exec_revive]
  refine congrArg Host.Outcome.next ((sessReq_runs 0x14 _ _ h hf hc).trans ?_)
  rw [staleGen_of_match hg, if_neg (by simp)]
  split
  · exact absurd ‹_› (hp _ _)
  · rfl

theorem revive_waits {early rel checkGen : Bool} {expectGen tier region : Nat} (h : Takes s r) (hf : Finds s r key x)
    (hc : Clear s key x false) (hg : checkGen = true → x.gen = expectGen) (hp : x.place = .parked tier region)
    (hprog : (pavAt s x.home).prog.isSome = true) (ha : assigned (found s r 0x14) x.home r.identity.key = true)
    (hfen : pavFenced (found s r 0x14) (pavAt (found s r 0x14) x.home) = false) :
    exec (.revive r early rel checkGen expectGen) s = .next (enqueue x.home key (takenId s r 0x14) (some (early, rel))
      (onSess key (fun x => { x with busy := some (takenId s r 0x14) }) (found s r 0x14))) := by
  have assigned : assigned (found s r 0x14) x.home (takenId s r 0x14).ident = true := ha
  have prog : (pavAt (found s r 0x14) x.home).prog.isNone = false := by
    rw [pavAt_found, ← Option.not_isSome, hprog]
    rfl
  rw [exec_revive]
  refine congrArg Host.Outcome.next ((sessReq_runs 0x14 _ _ h hf hc).trans ?_)
  rw [staleGen_of_match hg, if_neg (by simp), hp]
  dsimp only
  rw [prog, if_neg (by simp), assigned, if_neg (by simp), hfen, if_neg (by simp)]

/-- MIGRATE past the checks that both destinations share (R144, R329). -/
theorem migrate_runs {dest expectGen n cport kind peer fenceUs : Nat} {checkGen : Bool} (h : Takes s r) (hf : Finds s r key x)
    (hc : Clear s key x true) (hg : checkGen = true → x.gen = expectGen)
    (hl : lockedFor (found s r 0x15) r (takenId s r 0x15) = false) (hb : migrateBad dest n cport kind = none) :
    let id := takenId s r 0x15
    let t := found s r 0x15
    let us := if fenceUs = 0 then bits (regGet t (fnPort r.identity.key) 0xB0000) 12 31 else fenceUs
    let k := if bitOf kind 7 then kind % 4 else x.slotKind
    exec (.migrate r dest checkGen expectGen n cport kind peer fenceUs) s = .next (
      if dest = 0 then
        match migrateCheck t id x n k with
        | some (d, st) => complete id d st 0 t
        | none => startMigrate id key x n k (1000 * us) t
      else if ! sendCodecOk t (fnPort r.identity.key) then fail id 0x22 t
      else if ! clyUp t cport then fail id 0xA1 t
      else startHandOver id key x cport peer (1000 * us) t) := by
  dsimp only
  rw [exec_migrate]
  refine congrArg Host.Outcome.next ((sessReq_runs_checked 0x15 _ _ hb h hf hc).trans ?_)
  rw [staleGen_of_match hg, if_neg (by simp), hl, if_neg (by simp)] <;> rfl

end

/-! ### The ends of a move -/

section
variable {f : Fn} {session : DWord} {x : Session} {s : State}

/-- PARK_RELEASE of a session with its park in effect (R146). -/
theorem parkRelease_of_job {id : ReqId} {target region codec : Nat} {keep repark : Bool}
    (hx : mget? s.sessions (sessKey f.key session.toNat) = some x)
    (hj : mget? s.jobs (sessObj (sessKey f.key session.toNat) x) = some (.park id target region codec keep repark)) :
    let obj := sessObj (sessKey f.key session.toNat) x
    exec (.parkRelease f session) s =
      if moving s obj then .next s
      else if hasFailed s obj then .next (complete id 0x24 (some 8) 0 (endJob obj s))
      else if parkTiles s obj target region repark = [] then
        .next (parkDone id (sessKey f.key session.toNat) obj x target region keep repark s)
      else
        match orderWrites obj target region codec (parkTiles s obj target region repark) s with
        | none => .next (complete id (noRoom target) (some 7) 0 (endJob obj s))
        | some s => .next s := by
  dsimp only
  rw [exec_parkRelease]
  unfold execParkRelease
  dsimp only
  rw [hx]
  dsimp only
  rw [hj] <;> rfl

end

/-! ### Waiting (R264 to R267) -/

theorem aged_level (q : Queued) (p : Pav) (s : State) : (q.aged s p).level = if
    (q.level = 3 ∧ bits (regGet s p.port 0x50000) 16 31 ≠ 0 ∧
      q.levelAt + 1000000 * bits (regGet s p.port 0x50000) 16 31 < s.time) ∨
    (q.level = 2 ∧ bits (regGet s p.port 0x50000) 0 15 ≠ 0 ∧
      q.levelAt + 1000000 * bits (regGet s p.port 0x50000) 0 15 < s.time) then q.level - 1 else q.level := by
  unfold Queued.aged
  dsimp only
  by_cases h3 : q.level = 3
  · simp only [h3, if_true]
    split <;> simp_all
  · by_cases h2 : q.level = 2
    · simp only [h2, show (2 : Nat) ≠ 3 by decide, if_true, if_false]
      split <;> simp_all
    · simp [h3, h2]

/-- A pavilion whose queue's requests past their ceilings have risen, unless it is in share mode (R267, R270). -/
def agedPav (s : State) (p : Pav) : Pav := if p.share then p else { p with queue := p.queue.map (fun q => q.aged s p) }

/-- Settles O35: each command under its guards, requests by `park_runs`, `revive_runs` and `migrate_runs`. -/
theorem sessionsMoveAndWait : Obligations.SessionsMoveAndWait := by
  refine ⟨⟨fun r target keep checkGen expectGen region codec key x s u h hf hc hg hl ht hcodec => ⟨fun ho => ?park, fun ho => ?parkFull⟩,
      fun f session x id target region codec keep repark s hx hj => ⟨fun hm => ?relMoving, fun hm hfail => ?relFailed,
        fun hm hfail hp => ?relDone, fun u hm hfail hp ho => ?relAgain⟩,
      fun r early rel checkGen expectGen key x s h hf hc hg => ⟨revive_runs h hf hc hg, fun tier region hp hprog ha hfen =>
        revive_waits h hf hc hg hp hprog ha hfen⟩,
      fun f session x id early rel s hx hj => ⟨fun hm => ?revDone, fun hm he hl => ?revEarly, fun hm he => ?revWaits⟩,
      fun r checkGen expectGen n cport kind peer fenceUs key x s h hf hc hg hl => ⟨fun hb hk => ?migHere, fun hb hs hu => ?migAway⟩,
      fun f session x id n slot old oldSlot fence kind s hx hj ha => ⟨fun ho => ?drained, fun ht => ?fenced⟩,
      fun f session x id n slot old oldSlot fence kind s hx hj => ⟨fun ho => ?parkedDrained, fun ht => ?parkedFenced⟩,
      fun f session x id cport node tag fence at_ ended s hx hj => ⟨fun he ho => ?handDrained, fun ha ht => ?handFenced⟩⟩,
    fun pav f session q s hq hlim ht => ?timeout, fun s => ?promote, fun q p s => aged_level q p s,
    fun pav slot u x q ordered s hu hx hj => ⟨fun hp hr => ?swapWaits, fun hp => ⟨fun region t ho hs => ?swapOrders, fun ho hs => ?swapFull,
      fun ho hm => ?swapMoving, fun ho hm hfail => ?swapFailed, fun ho hm hfail => ?swapDone⟩⟩⟩
  case park =>
    rw [park_runs h hf hc hg hl ht hcodec, startPark]
    rw [ho]
  case parkFull =>
    rw [park_runs h hf hc hg hl ht hcodec, startPark]
    rw [ho]
  case relMoving => rw [parkRelease_of_job hx hj, if_pos hm]
  case relFailed => rw [parkRelease_of_job hx hj, hm, if_neg (by simp), if_pos hfail]
  case relDone => rw [parkRelease_of_job hx hj, hm, if_neg (by simp), hfail, if_neg (by simp), if_pos hp]
  case relAgain => rw [parkRelease_of_job hx hj, hm, if_neg (by simp), hfail, if_neg (by simp), if_neg hp, ho]
  case revDone =>
    rw [exec_reviveComplete]
    unfold execReviveComplete
    dsimp only
    rw [hx]
    dsimp only
    rw [hj]
    dsimp only
    rw [hm, if_pos (by simp)]
  case revEarly =>
    rw [exec_reviveComplete]
    unfold execReviveComplete
    dsimp only
    rw [hx]
    dsimp only
    rw [hj]
    dsimp only
    rw [hm, if_neg (by simp), he, hl, if_pos (by simp)]
  case revWaits =>
    rw [exec_reviveComplete]
    unfold execReviveComplete
    dsimp only
    rw [hx]
    dsimp only
    rw [hj]
    dsimp only
    rw [hm, if_neg (by simp), if_neg (by rcases he with he | he <;> simp [he])]
  case migHere =>
    rw [migrate_runs h hf hc hg hl hb, if_pos rfl, hk]
  case migAway =>
    rw [migrate_runs h hf hc hg hl hb, if_neg (by decide), hs, if_neg (by simp), hu, if_neg (by simp)]
  case drained =>
    rw [exec_migrationDrained]
    unfold execMigrationDrained
    dsimp only
    rw [hx]
    dsimp only
    rw [hj]
    dsimp only
    rw [ha, ho, if_neg (by simp)]
  case fenced =>
    rw [exec_migrationFenceTimeout]
    unfold execMigrationFenceTimeout
    dsimp only
    rw [hx]
    dsimp only
    rw [hj]
    dsimp only
    rw [ha, if_neg (by simp [ht])]
  case parkedDrained =>
    rw [exec_migrationDrained]
    unfold execMigrationDrained
    dsimp only
    rw [hx]
    dsimp only
    rw [hj]
    dsimp only
    rw [ho, if_neg (by simp)]
  case parkedFenced =>
    rw [exec_migrationFenceTimeout]
    unfold execMigrationFenceTimeout
    dsimp only
    rw [hx]
    dsimp only
    rw [hj]
    dsimp only
    rw [if_neg (by simp [ht])]
  case handDrained =>
    subst he
    rw [exec_migrationDrained]
    unfold execMigrationDrained
    dsimp only
    rw [hx]
    dsimp only
    rw [hj]
    dsimp only
    rw [ho, if_neg (by simp)]
  case handFenced =>
    rw [exec_migrationFenceTimeout]
    unfold execMigrationFenceTimeout
    dsimp only
    rw [hx]
    dsimp only
    rw [hj]
    dsimp only
    rw [ha, if_neg (by simp [ht])]
  case timeout =>
    rw [exec_admissionWaitTimeout]
    unfold execAdmissionWaitTimeout
    dsimp only
    rw [hq]
    dsimp only
    rw [if_neg (not_or.mpr ⟨hlim, Nat.not_lt.mpr ht⟩)]
  case promote =>
    refine ⟨{ s with pavs := s.pavs.map (fun p => (p.1, agedPav s p.2)) }, exec_levelPromotion .., rfl, fun n p hp => ?_⟩
    refine ⟨agedPav s p, by rw [mget_map, hp]; rfl, fun hs => if_pos hs, fun hs => ?_⟩
    rw [agedPav, hs, if_neg (by simp)]
  all_goals
    rw [exec_preemptionSwap]
    unfold execPreemptionSwap
    dsimp only
    rw [hu]
    dsimp only
    rw [hx]
    dsimp only
    rw [hj]
    dsimp only
  case swapWaits => rw [hp, hr, if_pos (by simp)]
  all_goals rw [if_neg (by rcases hp with hp | hp <;> rw [hp] <;> simp)]
  case swapOrders => rw [ho, if_pos (by simp), hs]
  case swapFull => rw [ho, if_pos (by simp), hs]
  case swapMoving => rw [ho, if_neg (by simp), if_pos hm]
  case swapFailed => rw [ho, if_neg (by simp), hm, if_neg (by simp), if_pos hfail]
  case swapDone => rw [ho, if_neg (by simp), hm, if_neg (by simp), hfail, if_neg (by simp)]

end Sys2Proof.Machine
end

section
/-! PROOF. Objects, models and regions (R137, R144, R145, R149, R154, R155, R255, R497). -/

namespace Sys2Proof.Machine

section
variable {s : State} {r : Req}

theorem takenId_ident (op : Nat) : (takenId s r op).ident = r.identity.key := rfl

/-- A request whose operands are in range runs its body, whatever its check of them answers. -/
theorem onReq_runs_checked (op : Nat) (body : ReqId → State → State) {bad : Option Nat} (hb : bad = none) (h : Takes s r) :
    onReq r op bad body s = body (takenId s r op) (taken s r op) := by
  rw [hb]
  exact onReq_takes op body h

/-- A placement passes its checks (R144, R145). -/
theorem place_checked {object : DWord} {target region base cores : Nat} {keep : Bool} {o : Obj} (h : Takes s r)
    (hi : Idle s (objKey r.identity.key object.toNat)) (ho : mget? s.objects (objKey r.identity.key object.toNat) = some o)
    (hk : o.kind ≠ .session) (ht : target = 1 ∨ tierOk (taken s r 0x50) r.identity.key target region = true)
    (hb : placeBad (taken s r 0x50) (takenId s r 0x50) target base cores o.ntiles = none)
    (hm : mapRoom (taken s r 0x50) 0 = true) :
    let id := takenId s r 0x50
    let t := taken s r 0x50
    let key := objKey r.identity.key object.toNat
    let job (u : State) : State := settle key { u with jobs := mput u.jobs key (.place id target region keep) }
    exec (.place r object target keep region base cores) s = .next (
      if o.kind = .index ∧ (target = 1 ∨ target = 2) then
        if target = 2 ∧ indexNeedsProg t key then complete id 0x21 (some 7) 0 t else
          ((placeIndex key o target keep base cores t).map job).getD (complete id 0x21 (some 7) 0 t)
      else if target = 1 then
        job ((List.range o.ntiles).foldl (fun s i =>
          placeUpper key 1 (dealAddr (((corePav t (base % 2 ^ 14)).map (·.2)).getD {}) base cores i) keep i s) t)
      else if target = 2 then
        ((placeFar key keep ((List.range o.ntiles).filter (fun i => needsFar (o.tile i))) t).map job).getD
          (complete id 0x21 (some 7) 0 t)
      else
        ((orderOwn key target region (tilesWhere (noteEpoch key t) key (fun t => t.state = .dirty
          || ((t.state = .clean || t.state = .lower) && ! t.liesIn target region))) (noteEpoch key t)).map job).getD
          (complete id (noRoom target) (some 7) 0 (noteEpoch key t))) := by
  have obj : objOf (taken s r 0x50) (objKey r.identity.key object.toNat) = some o := ho
  have tier : ¬ (o.kind = .session ∨ target ≠ 1 ∧ tierOk (taken s r 0x50) r.identity.key target region = false) := by
    rintro (e | ⟨e, e'⟩)
    · exact hk e
    · exact absurd (ht.resolve_left e) (by simp [e'])
  dsimp only
  rw [exec_place]
  refine congrArg Host.Outcome.next ((onReq_takes 0x50 _ h).trans ((objectGate_runs 0x50 _ _ hi).trans ?_))
  rw [takenId_ident, obj]
  dsimp only
  rw [if_neg tier, hb]
  dsimp only
  rw [hm, if_neg (by simp)]
  split
  · split
    · rfl
    · cases placeIndex (objKey r.identity.key object.toNat) o target keep base cores (taken s r 0x50) <;> rfl
  · split
    · rfl
    · split
      · cases placeFar (objKey r.identity.key object.toNat) keep ((List.range o.ntiles).filter (fun i => needsFar (o.tile i)))
          (taken s r 0x50) <;> rfl
      · generalize noteEpoch (objKey r.identity.key object.toNat) (taken s r 0x50) = t
        cases orderOwn (objKey r.identity.key object.toNat) target region (tilesWhere t (objKey r.identity.key object.toNat)
          (fun t => t.state = .dirty || ((t.state = .clean || t.state = .lower) && ! t.liesIn target region))) t <;> rfl

/-- A write-back passes its checks (R144). -/
theorem writeBack_orders {object : DWord} {first count : Nat} {o : Obj} (h : Takes s r)
    (hi : Idle s (objKey r.identity.key object.toNat)) (ho : mget? s.objects (objKey r.identity.key object.toNat) = some o)
    (hf : count = 0 ∨ first < o.ntiles)
    (hn : (if count = 0 then 0 else first) + (if count = 0 then o.ntiles else count) ≤ o.ntiles) :
    let id := takenId s r 0x52
    let key := objKey r.identity.key object.toNat
    let t := noteEpoch key (taken s r 0x52)
    let lo := if count = 0 then 0 else first
    let n := if count = 0 then o.ntiles else count
    exec (.writeBack r object first count) s = .next (
      ((((tilesWhere t key (fun t => t.state = .dirty && t.loTier ≠ 0)).filter (fun i =>
          decide (lo ≤ i) && decide (i < lo + n))).foldl (fun a i => a.bind (fun s =>
            orderWrite key (relTier (tileOf s key i).loTier) (tileOf s key i).loRegion (tileOf s key i).codec i s)) (some t)).map
        (fun u => settle key { u with jobs := mput u.jobs key (.writeBack id lo n) })).getD (complete id 0x20 (some 7) 0 t)) := by
  have obj : objOf (taken s r 0x52) (objKey r.identity.key object.toNat) = some o := ho
  dsimp only
  rw [exec_writeBack]
  refine congrArg Host.Outcome.next ((onReq_takes 0x52 _ h).trans ((objectGate_runs 0x52 _ _ hi).trans ?_))
  rw [takenId_ident, obj]
  dsimp only
  rw [if_neg (by rintro ⟨e, e'⟩; exact absurd (hf.resolve_left e) (by omega)), if_neg (by omega)]
  generalize List.foldl _ _ _ = u
  cases u <;> rfl

/-- A model load passes its checks (R144, R145, R154, R155). -/
theorem modelLoad_places {slot n : Nat} {object : DWord} {replace : Bool} {o : Obj} {u : State} (h : Takes s r)
    (hi : Idle s (objKey r.identity.key object.toNat)) (hs : slot ≤ 255) (hn : n ≤ 79)
    (ho : mget? s.objects (objKey r.identity.key object.toNat) = some o)
    (ha : assigned (taken s r 0x51) n r.identity.key = true)
    (hm : modelOk (taken s r 0x51) o (pavAt (taken s r 0x51) n)
      (tileNow (taken s r 0x51) (objKey r.identity.key object.toNat) 0) = true)
    (hf : pavFenced (taken s r 0x51) (pavAt (taken s r 0x51) n) = false)
    (hr : replace = false ∨ ((pavAt (taken s r 0x51) n).slots = [] ∧ groupBusy (taken s r 0x51) n = false ∧
      unloadOwed (taken s r 0x51) n = []))
    (hp : placeRanges (objKey r.identity.key object.toNat) (pavAt (taken s r 0x51) n)
      (modelRanges (tileNow (taken s r 0x51) (objKey r.identity.key object.toNat) 0))
      (if replace then unloadModel n (taken s r 0x51) else taken s r 0x51) = some u) :
    exec (.modelLoad r slot n object replace) s = .next { u with
      jobs := mput u.jobs (objKey r.identity.key object.toNat) (.modelLoad (takenId s r 0x51) n slot) } := by
  have obj : objOf (taken s r 0x51) (objKey r.identity.key object.toNat) = some o := ho
  rw [exec_modelLoad]
  refine congrArg Host.Outcome.next ((onReq_runs_checked 0x51 _ ?_ h).trans ((objectGate_runs 0x51 _ _ hi).trans ?_))
  · rw [if_neg (by omega), if_neg (by omega)]
  rw [takenId_ident, obj]
  dsimp only
  rw [ha, if_neg (by simp), hm, if_neg (by simp), hf, if_neg (by simp)]
  have free : ∀ p : Prop, (replace = true → ¬ p) → ¬ (replace = true ∧ p) := fun p np hrp => np hrp.1 hrp.2
  have given (hrep : replace = true) := hr.resolve_left (by simp [hrep])
  rw [if_neg (free _ fun e => by simp [(given e).1]), if_neg (free _ fun e => by simp [(given e).2.1]),
    if_neg (free _ fun e => by simp [(given e).2.2]), hp]

end

/-- Every step of MODEL_LOAD_APPLY on the load under way (R154). -/
theorem modelLoadApply_of_job {pav : Fin 80} {key n slot : Nat} {id : ReqId} {s : State}
    (hj : s.jobs.find? (fun j => match j.2 with | .modelLoad _ n _ => n = pav.val | _ => false) = some (key, .modelLoad id n slot))
    (hm : moving s key = false) :
    let x := modelItem s key n slot
    let m : ModelUse := { object := key, outRows := mdOutRows (tileNow s key 0), digest := shake256 ((objPlain s key).getD []) 32 }
    let t := onPav n (fun p => { p with models := mput p.models slot m }) (endJob key s)
    exec (.modelLoadApply pav) s =
      if hasFailed s key then .next (complete id 0x24 (some 8) 0 (releaseAll key (endJob key s)))
      else if ! modelClean s key then .next s
      else if (loadRefused t (fnPort id.fn) [x]).isSome then
        .next (releaseAll key (loadAll id [x] (onPav n (fun p => { p with models := (pavAt s n).models }) t)))
      else .next (loadAll id [x] t) := by
  dsimp only
  rw [exec_modelLoadApply, execModelLoadApply]
  generalize hy : List.find? _ s.jobs = y
  have found : y = some (key, .modelLoad id n slot) := hy.symm.trans hj
  rw [found]
  dsimp only
  rw [hm, if_neg (by simp)]
  split
  · rfl
  · split
    · rfl
    · generalize hl : loadRefused _ _ _ = l
      cases l <;> rfl

/-- Settles O36: each request that its checks let pass runs its body, and the branches of the body are the clauses. -/
theorem objectsModelsAndRegions : Obligations.ObjectsModelsAndRegions := by
  unfold Obligations.ObjectsModelsAndRegions
  refine ⟨⟨fun r object target keep region base cores o s u h hi ho hk ht hb hm => ?place,
      fun r object first count o s u h hi ho hf hn hu => ?writeBack⟩,
    fun r slot n object replace o s u h hi hs hn ho ha hm hf hr hp => modelLoad_places h hi hs hn ho ha hm hf hr hp,
    fun pav key n slot id s hj hm => ?apply,
    fun r object buf tile o s h ho ht => ?mapRead,
    fun r tier region granules node base s h ht hr hg hg' hb => ?grant,
    fun r tier region s h ht hr hg hb => ?withdraw⟩
  case place =>
    rw [place_checked h hi ho hk ht hb hm]
    refine ⟨fun hx h2 hp => ?noProgram, fun hx h12 hp => ?index, fun hx h1 => ?near, fun hx h2 hp => ?far, fun h1 h2 hp => ?own⟩
    case noProgram => rw [if_pos ⟨hx, .inr h2⟩, if_pos ⟨h2, hp⟩]
    case index =>
      rw [if_pos ⟨hx, h12.imp_right And.left⟩, hp, if_neg]
      · rfl
      · rintro ⟨h2, hn⟩
        obtain h1 | ⟨-, hnp⟩ := h12
        · omega
        · simp [hnp] at hn
    case near => rw [if_neg (fun e => hx e.1), if_pos h1]
    case far =>
      rw [if_neg (fun e => hx e.1), if_neg (by omega), if_pos h2, hp]
      rfl
    case own =>
      rw [if_neg (fun e => by omega), if_neg h1, if_neg h2, hp]
      rfl
  case writeBack =>
    rw [writeBack_orders h hi ho hf hn, hu]
    rfl
  case apply =>
    rw [modelLoadApply_of_job hj hm]
    refine ⟨fun hf => if_pos hf, fun hf hc hl => ?_, fun hf hc hl => ?_⟩
    · rw [hf, if_neg (by simp), hc, if_neg (by simp), hl, if_neg (by simp)]
    · rw [hf, if_neg (by simp), hc, if_neg (by simp), hl, if_pos rfl]
  case mapRead =>
    have obj : objOf (taken s r 0x55) (objKey r.identity.key object.toNat) = some o := ho
    rw [exec_mapRead]
    refine congrArg Host.Outcome.next ((onReq_takes 0x55 _ h).trans ?_)
    rw [takenId_ident, obj]
    dsimp only
    rw [if_neg (by omega)]
    rfl
  case grant =>
    rw [exec_regionGrant]
    refine congrArg Host.Outcome.next ((onReq_runs_checked 0x53 _ ?_ h).trans ?_)
    · rw [if_neg (by omega), if_neg (by omega)]
    rw [if_neg (by omega), if_neg]
    · rfl
    · obtain hn | hb := hb
      · rw [show regionOf (taken s r 0x53) (takenId s r 0x53).ident tier region = none from hn]
        simp
      · rw [show regionBusy (taken s r 0x53) (takenId s r 0x53).ident tier region = false from hb]
        simp
  case withdraw =>
    refine ⟨?_, fun hw => mget_mdel_self _ hw, fun x hx => ?_⟩
    · rw [exec_regionWithdraw]
      refine congrArg Host.Outcome.next ((onReq_runs_checked 0x54 _ ?_ h).trans ?_)
      · rw [if_neg (by omega)]
      rw [if_neg, show regionBusy (taken s r 0x54) (takenId s r 0x54).ident tier region = false from hb, if_neg (by simp)]
      · rfl
      · rintro (e | e)
        · omega
        · rw [show regionOf (taken s r 0x54) (takenId s r 0x54).ident tier region = regionOf s r.identity.key tier region from rfl]
            at e
          simp [e] at hg
    · simpa using (List.mem_filter.mp hx).2

end Sys2Proof.Machine
end

section
/-! PROOF. The shutter engines' commands (R139, R140, R148, R150, R157, R159, R168 to R173, R384, R387). -/

namespace Sys2Proof.Machine

/-- Settles O37: an engine in service whose transfer is due passes the command's guard, and what the tile's form and its place give
selects the clause. -/
theorem shutterEnginesMoveTiles : Obligations.ShutterEnginesMoveTiles := by
  unfold Obligations.ShutterEnginesMoveTiles
  refine ⟨fun engine obj tile read s he ha hb hf => ?fetch, fun engine obj tile s he ho hs hu => ?write,
    fun engine obj tile m s hm he hv ho => ?copy, fun engine obj tile id cport node tag fence at0 s hj he hk hs hl => ?send⟩
  case fetch =>
    rw [exec_shutterFetch, execShutterFetch]
    generalize tileOf s (refKey obj) tile = t at ha hb hf ⊢
    have due (h : t.loTier = 5 → poolFull s (objPort (refKey obj)) = false) :
        ¬ (! engineOk s engine || t.state ≠ .arriving || t.begun || earlierFetch s (refKey obj) t
          || (t.loTier = 5 && poolFull s (objPort (refKey obj)))) = true := by
      rw [he, ha, hb, hf]
      simpa using h
    refine ⟨fun x h5 hx => ⟨fun bs hr => ?_, fun c hr => ?_⟩, fun h5 hx => ?_, fun h5 hp => ?_, fun h5 hp => ?_⟩
    · rw [if_neg (due (absurd · h5))]
      dsimp only
      rw [if_neg h5, hx]
      dsimp only
      rw [hr]
    · rw [if_neg (due (absurd · h5))]
      dsimp only
      rw [if_neg h5, hx]
      dsimp only
      rw [hr]
    · rw [if_neg (due (absurd · h5))]
      dsimp only
      rw [if_neg h5, hx]
    · exact if_pos (by simp [h5, hp])
    · rw [if_neg (due fun _ => hp)]
      exact if_pos h5
  case write =>
    rw [exec_shutterWrite, execShutterWrite]
    generalize tileOf s (refKey obj) tile = t at ho hs hu ⊢
    have due (h : t.newTier ≠ 5 ∨ poolFull s (objPort (refKey obj)) = false) :
        ¬ (! engineOk s engine || ! t.owesWrite || t.sent || (t.upTier = 1 && t.out.isNone)
          || (t.newTier = 5 && poolFull s (objPort (refKey obj)))) = true := by
      have left (h1 : t.upTier = 1) : ¬ t.out.isNone = true := by simpa using hu h1
      have room : t.newTier = 5 → poolFull s (objPort (refKey obj)) = false := fun h5 => h.resolve_left (· h5)
      rw [he, ho, hs]
      simp only [Bool.not_true, Bool.or_false, Bool.false_or, Bool.or_eq_true, Bool.and_eq_true, decide_eq_true_eq]
      rintro (⟨h1, hn⟩ | ⟨h5, hfull⟩)
      · exact left h1 hn
      · simp [room h5] at hfull
    refine ⟨fun h5 hp => if_pos (by simp [h5, hp]), fun hp => ?_⟩
    rw [if_neg (due hp)]
    refine ⟨fun hsrc => ?_, fun f hsrc hr => ?_, fun f e v hsrc hr => ⟨fun hpl => ?_, fun sp x hpl => ⟨fun h5 => ?_, fun h5 => ?_⟩⟩⟩
    · rw [hsrc]
      rfl
    · rw [hsrc]
      dsimp only [Option.bind_some]
      rw [hr]
      rfl
    · rw [hsrc]
      dsimp only [Option.bind_some]
      rw [hr]
      dsimp only
      rw [hpl]
    · rw [hsrc]
      dsimp only [Option.bind_some]
      rw [hr]
      dsimp only
      rw [hpl]
      exact if_neg h5
    · rw [hsrc]
      dsimp only [Option.bind_some]
      rw [hr]
      dsimp only
      rw [hpl]
      dsimp only
      rw [if_pos h5, if_pos h5]
  case copy =>
    rw [exec_shutterCopy, execShutterCopy, hm]
    dsimp only
    rw [if_neg (by simp [he, hv, ho])]
    generalize noteEngine _ _ _ _ _ _ _ _ _ _ _ _ = u
    refine ⟨fun hc => ?_, fun hc hst => ?_, fun hc hst => ⟨fun bs hb => ?_, fun hb => ?_⟩⟩
    · rw [hc]
      rfl
    · rw [hc, if_neg (by simp), if_pos hst]
    · rw [hc, if_neg (by simp), hst, if_neg (by simp), hb]
    · rw [hc, if_neg (by simp), hst, if_neg (by simp), hb]
  case send =>
    have due : ¬ (! engineOk s engine || ! sendable (tileOf s (refKey obj) tile) || (tileOf s (refKey obj) tile).sent
        || tilesWhere s (refKey obj) (fun u => sendable u && ! u.sent &&
          decide (u.order < (tileOf s (refKey obj) tile).order)) ≠ []) = true := by
      rw [he, hk, hs, hl]
      simp
    rw [exec_shutterSend, execShutterSend]
    dsimp only
    rw [hj]
    dsimp only
    rw [if_neg due]
    generalize noteEngine _ _ _ _ _ _ _ _ _ _ _ _ = n
    refine ⟨fun hf => ?_, fun f hf hr => ?_, fun f e v hf hr => ?_⟩
    · rw [hf]
      rfl
    · rw [hf]
      dsimp only [Option.bind_some]
      rw [hr]
      rfl
    · rw [hf]
      dsimp only [Option.bind_some]
      rw [hr]

end Sys2Proof.Machine
end

section
/-! PROOF. The ends of transfers and the stream slots' own moves (R127, R128, R139, R140, R157, R298, R299, R455). -/

namespace Sys2Proof.Machine

/-! ### What a tile holds after its state changes -/

section
variable {s t : State} {key i : Nat} {o : Obj}

theorem tileOf_of_objects (h : t.objects = s.objects) (key i : Nat) : tileOf t key i = tileOf s key i := by
  unfold tileOf objOf
  rw [h]

theorem tileOf_onTile_self (f : Tile → Tile) (ho : mget? s.objects key = some o) :
    tileOf (onTile key i f s) key i = f (tileOf s key i) := by
  have obj : objOf s key = some o := ho
  unfold tileOf onTile
  rw [obj]
  dsimp only [objOf]
  rw [mget_mput_self]
  simp [Obj.tile]

theorem tileOf_onTile_ne (f : Tile → Tile) {j : Nat} (hj : j ≠ i) : tileOf (onTile key i f s) key j = tileOf s key j := by
  cases ho : objOf s key with
  | none =>
    unfold onTile
    rw [ho]
  | some o =>
    unfold onTile tileOf
    rw [ho]
    dsimp only [objOf]
    rw [mget_mput_self]
    simp [Obj.tile, hj]

end

/-- `t` has the objects and jobs of `s`. -/
def SameWork (s t : State) : Prop := t.objects = s.objects ∧ t.jobs = s.jobs

theorem SameWork.trans {s t u : State} (h : SameWork s t) (k : SameWork t u) : SameWork s u :=
  ⟨k.1.trans h.1, k.2.trans h.2⟩

theorem SameWork.ite {c : Prop} [Decidable c] {s t : State} (h : SameWork s t) : SameWork s (if c then t else s) := by
  split
  · exact h
  · exact ⟨rfl, rfl⟩

theorem spotFree_sameWork (fn : Nat) (sp : Spot) (s : State) : SameWork s (spotFree fn sp s) := by
  unfold spotFree
  split
  · exact ⟨rfl, rfl⟩
  · split <;> exact ⟨rfl, rfl⟩

theorem raiseErr_sameWork (e : ErrRec) (s : State) : SameWork s (raiseErr e s) := by
  have h := raiseErr_onLog e s
  generalize raiseErr e s = t at h ⊢
  rw [OnLog] at h
  exact ⟨by rw [h], by rw [h]⟩

theorem onTile_jobs (key i : Nat) (f : Tile → Tile) (s : State) : (onTile key i f s).jobs = s.jobs := by
  unfold onTile
  split <;> rfl

theorem settle_of_no_job {s : State} {key : Nat} (h : mget? s.jobs key = none) : settle key s = s := by
  unfold settle
  split
  · rfl
  · rw [h]

/-- Nothing of a tile that no snapshot waits for is stored ahead (R294). -/
theorem snapKeep_of_clear {s : State} {key i : Nat} (h : (tileOf s key i).pending = false) : snapKeep key i s = s := by
  unfold snapKeep
  rw [h]
  rfl

/-- An acknowledged write of a tile that no job and no snapshot waits for (R139). -/
theorem ackWrite_of_owed {s : State} {key i : Nat} {o : Obj} (ho : mget? s.objects key = some o) (hj : mget? s.jobs key = none)
    (hw : (tileOf s key i).owesWrite = true) (hs : (tileOf s key i).sent = true) (hp : (tileOf s key i).pending = false) :
    let t := tileOf s key i
    tileOf (ackWrite key i s) key i = { t with
        loTier := absTier (objPort key) t.newTier, loRegion := t.newRegion, loAddr := t.newAddr, loGran := t.newGran
        codec := t.newCodec, newTier := 0, sent := false, out := none, begun := false
        changed := t.changed || decide (t.state = .redirtied), again := t.again || decide (t.state = .redirtied)
        state := if t.state = .departing then .clean else if t.state = .redirtied then .dirty else t.state } ∧
      ∀ j, j ≠ i → tileOf (ackWrite key i s) key j = tileOf s key j := by
  dsimp only
  unfold ackWrite
  dsimp only
  rw [hw, hs, if_neg (by simp), snapKeep_of_clear hp, ite_self]
  generalize hu : tierBytes key _ 0 _ _ = u
  have same : SameWork s u := by
    subst hu
    exact (SameWork.ite (spotFree_sameWork ..)).trans ⟨rfl, rfl⟩
  have obj : mget? u.objects key = some o := by rw [same.1, ho]
  rw [settle_of_no_job (by rw [onTile_jobs, same.2, hj])]
  exact ⟨by rw [tileOf_onTile_self _ obj, tileOf_of_objects same.1],
    fun j hne => by rw [tileOf_onTile_ne _ hne, tileOf_of_objects same.1]⟩

/-- A transfer's first failure is noted and the tile stays as it is (R140). -/
theorem failTransfer_first {s : State} {key i cause : Nat} {o : Obj} (ho : mget? s.objects key = some o)
    (hr : (tileOf s key i).retried = false) : (tileOf (failTransfer key i cause s) key i).retried = true ∧
      (tileOf (failTransfer key i cause s) key i).state = (tileOf s key i).state := by
  unfold failTransfer
  dsimp only
  rw [hr, if_pos (show (!false) = true from rfl)]
  have obj : mget? (regAdd (objPort key) 0xB0018 1 s).objects key = some o := ho
  generalize hu : onTile key i _ (regAdd (objPort key) 0xB0018 1 s) = u
  have tile : (tileOf u key i).retried = true ∧ (tileOf u key i).state = (tileOf s key i).state := by
    subst hu
    rw [tileOf_onTile_self _ obj]
    exact ⟨rfl, rfl⟩
  split
  · rw [tileOf_of_objects (show (queueDepart key i u).objects = u.objects from rfl)]
    exact tile
  · exact tile

/-- A transfer's second failure makes the tile FAILED (R140). -/
theorem failTransfer_second {s : State} {key i cause : Nat} {o : Obj} (ho : mget? s.objects key = some o)
    (hr : (tileOf s key i).retried = true) : (tileOf (failTransfer key i cause s) key i).state = .failed := by
  unfold failTransfer
  dsimp only
  rw [hr, if_neg (by simp)]
  have same : SameWork s (if (tileOf s key i).owesWrite then
      spotFree (key / 2 ^ 64) (tileOf s key i).target (raiseErr (tileErr s key i cause) s) else raiseErr (tileErr s key i cause) s) :=
    (raiseErr_sameWork ..).trans (SameWork.ite (spotFree_sameWork ..))
  rw [tileOf_onTile_self _ (by rw [same.1, ho])]

/-- Settles O38: the guard of each command holds, and an acknowledged or failed transfer changes its tile alone. -/
theorem transfersEndAndStreamSlots : Obligations.TransfersEndAndStreamSlots := by
  unfold Obligations.TransfersEndAndStreamSlots
  refine ⟨⟨fun obj tile s hl => ?arrival, fun obj tile o s ho hj hw hs h5 hp => ?ack,
      fun obj tile s => ⟨fun h5 => ?ackPool, fun h5 => ?ackOwn⟩, fun port part cause s => ⟨fun h => ⟨?snapAck, ?snapMiss⟩, fun h => ⟨?_, ?_⟩⟩,
      fun obj tile cause s h => ?failure, fun key tile cause o s ho => ⟨failTransfer_first ho, failTransfer_second ho⟩⟩,
    fun pav slot layer n u x s hu hx hp hk hlay hpass => ?stream, fun pav slot layer group u x s hu hx => ?tail⟩
  case arrival =>
    have laid (u : State) : (if (tileOf s (refKey obj) tile).upTier = 2 then tierBytes (refKey obj) 2 0 16384 u
        else tierBytes (refKey obj) 1 0 16384 u) =
        tierBytes (refKey obj) (if (tileOf s (refKey obj) tile).upTier = 2 then 2 else 1) 0 16384 u := by
      split <;> rfl
    rw [exec_tileArrival, execTileArrival]
    dsimp only
    rw [laid]
    refine ⟨fun ha hf => ?_, fun ha hf => ?_, fun ha => ?_⟩
    · rw [if_neg (by simp [hl]), if_pos ha, hf, if_neg Bool.false_ne_true]
    · rw [if_neg (by simp [hl]), if_pos ha, hf, if_pos rfl]
    · rw [if_neg (by simp [hl]), if_neg ha]
  case ack =>
    refine ⟨ackWrite (refKey obj) tile s, ?_, ackWrite_of_owed ho hj hw hs hp⟩
    exact if_neg h5
  case ackPool => exact if_pos h5
  case ackOwn => exact if_neg h5
  case snapAck =>
    rw [exec_tileWriteAck, execTileWriteAck]
    rw [h]
    rfl
  case snapMiss =>
    rw [exec_tileTransferFailure, execTileTransferFailure]
    rw [h]
    rfl
  · exact if_pos h
  · exact if_pos h
  case failure =>
    rw [exec_tileTransferFailure, execTileTransferFailure]
    rw [tileMiss]
    rw [if_pos]
    simp only [Bool.or_eq_true, Bool.and_eq_true, Bool.not_eq_true', decide_eq_true_eq, Option.isSome_iff_ne_none]
    obtain ⟨ha, hb, hl⟩ | ⟨hw, hb⟩ | ⟨hl, hw⟩ := h
    · exact .inl (.inl ⟨⟨ha, hb⟩, hl⟩)
    · exact .inl (.inr ⟨hw, by simpa only [or_assoc] using hb⟩)
    · exact .inr ⟨hl, hw⟩
  case stream =>
    rw [exec_streamLayerFetch, execStreamLayerFetch]
    dsimp only
    rw [hu]
    dsimp only [Option.bind_some]
    rw [hx]
    dsimp only [Option.map_some]
    rw [if_neg]
    rw [hp, hk, hpass]
    simpa using hlay
  case tail =>
    rw [exec_tailUnitWriteBack, execTailUnitWriteBack]
    rw [hu]
    dsimp only [Option.bind_some]
    rw [hx] <;> rfl

end Sys2Proof.Machine
end

section
/-! PROOF. What the directory's events do to its rows (R187, R195, R199 to R203). -/

namespace Sys2Proof.Machine

/-! ### Parts of the directory that its events leave as they are -/

/-- `t` differs from `s` at most in the directory's rows and in which of them are SUSPECT. -/
def OnRows (s t : State) : Prop := t = { s with dir := { s.dir with rows := t.dir.rows, suspects := t.dir.suspects } }

theorem OnRows.refl (s : State) : OnRows s s := rfl

theorem OnRows.trans {s t u : State} (h : OnRows s t) (g : OnRows t u) : OnRows s u := by
  unfold OnRows at g
  rw [(h : t = _)] at g
  exact g

theorem OnRows.foldl {α : Type} {f : State → α → State} (hf : ∀ s x, OnRows s (f s x)) (l : List α) (s : State) :
    OnRows s (l.foldl f s) := by
  induction l generalizing s with
  | nil => exact .refl s
  | cons x l ih => exact (hf s x).trans (ih _)

theorem OnRows.openLine {s t : State} (h : OnRows s t) (n : Nat) : openLine t n = openLine s n := by
  rw [(h : t = _)]
  rfl

theorem OnRows.cascaded {s t : State} (h : OnRows s t) (b : Nat) : cascaded t b = cascaded s b := by
  rw [(h : t = _)]
  rfl

theorem OnRows.rewrittenNow {s t : State} (h : OnRows s t) (n : Nat) : rewrittenNow t n = rewrittenNow s n := by
  rw [(h : t = _)]
  rfl

theorem flipRow_onRows (s : State) (x : DirFlip) : OnRows s (flipRow s x) := rfl

theorem cleanRow_onRows (n : Nat) (s : State) : OnRows s (cleanRow n s) := by
  unfold cleanRow
  dsimp only
  split <;> rfl

theorem flips_suspects (flips : List DirFlip) (s : State) : (flips.foldl flipRow s).dir.suspects = s.dir.suspects :=
  foldl_keeps (fun s => s.dir.suspects) (f := flipRow) (fun _ _ => rfl) flips s

theorem farAccess_dir (slot : Nat) (s : State) : (farAccess slot s).dir = s.dir := by
  rw [show farAccess slot s = _ from farAccess_onQueues slot s]

theorem raiseErr_dir (e : ErrRec) (s : State) : (raiseErr e s).dir = s.dir := by
  rw [show raiseErr e s = _ from raiseErr_onLog e s]

/-! ### Rows that take their shadow line's content -/

theorem cleanRow_suspects (n : Nat) (s : State) : (cleanRow n s).dir.suspects = s.dir.suspects.filter (· ≠ n) := by
  unfold cleanRow
  dsimp only
  split <;> rfl

/-- The global row that a row of the array belongs to (R180). -/
def globalRow (s : State) (n : Nat) : Nat := if cascaded s (n / 65536) && n / 65536 % 2 = 1 then n - 65536 else n

theorem cleanRow_rows_ne {s : State} {n m : Nat} (h : m ≠ globalRow s n) :
    mget? (cleanRow n s).dir.rows m = mget? s.dir.rows m := by
  unfold cleanRow
  dsimp only
  rw [← globalRow]
  split
  · exact mget_mdel_ne _ _ _ h
  · exact mget_mput_ne _ _ _ _ h

theorem globalRow_of_single {s : State} {n : Nat} (h : cascaded s (n / 65536) = false) : globalRow s n = n := by
  rw [globalRow, h]
  simp

theorem cleanRow_row {s : State} {n : Nat} {d : DirRow} (h : cascaded s (n / 65536) = false) (ho : openLine s n = some d) :
    mget? (cleanRow n s).dir.rows n = some { d with
      prev := (mget? s.dir.rows n).bind (·.prev), holdEnd := ((mget? s.dir.rows n).map (·.holdEnd)).getD 0 } := by
  unfold cleanRow
  dsimp only
  rw [← globalRow, globalRow_of_single h,
    (show openLine { s with dir := { s.dir with suspects := s.dir.suspects.filter (· ≠ n) } } n = some d from ho)]
  exact mget_mput_self _ _ _

theorem openLine_key2 {s : State} {n : Nat} {d : DirRow} (h : openLine s n = some d) : d.key2 = d.key := by
  unfold openLine at h
  obtain ⟨x, -, hx⟩ := Option.bind_eq_some_iff.mp h
  split at hx
  · cases hx
    rfl
  · cases hx

/-! ### Rows in doubt -/

theorem markSuspect_of_fresh {s : State} {n : Nat} (h : rewrittenNow s n = false) : markSuspect n s =
    { s with dir := { s.dir with suspects := if s.dir.suspects.contains n then s.dir.suspects else s.dir.suspects ++ [n] } } := by
  unfold markSuspect
  dsimp only
  rw [h, if_neg Bool.false_ne_true]

theorem mem_markSuspect {s : State} {n : Nat} (h : rewrittenNow s n = false) : n ∈ (markSuspect n s).dir.suspects := by
  rw [markSuspect_of_fresh h]
  dsimp only
  split
  · simpa using ‹s.dir.suspects.contains n = true›
  · simp

theorem mem_markSuspect_of_mem {s : State} {n m : Nat} (h : rewrittenNow s n = false) (hm : m ∈ s.dir.suspects) :
    m ∈ (markSuspect n s).dir.suspects := by
  rw [markSuspect_of_fresh h]
  dsimp only
  split
  · exact hm
  · exact List.mem_append_left _ hm

/-- Rows none of which was rewritten of late are all SUSPECT afterwards (R200, R201). -/
theorem mem_markSuspects {ns : List Nat} {s : State} (h : ∀ m ∈ ns, rewrittenNow s m = false) :
    ∀ n, n ∈ ns ∨ n ∈ s.dir.suspects → n ∈ (ns.foldl (fun s n => markSuspect n s) s).dir.suspects := by
  induction ns generalizing s with
  | nil => exact fun n hn => hn.resolve_left (by simp)
  | cons m ns ih =>
    intro n hn
    have hm := h m (by simp)
    have on : OnRows s (markSuspect m s) := by
      rw [markSuspect_of_fresh hm]
      rfl
    refine ih (fun k hk => (on.rewrittenNow k).trans (h k (by simp [hk]))) n ?_
    obtain hn | hn := hn
    · obtain rfl | hn := List.mem_cons.mp hn
      · exact .inr (mem_markSuspect hm)
      · exact .inl hn
    · exact .inr (mem_markSuspect_of_mem hm hn)

theorem mendRow_suspects (n : Nat) (s : State) : (mendRow n s).dir.suspects = s.dir.suspects.filter (· ≠ n) := by
  unfold mendRow
  split
  · unfold rewriteRow
    dsimp only
    rw [cleanRow_suspects, farAccess_dir]
  · rename_i h
    refine (List.filter_eq_self.mpr fun m hm => ?_).symm
    have : m ≠ n := fun e => h (by simpa [← e] using hm)
    simpa using this

/-- Mended rows are SUSPECT no longer (R200). -/
theorem mendRows_suspects (ns : List Nat) (s : State) :
    ∀ m ∈ (ns.foldl (fun s n => mendRow n s) s).dir.suspects, m ∈ s.dir.suspects ∧ m ∉ ns := by
  induction ns generalizing s with
  | nil => exact fun m hm => ⟨hm, by simp⟩
  | cons n ns ih =>
    intro m hm
    obtain ⟨h, hn⟩ := ih (mendRow n s) m hm
    rw [mendRow_suspects, List.mem_filter] at h
    refine ⟨h.1, ?_⟩
    simp only [List.mem_cons, not_or]
    exact ⟨by simpa using h.2, hn⟩

/-! ### The searches under way and the epoch -/

/-- What a row in doubt leaves of the directory whatever becomes of it: the searches under way and the epoch. -/
def dirHead (s : State) : List DirSearch × Nat := (s.dir.searches, s.dir.epoch)

theorem moveWrite_head (gone : List Nat) (s : State) (w : DirWrite) : dirHead (moveWrite gone s w) = dirHead s := by
  unfold moveWrite
  split
  · rfl
  · split <;> rfl

theorem blockFails_head (b : Nat) (s : State) : dirHead (blockFails b s) = dirHead s := by
  unfold blockFails
  dsimp only
  split
  · rfl
  · split
    · rw [dirHead, raiseErr_dir]
      rfl
    · refine (foldl_keeps dirHead (f := moveWrite _) (moveWrite_head _) _ _).trans ?_
      refine (foldl_keeps dirHead (fun s r => ?_) _ _).trans rfl
      split
      · rfl
      · rw [dirHead, raiseErr_dir]
        rfl

theorem retireRow_head (n : Nat) (s : State) : dirHead (retireRow n s) = dirHead s := by
  unfold retireRow
  dsimp only
  split
  · exact blockFails_head ..
  · have read : dirHead (farAccess (shadowSlot s n) s) = dirHead s := congrArg (fun d => (d.searches, d.epoch)) (farAccess_dir _ _)
    refine (congrArg (fun d => (d.searches, d.epoch)) (raiseErr_dir _ _)).trans (Eq.trans ?_ read)
    dsimp only
    rw [show cleanRow n (farAccess (shadowSlot s n) s) = _ from cleanRow_onRows n _]
    rfl

theorem markSuspect_head (n : Nat) (s : State) : dirHead (markSuspect n s) = dirHead s := by
  unfold markSuspect
  dsimp only
  split
  · exact retireRow_head ..
  · rfl

theorem markSuspects_head (ns : List Nat) (s : State) : dirHead (ns.foldl (fun s n => markSuspect n s) s) = dirHead s :=
  foldl_keeps dirHead (fun s n => markSuspect_head n s) ns s

/-! ### Scans (R187, R195) -/

section
variable {id : ReqId} {admin : Bool} {ep maxLines stop : Nat}

/-- The rows of a scan that it reports (R182, R186, R187). -/
def scanned (id : ReqId) (admin : Bool) (ep : Nat) (rows : NMap DirRow) : NMap DirRow :=
  rows.filter (fun e => e.2.visible ep && scanSees id admin e.2)

theorem scanRows_length (rows : NMap DirRow) (acc : List (List Byte)) (s : State) (h : acc.length < maxLines) :
    (scanRows id admin ep maxLines stop rows acc s).1.length = min maxLines (acc.length + (scanned id admin ep rows).length) := by
  induction rows generalizing acc s with
  | nil => simp [scanRows, scanned]; omega
  | cons c rows ih =>
    obtain ⟨n, e⟩ := c
    rw [scanRows, scanned, List.filter_cons]
    split
    · dsimp only
      generalize (if e.whole then s else markSuspect n s) = t
      rw [List.length_append, ← scanned]
      split
      · rename_i hl
        simp only [List.length_append, List.length_cons, List.length_nil] at hl ⊢
        omega
      · rename_i hl
        simp only [List.length_cons, List.length_nil] at hl ⊢
        rw [ih _ _ (by simp; omega)]
        simp
        omega
    · exact ih _ _ h

theorem scanRows_ends (rows : NMap DirRow) (acc : List (List Byte)) (s : State)
    (h : acc.length + (scanned id admin ep rows).length < maxLines) :
    (scanRows id admin ep maxLines stop rows acc s).2.1 = stop := by
  induction rows generalizing acc s with
  | nil => rfl
  | cons c rows ih =>
    obtain ⟨n, e⟩ := c
    rw [scanned, List.filter_cons] at h
    rw [scanRows]
    split
    · rename_i hs
      rw [if_pos hs, ← scanned] at h
      dsimp only
      rw [if_neg (by simp at h ⊢; omega)]
      exact ih _ _ (by simp at h ⊢; omega)
    · rename_i hs
      rw [if_neg hs] at h
      exact ih _ _ h

theorem scanRows_stops (rows : NMap DirRow) (acc : List (List Byte)) (s : State) (ha : acc.length < maxLines)
    (h : maxLines ≤ acc.length + (scanned id admin ep rows).length) :
    ∃ e ∈ scanned id admin ep rows, (scanRows id admin ep maxLines stop rows acc s).2.1 = e.1 + 1 := by
  induction rows generalizing acc s with
  | nil => simp [scanned] at h; omega
  | cons c rows ih =>
    obtain ⟨n, e⟩ := c
    rw [scanned, List.filter_cons] at h ⊢
    rw [scanRows]
    split
    · rename_i hs
      rw [if_pos hs, ← scanned] at h
      dsimp only
      generalize (if e.whole then s else markSuspect n s) = t
      generalize dirLine n _ _ _ = line
      split
      · exact ⟨(n, e), by simp [hs], rfl⟩
      · rename_i hl
        simp only [List.length_append, List.length_cons, List.length_nil] at hl h
        obtain ⟨f, hf, hn⟩ := ih (acc ++ [line]) t (by simp; omega) (by simp; omega)
        exact ⟨f, List.mem_cons_of_mem _ hf, hn⟩
    · rename_i hs
      rw [if_neg hs] at h
      exact ih _ _ ha h

theorem scanRows_state (rows : NMap DirRow) (acc : List (List Byte)) (s : State) (h : ∀ e ∈ rows, e.2.whole = true) :
    (scanRows id admin ep maxLines stop rows acc s).2.2 = s := by
  induction rows generalizing acc s with
  | nil => rfl
  | cons c rows ih =>
    obtain ⟨n, e⟩ := c
    have tail (acc) (s) := ih acc s fun f hf => h f (by simp [hf])
    rw [scanRows]
    split
    · rw [if_pos (h (n, e) (by simp))]
      dsimp only
      split
      · rfl
      · exact tail ..
    · exact tail ..

theorem scanRows_epoch (rows : NMap DirRow) (acc : List (List Byte)) (s : State) :
    (scanRows id admin ep maxLines stop rows acc s).2.2.dir.epoch = s.dir.epoch := by
  induction rows generalizing acc s with
  | nil => rfl
  | cons c rows ih =>
    obtain ⟨n, e⟩ := c
    have read : (if e.whole then s else markSuspect n s).dir.epoch = s.dir.epoch := by
      split
      · rfl
      · exact congrArg Prod.snd (markSuspect_head n s)
    rw [scanRows]
    split
    · dsimp only
      rw [← read]
      generalize (if e.whole then s else markSuspect n s) = t
      split
      · rfl
      · exact ih ..
    · exact ih ..

end

end Sys2Proof.Machine
end

section
/-! PROOF. Directory requests and the array's events (R182, R186 to R195, R198 to R202). -/

namespace Sys2Proof.Machine

/-! ### Rows that the scrubber and the spare block mend -/

/-- A row found to differ from its line is SUSPECT and rewritten at once (R199). -/
def fixRow (n : Nat) (s : State) : State := mendRow n (markSuspect n s)

theorem fixRow_of_fresh {s : State} {n : Nat} (h : rewrittenNow s n = false) :
    fixRow n s = rewriteRow n (markSuspect n s) := by
  unfold fixRow mendRow
  rw [if_pos (by simpa using mem_markSuspect h)]

theorem fixRow_leaves {s : State} {n : Nat} (hc : cascaded s (n / 65536) = false) (h : rewrittenNow s n = false) :
    (fixRow n s).dir.scrub = s.dir.scrub ∧ mget? (fixRow n s).dir.rewritten n = some s.time ∧ n ∉ (fixRow n s).dir.suspects ∧
      ∀ d, openLine s n = some d → mget? (fixRow n s).dir.rows n = some { d with
        prev := (mget? s.dir.rows n).bind (·.prev), holdEnd := ((mget? s.dir.rows n).map (·.holdEnd)).getD 0 } := by
  rw [fixRow_of_fresh h, markSuspect_of_fresh h]
  unfold rewriteRow
  dsimp only
  generalize (if s.dir.suspects.contains n then s.dir.suspects else s.dir.suspects ++ [n]) = l
  generalize ha : farAccess _ { s with dir := { s.dir with suspects := l } } = a
  have from_s : OnQueues { s with dir := { s.dir with suspects := l } } a := ha ▸ farAccess_onQueues ..
  have dir : a.dir = { s.dir with suspects := l } := by rw [show a = _ from from_s]
  have time : a.time = s.time := by rw [show a = _ from from_s]
  have single : cascaded a (n / 65536) = false := by
    rw [show a = _ from from_s]
    exact hc
  have line : openLine a n = openLine s n := by
    rw [show a = _ from from_s]
    rfl
  have on := cleanRow_onRows n a
  refine ⟨?_, ?_, ?_, fun d hd => ?_⟩
  · rw [show cleanRow n a = _ from on, dir]
  · rw [show (cleanRow n a).time = s.time by rw [show cleanRow n a = _ from on, time]]
    exact mget_mput_self _ _ _
  · rw [cleanRow_suspects]
    simp
  · rw [cleanRow_row single (line.trans hd), dir]

/-- Clearing rows of one block (R202): what every such fold keeps. -/
theorem cleanRows_onRows (ns : List Nat) (s : State) : OnRows s (ns.foldl (fun s n => cleanRow n s) s) :=
  OnRows.foldl (fun s n => cleanRow_onRows n s) ns s

theorem cleanRows_suspects (ns : List Nat) (s : State) :
    ∀ m ∈ (ns.foldl (fun s n => cleanRow n s) s).dir.suspects, m ∈ s.dir.suspects ∧ m ∉ ns := by
  induction ns generalizing s with
  | nil => exact fun m hm => ⟨hm, by simp⟩
  | cons n ns ih =>
    intro m hm
    obtain ⟨h, hn⟩ := ih (cleanRow n s) m hm
    rw [cleanRow_suspects, List.mem_filter] at h
    refine ⟨h.1, ?_⟩
    simp only [List.mem_cons, not_or]
    exact ⟨by simpa using h.2, hn⟩

/-- A row outside the block and the one below it keeps its content (R180, R202). -/
theorem cleanRows_other {b n : Nat} (hb : n / 65536 ≠ b) (hb' : n / 65536 + 1 ≠ b) (ns : List Nat) (s : State)
    (h : ∀ m ∈ ns, m / 65536 = b) :
    mget? (ns.foldl (fun s n => cleanRow n s) s).dir.rows n = mget? s.dir.rows n := by
  induction ns generalizing s with
  | nil => rfl
  | cons m ns ih =>
    have hm := h m (by simp)
    rw [List.foldl_cons, ih _ (fun k hk => h k (by simp [hk])), cleanRow_rows_ne]
    unfold globalRow
    split <;> omega

/-- A row of a block that is no half of a pair takes its line's content, and keeps its previous record (R202). -/
theorem cleanRows_row {b n : Nat} {d e : DirRow} (ns : List Nat) (s : State) (h : ∀ m ∈ ns, m / 65536 = b)
    (hc : cascaded s b = false) (ho : openLine s n = some d) (he : ∃ f, mget? s.dir.rows n = some f ∧ f.prev = e.prev)
    (hn : n ∈ ns ∨ ∃ f, mget? s.dir.rows n = some f ∧ f.key = d.key ∧ f.data = d.data ∧ f.prev = e.prev) :
    ∃ f, mget? (ns.foldl (fun s n => cleanRow n s) s).dir.rows n = some f ∧ f.key = d.key ∧ f.data = d.data ∧ f.prev = e.prev := by
  induction ns generalizing s with
  | nil => exact hn.resolve_left (by simp)
  | cons m ns ih =>
    have hm := h m (by simp)
    have on := cleanRow_onRows m s
    have single : cascaded s (m / 65536) = false := by rw [hm, hc]
    obtain ⟨f, hf, hp⟩ := he
    have next (hk : ∀ k, k ∈ ns → k / 65536 = b) := ih (cleanRow m s) hk (by rw [on.cascaded, hc]) (by rw [on.openLine, ho])
    by_cases hmn : n = m
    · subst hmn
      have row := cleanRow_row single ho
      rw [hf] at row
      exact next (fun k hk => h k (by simp [hk])) ⟨_, row, hp⟩ (.inr ⟨_, row, rfl, rfl, hp⟩)
    · have keeps : mget? (cleanRow m s).dir.rows n = mget? s.dir.rows n :=
        cleanRow_rows_ne (by rw [globalRow_of_single single]; exact hmn)
      refine next (fun k hk => h k (by simp [hk])) ⟨f, keeps.trans hf, hp⟩ ?_
      rw [keeps]
      exact hn.imp_left fun hn => (List.mem_cons.mp hn).resolve_left hmn

/-! ### A committed write (R192, R194, R198) -/

/-- What the row of a committed write is. -/
theorem row'_leaves (w : DirWrite) (ep : Nat) :
    (w.row' ep).commit = ep ∧ (w.row' ep).key = w.entry.key ∧ (w.row' ep).key2 = w.entry.key ∧ (w.row' ep).care = w.entry.care ∧
      (w.row' ep).data = w.entry.data ∧ (w.row' ep).holdEnd = w.entry.holdEnd ∧ (w.row' ep).prev = w.entry.prev ∧
      (w.row' ep).valid = true ∧ (w.row' ep).whole = true := by
  unfold DirWrite.row'
  split
  · exact ⟨rfl, rfl, rfl, rfl, rfl, rfl, rfl, rfl, by simp [DirRow.whole, DirRow.written]⟩
  · split <;> exact ⟨rfl, rfl, rfl, rfl, rfl, rfl, rfl, rfl, by simp [DirRow.whole, DirRow.written]⟩

theorem misBuf_of_aligned {buf : DWord} {byte : Nat} (h : buf.toNat % 64 = 0) : misBuf buf byte = none := if_pos h

theorem requestable {r : Req} {k : KeyBlock} {admin : Bool} (ha : admin = true → r.fn.isPf = true) (hk : keyOk k = true) :
    ¬ ((admin && ! r.fn.isPf) || ! keyOk k) = true := by
  rw [hk]
  simpa using ha

theorem keyBlock_takenId {s : State} {r : Req} {op op' : Nat} {admin : Bool} {bs : List Byte} :
    keyBlock (takenId s r op) admin bs = keyBlock (takenId s r op') admin bs := rfl

/-- A fetched request leaves what the directory accepts as it is. -/
theorem dirAccept_taken (s : State) (r : Req) (op p : Nat) (wide : Bool) (key care : Nat) :
    dirAccept (taken s r op) p wide key care = dirAccept s p wide key care := by
  have future : dirFuture (taken s r op) = dirFuture s := rfl
  have share : dirShare (taken s r op) p = dirShare s p := rfl
  have free : ∀ f, rowFree (taken s r op) f wide = rowFree s f wide := fun _ => rfl
  unfold dirAccept dirUsed dirFreeRow
  dsimp only
  rw [future, share, free]

/-- The oldest search 60 HCLK after its issue (R191, R200). -/
theorem searchResult_due {q : DirSearch} {rest : List DirSearch} {flips : List DirFlip} {s : State}
    (hq : s.dir.searches = q :: rest) (hr : s.dir.retry = none) (hi : q.issued + 60 ≤ s.hclk) :
    let u := flips.foldl flipRow s
    let t := { u with dir := { u.dir with searches := rest } }
    let ns := searchSuspects t q.wide q.key q.epoch q.ignoreBlock
    let v := ns.foldl (fun s n => markSuspect n s) t
    exec (.dirSearchResult flips) s = .next (
      if ns = [] then deliverSearch q (dirSearch t.dir.rows q.wide q.key q.epoch q.ignoreBlock) t
      else { v with dir := { v.dir with retry := some (q, ns) } }) := by
  have on : OnRows s (flips.foldl flipRow s) := OnRows.foldl flipRow_onRows flips s
  dsimp only
  rw [exec_dirSearchResult, execDirSearchResult]
  generalize flips.foldl flipRow s = u at on ⊢
  have searches : u.dir.searches = q :: rest := by rw [show u = _ from on, ← hq]
  have retry : u.dir.retry = none := by rw [show u = _ from on, ← hr]
  have hclk : u.hclk = s.hclk := by rw [show u = _ from on]
  dsimp only
  rw [searches, retry]
  dsimp only
  rw [if_neg (by omega)]
  generalize searchSuspects _ _ _ _ _ = ns
  cases ns <;> rfl

/-- The oldest write commits unless its row is held (R192, R194, R198). -/
theorem dirCommit_commits {w : DirWrite} {rest : List DirWrite} {unread : Bool} {s : State} (hw : s.dir.writes = w :: rest)
    (hh : ∀ e, mget? s.dir.rows w.row = some e → e.prev = none ∨ e.holdEnd ≤ s.hclk) :
    let prev := if w.insert then none else (mget? s.dir.rows w.row).map (·.data)
    let d := { w with entry := { w.entry with prev := prev, holdEnd := s.hclk + 64 } }.row' (s.dir.epoch + 1)
    let far := farAccess (shadowSlot s w.row) s
    let t := { far with dir := { s.dir with writes := rest, epoch := s.dir.epoch + 1, rows := mput s.dir.rows w.row d
                                            shadow := mput s.dir.shadow w.row (sealLine s w.row d) } }
    exec (.dirCommit unread) s = .next (commitDone w.id (regSet 0 0x80008 (s.dir.epoch + 1)
      (regSet 1 0x80008 (s.dir.epoch + 1) (if unread then retireRow w.row t else t)))) := by
  dsimp only
  rw [exec_dirCommit, execDirCommit, hw]
  dsimp only
  have from_s := farAccess_onQueues (shadowSlot s w.row) s
  have dir := farAccess_dir (shadowSlot s w.row) s
  generalize farAccess (shadowSlot s w.row) s = far at from_s dir ⊢
  have hclk : far.hclk = s.hclk := by rw [show far = _ from from_s]
  have line (e : DirRow) : sealLine far w.row e = sealLine s w.row e := by
    rw [show far = _ from from_s]
    rfl
  rw [dir, hclk]
  simp only [line]
  rw [if_neg]
  · rfl
  · cases hr : mget? s.dir.rows w.row with
    | none => simp
    | some e =>
      obtain hp | hp := hh e hr
      · simp [hp]
      · simp [hp]

/-- The scrubber's turn at its next row (R199). -/
theorem dirScrub_turns {flips : List DirFlip} {unread : Bool} {x : Trellis} {s : State} (hx : s.trellis = some x)
    (hon : x.scrubEnable = true) (hq : s.hub.quiet = false) :
    let n := s.dir.scrub
    let u := flips.foldl flipRow s
    let a := farAccess (shadowSlot u n) u
    let fixed := if rowAgrees u n then a else regAddBoth 0x80024 1 (fixRow n a)
    let v := if ! rowAgrees u n && unread then retireRow n fixed else fixed
    ∃ t, exec (.dirScrubRow flips unread) s = .next t ∧ t.dir = { v.dir with scrub := if n + 1 = 4194304 then 0 else n + 1 } := by
  have on : OnRows s (flips.foldl flipRow s) := OnRows.foldl flipRow_onRows flips s
  dsimp only
  rw [exec_dirScrubRow, execDirScrubRow]
  dsimp only
  generalize flips.foldl flipRow s = u at on ⊢
  have trellis : u.trellis = some x := by rw [show u = _ from on, ← hx]
  have quiet : u.hub.quiet = false := by rw [show u = _ from on, ← hq]
  have scrub : u.dir.scrub = s.dir.scrub := by rw [show u = _ from on]
  rw [trellis, quiet, scrub]
  dsimp only
  rw [if_neg (by simp [hon])]
  have agrees : rowAgrees (farAccess (shadowSlot u s.dir.scrub) u) s.dir.scrub = rowAgrees u s.dir.scrub := by
    rw [show farAccess (shadowSlot u s.dir.scrub) u = _ from farAccess_onQueues _ _]
    rfl
  rw [agrees, ← fixRow]
  simp only [decide_eq_true_eq]
  refine ⟨_, rfl, ?_⟩
  split <;> rfl

theorem mem_dedupNat {x : Nat} {xs : List Nat} : x ∈ dedupNat xs ↔ x ∈ xs := by
  suffices h : ∀ acc : List Nat, x ∈ xs.foldl (fun acc x => if acc.contains x then acc else acc ++ [x]) acc ↔ x ∈ acc ∨ x ∈ xs by
    exact (h []).trans (by simp)
  induction xs with
  | nil => simp
  | cons y xs ih =>
    intro acc
    rw [List.foldl_cons, ih, List.mem_cons]
    split
    · rename_i hy
      have : y ∈ acc := by simpa using hy
      exact ⟨fun h => h.imp_right .inr, fun h => h.elim .inl fun h => h.elim (fun e => .inl (e ▸ this)) .inr⟩
    · simp [or_assoc]

/-- The copied spare block stands in for its block (R202). -/
theorem dirSpare_switches {b since : Nat} {s : State} (hb : s.dir.spareCopy = some (b, since)) (ht : since + 218000 ≤ s.time) :
    let t := (dedupNat (((s.dir.rows.map (·.1)) ++ s.dir.suspects).filter (fun n => n / 65536 = b))).foldl (fun s n => cleanRow n s) s
    exec .dirSpareBlockSwitch s = .next { t with dir := { t.dir with
      spareCopy := none, spareFor := some b, sparesUsed := mdel t.dir.sparesUsed b
      rewritten := t.dir.rewritten.filter (fun x => x.1 / 65536 ≠ b) } } := by
  rw [exec_dirSpareBlockSwitch, execDirSpareBlockSwitch, hb]
  exact if_neg (by omega)

/-- A scan in range answers its header and lines (R187). -/
theorem dirScan_answers {r : Req} {first count maxLines : Nat} {buf : DWord} {admin : Bool} {s : State} (h : Takes s r)
    (hf : first < 4194304) (hc : 0 < count) (hc' : count ≤ 65536) (hbuf : buf.toNat % 64 = 0)
    (hadm : admin = true → r.fn.isPf = true) :
    let id := takenId s r 0x24
    let t := taken s r 0x24
    let stop := min (first + count) 4194304
    let rows := s.dir.rows.filter (fun e => decide (first ≤ e.1) && decide (e.1 < stop))
    let out := if maxLines = 0 then ([], first, t) else scanRows id admin s.dir.epoch maxLines stop rows [] t
    exec (.dirScan r first count buf maxLines admin) s = .next (if r.noWrite then fail id 0x94 out.2.2
      else done id (dmaWrite (fnPort r.fn.key) buf.toNat
        (natLe 8 s.dir.epoch ++ natLe 4 out.1.length ++ natLe 4 out.2.1 ++ natLe 48 0 ++ out.1.flatten) out.2.2)) := by
  dsimp only
  rw [exec_dirScan]
  refine congrArg Host.Outcome.next ((onReq_runs_checked 0x24 _ ?_ h).trans ?_)
  · rw [if_neg (by omega), if_neg (by omega), misBuf_of_aligned hbuf]
  · rw [if_neg (by simpa using hadm)]
    dsimp only
    rw [show (taken s r 0x24).dir = s.dir from rfl]
    have epoch : (if maxLines = 0 then ([], first, taken s r 0x24) else scanRows (takenId s r 0x24) admin s.dir.epoch maxLines
        (min (first + count) 4194304) (s.dir.rows.filter (fun e => decide (first ≤ e.1) && decide (e.1 < min (first + count) 4194304)))
        [] (taken s r 0x24)).2.2.dir.epoch = s.dir.epoch := by
      split
      · rfl
      · exact scanRows_epoch ..
    generalize (if maxLines = 0 then _ else _ : List (List Byte) × Nat × State) = out at epoch ⊢
    obtain ⟨lines, next, t⟩ := out
    dsimp only at epoch ⊢
    rw [epoch]
    rfl

/-- Settles O40: the requests that their checks let pass queue their write or answer, and the array's events act on the rows that the
lemmas above say. -/
theorem directoryCommands : Obligations.DirectoryCommands := by
  unfold Obligations.DirectoryCommands
  refine ⟨⟨fun r buf user admin ignore bs s h hbuf hadm hk => ⟨?lookup, fun n hins hex ha => ?insert, fun n e hl hst => ?delete,
      fun n e hl => ?update⟩,
      fun r first count buf maxLines admin s h hf hc hc' hbuf hadm => ?scan,
      fun id admin ep stop maxLines rows s hwf hm => ⟨?_, fun hs => ?_, fun hs => ?_, fun hw => scanRows_state _ _ _ hw⟩⟩,
    fun q rest flips s hq hr hi => ⟨fun hn => ?deliver, fun hn => ?raise⟩,
    fun q rows unread s hr => ⟨?retry, fun n hn hmem => (mendRows_suspects rows _ n hmem).2 hn⟩,
    fun w rest unread s hw hh => ?commit,
    fun row e s he hp ht => ?hold,
    fun flips unread x s hx hon hq => ?scrub,
    fun b since s hb ht => ?spare⟩
  case lookup =>
    rw [exec_dirLookup]
    refine congrArg Host.Outcome.next ((onReq_runs_checked 0x20 _ (misBuf_of_aligned hbuf) h).trans ?_)
    exact if_neg (requestable hadm hk)
  case insert =>
    have accepted : dirAccept s (fnPort (takenId s r 0x21).fn) (keyBlock (takenId s r 0x20) admin bs).wide
        (keyBlock (takenId s r 0x20) admin bs).key (keyBlock (takenId s r 0x20) admin bs).care = .inr n := ha
    have ins : insertOk (keyBlock (takenId s r 0x20) admin bs) (leField (bs.drop 64) 0 1) = true := hins
    have exact_ : (decide (bits (keyBlock (takenId s r 0x20) admin bs).care 64 70 = 127) ||
        decide (leField (bs.drop 64) 0 1 = 4)) = true := by simpa using hex
    rw [exec_dirInsert]
    refine congrArg Host.Outcome.next ((onReq_runs_checked 0x21 _ (misBuf_of_aligned hbuf) h).trans ?_)
    rw [withMem]
    dsimp only
    rw [keyBlock_takenId (op := 0x21) (op' := 0x20), ins, exact_, if_neg (by simpa using requestable hadm hk), dirAccept_taken, accepted]
  case delete =>
    have found : (liveRows (dirFuture (taken s r 0x22))).find? (fun e => e.2.wide = (keyBlock (takenId s r 0x20) admin bs).wide &&
        e.2.key = (keyBlock (takenId s r 0x20) admin bs).key && e.2.care = (keyBlock (takenId s r 0x20) admin bs).care) =
        some (n, e) := hl
    rw [exec_dirDelete]
    refine congrArg Host.Outcome.next ((onReq_runs_checked 0x22 _ (misBuf_of_aligned hbuf) h).trans ?_)
    rw [withMem]
    dsimp only
    rw [keyBlock_takenId (op := 0x22) (op' := 0x20), if_neg (requestable hadm hk), found]
    exact if_neg (by omega)
  case update =>
    have found : dirExact (taken s r 0x23) (keyBlock (takenId s r 0x20) admin bs).wide (keyBlock (takenId s r 0x20) admin bs).key =
        some (n, e) := hl
    rw [exec_dirUpdate]
    refine congrArg Host.Outcome.next ((onReq_runs_checked 0x23 _ (misBuf_of_aligned hbuf) h).trans ?_)
    rw [withMem]
    dsimp only
    rw [keyBlock_takenId (op := 0x23) (op' := 0x20), if_neg (requestable hadm hk), found]
  case scan => exact dirScan_answers h hf hc hc' hbuf hadm
  · rw [scanRows_length _ _ _ hm]
    simp [scanned]
  · exact scanRows_ends _ _ _ (by simpa [scanned] using hs)
  · exact scanRows_stops _ _ _ hm (by simpa [scanned] using hs)
  case deliver =>
    rw [searchResult_due hq hr hi, hn, if_pos rfl]
  case raise =>
    rw [searchResult_due hq hr hi, if_neg hn]
    have on : OnRows s (flips.foldl flipRow s) := OnRows.foldl flipRow_onRows flips s
    generalize flips.foldl flipRow s = u at on hn ⊢
    exact ⟨_, rfl, rfl, congrArg Prod.fst (markSuspects_head _ _), fun hf n hmem => mem_markSuspects
      (s := { u with dir := { u.dir with searches := rest } }) (fun m hm => (on.rewrittenNow m).trans (hf m hm)) n (.inl hmem)⟩
  case retry => rw [exec_dirShadowRetry, execDirShadowRetry, hr]
  case hold =>
    rw [exec_dirRecordHoldEnd, execDirRecordHoldEnd, he]
    exact if_pos (by simp [hp, ht])
  case commit =>
    obtain ⟨hcom, hkey, hkey2, hcare, hdata, hend, hprev, hval, hwhole⟩ := row'_leaves { w with entry := { w.entry with
      prev := if w.insert then none else (mget? s.dir.rows w.row).map (·.data), holdEnd := s.hclk + 64 } } (s.dir.epoch + 1)
    refine ⟨?_, hcom, hkey, hkey2, hcare, hdata, hend, hprev, hval, hwhole, fun hi => ?_, fun hi hd => ?_⟩
    · exact dirCommit_commits hw hh
    · unfold DirWrite.row'
      dsimp only
      rw [hi]
      exact ⟨rfl, rfl⟩
    · unfold DirWrite.row'
      dsimp only
      rw [hi, hd]
      rfl
  case scrub =>
    have on : OnRows s (flips.foldl flipRow s) := OnRows.foldl flipRow_onRows flips s
    have suspects := flips_suspects flips s
    obtain ⟨t, ht, hdir⟩ := dirScrub_turns (flips := flips) (unread := unread) hx hon hq
    generalize flips.foldl flipRow s = u at on suspects hdir ⊢
    refine ⟨t, ht, by rw [hdir], fun ha => ?_, fun ha hu hc hf => ?_⟩
    · simp only [ha, Bool.not_true, Bool.false_and, Bool.false_eq_true, if_false, if_true] at hdir
      rw [hdir, farAccess_dir]
      exact ⟨rfl, suspects⟩
    · simp only [ha, hu, Bool.and_false, Bool.false_eq_true, if_false] at hdir
      generalize hv : farAccess (shadowSlot u s.dir.scrub) u = v at hdir
      have dir : v.dir = u.dir := by rw [← hv, farAccess_dir]
      have from_u : OnQueues u v := hv ▸ farAccess_onQueues ..
      have single : cascaded v (s.dir.scrub / 65536) = false := by
        rw [show v = _ from from_u]
        exact (on.cascaded _).trans hc
      have fresh : rewrittenNow v s.dir.scrub = false := by
        rw [show v = _ from from_u]
        exact (on.rewrittenNow _).trans hf
      have line : openLine v s.dir.scrub = openLine s s.dir.scrub := by
        rw [show v = _ from from_u]
        exact on.openLine _
      have time : v.time = s.time := by rw [show v = _ from from_u, show u = _ from on]
      have key2 : ∀ d, openLine s s.dir.scrub = some d → d.key2 = d.key := fun d hd => openLine_key2 hd
      obtain ⟨-, hre, hsus, hrow⟩ := fixRow_leaves single fresh
      rw [hdir]
      refine ⟨hre.trans (by rw [time]), hsus, fun d hd => ⟨_, hrow d (line.trans hd), rfl, key2 d hd, rfl, rfl, rfl, rfl, rfl, rfl⟩⟩
  case spare =>
    generalize hns : dedupNat (((s.dir.rows.map (·.1)) ++ s.dir.suspects).filter (fun n => n / 65536 = b)) = ns
    have block : ∀ m ∈ ns, m / 65536 = b := by
      subst hns
      intro m hm
      simpa using (List.mem_filter.mp (mem_dedupNat.mp hm)).2
    have whole : ∀ m, m ∈ s.dir.rows.map (·.1) ∨ m ∈ s.dir.suspects → m / 65536 = b → m ∈ ns := by
      subst hns
      intro m hm hb
      exact mem_dedupNat.mpr (List.mem_filter.mpr ⟨List.mem_append.mpr hm, by simpa using hb⟩)
    have kept := cleanRows_onRows ns s
    refine ⟨_, dirSpare_switches hb ht, rfl, rfl, ?_, ?_, ?_, ?_⟩
    all_goals rw [hns]
    · rw [show ns.foldl (fun s n => cleanRow n s) s = _ from kept]
    · intro n hn hnb
      obtain ⟨hs, hnot⟩ := cleanRows_suspects ns s n hn
      exact hnot (whole n (.inr hs) hnb)
    · intro n e hnb hc he d hd
      exact cleanRows_row ns s block hc hd ⟨e, he, rfl⟩ (.inl (whole n (.inl (List.mem_map.mpr ⟨_, mem_of_mget he, rfl⟩)) hnb))
    · intro n hnb hnb'
      exact cleanRows_other hnb hnb' ns s block

end Sys2Proof.Machine
end

section
/-! PROOF. Text tables, tokenising and session text (R204, R206, R207, R210 to R233, R320, R327). -/

namespace Sys2Proof.Machine

/-! ### What a session request's search leaves -/

section
variable (s : State) (r : Req) (op : Nat)

theorem found_tables : (found s r op).tables = s.tables := by
  rw [show found s r op = _ from found_onDir s r op]
  rfl

theorem found_sec : (found s r op).sec = s.sec := by
  rw [show found s r op = _ from found_onDir s r op]
  rfl

theorem bound_found (key : Nat) (x : Session) (kind : Nat) : bound (found s r op) key x kind = bound s key x kind := by
  unfold bound tableOf
  rw [found_tables]

theorem pavVocab_found (n : Nat) : pavVocab (found s r op) n = pavVocab s n := by
  unfold pavVocab
  rw [found_pavs]

theorem bindCheck_found (p kind ident vocab : Nat) : bindCheck (found s r op) p kind ident vocab = bindCheck s p kind ident vocab := by
  unfold bindCheck tableOf
  rw [found_tables]

end

/-! ### Requests on a session's text -/

section
variable {s : State} {r : Req} {key : Nat} {x : Session}

/-- A text request whose body answers a session sets it and completes (R211, R232). -/
theorem textReq_sets (op : Nat) (cmd : Instr) (body : ReqId → Nat → Session → State → (Session × State) ⊕ State) {bad : Option Nat}
    {y : Session} {t : State} (h : Takes s r) (hf : Finds s r key x) (hb : Between s key x) (hbad : bad = none)
    (hrun : body (takenId s r op) key x (found s r op) = .inl (y, t)) :
    textReq r op bad cmd body s = done (takenId s r op) (setSessTile key y t) := by
  rw [hbad, textReq_runs op cmd body h hf hb, hrun]

/-- Tokens go to the prompt ring (R207, R226). -/
theorem append_tokens {src : DWord} {bytes : Nat} {special : Bool} {bs text : List Byte} {y : Session} (h : Takes s r)
    (hf : Finds s r key x) (hb : Between s key x) (hn : bytes ≤ 1048576) (h3 : bytes % 3 ≠ 1)
    (hi : sessInput (found s r 0x33) (takenId s r 0x33) x (byteSlice bs 0 bytes) = .inl (text, y)) :
    let toks := (chunks 3 (text.length / 3) text).map leNat
    let put (a : Session × Nat) (t : Nat) : Session × Nat := (a.1.set (0x1000 + 3 * ((y.get 0x58 2 + a.2) % 4096)) 3 t, a.2 + 1)
    let z := ((toks.foldl put (y, y.get 0x5A 2)).1.set 0x5A 2 (y.get 0x5A 2 + toks.length)).endRun
    text.length % 3 = 0 → y.get 0x5A 2 + toks.length ≤ 4096 →
    exec (.txtAppend r src bytes special true (.data bs)) s =
      .next (done (takenId s r 0x33) (setSessTile key (if toks = [] then z else z.set 0x54 4 0) (found s r 0x33))) := by
  intro toks put z ht hroom
  rw [exec_txtAppend]
  refine congrArg Host.Outcome.next (textReq_sets 0x33 _ _ h hf hb (if_neg (by omega)) ?_)
  dsimp only
  rw [hi]
  dsimp only
  rw [if_neg (by omega)]
  dsimp only [toks] at hroom
  simp only [Bool.not_true, Bool.false_and, Bool.false_eq_true, true_or, if_true, if_false]
  exact if_neg (by omega)

/-- The tokens of text go to the prompt ring (R207, R210, R226). -/
theorem append_text {src : DWord} {bytes : Nat} {special : Bool} {bs text tk : List Byte} {y : Session} (h : Takes s r)
    (hf : Finds s r key x) (hb : Between s key x) (hn : bytes ≤ 1048576)
    (hi : sessInput (found s r 0x33) (takenId s r 0x33) x (byteSlice bs 0 bytes) = .inl (text, y))
    (ht : bound (found s r 0x33) key y 1 = some tk) :
    let got := intake tk special text
    let put (a : Session × Nat) (t : Nat) : Session × Nat := (a.1.set (0x1000 + 3 * ((y.get 0x58 2 + a.2) % 4096)) 3 t, a.2 + 1)
    let z := ((got.toks.foldl put (y, y.get 0x5A 2)).1.set 0x5A 2 (y.get 0x5A 2 + got.toks.length)).endRun
    got.bad = none → y.get 0x5A 2 + got.toks.length ≤ 4096 →
    exec (.txtAppend r src bytes special false (.data bs)) s = .next (done (takenId s r 0x33) (setSessTile key
      (if got.toks = [] then z else z.set 0x54 4 0) (countIntake (fnPort r.fn.key) text.length got (found s r 0x33)))) := by
  intro got put z hbad hroom
  rw [exec_txtAppend]
  refine congrArg Host.Outcome.next (textReq_sets 0x33 _ _ h hf hb (if_neg (by simpa using hn)) ?_)
  dsimp only
  rw [hi]
  dsimp only
  rw [if_neg (by simp), ht]
  dsimp only [got] at hbad hroom
  simp only [Bool.false_eq_true, false_or, if_false, Bool.not_false, Bool.true_and, Option.isNone_some]
  rw [hbad]
  exact if_neg (by omega)

/-- A binding that stands is set (R221, R232). -/
theorem louver_sets {grammar allow : Nat} {oneShot reset keepGrammar keepAllow : Bool} (h : Takes s r) (hf : Finds s r key x)
    (hb : Between s key x) (hg : keepGrammar = false → bindCheck s (fnPort r.fn.key) 2 grammar (pavVocab s x.pav) = none)
    (ha : keepAllow = false → bindCheck s (fnPort r.fn.key) 3 allow (pavVocab s x.pav) = none) :
    let g := if keepGrammar then x else x.set 0x42 2 grammar
    let y := if keepAllow then g else (g.set 0x44 2 allow).set 0x46 1 (g.get 0x46 1 / 2 * 2 + b2n oneShot)
    exec (.txtLouverSet r grammar allow oneShot reset keepGrammar keepAllow) s = .next (done (takenId s r 0x36) (setSessTile key
      (if reset = true ∨ keepGrammar = false ∧ x.get 0x42 2 ≠ grammar then y.atState (((bound s key y 2).map grStart).getD 0) [] else y)
      (found s r 0x36))) := by
  have noGrammar : (if keepGrammar then none else bindCheck s (fnPort r.fn.key) 2 grammar (pavVocab s x.pav)) = none := by
    cases keepGrammar
    · exact hg rfl
    · rfl
  have noAllow : (if keepAllow then none else bindCheck s (fnPort r.fn.key) 3 allow (pavVocab s x.pav)) = none := by
    cases keepAllow
    · exact ha rfl
    · rfl
  dsimp only
  rw [exec_txtLouverSet]
  refine congrArg Host.Outcome.next (textReq_sets 0x36 _ _ h hf hb rfl ?_)
  dsimp only
  rw [pavVocab_found, bindCheck_found, bindCheck_found, show (takenId s r 0x36).fn = r.fn.key from rfl, noGrammar]
  dsimp only
  rw [noAllow]
  dsimp only
  rw [bound_found]
  simp only [Bool.and_eq_true, Bool.not_eq_true', decide_eq_true_eq]

end

/-- Settles O41: each request passes its checks, and what its body answers is set in the tables, the host's memory or the session's
tile. -/
theorem textCommands : Obligations.TextCommands := by
  unfold Obligations.TextCommands
  refine ⟨⟨fun r kind ident object o bs s h hp ho hk hb hu hbs hok => ?load, fun r kind ident s h hp ht hb => ?unload,
      fun r tokeniser bytes capacity special src dst tab bs s h hn hn' ht hbad hc => ?tokenise,
      fun r tokeniser count capacity src dst tab bs s h hn ht hc => ?detok⟩,
    fun r key x s h hf hb => ⟨fun src bytes special bs text y hn h3 hi => append_tokens h hf hb hn h3 hi,
      fun src bytes special bs text tk y hn hi ht => append_text h hf hb hn hi ht,
      fun buf bs hc => ?sampler, fun grammar allow oneShot reset keepGrammar keepAllow hg ha => louver_sets h hf hb hg ha,
      fun buf exclude bs text y ss hi hp => ?stops, fun hl => ?resample,
      fun token ht => ⟨fun hg => ?free, fun g m hg hm => ?moved⟩, ?drop, fun buf => ⟨fun hs => ?plain, ?read⟩⟩⟩
  case load =>
    have obj : objOf (taken s r 0x30) (objKey (takenId s r 0x30).ident object.toNat) = some o := ho
    have usable : kdUsable (taken s r 0x30) (takenId s r 0x30).ident o.kd = true := hk
    have free : tableBound (taken s r 0x30) (fnPort (takenId s r 0x30).fn) kind ident = false := hb
    have room : storeUsed (taken s r 0x30) (fnPort (takenId s r 0x30).fn) -
        ((tableOf (taken s r 0x30) (fnPort (takenId s r 0x30).fn) kind ident).map (fun t => t.bytes.length)).getD 0 +
        16384 * o.ntiles ≤ 33554432 := hu
    have plain : objPlain (taken s r 0x30) (objKey (takenId s r 0x30).ident object.toNat) = some bs := hbs
    rw [exec_txtTableLoad]
    refine congrArg Host.Outcome.next ((onReq_runs_checked 0x30 _ hp h).trans ?_)
    dsimp only
    rw [obj]
    dsimp only
    rw [usable, if_neg (by simp), free, if_neg Bool.false_ne_true, if_neg (by omega), plain]
    exact if_pos hok
  case unload =>
    have some_ : (tableOf (taken s r 0x31) (fnPort (takenId s r 0x31).fn) kind ident).isNone = false := by
      rw [← Option.not_isSome]
      exact congrArg (! ·) ht
    have free : tableBound (taken s r 0x31) (fnPort (takenId s r 0x31).fn) kind ident = false := hb
    rw [exec_txtTableUnload]
    refine congrArg Host.Outcome.next ((onReq_runs_checked 0x31 _ hp h).trans ?_)
    dsimp only
    rw [some_, if_neg Bool.false_ne_true, free]
    rfl
  case tokenise =>
    have table : tableOf (taken s r 0x32) (fnPort (takenId s r 0x32).fn) 1 tokeniser = some tab := ht
    rw [exec_txtTokenise]
    refine congrArg Host.Outcome.next ((onReq_runs_checked 0x32 _ (by rw [if_neg (by omega), if_neg (by omega)]) h).trans ?_)
    dsimp only
    rw [table]
    dsimp only [withMem]
    rw [hbad]
    exact if_neg (by omega)
  case detok =>
    have table : tableOf (taken s r 0x34) (fnPort (takenId s r 0x34).fn) 1 tokeniser = some tab := ht
    rw [exec_txtDetok]
    refine congrArg Host.Outcome.next ((onReq_runs_checked 0x34 _ (if_neg (by omega)) h).trans ?_)
    dsimp only
    rw [table]
    exact if_neg (by omega)
  case sampler =>
    rw [exec_txtSamplerSet]
    exact congrArg Host.Outcome.next (textReq_sets 0x35 _ _ h hf hb rfl (if_pos hc))
  case stops =>
    rw [exec_txtStopSet]
    refine congrArg Host.Outcome.next (textReq_sets 0x37 _ _ h hf hb rfl ?_)
    dsimp only
    rw [hi]
    dsimp only
    rw [hp]
  case resample =>
    rw [exec_resample]
    exact congrArg Host.Outcome.next (textReq_sets 0x38 _ _ h hf hb rfl (if_neg hl))
  case free =>
    rw [exec_inject]
    refine congrArg Host.Outcome.next (textReq_sets 0x38 _ _ h hf hb (if_pos ht) ?_)
    dsimp only
    rw [bound_found, hg]
  case moved =>
    rw [exec_inject]
    refine congrArg Host.Outcome.next (textReq_sets 0x38 _ _ h hf hb (if_pos ht) ?_)
    dsimp only
    rw [bound_found, hg]
    dsimp only
    rw [hm]
  case drop =>
    rw [exec_dropPending]
    exact congrArg Host.Outcome.next (textReq_sets 0x38 _ _ h hf hb rfl rfl)
  case plain =>
    rw [sealOutput, show kdSealed (found s r 0x39) x.kd = kdSealed s x.kd by rw [kdSealed, kdOf, found_sec, kdSealed, kdOf], hs]
    rfl
  case read =>
    rw [exec_txtStateRead]
    refine congrArg Host.Outcome.next ((textReq_runs 0x39 _ _ h hf hb).trans ?_)
    dsimp only
    rw [show (takenId s r 0x39).noWrite = r.noWrite from rfl]
    cases r.noWrite <;> rfl

end Sys2Proof.Machine
end

section
/-! PROOF. Recall requests, scans and walks (R234 to R255). -/

namespace Sys2Proof.Machine

/-! ### What a fetched request leaves of an index -/

section
variable (s : State) (r : Req) (op key : Nat)

theorem tilePlain_taken (i : Nat) : tilePlain (taken s r op) key i = tilePlain s key i := rfl

theorem objRead_taken (i off n : Nat) : objRead (taken s r op) key i off n = objRead s key i off n := by
  unfold objRead tileNow
  simp only [tilePlain_taken]

theorem indexHeader_taken : indexHeader (taken s r op) key = indexHeader s key := objRead_taken ..

theorem recRead_taken (h : List Byte) (n : Nat) : recRead (taken s r op) key h n = recRead s key h n := objRead_taken ..

theorem lastEpoch_taken : lastEpoch (taken s r op) key = lastEpoch s key := rfl

theorem indexReady_taken (h : List Byte) : indexReady (taken s r op) key h = indexReady s key h := rfl

theorem queryReady_taken (h : List Byte) : queryReady (taken s r op) key h = queryReady s key h := rfl

theorem insBusy_taken (h : List Byte) (n : Nat) : insBusy (taken s r op) key h n = insBusy s key h n := by
  unfold insBusy
  rw [recRead_taken]
  rfl

end

section
variable {s : State} {r : Req}

/-- A request that names an index which no tier request and no earlier one holds runs its body (R252). -/
theorem indexReq_runs (op : Nat) {object : DWord} {cmd : Instr} {gate : Bool} {o : Obj} {bad : Option Nat}
    (body : ReqId → Nat → List Byte → State → State) (hb : bad = none) (h : Takes s r)
    (ho : mget? s.objects (objKey r.identity.key object.toNat) = some o) (hk : o.kind = .index)
    (hj : mget? s.jobs (objKey r.identity.key object.toNat) = none)
    (hh : s.held.any (fun h => h.why = .object (objKey r.identity.key object.toNat)) = false) :
    let key := objKey r.identity.key object.toNat
    onReq r op bad (withIndex object cmd gate (fresh s) body) s = body (takenId s r op) key (indexHeader s key) (taken s r op) := by
  have obj : objOf (taken s r op) (objKey r.identity.key object.toNat) = some o := ho
  have jobs : mget? (taken s r op).jobs (objKey r.identity.key object.toNat) = none := hj
  have held : (taken s r op).held.any (fun h => h.why = .object (objKey r.identity.key object.toNat)) = false := hh
  dsimp only
  rw [onReq_runs_checked op _ hb h, withIndex, takenId_ident, jobs, held]
  dsimp only
  rw [if_neg (by simp), obj]
  dsimp only
  rw [if_pos hk, indexHeader_taken]

end

theorem countBad_of_range {count : Nat} (h : 1 ≤ count) (h' : count ≤ 256) : countBad count = none := if_pos ⟨h, h'⟩

/-- RCL_CREATE past its checks (R235, R252, R320). -/
theorem rclCreate_creates {s u : State} {r : Req} {object buf : DWord} {bs : List Byte} (h : Takes s r)
    (hn : mget? s.objects (objKey r.identity.key object.toNat) = none) (hk : kdsOf s r.identity.key ≠ [])
    (hok : indexOk (byteSlice bs 0 128) = true) :
    let t := taken s r 0x40
    let key := objKey r.identity.key object.toNat
    let h := indexFill (byteSlice bs 0 128)
    let n := indexTiles (byteSlice bs 0 128)
    let ntiles := 1 + n.1 + n.2.1 + n.2.2.1 + n.2.2.2
    let kds := kdsOf s r.identity.key
    let kd := kds.getD (Config.freeChoice s.free % kds.length) 0
    mapRoom t (ceilDiv (32 * ntiles) 16384) = true →
    placeFar key true (List.range (1 + n.1))
      { drew t with objects := mput t.objects key { kind := .index, ntiles := ntiles, kd := kd } } = some u →
    let v := (List.range n.1).foldl (fun t i => tileWrite key (1 + i) 0 (List.replicate (ixRecPer h) (emptyRec (ixRecBytes h))).flatten t)
      (tileWrite key 0 0 h u)
    exec (.rclCreate r object buf (.data bs)) s = .next (done (takenId s r 0x40) { v with indices := mput v.indices key {} }) := by
  intro t key h' n ntiles kds kd hm hp
  have kdsTaken : kdsOf (taken s r 0x40) r.identity.key = kdsOf s r.identity.key := rfl
  have obj : objOf (taken s r 0x40) (objKey r.identity.key object.toNat) = none := hn
  rw [exec_rclCreate]
  refine congrArg Host.Outcome.next ((onReq_takes 0x40 _ h).trans ?_)
  rw [withMem, takenId_ident, kdsTaken, obj]
  dsimp only
  rw [if_neg (by simp), if_neg hk, hok, if_neg (by simp), if_neg (by rw [show mapRoom _ _ = true from hm]; simp)]
  generalize hg : placeFar _ _ _ _ = w
  have placed : w = some u := hg.symm.trans hp
  rw [placed]

theorem kdUsable_of_mem {s : State} {fn d : Nat} (h : d ∈ kdsOf s fn) : kdUsable s fn d = true := (List.mem_filter.mp h).2

theorem fails_indices (qs : List Query) (detail : Nat) (s : State) :
    (qs.foldl (fun s q => fail q.id detail s) s).indices = s.indices :=
  foldl_keeps (fun s => s.indices) (f := fun s q => fail q.id detail s)
    (fun s q => by rw [show fail q.id detail s = _ from fail_onRings _ _ _]) qs s

/-- Settles O42: each request of an index passes its checks and runs its body, and a drawn domain is one of those that the function may
use. -/
theorem recallRequests : Obligations.RecallRequests := by
  unfold Obligations.RecallRequests
  refine ⟨fun r object buf bs s u h hn hk hok hm hp => ⟨?usable, rclCreate_creates h hn hk hok hm hp⟩,
    fun r object buf count bs o entries s h ho hi hj hh hc hc' hr => ⟨fun hes hd => ?insert, fun hns hd => ?delete, fun hns => ?purge,
      fun hg hes => ?edges, fun hg hes => ?entry⟩,
    fun r object qbuf rbuf k pick l most bs o s h ho hi hq hr hj hh hl => ?query,
    fun r object o s h ho hi hj hh hb => ?drop, fun port q s hq hr => ?walk⟩
  case usable =>
    have len : 0 < (kdsOf s r.identity.key).length := List.length_pos_of_ne_nil hk
    rw [List.getD_eq_getElem _ _ (Nat.mod_lt _ len)]
    exact kdUsable_of_mem (List.getElem_mem _)
  case insert =>
    rw [exec_rclInsert]
    refine congrArg Host.Outcome.next ((indexReq_runs 0x41 _ (countBad_of_range hc hc') h ho hi hj hh).trans ?_)
    rw [withMem]
    dsimp only
    rw [if_neg, indexReady_taken, hr, if_neg (by simp), if_neg, lastEpoch_taken]
    · rw [hd]
      simpa [insBusy_taken] using fun x hx => (hes x hx).2.2
    · simp only [List.any_eq_true, Bool.or_eq_true, decide_eq_true_eq, Bool.not_eq_true', not_exists, not_and, not_or]
      exact fun x hx => ⟨by have := (hes x hx).1; omega, fun d hd' => by simp [(hes x hx).2.1 d hd']⟩
  case delete =>
    rw [exec_rclDelete]
    refine congrArg Host.Outcome.next ((indexReq_runs 0x42 _ (countBad_of_range hc hc') h ho hi hj hh).trans ?_)
    rw [withMem]
    dsimp only
    rw [indexReady_taken, hr, if_neg (by simp), if_neg, lastEpoch_taken]
    rw [hd]
    simpa [recRead_taken, lastEpoch_taken] using hns
  case purge =>
    rw [exec_rclPurge]
    refine congrArg Host.Outcome.next ((indexReq_runs 0x43 _ (countBad_of_range hc hc') h ho hi hj hh).trans ?_)
    rw [withMem]
    dsimp only
    rw [indexReady_taken, hr, if_neg (by simp), if_neg, lastEpoch_taken]
    simpa [recRead_taken] using hns
  case edges =>
    rw [exec_rclEdges]
    refine congrArg Host.Outcome.next ((indexReq_runs 0x44 _ (countBad_of_range hc hc') h ho hi hj hh).trans ?_)
    rw [withMem]
    dsimp only
    rw [if_neg, indexReady_taken, hr, if_neg (by simp), if_neg]
    · simp only [List.any_eq_true, Bool.or_eq_true, decide_eq_true_eq, not_exists, not_and, not_or, recRead_taken]
      exact fun x hx => ⟨by have := (hes x hx).1; omega, (hes x hx).2.1⟩
    · rw [hg]
      simp only [Bool.not_true, Bool.false_or, List.any_eq_true, Bool.not_eq_true', not_exists, not_and, Bool.not_eq_false]
      exact fun x hx d hd => (hes x hx).2.2 d hd
  case entry =>
    rw [exec_rclEntry]
    refine congrArg Host.Outcome.next ((indexReq_runs 0x45 _ rfl h ho hi hj hh).trans ?_)
    dsimp only
    rw [if_neg, indexReady_taken, hr, if_neg (by simp)]
    rw [hg]
    simp only [Bool.not_true, Bool.false_or, List.any_eq_true, Bool.not_eq_true', not_exists, not_and, Bool.not_eq_false]
    exact fun d hd => hes d hd
  case query =>
    rw [exec_rclQuery]
    refine congrArg Host.Outcome.next ((indexReq_runs 0x46 _ rfl h ho hi hj hh).trans ?_)
    have jobs : mget? (taken s r 0x46).jobs (objKey r.identity.key object.toNat) = none := hj
    have few : (taken s r 0x46).queries.length < 1024 := hl
    rw [withMem]
    dsimp only
    rw [hq, if_neg (by simp), queryReady_taken, hr, jobs, if_neg (by simp), if_neg (by omega)]
    rfl
  case drop =>
    rw [exec_rclDrop]
    refine congrArg Host.Outcome.next ((indexReq_runs 0x47 _ rfl h ho hi hj hh).trans ?_)
    have idle : (taken s r 0x47).queries.any (fun q => q.obj = objKey r.identity.key object.toNat && q.busy) = false := hb
    dsimp only
    rw [idle, if_neg Bool.false_ne_true, indexAt, fails_indices]
    rfl
  case walk =>
    rw [exec_rclGraphWalk, execRclGraphWalk, hq]
    dsimp only
    rw [hr, if_neg (by simp)]

end Sys2Proof.Machine
end

section
/-! PROOF. Pavilion and tenant requests (R74, R75, R259, R260, R268, R276 to R278, R282, R283, R329). -/

namespace Sys2Proof.Machine

theorem loadAll_accepted {id : ReqId} {xs : List LoadItem} {s : State} (h : loadRefused s (fnPort id.fn) xs = none) :
    loadAll id xs s = (xs.map (·.pav)).foldl (fun s n => applyIdle n s) (xs.foldl (fun s x => stageItem id x s) s) := by
  rw [loadAll, h]

section
variable {s : State} {r : Req}

/-- A load whose entries are well formed is checked (R259). -/
theorem pavLoad_checks {buf : DWord} {count : Nat} {bs : List Byte} (h : Takes s r) (hpf : r.fn.isPf = true) (hc : 1 ≤ count)
    (hc' : count ≤ 80) (he : entriesOk ((List.range count).map (loadEntry bs)) = true) :
    exec (.pavLoad r buf count (.data bs)) s = .next (loadAll (takenId s r 0x80)
      (((List.range count).map (loadEntry bs)).map (loadItem (taken s r 0x80) r.identity.key)) (taken s r 0x80)) := by
  rw [exec_pavLoad]
  refine congrArg Host.Outcome.next ((onReq_runs_checked 0x80 _ (if_pos ⟨hc, hc'⟩) h).trans ?_)
  rw [hpf, if_neg (by simp), withMem]
  dsimp only
  rw [he, if_neg (by simp), takenId_ident]

end

/-! ### A load that the statement misnames

A load stages each image under the request's own name. The statement names it by the state that the fold has reached instead, in which
the ring has counted the request: a name that no request bears, whose completion leaves the request on the ring. -/

/-- The bytes of a table of fields: byte, length and value. -/
def fieldBytes (n : Nat) (fs : List (Nat × Nat × Nat)) : List Byte :=
  fs.foldl (fun b f => splice b f.1 (natLe f.2.1 f.2.2)) (List.replicate n 0)

/-- A step program without bundles for quarter 0: its header with its digest (R69), two sections (R70), and the slots and transom windows
that a frame of 4,096 cycles needs (R82, R83, R92, R93). -/
def idleProgram : List Byte := fieldBytes 416 [(0, 4, 0x50535853), (4, 2, 1), (6, 1, 0xB0), (8, 4, 4096), (12, 2, 1), (16, 1, 1),
  (52, 2, 2), (56, 4, 256), (60, 4, 416),
  (224, 32, 0x9db97fb63b2e651089ce62164d3365323bc07b48a8715bca7fa50cf4df6391f0),
  (256, 2, 1), (260, 4, 416), (272, 2, 6), (274, 2, 0xFFFF), (276, 4, 288), (280, 4, 128), (284, 4, 8),
  (288, 1, 1), (296, 4, 128), (304, 1, 2), (308, 4, 128), (312, 4, 64), (320, 1, 3), (324, 4, 192), (328, 4, 64),
  (336, 1, 3), (340, 4, 2240), (344, 4, 64), (352, 4, 0x01000004), (360, 4, 1024), (368, 4, 0x01010004), (376, 4, 1024),
  (384, 4, 0x01000104), (392, 4, 1024), (400, 4, 0x01010104), (408, 4, 1024)]

/-- Port A's physical function asks for a load. -/
def loader : Req := { fn := ⟨.a, 0⟩, tag := 0, session := 0, admin := false, onBehalf := 0, stray := none }

/-- One load entry: object 7 for pavilion 0 (R259). -/
def loadBuffer : List Byte := fieldBytes 256 [(4, 8, 7)]

/-- A part that serves port A, with the program as object 7 in the near tier of pavilion 0 and the load at the head of the ring. -/
def loading : State := {
  hub := { firmware := true }, trellis := some {}, rings := [(0, { enable := true, rqTail := 1 })]
  pavs := [(0, { port := 0, quarters := [0] })]
  objects := [(objKey 0 7, { kind := .model, ntiles := 1, tiles := [(0, { state := .clean, upTier := 1 })] })]
  near := memWrite [] 0 idleProgram }

/-- The items of the load. -/
def loadingItems : List LoadItem :=
  ((List.range 1).map (loadEntry loadBuffer)).map (loadItem (taken loading loader 0x80) loader.identity.key)

theorem loading_takes : Takes loading loader := by decide

theorem loadBuffer_ok : entriesOk ((List.range 1).map (loadEntry loadBuffer)) = true := by decide +kernel

theorem loading_passes : loadRefused (taken loading loader 0x80) 0 loadingItems = none := by decide +kernel

/-- The load's request is off the ring once it has taken effect. -/
theorem loading_leaves_ring : (ringOf ((loadingItems.map (·.pav)).foldl (fun s n => applyIdle n s)
    (loadingItems.foldl (fun t x => stageItem (takenId loading loader 0x80) x t) (taken loading loader 0x80))) 0).fetched = [] := by
  decide +kernel

/-- Under the statement's name for it the request would stay on the ring. -/
theorem misnamed_stays_on_ring : (ringOf ((loadingItems.map (·.pav)).foldl (fun s n => applyIdle n s)
    (loadingItems.foldl (fun t x => stageItem (takenId t loader 0x80) x t) (taken loading loader 0x80))) 0).fetched ≠ [] := by
  decide +kernel

/-- Refutes O43: the statement stages each image under the name that `takenId` gives in the state which the fold has reached, in which
the request is fetched already, where the model stages it under the request's own name. In `loading`, a load that every check accepts,
the request is then off the ring after the load, and by the statement it would still be on it. -/
theorem not_pavilionRequests : ¬ Obligations.PavilionRequests := by
  unfold Obligations.PavilionRequests
  rintro ⟨load, -⟩
  have said := (load loader 0 1 loadBuffer loading loading_takes rfl le_rfl (by decide) loadBuffer_ok).2 loading_passes
  have real := (pavLoad_checks (buf := 0) loading_takes rfl le_rfl (by decide) loadBuffer_ok).trans
    (congrArg Host.Outcome.next (loadAll_accepted (id := takenId loading loader 0x80) loading_passes))
  have same := Host.Outcome.next.inj (real.symm.trans said)
  exact misnamed_stays_on_ring ((congrArg (fun t => (ringOf t 0).fetched) same).symm.trans loading_leaves_ring)

end Sys2Proof.Machine
end

section
/-! PROOF. What an attempt's writes leave of a port's snapshots (R287, R291, R295 to R301). -/

namespace Sys2Proof.Machine

/-! ### Operations that leave every port's snapshots as they are -/

theorem snapAt_of_snaps {s t : State} (h : t.snaps = s.snaps) (p : Nat) : snapAt t p = snapAt s p := by
  unfold snapAt
  rw [h]

theorem onTile_snaps (key i : Nat) (f : Tile → Tile) (s : State) : (onTile key i f s).snaps = s.snaps := by
  unfold onTile
  split <;> rfl

theorem dropCow_snaps (key i : Nat) (s : State) : (dropCow key i s).snaps = s.snaps := by
  unfold dropCow
  dsimp only
  split
  · rfl
  · split <;> rfl

theorem spotFree_snaps (fn : Nat) (sp : Spot) (s : State) : (spotFree fn sp s).snaps = s.snaps := by
  unfold spotFree
  split
  · rfl
  · split <;> rfl

theorem spotWriteAs_snaps (fn key i kd : Nat) (sp : Spot) (e : Encoded) (s : State) :
    (spotWriteAs fn key i kd sp e s).snaps = s.snaps := by
  unfold spotWriteAs
  dsimp only
  split
  · rfl
  · split
    · rfl
    · split <;> rfl

theorem spotAlloc_snaps {fn tier region len : Nat} {sp : Spot} {s t : State} (h : spotAlloc fn tier region len s = some (sp, t)) :
    t.snaps = s.snaps := by
  unfold spotAlloc at h
  dsimp only at h
  split at h
  · split at h
    · cases h
    · rename_i n u hu
      cases h
      unfold farAlloc at hu
      dsimp only at hu
      split at hu
      · cases hu
      · cases hu
        rfl
  · split at h
    · cases h
    · split at h
      · cases h
      · cases h
        rfl

theorem poolOpen_snaps {w : PoolWait} {s t : State} (h : poolOpen w s = some t) : t.snaps = s.snaps := by
  unfold poolOpen at h
  dsimp only at h
  split at h
  · cases h
  · split at h
    · cases h
    · cases h
      split <;> rfl

theorem poolSendAs_snaps {fn key i : Nat} {write retried : Bool} {snap : Option SnapPart} {sp : Spot} {record : List Byte}
    {s t : State} (h : poolSendAs fn key i write retried snap sp record s = some t) : t.snaps = s.snaps := by
  unfold poolSendAs at h
  dsimp only at h
  split at h
  · cases h
  · split at h
    · cases h
    · split at h
      · cases h
        rfl
      · exact poolOpen_snaps h

theorem complete_snaps (id : ReqId) (detail : Nat) (status : Option Nat) (info : Nat) (s : State) :
    (complete id detail status info s).snaps = s.snaps := by
  rw [show complete id detail status info s = _ from complete_onRings ..]

/-! ### An attempt under way -/

theorem snapAt_onSnap (p : Nat) (f : SnapPort → SnapPort) (s : State) : snapAt (onSnap p f s) p = f (snapAt s p) := by
  unfold onSnap
  rw [snapAt]
  simp

theorem run_onRun (p : Nat) (f : SnapRun → SnapRun) (s : State) : (snapAt (onRun p f s) p).run = (snapAt s p).run.map f := by
  rw [onRun, snapAt_onSnap]

/-- The writes under way once a part's write joins them (R298). -/
def withOuts (part : SnapPart) (sp : Spot) (retried : Bool) (bytes : List Byte) (r : SnapRun) : SnapRun :=
  { r with outs := r.outs.filter (fun x => decide (x.part ≠ part)) ++ [⟨part, sp.tier, sp.region, sp.addr, sp.gran, bytes, retried⟩] }

theorem snapOut_run {p : Nat} {part : SnapPart} {sp : Spot} {retried : Bool} {bytes : List Byte} {s t : State}
    (h : snapOut p part sp retried bytes s = some t) :
    (snapAt t p).run = (snapAt s p).run.map (withOuts part sp retried bytes) := by
  unfold snapOut at h
  dsimp only at h
  split at h
  · rw [snapAt_of_snaps (poolSendAs_snaps h), run_onRun]
    rfl
  · cases h
    rw [run_onRun]
    rfl

theorem snapLay_run {p : Nat} {part : SnapPart} {sp : Spot} {bytes : List Byte} {s t : State} (h : snapLay p part sp bytes s = some t) :
    (snapAt t p).run = (snapAt s p).run.map (withOuts part sp false bytes) := by
  unfold snapLay at h
  dsimp only at h
  rw [snapOut_run h]
  split
  · rfl
  · split <;> rfl

/-- The attempt's shards are laid while it runs (R295). -/
theorem layPieces_runs {p tier region shard : Nat} (bss : List (List Byte)) (acc : List (Nat × Nat × Nat)) (s : State)
    {ps : List (Nat × Nat × Nat)} {t : State} (h : layPieces p tier region shard bss acc s = some (ps, t)) :
    (snapAt t p).run.isSome = (snapAt s p).run.isSome := by
  induction bss generalizing acc s with
  | nil =>
    cases h
    rfl
  | cons bs bss ih =>
    rw [layPieces] at h
    split at h
    · cases h
    · rename_i sp u hu
      split at h
      · cases h
      · rename_i v hv
        rw [ih _ _ h, snapLay_run hv, Option.isSome_map, snapAt_of_snaps (spotAlloc_snaps hu)]

theorem closeShard_runs {p shard : Nat} {r : SnapRun} {s t : State} {x : SnapShard} (h : closeShard p r shard s = some (x, t)) :
    (snapAt t p).run.isSome = (snapAt s p).run.isSome := by
  unfold closeShard at h
  dsimp only at h
  split at h
  · cases h
  · rename_i ps u hu
    cases h
    have laid := layPieces_runs _ _ _ hu
    exact laid

theorem closeShards_runs {p : Nat} {r : SnapRun} (ns : List Nat) (acc : List SnapShard) (s : State) {hs : List SnapShard} {t : State}
    (h : closeShards p r ns acc s = some (hs, t)) : (snapAt t p).run.isSome = (snapAt s p).run.isSome := by
  induction ns generalizing acc s with
  | nil =>
    cases h
    rfl
  | cons n ns ih =>
    rw [closeShards] at h
    split at h
    · cases h
    · rename_i x u hu
      rw [ih _ _ h, closeShard_runs hu]

theorem slotWrite_runs {p off : Nat} {m : Manifest} {part : SnapPart} {bs : List Byte} {s t : State}
    (h : slotWrite p m part bs off s = some t) : (snapAt t p).run.isSome = (snapAt s p).run.isSome := by
  unfold slotWrite at h
  dsimp only at h
  split at h
  · rw [snapOut_run h, Option.isSome_map]
    rfl
  · rw [snapLay_run h, Option.isSome_map]

/-- A written slot is the attempt's manifest (R296). -/
theorem keepSlot_run {p off : Nat} {m : Manifest} {bs : List Byte} {s : State} (h : (snapAt s p).run.isSome = true) :
    ∃ q, (snapAt (keepSlot p m bs off s) p).run = some q ∧ q.man = some { m with slot := splice m.slot off bs } ∧
      q.committing = decide (off ≠ 0) := by
  obtain ⟨r, hr⟩ := Option.isSome_iff_exists.mp h
  have run := run_onRun p (fun r => { r with man := some { m with slot := splice m.slot off bs }, committing := decide (off ≠ 0) }) s
  rw [hr] at run
  exact ⟨_, run, rfl, rfl⟩

theorem writeBody_run {p : Nat} {m : Manifest} {s u : State} (hw : writeBody p m s = some u) (hr : (snapAt s p).run.isSome = true) :
    ∃ q n, (snapAt u p).run = some q ∧ q.man = some n ∧ q.committing = false ∧ n.shards = m.shards ∧ n.epoch = m.epoch := by
  unfold writeBody at hw
  dsimp only at hw
  obtain ⟨t, ht, rfl⟩ := Option.map_eq_some_iff.mp hw
  obtain ⟨q, hq, hman, hcom⟩ := keepSlot_run (m := m) (off := 0) (bs := byteSlice (sealBlob s (regGet s p 0x70004 % 4096) (manifestBody p m)) 0 32640
    ++ List.replicate 128 0) ((slotWrite_runs ht).trans hr)
  exact ⟨q, _, hq, hman, hcom, rfl, rfl⟩

theorem writeCommit_run {p : Nat} {m : Manifest} {s u : State} (hw : writeCommit p m s = some u) (hr : (snapAt s p).run.isSome = true) :
    ∃ q, (snapAt u p).run = some q ∧ q.committing = true := by
  unfold writeCommit at hw
  dsimp only at hw
  obtain ⟨t, ht, rfl⟩ := Option.map_eq_some_iff.mp hw
  obtain ⟨q, hq, -, hcom⟩ := keepSlot_run (off := 32512) ((slotWrite_runs ht).trans hr)
  exact ⟨q, hq, hcom⟩

/-! ### An epoch that commits (R290, R298, R301) -/

theorem storedTiles_snaps (r : SnapRun) (s : State) : (storedTiles r s).snaps = s.snaps :=
  foldl_keeps (fun s => s.snaps) (fun s _ => onTile_snaps _ _ _ s) _ s

theorem dropManifests_port (p : Nat) (gone : Manifest → Bool) (s : State) :
    snapAt (dropManifests p gone s) p = { snapAt s p with manifests := (snapAt s p).manifests.filter (fun m => ! gone m) } := by
  unfold dropManifests
  dsimp only
  rw [snapAt_onSnap, snapAt_of_snaps (foldl_keeps (fun s => s.snaps) (fun s m => ?_) _ s)]
  split
  · rfl
  · exact foldl_keeps (fun s => s.snaps) (fun s h => foldl_keeps (fun s => s.snaps) (fun s a => spotFree_snaps ..) _ s) _ s

theorem commitEpoch_port (p : Nat) (r : SnapRun) (m : Manifest) (s : State) :
    (snapAt (commitEpoch p r m s) p).run = none ∧ m ∈ (snapAt (commitEpoch p r m s) p).manifests := by
  have stored := storedTiles_snaps r (onSnap p (fun x => { x with
    run := none, manifests := x.manifests ++ [m], timerFrom := s.time, frames := 0 }) s)
  unfold commitEpoch
  dsimp only
  generalize storedTiles r _ = t at stored ⊢
  have port : snapAt (unpend p t) p = { snapAt s p with
      run := none, manifests := (snapAt s p).manifests ++ [m], timerFrom := s.time, frames := 0 } := by
    rw [show snapAt (unpend p t) p = snapAt t p from rfl, snapAt_of_snaps stored, snapAt_onSnap]
  generalize hv : regSet p 0x70018 m.epoch _ = v
  have kept : (snapAt v p).run = none ∧ m ∈ (snapAt v p).manifests := by
    subst hv
    rw [show ∀ u, snapAt (regSet p 0x70018 m.epoch u) p = snapAt u p from fun _ => rfl, dropManifests_port, port]
    exact ⟨rfl, List.mem_filter.mpr ⟨by simp, by simp⟩⟩
  split
  · exact kept
  · rw [done, snapAt_of_snaps (complete_snaps ..)]
    exact kept

/-- A tile's record joins the attempt and the tile is owed no longer (R291, R295). -/
theorem storeRecord_run {p key i shard kd : Nat} {r : SnapRun} {zeroed : Bool} {plain : List Byte} {s u : State}
    (hr : (snapAt s p).run = some r) (h : storeRecord p r key i shard kd zeroed plain s = some u) :
    ∃ q, (snapAt u p).run = some q ∧ q.owed = r.owed.filter (· ≠ (key, i, shard)) ∧
      ∃ y ∈ q.recs, y.obj = key ∧ y.tile = i ∧ y.epoch = r.epoch ∧ y.zeroed = zeroed ∧
        y.data.bytes = (encodeTile (Config.freeChoice s.free % 8) 0 plain).bytes := by
  unfold storeRecord at h
  dsimp only at h
  split at h
  · cases h
  · rename_i sp t ht
    have alloc : t.snaps = s.snaps := (spotAlloc_snaps ht).trans rfl
    have written (e : Encoded) (n : Nat) (v : State) (hv : v.snaps = s.snaps) :
        (onTile key i (fun t => { t with pending := false }) (dropCow key i (regAdd p 0x70030 n
          (spotWriteAs (64 * p) key i kd sp e v)))).snaps = s.snaps := by
      rw [onTile_snaps, dropCow_snaps]
      exact (spotWriteAs_snaps ..).trans hv
    have run := snapOut_run h
    rw [run_onRun, snapAt_of_snaps (written _ _ _ (by split <;> exact alloc)), hr] at run
    exact ⟨_, run, rfl, _, List.mem_append_right _ (List.mem_singleton.mpr rfl), rfl, rfl, rfl, rfl, rfl⟩

end Sys2Proof.Machine
end

section
/-! PROOF. Snapshot attempts, epochs and restores (R285 to R307). -/

namespace Sys2Proof.Machine

section
variable {s : State} {r : Req}

/-- A trigger that fires with a target starts an attempt, or is dropped while one runs (R286). -/
theorem fireTrigger_eq (p : Nat) (s : State) : fireTrigger p s = if (snapAt s p).run.isSome then regAdd p 0x70040 1 s else
    ((snapTarget s p).map fun x => startSnap p none false x s).getD s := by
  unfold fireTrigger
  split
  · rfl
  · cases snapTarget s p <;> rfl

theorem snapTarget_onSnap (p : Nat) (f : SnapPort → SnapPort) (s : State) : snapTarget (onSnap p f s) p = snapTarget s p := rfl

/-- A port restore past its checks (R302, R303, R305). -/
theorem portRestore_tries {target region source : Nat} {epoch report : DWord} {bad : List SnapBad} (h : Takes s r)
    (hpf : r.fn.isPf = true) (hc : restoreCheck (taken s r 0x62) (takenId s r 0x62) (fnPort r.fn.key) target region source = none)
    (hs : ∀ x ∈ s.sessions, sessPort x.1 ≠ fnPort r.fn.key) (hr : (snapAt s (fnPort r.fn.key)).run = none) :
    let id := takenId s r 0x62
    let t := taken s r 0x62
    let p := fnPort r.fn.key
    let tier := bits (regGet t p 0x70000) 4 6
    let uses (m : Manifest) (y : SnapRec) : Bool := (m.backs t p).any (fun o => o.obj = y.obj)
    let tried := tryEpochs (portFails t p bad uses) (candidates t p tier source epoch.toNat) []
    let bring (m : Manifest) (w : State) : State := ((bringAll m p target region (m.backs w p) w).map fun u =>
      (insertAll p id (m.entries w p target) u).getD (defer id 0x30 w)).getD (complete id (noRoom target) (some 7) 0 w)
    exec (.portRestore r target region source epoch report bad) s = .next ((tried.2.map fun m =>
      withOut id report.toNat (reportBytes m.epoch (tried.1 ++ m.leftOut t p)) (bring m) t).getD
        (withOut id report.toNat (reportBytes 0 tried.1) (fail id 0x72) t)) := by
  have idle : ¬ ((taken s r 0x62).sessions.any (fun x => sessPort x.1 = fnPort (takenId s r 0x62).fn) ||
      (snapAt (taken s r 0x62) (fnPort (takenId s r 0x62).fn)).run.isSome) = true := by
    have run : (snapAt (taken s r 0x62) (fnPort (takenId s r 0x62).fn)).run = none := hr
    rw [run, show (taken s r 0x62).sessions = s.sessions from rfl, show (takenId s r 0x62).fn = r.fn.key from rfl]
    simpa using fun a b hx => hs (a, b) hx
  dsimp only
  rw [exec_portRestore]
  refine congrArg Host.Outcome.next ((onReq_takes 0x62 _ h).trans ?_)
  rw [hpf, if_neg (by simp)]
  dsimp only
  rw [show restoreCheck (taken s r 0x62) (takenId s r 0x62) (fnPort (takenId s r 0x62).fn) target region source = none from hc]
  dsimp only
  rw [if_neg idle, show (takenId s r 0x62).fn = r.fn.key from rfl]
  generalize tryEpochs _ _ _ = tried
  cases tried.2 with
  | none => rfl
  | some m =>
    dsimp only [Option.map_some, Option.getD_some]
    congr 1
    funext w
    cases bringAll m (fnPort r.fn.key) target region (m.backs w (fnPort r.fn.key)) w <;> rfl

/-- A session restore past its checks (R304, R305). -/
theorem sessionRestore_tries {target region source : Nat} {session epoch report : DWord} {bad : List SnapBad} (h : Takes s r)
    (hc : restoreCheck (taken s r 0x62) (takenId s r 0x62) (fnPort r.fn.key) target region source = none)
    (hx : ∀ y, mget? s.sessions (sessKey r.identity.key session.toNat) = some y →
      Clear s (sessKey r.identity.key session.toNat) y true) :
    let id := takenId s r 0x62
    let key := sessKey r.identity.key session.toNat
    let t := taken s r 0x62
    let p := fnPort r.fn.key
    let tier := bits (regGet t p 0x70000) 4 6
    let mine (m : Manifest) (y : SnapRec) : Bool := (m.session p key).any (fun z => z.1.obj = y.obj)
    let tried := tryEpochs (sessFails t p bad mine)
      ((candidates t p tier source epoch.toNat).filter (fun m => (m.session p key).isSome)) []
    exec (.sessionRestore r target region source session epoch report bad) s = .next
      (withOut id report.toNat (reportBytes ((tried.2.map (·.epoch)).getD 0) tried.1)
        (restorePicked id key p target region (tried.2.bind (fun m => (m.session p key).map (fun z => (m, z))))) t) := by
  have runs (body : ReqId → State → State) : orderGateOn (sessKey (takenId s r 0x62).ident session.toNat) (fresh s) true
      (.sessionRestore r target region source session epoch report bad) body (takenId s r 0x62) (taken s r 0x62) =
      body (takenId s r 0x62) (taken s r 0x62) := by
    unfold orderGateOn
    rw [show (taken s r 0x62).sessions = s.sessions from rfl, takenId_ident]
    split
    · rfl
    · rename_i y hy
      obtain ⟨hr, hb, hw⟩ := hx y hy
      have blocked : sessBlocked (taken s r 0x62) (sessKey r.identity.key session.toNat) y true = false := hb
      have waits : sessWaits (taken s r 0x62) (sessKey r.identity.key session.toNat) = false := hw
      rw [hr, blocked, waits, if_neg (by simp)]
  dsimp only
  rw [exec_sessionRestore]
  refine congrArg Host.Outcome.next ((onReq_takes 0x62 _ h).trans ((runs _).trans ?_))
  dsimp only
  rw [show restoreCheck (taken s r 0x62) (takenId s r 0x62) (fnPort (takenId s r 0x62).fn) target region source = none from hc]
  rfl

/-- The session of the epoch chosen comes back (R304, R320, R348). -/
theorem restorePicked_restores {id : ReqId} {key p target region : Nat} {m : Manifest} {o : SnapObj} {x : Session} {v : State}
    {d : Option DirRec} (hk : kdUsable s (key / 2 ^ 64) o.kd = true)
    (hc : (mget? s.sessions key).isSome = true ∨ mget? s.objects (objKey (key / 2 ^ 64) x.object) = none)
    (hv : restoreSession id key m o x p target region s = some (v, d)) :
    restorePicked id key p target region (some (m, o, x)) s = (d.map fun d =>
      let k := sessDirKey (key / 2 ^ 64) (key % 2 ^ 64)
      (dirAccept s p false k (fullCare false)).elim (fun e => if e = 0x30 then defer id 0x30 s else fail id e s) (fun n =>
        dirWrite { row := n, entry := { key := k, care := fullCare false, data := d }, insert := true, id := some id } v)).getD
      (dirSetDone key (fun d => parkedRec d (absTier p target) (((mget? v.sessions key).map (·.gen)).getD 0)) id v) := by
  have clash : ¬ ((mget? s.sessions key).isNone && (objOf s (objKey (key / 2 ^ 64) x.object)).isSome) = true := by
    rw [← Option.not_isSome]
    obtain e | e := hc
    · simp [e]
    · rw [objOf, e]
      simp
  unfold restorePicked
  dsimp only
  rw [hk, if_neg (by simp), if_neg clash, hv]
  cases d with
  | none => rfl
  | some d =>
    dsimp only [Option.map_some, Option.getD_some]
    generalize dirAccept s p false _ _ = a
    cases a with
    | inr n => rfl
    | inl e =>
      dsimp only [Sum.elim_inl]
      by_cases h : e = 0x30
      · subst h
        rfl
      · rw [if_neg h]
        split
        · rename_i h'
          cases h'
          exact absurd rfl h
        · rename_i h'
          cases h'
          rfl
        · rename_i h'
          cases h'

end

/-- Settles O44: each command's guard holds, and the lemmas above say what an attempt keeps of its port while its records, shards and
manifest are written. -/
theorem snapshotsAndRestores : Obligations.SnapshotsAndRestores := by
  unfold Obligations.SnapshotsAndRestores
  refine ⟨⟨fun r full x s h hpf hr ht => ?take,
      fun port s hon => ⟨fun h1 hd => ⟨fun x hr ht => ?timer, fun hr => ?timerDropped⟩,
        fun h2 hd => ⟨fun x hr ht => ?steps, fun hr => ?stepsDropped⟩⟩,
      fun f v s hpf hg => ?target, fun r object exclude s h hpf ho => ?included, fun port r s t hr hc hcut ht => ?cut,
      fun port obj tile shard r o plain s u hr ho hobj hp hu => ?stored,
      fun port r s hr => ⟨fun hm hc ho hs t u hcl hu => ?closes, fun m hm => ⟨fun ho => ?waits, fun ho hcom u hu => ?commits,
        fun ho hcom => ?ends⟩⟩⟩,
    fun r epoch s h hpf => ?retire, fun r buf s h hpf ht => ?list,
    fun r target region source epoch report bad out s h hpf hc hs hr => ?port,
    fun r target region source session epoch report bad out s h hx hc => ?session⟩
  case take =>
    have run : (snapAt (taken s r 0x60) (fnPort (takenId s r 0x60).fn)).run = none := hr
    have target : snapTarget (taken s r 0x60) (fnPort (takenId s r 0x60).fn) = some x := ht
    rw [exec_snpTake]
    refine congrArg Host.Outcome.next ((onReq_takes 0x60 _ h).trans ?_)
    rw [hpf, if_neg (by simp)]
    rw [run, if_neg (by simp), target]
    rfl
  case timer =>
    rw [exec_snpTimerFire, execSnpTimerFire]
    rw [hon, h1, if_pos (by simpa using hd), fireTrigger_eq, snapTarget_onSnap, ht, snapAt_onSnap, hr]
    rfl
  case timerDropped =>
    rw [exec_snpTimerFire, execSnpTimerFire]
    rw [hon, h1, if_pos (by simpa using hd), fireTrigger_eq, snapAt_onSnap, hr, if_pos rfl]
  case steps =>
    rw [exec_snpStepTrigger, execSnpStepTrigger]
    rw [hon, h2, if_pos (by simpa using hd), fireTrigger_eq, snapTarget_onSnap, ht, snapAt_onSnap, hr]
    rfl
  case stepsDropped =>
    rw [exec_snpStepTrigger, execSnpStepTrigger]
    rw [hon, h2, if_pos (by simpa using hd), fireTrigger_eq, snapAt_onSnap, hr, if_pos rfl]
  case target =>
    rw [exec_snapshotTargetSet, execSnapshotTargetSet]
    exact if_pos (by simp [hpf, hg])
  case included =>
    have some_ : (objOf (taken s r 0x61) (objKey (takenId s r 0x61).ident object.toNat)).isNone = false := by
      rw [← Option.not_isSome]
      exact congrArg (! ·) ho
    rw [exec_snpInclude]
    refine congrArg Host.Outcome.next ((onReq_takes 0x61 _ h).trans ?_)
    rw [hpf, if_neg (by simp)]
    rw [some_]
    rfl
  case cut =>
    rw [exec_snapshotCut, execSnapshotCut]
    rw [hr]
    dsimp only
    rw [hc, hcut, if_neg (by simp), ht]
  case stored =>
    have owed : r.owed.any (fun o => o.1 = refKey obj && o.2.1 = tile) = true :=
      List.any_eq_true.mpr ⟨_, List.mem_of_find?_eq_some ho, by simp⟩
    refine ⟨?_, storeRecord_run hr hu⟩
    rw [exec_snapshotTileStored, execSnapshotTileStored]
    rw [hr, Option.any_some, owed, if_neg (by simp), hp]
    dsimp only
    rw [snapStore, hr]
    dsimp only
    rw [ho, hobj]
    dsimp only
    rw [hu]
    rfl
  case closes =>
    obtain ⟨q, n, hq, hn, hcom, hsh, hep⟩ := writeBody_run hu
      ((closeShards_runs _ _ _ hcl).trans (by rw [hr]; rfl))
    refine ⟨?_, q, n, hq, hn, hcom, hsh, hep⟩
    rw [exec_snapshotCommit, execSnapshotCommit]
    rw [hr]
    dsimp only
    rw [hm]
    dsimp only
    rw [if_neg (by rw [← Option.not_isSome, hc, ho]; simp), closeEpoch]
    rw [hcl, Option.bind_some, hu]
    rfl
  case waits =>
    rw [exec_snapshotCommit, execSnapshotCommit]
    rw [hr]
    dsimp only
    rw [hm]
    exact if_pos ho
  case commits =>
    refine ⟨?_, writeCommit_run hu (by rw [hr]; rfl)⟩
    rw [exec_snapshotCommit, execSnapshotCommit]
    rw [hr]
    dsimp only
    rw [hm]
    dsimp only
    rw [ho, if_neg (by simp), hcom, if_neg Bool.false_ne_true, hu]
    rfl
  case ends =>
    refine ⟨?_, commitEpoch_port port.idx r m s⟩
    rw [exec_snapshotCommit, execSnapshotCommit]
    rw [hr]
    dsimp only
    rw [hm]
    dsimp only
    rw [ho, if_neg (by simp), hcom, if_pos rfl]
  case retire =>
    rw [exec_snpRetire]
    refine congrArg Host.Outcome.next ((onReq_takes 0x63 _ h).trans ?_)
    rw [hpf]
    rfl
  case list =>
    rw [exec_snpList]
    refine congrArg Host.Outcome.next ((onReq_takes 0x64 _ h).trans ?_)
    rw [hpf]
    dsimp only
    rw [if_neg (by simp), show (takenId s r 0x64).fn = r.fn.key from rfl, ht, if_neg (by simp)]
    rfl
  case port =>
    have run := portRestore_tries (bad := bad) (epoch := epoch) (report := report) h hpf hc hs hr
    have out_ (b : Bool) (hn : r.noWrite = b) : (takenId s r 0x62).noWrite = b := hn
    refine ⟨fun hn => run.trans ?_, fun hn ht => run.trans ?_, fun m u v hn ht hu hv => run.trans ?_⟩
    · generalize tryEpochs _ _ _ = tried
      cases tried.2 with
      | none => exact congrArg Host.Outcome.next (if_pos (out_ true hn))
      | some m => exact congrArg Host.Outcome.next (if_pos (out_ true hn))
    · dsimp only
      rw [ht]
      exact congrArg Host.Outcome.next (if_neg (by simp [out_ false hn]))
    · dsimp only
      rw [ht]
      dsimp only [Option.map_some, Option.getD_some]
      rw [withOut, if_neg (by simp [out_ false hn])]
      rw [show (takenId s r 0x62).fn = r.fn.key from rfl, hu, Option.map_some, Option.getD_some, hv, Option.getD_some]
  case session =>
    have run := sessionRestore_tries (bad := bad) (report := report) (epoch := epoch) h hc hx
    have out_ (b : Bool) (hn : r.noWrite = b) : (takenId s r 0x62).noWrite = b := hn
    refine ⟨fun hn => run.trans ?_, fun hn ht => run.trans ?_, fun m o x v hn ht hm => ?_⟩
    · exact congrArg Host.Outcome.next (if_pos (out_ true hn))
    · rw [ht]
      exact congrArg Host.Outcome.next (if_neg (by simp [out_ false hn]))
    · have picked : exec (.sessionRestore r target region source session epoch report bad) s = .next
          (restorePicked (takenId s r 0x62) (sessKey r.identity.key session.toNat) (fnPort r.fn.key) target region (some (m, o, x))
            (dmaWrite (fnPort r.fn.key) report.toNat (reportBytes m.epoch out) (taken s r 0x62))) := by
        refine run.trans ?_
        rw [ht]
        dsimp only [Option.map_some, Option.getD_some, Option.bind_some]
        rw [hm, withOut, if_neg (by simp [out_ false hn])]
        rfl
      refine fun hk => ⟨fun hi hv => picked.trans ?_, fun d n hi hob hv hd => picked.trans ?_⟩
      · exact congrArg Host.Outcome.next (restorePicked_restores hk (Or.inl hi) hv)
      · refine congrArg Host.Outcome.next ((restorePicked_restores hk (Or.inr hob) hv).trans ?_)
        dsimp only [Option.map_some, Option.getD_some]
        rw [hd]
        rfl

end Sys2Proof.Machine
end

section
/-! PROOF. Boot and security commands (R309 to R332, R419). -/

namespace Sys2Proof.Machine

section
variable {s t : State} {r : Req}

/-- The trip's record leaves the security state and the running image as they are. -/
theorem tripRecord_sec (s : State) : (tripRecord s).sec = s.sec := by
  unfold tripRecord
  split
  · exact (congrArg State.sec (raiseErr_onLog _ _)).trans rfl
  · rfl

/-- Opening a message of a port's secured channel changes nothing but channels and pending keys. -/
theorem openSecured_keeps {p : Nat} {m : Secured} {b : List Byte} (h : openSecured p m s = some (b, t)) :
    t.sec.ide = s.sec.ide ∧ t.sec.tdi = s.sec.tdi := by
  unfold openSecured channelKey at h
  obtain ⟨⟨k, u⟩, hk, ho⟩ := Option.bind_eq_some_iff.mp h
  obtain ⟨b', -, e⟩ := Option.map_eq_some_iff.mp ho
  obtain ⟨-, rfl⟩ := Prod.mk.inj e
  split at hk
  · obtain ⟨_, -, e⟩ := Option.map_eq_some_iff.mp hk
    obtain ⟨-, rfl⟩ := Prod.mk.inj e
    exact ⟨rfl, rfl⟩
  · obtain ⟨_, -, e⟩ := Option.map_eq_some_iff.mp hk
    obtain ⟨-, rfl⟩ := Prod.mk.inj e
    exact ⟨rfl, rfl⟩

/-- A change of a mask that no locked interface forbids is made (R329). -/
theorem maskChange_makes {p old new : Nat} {refuse make : State → State} (h : lockedFns s p (old ^^^ new) = []) :
    maskChange p old new refuse make s = make s := if_pos h

/-- An image that is long enough, and of which enough was read, is whole (R309). -/
theorem bootImage_whole {len : Nat} {bs : List Byte} (hl : 9893 + 256 ≤ len) (hs : len ≤ bs.length) :
    ¬ (len < 9893 + 256 ∨ (bs.take len).length < len) := by
  rw [List.length_take]
  omega

/-- The moves of an interface that take it on (R329). -/
theorem tdispMove_lock {fn : Nat} (h : tdiOf t fn = .unlocked) :
    tdispMove fn .lock t = onSec (fun z => { z with tdi := mput z.tdi fn .locked }) t := by
  unfold tdispMove
  rw [h]
  rfl

theorem tdispMove_start {fn : Nat} (h : tdiOf t fn = .locked) :
    tdispMove fn .start t = onSec (fun z => { z with tdi := mput z.tdi fn .run }) t := by
  unfold tdispMove
  rw [h]
  rfl

theorem tdispMove_stop {fn : Nat} : tdispMove fn .stop t = onSec (fun z => { z with tdi := mdel z.tdi fn }) t := by
  unfold tdispMove
  cases tdiOf t fn <;> rfl

/-- A move that an interface's state does not allow changes nothing (R329). -/
theorem tdispMove_lock_out {fn : Nat} (h : tdiOf t fn ≠ .unlocked) : tdispMove fn .lock t = t := by
  unfold tdispMove
  cases e : tdiOf t fn
  case unlocked => exact absurd e h
  all_goals rfl

theorem tdispMove_start_out {fn : Nat} (h : tdiOf t fn ≠ .locked) : tdispMove fn .start t = t := by
  unfold tdispMove
  cases e : tdiOf t fn
  case locked => exact absurd e h
  all_goals rfl

/-- A sound image starts (R309 to R312, R324). -/
theorem bootVerify_starts (floorRead marginal : Bool) (hb : s.sec.boot = 2) (hn : s.sec.boots < 1048576)
    (hd : fwDigest s.sec.image = byteSlice s.sec.image 0x20 32) (hs : Config.firmwareSigned s.sec.image = true)
    (hf : s.sec.floor ≤ leField s.sec.image 8 4) :
    let b := s.sec.image
    let svn := leField b 8 4
    let block := if marginal then s.sec.block + 1 else s.sec.block
    ∃ t, exec (.bootVerifyDone floorRead marginal) s = .next t ∧ t.hub.firmware = true ∧ t.sec = { s.sec with
      boot := 3, boots := s.sec.boots + 1, svn := svn, digest := fwDigest b, block := block, next := 64 * block, faulted := false
      floor := (if bitOf (leField b 7 1) 0 = true ∧ floorRead = true then svn else s.sec.floor)
      domains := mput s.sec.domains 0 (ownDomain (s.sec.boots + 1)) } := by
  dsimp only
  rw [exec_bootVerifyDone, execBootVerifyDone, if_neg (by simp [hb])]
  dsimp only
  rw [if_neg (by omega), if_neg (by simp [hd]), hs, if_neg (by simp), if_neg (by omega)]
  refine ⟨_, rfl, rfl, ?_⟩
  rw [onSec]
  dsimp only
  rw [tripRecord_sec]
  simp [Nat.max_eq_right hf]

/-- A report that the signing engine can sign takes the next index of the block in use (R312, R314, R317). -/
theorem attestSigned_signs (readBack : Bool) {q : AttestReq} {rest : List AttestReq} (hq : s.sec.queue = q :: rest)
    (hf : s.sec.faulted = false) (hx : xmssSpent s.sec = false)
    (hb : decide (64 * s.sec.block ≤ s.sec.next) = true → readBack = true) :
    let fresh := decide (64 * s.sec.block ≤ s.sec.next)
    let body := splice (splice q.report 0x58 (natLe 8 s.sec.next)) 0xC0
      (if q.kem then byteSlice (Config.kemPublic s.free) 0 1568 else natLe 1568 0)
    let report := body ++ byteSlice (Config.xmssSign s.sec.next body) 0 9893
    let keys := s.sec.pendingKeys ++ [⟨s.sec.next, s.free, shake256 report 32, s.time, q.id.fn⟩]
    exec (.attestSigned readBack) s = .next (withOut q.id q.buf report (done q.id) { s with free := s.free + 1, sec :=
      { s.sec with queue := rest, block := if fresh then s.sec.block + 1 else s.sec.block, next := s.sec.next + 1
                   pendingKeys := if q.kem then keys.drop (s.sec.pendingKeys.length + 1 - 16) else s.sec.pendingKeys } }) := by
  have backed : ¬ (decide (64 * s.sec.block ≤ s.sec.next) && ! readBack) = true := by
    cases readBack <;> simp_all
  dsimp only
  rw [exec_attestSigned, execAttestSigned, hq]
  dsimp only
  exact (if_neg (ne_true_of_eq_false hf)).trans ((if_neg (ne_true_of_eq_false hx)).trans (if_neg backed))

end

/-- Settles O45: each command's guard holds; a message of the secured channel changes no stream's key and no interface by itself. -/
theorem bootAndSecurity : Obligations.BootAndSecurity := by
  unfold Obligations.BootAndSecurity
  refine ⟨⟨fun f v s hpf hv hr ho => ?go, fun bs s => ?image, fun floorRead marginal s => ?verify⟩,
    fun r buf kem scope nonce s h hsc hf hx => ?attest, fun readBack q rest s => ?signed, fun s => ?expiry,
    fun r buf b p s => ?release, fun r kd sealFlag s h hd hm hk => ?create, fun r kd mask s h hpf h0 hd => ?bind,
    fun r buf s h => ?idRead, fun port msg stream b s t => ?ide, fun f msg act b s t ho => ?tdisp,
    fun f port msg stream ide act s => ⟨fun ho => ?ideNone, fun ho => ?tdispNone⟩⟩
  case go =>
    rw [exec_bootGo, execBootGo]
    dsimp only
    refine if_pos ?_
    obtain ⟨h0, h1⟩ | ⟨h0, h1⟩ := ho
    · simp [hpf, hv, hr, h0, h1]
    · simp [hpf, hv, hr, h0, h1]
  case image =>
    refine fun hb => ⟨fun hn mem => ?_, fun hn => ⟨?_, fun hl => ?_, fun hl hs hh => ?_, fun hl hs hh => ?_⟩⟩
    all_goals
      rw [exec_bootImageReadDone]
      unfold execBootImageReadDone
      rw [if_neg (by simp [hb])]
    · exact if_pos hn
    all_goals rw [if_neg (by omega)]
    · rfl
    all_goals dsimp only
    · rw [if_pos (show _ ∨ _ by rw [List.length_take]; omega), if_pos (by decide)]
      rfl
    · rw [if_neg (bootImage_whole hl hs)]
      exact if_pos hh
    · rw [if_neg (bootImage_whole hl hs)]
      exact if_neg (not_not_intro hh)
  case verify =>
    refine fun hb => ⟨fun hn => ?_, fun hn => ⟨fun hd => ?_, fun hd => ⟨fun hs => ?_, fun hs hf => ?_,
      fun hs hf => bootVerify_starts floorRead marginal hb hn hd hs hf⟩⟩⟩
    all_goals
      rw [exec_bootVerifyDone, execBootVerifyDone, if_neg (by simp [hb])]
      dsimp only
    · exact if_pos hn
    · rw [if_neg (by omega)]
      exact if_pos hd
    · rw [if_neg (by omega), if_neg (by simp [hd]), hs]
      rfl
    · rw [if_neg (by omega), if_neg (by simp [hd]), hs, if_neg (by simp)]
      exact if_pos hf
  case attest =>
    have faulted : (taken s r 0x70).sec.faulted = false := hf
    have spent : xmssSpent (taken s r 0x70).sec = false := hx
    rw [exec_secAttest, execSecAttest, if_pos hsc]
    refine congrArg Host.Outcome.next ((onReq_takes 0x70 _ h).trans ?_)
    rw [withMem]
    dsimp only
    rw [faulted, if_neg Bool.false_ne_true, spent, if_neg Bool.false_ne_true]
    rfl
  case signed =>
    refine fun hq => ⟨fun hf => ?_, fun hf hx => ?_, fun hf hx hfr hb => ?_, fun hf hx hb => ?_⟩
    case refine_4 => exact attestSigned_signs readBack hq hf hx hb
    all_goals
      rw [exec_attestSigned, execAttestSigned, hq]
      dsimp only
    · exact if_pos hf
    · exact (if_neg (ne_true_of_eq_false hf)).trans (if_pos hx)
    · exact (if_neg (ne_true_of_eq_false hf)).trans ((if_neg (ne_true_of_eq_false hx)).trans (if_pos (Bool.and_eq_true_iff.mpr
        ⟨hfr, by rw [hb]; rfl⟩)))
  case expiry => rfl
  case release =>
    intro d k t h hok hm hk hp
    have mine : kdMine (kdOf (taken s r 0x71) (leField b 12 2)) r.identity.key (leField b 12 2) = true := hm
    have state : (kdOf (taken s r 0x71) (leField b 12 2)).state = 1 := hk
    have pending : (taken s r 0x71).sec.pendingKeys.find? (fun p => p.index = leField b 4 8 &&
        decide ((taken s r 0x71).time < p.since + 60000000000)) = some p := hp
    rw [exec_secKdRelease, execSecKdRelease]
    refine congrArg Host.Outcome.next ((onReq_takes 0x71 _ h).trans ?_)
    rw [withMem, takenId_ident]
    dsimp only
    rw [hok, if_neg (by simp), mine, if_neg (by simp), if_neg (by simp [state]), pending]
    dsimp only
    generalize Config.gcmOpen _ _ _ _ = keys
    cases keys <;> rfl
  case create =>
    have mine : kdMine (kdOf (taken s r 0x72) kd) r.identity.key kd = true := hm
    have state : (kdOf (taken s r 0x72) kd).state = 1 := hk
    rw [exec_secKdCreate, execSecKdCreate, if_pos hd]
    refine congrArg Host.Outcome.next ((onReq_takes 0x72 _ h).trans ?_)
    rw [takenId_ident]
    dsimp only
    rw [mine, if_neg (by simp), if_neg (by simp [state])]
    rfl
  case bind =>
    refine ⟨fun hk hl => ?_, fun hk hp hl => ?_, fun hk hp hu hl => ?_⟩
    · have state : (kdOf (taken s r 0x73) kd).state = 0 := hk
      rw [exec_secKdBind, execSecKdBind, if_pos hd]
      refine congrArg Host.Outcome.next ((onReq_takes 0x73 _ h).trans ?_)
      dsimp only
      rw [hpf, if_neg (by simp), if_neg (by simp [state]; omega), if_pos state]
      refine (maskChange_makes (s := taken s r 0x73) hl).trans ?_
      rw [if_pos state]
      rfl
    · have state : (kdOf (taken s r 0x73) kd).state ≠ 0 := hk
      have port : (kdOf (taken s r 0x73) kd).port = fnPort (takenId s r 0x73).fn := hp
      rw [exec_secKdBind, execSecKdBind, if_pos hd]
      refine congrArg Host.Outcome.next ((onReq_takes 0x73 _ h).trans ?_)
      dsimp only
      rw [hpf, if_neg (by simp), if_neg (by simp [port]; omega), if_neg state]
      refine (maskChange_makes (s := taken s r 0x73) hl).trans ?_
      rw [if_neg state]
      rfl
    · have state : (kdOf (taken s r 0x74) kd).state ≠ 0 := hk
      have port : (kdOf (taken s r 0x74) kd).port = fnPort (takenId s r 0x74).fn := hp
      have users : kdUsers (taken s r 0x74) kd = 0 := hu
      rw [exec_secKdRetire, execSecKdRetire, if_pos hd]
      refine congrArg Host.Outcome.next ((onReq_takes 0x74 _ h).trans ?_)
      dsimp only
      rw [hpf, if_neg (by simp), if_neg (by simp [port]; omega), if_neg state, if_neg (by simp [users])]
      exact maskChange_makes (s := taken s r 0x74) hl
  case idRead =>
    rw [exec_secIdRead, execSecIdRead]
    exact congrArg Host.Outcome.next (onReq_takes 0x75 _ h)
  case ide =>
    intro k ho
    obtain ⟨hide, -⟩ := openSecured_keeps ho
    refine ⟨?_, fun y hy => ?_, fun hy => ?_, ?_⟩
    all_goals
      rw [exec_ideKmMessage, execIdeKmMessage, ho]
      refine congrArg Host.Outcome.next ?_
    · rw [← hide]
      rfl
    · rw [ideMove, onSec]
      dsimp only
      rw [hide, madjust, hy]
    · rw [ideMove, onSec]
      dsimp only
      rw [madjust, hide, hy, ← hide]
    · rw [← hide]
      rfl
  case tdisp =>
    obtain ⟨-, htdi⟩ := openSecured_keeps ho
    have state : tdiOf t f.key = tdiOf s f.key := by rw [tdiOf, tdiOf, htdi]
    refine ⟨fun hpf => ?_, fun hpf => ⟨fun hs => ?_, fun hs => ?_, fun hs => ?_, fun hs => ?_, ?_⟩⟩
    all_goals
      rw [exec_tdispMessage, execTdispMessage, ho]
      refine congrArg Host.Outcome.next ?_
    · exact if_pos hpf
    all_goals rw [hpf, if_neg Bool.false_ne_true]
    · rw [tdispMove_lock (state.trans hs), ← htdi]
      rfl
    · rw [tdispMove_start (state.trans hs), ← htdi]
      rfl
    · exact tdispMove_lock_out (by rwa [state])
    · exact tdispMove_start_out (by rwa [state])
    · rw [tdispMove_stop, ← htdi]
      rfl
  case ideNone => rw [exec_ideKmMessage, execIdeKmMessage, ho]
  case tdispNone => rw [exec_tdispMessage, execTdispMessage, ho]

end Sys2Proof.Machine
end

section
/-! PROOF. Hatch windows and hatch mode (R24, R353 to R364). -/

namespace Sys2Proof.Machine

section
variable {s t : State}

/-- Which lines are sealed or damaged, and what they hold, does not depend on the error log. -/
theorem hatchSealed_onLog (h : OnLog s t) (x : HatchPart) : hatchSealed t x = hatchSealed s x := by
  rw [show t = _ from h]
  rfl

theorem isDamaged_onLog (h : OnLog s t) (k line : Nat) : isDamaged t k line = isDamaged s k line := by
  rw [show t = _ from h]
  rfl

theorem hatchLine_onLog (h : OnLog s t) (k line : Nat) : hatchLine t k line = hatchLine s k line := by
  rw [show t = _ from h]
  rfl

/-- A read of lines of which none is sealed and none lost answers their bytes (R354). -/
theorem hatchData_reads {parts : List HatchPart} (p : Nat) (hs : ∀ x ∈ parts, hatchSealed s x = false)
    (hd : ∀ x ∈ parts, isDamaged s x.core x.line = false) : hatchData p parts false s =
      (.bytes ((parts.map (fun x => byteSlice (hatchLine s x.core x.line) x.off x.bytes.length)).flatten), s) := by
  have sealed : parts.find? (hatchSealed s) = none := List.find?_eq_none.mpr (fun x hx => by simp [hs x hx])
  unfold hatchData
  rw [sealed]
  dsimp only
  rw [List.find?_eq_none.mpr (fun x hx => by simp [hd x hx])]

/-- A read that meets a lost line, with none sealed, is aborted and recorded (R354). -/
theorem hatchData_loses {parts : List HatchPart} {x : HatchPart} {bad : Bool} (p : Nat) (hs : ∀ x ∈ parts, hatchSealed s x = false)
    (hx : parts.find? (fun x => bad || isDamaged s x.core x.line) = some x) : hatchData p parts bad s =
      (.abort, raiseErr (hatchLost s p x.core x.line) s) := by
  have sealed : parts.find? (hatchSealed s) = none := List.find?_eq_none.mpr (fun x hx => by simp [hs x hx])
  have lost : parts.find? (fun x => ! hatchSealed s x && (bad || isDamaged s x.core x.line)) = some x := by
    rw [← hx]
    exact List.find?_congr (fun y hy => by simp [hs y hy])
  unfold hatchData
  rw [sealed]
  dsimp only
  rw [lost]

/-- A read that meets a sealed line, with no other lost, answers its bytes and records it (R323). -/
theorem hatchData_seals {parts : List HatchPart} {x : HatchPart} (p : Nat) (hx : parts.find? (hatchSealed s) = some x)
    (hd : ∀ y ∈ parts, hatchSealed s y = false → isDamaged s y.core y.line = false) : hatchData p parts false s =
      (.bytes ((parts.map (fun x => byteSlice (hatchLine s x.core x.line) x.off x.bytes.length)).flatten),
        raiseErr (hatchDiscard p x.addr 2) s) := by
  have kept := raiseErr_onLog (hatchDiscard p x.addr 2) s
  unfold hatchData
  rw [hx]
  dsimp only
  simp only [hatchSealed_onLog kept, isDamaged_onLog kept, hatchLine_onLog kept]
  rw [List.find?_eq_none.mpr (fun y hy => by
    cases e : hatchSealed s y
    · simp [hd y hy e]
    · simp)]

/-- A bit set in a register of 32 bits is held. -/
theorem bitOf_setBit (v : Nat) {b : Nat} (hb : b < 32) : bitOf ((v ||| 2 ^ b) % 2 ^ 32) b = true := by
  have held : ((v ||| 2 ^ b) % 2 ^ 32).testBit b = true := by
    rw [Nat.testBit_mod_two_pow]
    simp [hb]
  rw [Nat.testBit_eq_decide_div_mod_eq] at held
  exact held

/-- The row of HATCH_MODE (R490). -/
theorem regRow_hatchMode : regRow 0x100000 = some (reg32 0x100000 .perPort 0 0xFFFFF) := by decide

/-- Lines of bays that are not fenced meet no fenced bay. -/
theorem any_fenced_of_clear {parts : List HatchPart} (h : ∀ x ∈ parts, (bayAt s (coreBay x.core)).fenced = false) :
    parts.any (fun x => (bayAt s (coreBay x.core)).fenced) = false := List.any_eq_false.mpr (fun x hx => by simp [h x hx])

/-- A port's own request makes hatch mode wanted of the bay (R357). -/
theorem hatchWanted_regOr (port : Port) (bay : Fin 20) (s : State) : hatchWanted (regOr port.idx 0x100000 (2 ^ bay.val) s) bay = true := by
  have bit : bitOf (regGet (regOr port.idx 0x100000 (2 ^ bay.val) s) port.idx 0x100000) bay = true := by
    rw [regGet_regOr regRow_hatchMode rfl]
    exact bitOf_setBit _ (by omega)
  unfold hatchWanted
  cases port with
  | a => exact Bool.or_eq_true_iff.mpr (Or.inl bit)
  | b => exact Bool.or_eq_true_iff.mpr (Or.inr bit)

/-- A request for a bay that no frame binds enters hatch mode (R357, R491). -/
theorem hatchModeRequest_enters (port : Port) (bay : Fin 20) (hr : responds s 0x100000 = true)
    (ho : ∀ x ∈ s.pavs, x.2.port ≠ port.idx → x.2.bays.contains bay.val = false) (hf : frameOf s bay = none)
    (hh : (bayAt s bay).hatch = false) (hn : (bayAt s bay).fenced = false) :
    exec (.hatchModeRequest port bay) s = .next (onBay bay (fun x => { x with
      hatch := true, hatchExit := false, hcDone := 0, hcSubmitted := 0, hcErrSeq := 0, hcErrCause := 0, hcFull := 0 })
      (onBay bay (fun x => { x with hatchExit := false }) (regOr port.idx 0x100000 (2 ^ bay.val) s))) := by
  have other : s.pavs.any (fun x => x.2.port ≠ port.idx && x.2.bays.contains bay.val) = false := by
    rw [List.any_eq_false]
    intro x hx
    by_cases e : x.2.port = port.idx
    · simp [e]
    · simpa [e] using ho x hx e
  rw [exec_hatchModeRequest, execHatchModeRequest]
  dsimp only
  rw [hr, if_neg (by simp), other, if_neg Bool.false_ne_true]
  refine congrArg Host.Outcome.next ((if_neg ?_).trans (if_neg ?_))
  · exact fun e => Option.isSome_iff_ne_none.mp e hf
  · rw [show hatchWanted (onBay bay (fun x => { x with hatchExit := false }) (regOr port.idx 0x100000 (2 ^ bay.val) s)) bay = true
      from hatchWanted_regOr port bay s, onBay, bayAt_setBay_self]
    simp [show (bayAt (regOr port.idx 0x100000 (2 ^ bay.val) s) bay) = bayAt s bay from rfl, hh, hn]

end

/-- Settles O46: an access goes by the window's quarter, the bay's queue and what its lines hold; the lemmas above say what a read of
lines returns and when a request enters hatch mode. -/
theorem hatchWindowsAndMode : Obligations.HatchWindowsAndMode := by
  unfold Obligations.HatchWindowsAndMode
  refine ⟨⟨fun port off len q bad s hq hl => ⟨fun hf => ?fenced, fun hf => ⟨fun hw => ?waits, fun hw =>
        ⟨fun hs hb hd => ?reads, fun hs x hx => ?loses, fun x hx hb hd => ?seals⟩⟩⟩,
      fun port off len q data bad s hq => ⟨fun ha => ⟨?areaRead, ?areaWrite⟩, fun hl => ⟨fun hw => ?writes, fun hw => ?writesLater⟩,
        fun hl ha => ⟨?beyondRead, ?beyondWrite⟩, fun hw => ?done, fun hw => ?doneLater⟩,
      fun port off len data bad s hq => ⟨?noRead, ?noDone, ?noWrite, ?noSubmit, ?noStore⟩,
      fun port off q data s hq => ⟨fun ha hl => ?submit, fun h1 h2 => ⟨fun hr => ?store, fun e c hr he => ?storeLater⟩⟩,
      fun port h s hh hp ha hf => ?held⟩,
    fun port n v s hr => ⟨fun hm => ?window, fun hm => ?noWindow⟩, fun port bay s hr ho hf hh hn => ?mode,
    fun port bay s hr => ⟨fun hh hw => ?exit, fun hw => ?stays⟩, fun bay s hh he hq hr => ?left⟩
  case fenced =>
    rw [exec_hatchRead, execHatchRead, hq]
    dsimp only
    rw [if_pos hl]
    exact if_pos (List.any_eq_true.mpr hf)
  case waits =>
    rw [exec_hatchRead, execHatchRead, hq]
    dsimp only
    rw [if_pos hl, any_fenced_of_clear hf, if_neg Bool.false_ne_true]
    exact if_pos hw
  case reads =>
    rw [exec_hatchRead, execHatchRead, hq]
    dsimp only
    rw [if_pos hl, any_fenced_of_clear hf, if_neg Bool.false_ne_true, hw, if_neg Bool.false_ne_true, hb, hatchData_reads port.idx hs hd]
  case loses =>
    rw [exec_hatchRead, execHatchRead, hq]
    dsimp only
    rw [if_pos hl, any_fenced_of_clear hf, if_neg Bool.false_ne_true, hw, if_neg Bool.false_ne_true, hatchData_loses port.idx hs hx]
  case seals =>
    rw [exec_hatchRead, execHatchRead, hq]
    dsimp only
    rw [if_pos hl, any_fenced_of_clear hf, if_neg Bool.false_ne_true, hw, if_neg Bool.false_ne_true, hb, hatchData_seals port.idx hx hd]
  case areaRead =>
    obtain ⟨near, -⟩ := Bool.and_eq_true_iff.mp ha
    rw [exec_hatchRead, execHatchRead, hq]
    dsimp only
    rw [if_neg (not_lt.mpr (of_decide_eq_true near))]
    exact if_pos ha
  case areaWrite =>
    obtain ⟨near, -⟩ := Bool.and_eq_true_iff.mp ha
    rw [exec_hatchWrite, execHatchWrite, hq]
    dsimp only
    rw [if_neg (not_lt.mpr (of_decide_eq_true near))]
    exact if_pos ha
  case writes =>
    rw [exec_hatchWrite, execHatchWrite, hq]
    dsimp only
    rw [if_pos hl, hatchLines]
    exact congrArg Host.Outcome.next (if_neg (ne_true_of_eq_false hw))
  case writesLater =>
    rw [exec_hatchWrite, execHatchWrite, hq]
    dsimp only
    rw [if_pos hl, hatchLines]
    exact congrArg Host.Outcome.next (if_pos hw)
  case beyondRead =>
    rw [exec_hatchRead, execHatchRead, hq]
    dsimp only
    rw [if_neg (not_lt.mpr hl)]
    exact if_neg (ne_true_of_eq_false ha)
  case beyondWrite =>
    rw [exec_hatchWrite, execHatchWrite, hq]
    dsimp only
    rw [if_neg (not_lt.mpr hl)]
    exact if_neg (ne_true_of_eq_false ha)
  case done =>
    rw [exec_hcDoneRead, execHcDoneRead, hq]
    exact if_neg (ne_true_of_eq_false hw)
  case doneLater =>
    rw [exec_hcDoneRead, execHcDoneRead, hq]
    exact if_pos hw
  case noRead => rw [exec_hatchRead, execHatchRead, hq]
  case noDone => rw [exec_hcDoneRead, execHcDoneRead, hq]
  case noWrite => rw [exec_hatchWrite, execHatchWrite, hq]
  case noSubmit => rw [exec_hcSubmitHeldWrite, execHcSubmitHeldWrite, hq]
  case noStore => rw [exec_hcStoreWrite, execHcStoreWrite, hq]
  case submit =>
    rw [exec_hcSubmitHeldWrite, execHcSubmitHeldWrite, hq]
    exact if_neg (by rw [ha]; simpa using hl)
  case store =>
    rw [exec_hcStoreWrite, execHcStoreWrite, hq]
    dsimp only
    rw [if_neg (by omega), hr]
    rfl
  case storeLater =>
    rw [exec_hcStoreWrite, execHcStoreWrite, hq]
    dsimp only
    rw [if_neg (by omega), hr, Option.any_some, he]
    rfl
  case held =>
    have arrive : h.arrive.any (fun t => (tileOf { s with hatchHeld := [] } t.1 t.2).state = .failed) = false := by
      cases e : h.arrive with
      | none => rfl
      | some t => exact decide_eq_false (ha t e)
    rw [exec_heldHatchWriteApply, execHeldHatchWriteApply, releaseHatch, hh, releaseHeld]
    dsimp only
    rw [if_neg (by simp [hp, heldBefore]), arrive, if_neg Bool.false_ne_true, hf]
    rfl
  case window =>
    rw [exec_hatWindowWrite, execHatWindowWrite, hr]
    exact if_pos hm
  case noWindow =>
    rw [exec_hatWindowWrite, execHatWindowWrite, hr]
    exact if_neg (ne_true_of_eq_false hm)
  case mode =>
    refine ⟨_, hatchModeRequest_enters port bay hr ho hf hh hn, ?_, ?_, ?_⟩
    · rw [onBay, bayAt_setBay_self, onBay, bayAt_setBay_self]
      rfl
    · exact regGet_regOr regRow_hatchMode rfl _ _ _
    · rfl
  case exit =>
    rw [exec_hatchExitRequest, execHatchExitRequest, hr, if_neg (by simp)]
    exact congrArg Host.Outcome.next (if_pos (Bool.and_eq_true_iff.mpr ⟨hh, by rw [hw]; rfl⟩))
  case stays =>
    rw [exec_hatchExitRequest, execHatchExitRequest, hr, if_neg (by simp)]
    exact congrArg Host.Outcome.next (if_neg (by rw [hw]; simp))
  case left =>
    rw [exec_hatchModeExit, execHatchModeExit]
    exact if_pos (by simp [hh, he, hq, hr])

end Sys2Proof.Machine
end

section
/-! PROOF. Hatch commands (R358 to R363). -/

namespace Sys2Proof.Machine

section
variable {s : State} {bay : Nat} {bad : Option HcBad} {e : HcEntry} {q : List HcEntry}

/-- The command at the head of a bay's queue starts when no check refuses it (R361). -/
theorem hcStart_starts (n : Nat) (hq : (bayAt s bay).hcQueue = e :: q)
    (hc : hcCheck (onBay bay (fun x => { x with hcQueue := q }) s) e.port bay e.op false e.cmd = 0) :
    hcStart bay bad (n + 1) s =
      let y := hcPerform e.port bay e.op e.cmd bad (onBay bay (fun x => { x with hcQueue := q }) s)
      onBay bay (fun x => { x with hcRun := some (e, y.1) }) y.2 := by
  rw [hcStart, hq]
  exact if_neg (by simp [hc])

/-- The command at the head of a bay's queue completes at once when a check refuses it (R361). -/
theorem hcStart_refuses (n : Nat) (hq : (bayAt s bay).hcQueue = e :: q)
    (hc : hcCheck (onBay bay (fun x => { x with hcQueue := q }) s) e.port bay e.op false e.cmd ≠ 0) :
    hcStart bay bad (n + 1) s = hcStart bay bad n (hcFinish bay e
      (hcCheck (onBay bay (fun x => { x with hcQueue := q }) s) e.port bay e.op false e.cmd)
      (onBay bay (fun x => { x with hcQueue := q }) s)) := by
  rw [hcStart, hq]
  exact if_pos hc

/-- An unallocated OP is refused (R361). -/
theorem hcCheck_unallocated {p op : Nat} {stored : Bool} (c : HcCmd) (h : hcAllocated op stored = false) :
    hcCheck s p bay op stored c = if (bayAt s bay).hatch then 2 else 1 := by
  unfold hcCheck
  rw [h]
  cases (bayAt s bay).hatch <;> simp

/-- The entry a submitted command makes, and the bay once it is in the queue (R358). -/
def hcSubmission (s : State) (op : Nat) (port : Port) (bay : Nat) (c : HcCmd) : HcEntry :=
  ⟨((bayAt s bay).hcSubmitted + 1) % 2 ^ 32, port.idx, op, c⟩

def hcQueued (e : HcEntry) (bay : Nat) (s : State) : State :=
  onBay bay (fun y => { y with hcSubmitted := e.seq, hcQueue := y.hcQueue ++ [e], hcHeld := [] }) s

/-- A command joins the queue, and starts there at once when none runs (R358). -/
theorem submitHc_queues {op : Nat} {port : Port} {c : HcCmd} (h : (bayAt s bay).hcQueue.length + b2n (bayAt s bay).hcRun.isSome < 64) :
    submitHc op port bay c bad s = if (bayAt s bay).hcRun.isSome then hcQueued (hcSubmission s op port bay c) bay s
      else hcStart bay bad ((bayAt s bay).hcQueue.length + 1) (hcQueued (hcSubmission s op port bay c) bay s) := by
  unfold submitHc
  exact if_neg (by omega)

/-- What a command does to an idle bay, a busy one and a full one (R358, R361). -/
theorem submitHc_cases (op : Nat) (port : Port) (bay : Nat) (c : HcCmd) (bad : Option HcBad) (s : State) :
    let e := hcSubmission s op port bay c
    let t := onBay bay (fun y => { y with hcQueue := [] }) (hcQueued e bay s)
    let r := hcPerform port.idx bay op c bad t
    ((bayAt s bay).hcRun = none → (bayAt s bay).hcQueue = [] → hcCheck t port.idx bay op false c = 0 →
      submitHc op port bay c bad s = onBay bay (fun y => { y with hcRun := some (e, r.1) }) r.2) ∧
    ((bayAt s bay).hcRun = none → (bayAt s bay).hcQueue = [] → hcCheck t port.idx bay op false c ≠ 0 →
      submitHc op port bay c bad s = hcFinish bay e (hcCheck t port.idx bay op false c) t) ∧
    ((bayAt s bay).hcRun.isSome = true → (bayAt s bay).hcQueue.length < 63 → submitHc op port bay c bad s = hcQueued e bay s) ∧
    (64 ≤ (bayAt s bay).hcQueue.length + b2n (bayAt s bay).hcRun.isSome → submitHc op port bay c bad s =
      onBay bay (fun y => { y with hcFull := (y.hcFull + 1) % 2 ^ 32, hcHeld := [] }) s) := by
  have idle (hr : (bayAt s bay).hcRun = none) (hq : (bayAt s bay).hcQueue = []) : submitHc op port bay c bad s =
      hcStart bay bad 1 (hcQueued (hcSubmission s op port bay c) bay s) := by
    rw [submitHc_queues (by rw [hr, hq]; decide), hr, hq]
    rfl
  have head (hq : (bayAt s bay).hcQueue = []) :
      (bayAt (hcQueued (hcSubmission s op port bay c) bay s) bay).hcQueue = [hcSubmission s op port bay c] := by
    rw [hcQueued, onBay, bayAt_setBay_self, hq]
    rfl
  refine ⟨fun hr hq hc => ?_, fun hr hq hc => ?_, fun hr hl => ?_, fun hl => if_pos hl⟩
  · rw [idle hr hq]
    exact hcStart_starts 0 (head hq) hc
  · rw [idle hr hq]
    exact hcStart_refuses 0 (head hq) hc
  · rw [submitHc_queues (by rw [hr, b2n, if_pos rfl]; omega)]
    exact if_pos hr

/-- An unallocated OP takes its SEQ and is refused on an idle bay (R358, R361). -/
theorem submitHc_unallocated {op : Nat} (port : Port) (c : HcCmd) (hr : (bayAt s bay).hcRun = none) (hq : (bayAt s bay).hcQueue = [])
    (ha : hcAllocated op false = false) : submitHc op port bay c bad s = hcFinish bay (hcSubmission s op port bay c)
      (if (bayAt s bay).hatch then 2 else 1)
      (onBay bay (fun y => { y with hcQueue := [] }) (hcQueued (hcSubmission s op port bay c) bay s)) := by
  have cause : hcCheck (onBay bay (fun y => { y with hcQueue := [] }) (hcQueued (hcSubmission s op port bay c) bay s)) port.idx bay op
      false c = if (bayAt s bay).hatch then 2 else 1 := by
    rw [hcCheck_unallocated c ha, onBay, bayAt_setBay_self, hcQueued, onBay, bayAt_setBay_self]
  obtain ⟨-, refuses, -, -⟩ := submitHc_cases op port bay c bad s
  have refused := refuses hr hq (by rw [cause]; split <;> decide)
  rwa [cause] at refused

end

/-- Settles O47: every command goes by `submitHc`; the twelve of the list differ in their OP alone. -/
theorem hatchCommandsRun : Obligations.HatchCommandsRun := by
  unfold Obligations.HatchCommandsRun
  refine ⟨fun x hx port bay c bad s => ?_, fun port bay op c s => ?_, fun bay bad e cause s hr => ?_⟩
  · have submits : exec (x.2 port bay c bad) s = .next (submitHc x.1 port bay c bad s) := by
      simp only [List.mem_cons, List.not_mem_nil, or_false] at hx
      obtain rfl | rfl | rfl | rfl | rfl | rfl | rfl | rfl | rfl | rfl | rfl | rfl := hx <;> rfl
    obtain ⟨starts, refuses, waits, full⟩ := submitHc_cases x.1 port bay c bad s
    exact ⟨fun hr hq hc => submits.trans (congrArg _ (starts hr hq hc)),
      fun hr hq hc => submits.trans (congrArg _ (refuses hr hq hc)),
      fun hr hl => submits.trans (congrArg _ (waits hr hl)), fun hl => submits.trans (congrArg _ (full hl))⟩
  · intro b e queued ha
    have submits : exec (.hatchUnallocatedOp port bay op c) s = .next (submitHc op.toNat port bay c none s) := by
      rw [exec_hatchUnallocatedOp, execHatchUnallocatedOp, ha]
      rfl
    obtain ⟨-, -, waits, full⟩ := submitHc_cases op.toNat port bay c none s
    exact ⟨fun hr hq => submits.trans (congrArg _ (submitHc_unallocated port c hr hq ha)),
      fun hr hl => submits.trans (congrArg _ (waits hr hl)), fun hl => submits.trans (congrArg _ (full hl))⟩
  · refine ⟨fun ht => ?_, fun ht => ?_⟩
    · rw [exec_hatchCommandDone, execHatchCommandDone, hr]
      exact if_pos ht
    · rw [exec_hatchCommandDone, execHatchCommandDone, hr]
      exact if_neg (by omega)

end Sys2Proof.Machine
end

section
/-! PROOF. State pushes (R157, R169, R378 to R383). -/

namespace Sys2Proof.Machine

section
variable {s t : State}

/-- The only element of a list that passes a test is the one found. -/
theorem find?_of_unique {α : Type} {p : α → Bool} {x : α} {l : List α} (hx : x ∈ l) (hp : p x = true)
    (hu : ∀ y ∈ l, p y = true → y = x) : l.find? p = some x := by
  cases h : l.find? p with
  | none => exact absurd hp (List.find?_eq_none.mp h x hx)
  | some y => rw [hu y (List.mem_of_find?_eq_some h) (List.find?_some h)]

/-- A message of a session's current generation is not stale (R157). -/
theorem staleMsg_of_gen {y : Stream} {m : Cell} {x : Session} (hx : mget? s.sessions y.sess = some x) :
    staleMsg s y m = decide (x.gen ≠ m.gen) := by rw [staleMsg, hx]

/-- A message of a push that stands and whose session it names is not dropped (R157). -/
theorem push_stands {y : Stream} {m : Cell} {x : Session} (ha : y.aborted = false) (hx : mget? s.sessions y.sess = some x)
    (hg : x.gen = m.gen) : ¬ (y.aborted || staleMsg s y m) = true := by
  rw [ha, staleMsg_of_gen hx]
  simp [hg]

/-- A tile of a push that stands is checked against the push, and then opened (R379). -/
theorem pushData_checks {c : Fin 4} {m : Cell} {y : Stream} {x : Session} (hm : takeMsg c 4 s = some (m, t))
    (hy : findStream t false c m = some y) (ha : y.aborted = false) (hx : mget? t.sessions y.sess = some x) (hg : x.gen = m.gen) :
    exec (.pushData c) s = .next (if tileHolds (pavAt t x.pav).desc x.lmax (leField m.payload 0 4) y.first y.count = true
      then takeTile (touchStream y t).1 (sessObj y.sess x) x.kd m (touchStream y t).2
      else abortStream (touchStream y t).1 6 true (touchStream y t).2) := by
  have session : mget? (touchStream y t).2.sessions (touchStream y t).1.sess = some x := hx
  have holds : tileHolds (pavAt (touchStream y t).2 x.pav).desc x.lmax (leField m.payload 0 4) (touchStream y t).1.first
      (touchStream y t).1.count = tileHolds (pavAt t x.pav).desc x.lmax (leField m.payload 0 4) y.first y.count := rfl
  rw [exec_pushData, execPushData, hm]
  dsimp only
  rw [hy]
  refine (if_neg (push_stands (s := (touchStream y t).2) (y := (touchStream y t).1) ha hx hg)).trans ?_
  rw [session]
  dsimp only
  rw [holds]
  cases tileHolds (pavAt t x.pav).desc x.lmax (leField m.payload 0 4) y.first y.count <;> rfl

/-- The end of a push that stands closes it, and charges a whole one (R381). -/
theorem pushEnd_checks {c : Fin 4} {m : Cell} {y : Stream} {x : Session} (hm : takeMsg c 5 s = some (m, t))
    (hy : findStream t false c m = some y) (ha : y.aborted = false) (hx : mget? t.sessions y.sess = some x) (hg : x.gen = m.gen) :
    let p := sessPort y.sess
    exec (.pushEnd c) s = .next (if pushWhole t y x = true then regAdd p 0xD8310 1 (closeStream y (applyCharge (some {
      port := p, tenant := x.tenant, tokensIn := y.count, cost := y.count * (tenantOf t p x.tenant).inCost }) t))
      else abortStream y 9 true (closeStream y t)) := by
  dsimp only
  rw [exec_pushEnd, execPushEnd, hm]
  dsimp only
  rw [hy]
  dsimp only
  rw [if_neg (push_stands ha hx hg), hx]
  dsimp only
  cases pushWhole t y x <;> rfl

/-- A stream of a port and tag that stands, the only one of them, is the one whose idle limit has passed (R382). -/
theorem idle_stream {c : Fin 4} {tag : Nat} {y : Stream} (hy : y ∈ s.streams) (hc : y.cport = c.val) (ht : y.tag = tag)
    (hl : y.lastAt + streamIdle s (sessPort y.sess) ≤ s.time) (hu : ∀ z ∈ s.streams, z.cport = c.val → z.tag = tag → z = y)
    (ho : (y.hand && y.aborted) = false) :
    s.streams.find? (fun y => y.cport = c.val && y.tag = tag && ! (y.hand && y.aborted)
      && decide (y.lastAt + streamIdle s (sessPort y.sess) ≤ s.time)) = some y := by
  refine find?_of_unique hy (by simp only [hc, ht, ho, hl]; decide) (fun z hz hp => hu z hz ?_ ?_) <;> simp_all

end

/-- Settles O49: a row takes its message and its stream; then each check of the stream and its session says what becomes of it. -/
theorem pushesOpenLandAndEnd : Obligations.PushesOpenLandAndEnd := by
  unfold Obligations.PushesOpenLandAndEnd
  refine ⟨fun c m s t hm => ⟨fun r hr hn => ?refused, fun hr => ?stale, fun hr => ?opens⟩, fun x hx c m s t hm hy => ?stray,
    fun c m y x s t hm hy => ⟨fun h => ?dataDrop, fun ha hx hg => ⟨fun hh => ?dataOther, fun hh => ?data⟩⟩,
    fun c m y x s t hm hy => ⟨fun h => ?endDrop, fun ha hx hg => ⟨fun hw => ?whole, fun hw => ?torn⟩⟩,
    fun c m y s t hm hy => ⟨fun ha => ?abort, fun ha => ?abortDrop⟩,
    fun c tag y s hy hc ht hl hu => ⟨fun ha => ?idle, fun ha hh => ?idleOver⟩⟩
  case refused =>
    rw [exec_pushOpen, execPushOpen, hm]
    dsimp only
    rw [hr]
    dsimp only
    rw [if_neg hn]
  case stale =>
    rw [exec_pushOpen, execPushOpen, hm]
    dsimp only
    rw [hr]
    rfl
  case opens =>
    rw [exec_pushOpen, execPushOpen, hm]
    dsimp only
    rw [hr]
    exact ⟨_, rfl, rfl, rfl, rfl, rfl, rfl, rfl, rfl, rfl⟩
  case stray =>
    simp only [List.mem_cons, List.not_mem_nil, or_false] at hx
    obtain rfl | rfl | rfl := hx
    · rw [exec_pushData, execPushData, hm]
      dsimp only
      rw [hy]
    · rw [exec_pushEnd, execPushEnd, hm]
      dsimp only
      rw [hy]
    · rw [exec_pushAbort, execPushAbort, hm]
      dsimp only
      rw [hy]
  case dataDrop =>
    rw [exec_pushData, execPushData, hm]
    dsimp only
    rw [hy]
    exact if_pos (Bool.or_eq_true_iff.mpr h)
  case dataOther => exact (pushData_checks hm hy ha hx hg).trans (congrArg _ (if_neg (ne_true_of_eq_false hh)))
  case data => exact (pushData_checks hm hy ha hx hg).trans (congrArg _ (if_pos hh))
  case endDrop =>
    rw [exec_pushEnd, execPushEnd, hm]
    dsimp only
    rw [hy]
    exact if_pos (Bool.or_eq_true_iff.mpr h)
  case whole => exact (pushEnd_checks hm hy ha hx hg).trans (congrArg _ (if_pos hw))
  case torn => exact (pushEnd_checks hm hy ha hx hg).trans (congrArg _ (if_neg (ne_true_of_eq_false hw)))
  case abort =>
    rw [exec_pushAbort, execPushAbort, hm]
    dsimp only
    rw [hy]
    exact if_neg (ne_true_of_eq_false ha)
  case abortDrop =>
    rw [exec_pushAbort, execPushAbort, hm]
    dsimp only
    rw [hy]
    exact if_pos ha
  case idle =>
    rw [exec_streamIdleTimeout, execStreamIdleTimeout, idle_stream hy hc ht hl hu (by rw [ha, Bool.and_false])]
    dsimp only
    rw [ha, if_neg Bool.false_ne_true]
    cases y.hand <;> rfl
  case idleOver =>
    rw [exec_streamIdleTimeout, execStreamIdleTimeout, idle_stream hy hc ht hl hu (by rw [hh, Bool.false_and])]
    exact if_pos ha

end Sys2Proof.Machine
end

section
/-! PROOF. Hand-overs and pool transactions (R139, R140, R156, R169, R384 to R387). -/

namespace Sys2Proof.Machine

section
variable {s t : State}

/-- An offer that nothing refuses comes from an entry (R385). -/
theorem handOffer_accepts {c : Fin 4} {tables : Bool} {m : Cell} {e : Nat × Nat} (hm : takeMsg c 8 s = some (m, t))
    (hr : handRefused t m tables = none) (he : handEntry t m.src = some e) :
    exec (.handOffer c tables) s = .next (sendMsg c 0 9 m.src m.tag m.gen [] (regAdd (fnPort e.1) 0xD831C 1 (handTake c m t))) := by
  rw [exec_handOffer, execHandOffer, hm]
  dsimp only
  rw [hr]
  dsimp only
  rw [he]

/-- A tile of a hand-over whose session stands goes by its generation (R157, R385). -/
theorem handData_checks {c : Fin 4} {m : Cell} {y : Stream} {x : Session} (hm : takeMsg c 0x0B s = some (m, t))
    (hy : findStream t true c m = some y) (hx : mget? t.sessions y.sess = some x) :
    exec (.handData c) s = .next (if x.gen ≠ m.gen then dropCells (touchStream y t).1 m (touchStream y t).2
      else takeTile (touchStream y t).1 (sessObj y.sess x) x.kd m (touchStream y t).2) := by
  have session : mget? (touchStream y t).2.sessions (touchStream y t).1.sess = some x := hx
  rw [exec_handData, execHandData, hm]
  dsimp only
  rw [hy]
  dsimp only
  rw [session]
  dsimp only
  rw [staleMsg_of_gen session]
  by_cases h : x.gen = m.gen
  · rw [if_neg (by simpa using h), if_neg (by simpa using h)]
    rfl
  · rw [if_pos (by simpa using h), if_pos h]

/-- An answer to a pool read goes by the record its transaction reads (R326, R387). -/
theorem poolReadData_checks {c : Fin 4} {m : Cell} {x : PoolTx} (hm : takeMsg c 0x13 s = some (m, t))
    (hx : poolOf t c m.tag = some x) (hw : x.write = false) :
    exec (.poolReadData c) s = .next (if m.payload.length < 256 * x.gran then failPool x t
      else (((spotRead t (x.obj / 2 ^ 64) (tileOf t x.obj x.tile).lower).map
          (fun y => openRecord t y (m.payload.take (256 * x.gran)))).elim
        (settle x.obj (failTransfer x.obj x.tile 4 (endPool x t))) (fun o => o.elim
          (fun k => settle x.obj (failTransfer x.obj x.tile k (endPool x (if k = 5 then countRefusal x.obj t else t))))
          (fun bs => fetchOut x.obj x.tile bs (endPool x t))))) := by
  rw [exec_poolReadData, execPoolReadData, hm]
  dsimp only
  rw [hx]
  dsimp only
  rw [hw, if_neg Bool.false_ne_true]
  split
  · rfl
  · generalize (spotRead t (x.obj / 2 ^ 64) (tileOf t x.obj x.tile).lower).map _ = o
    cases o with
    | none => rfl
    | some o => cases o <;> rfl

end

/-- Settles O50: a row takes its message, and finds the stream, the job or the transaction that the message answers; what those say
decides. -/
theorem handOversAndPool : Obligations.HandOversAndPool := by
  unfold Obligations.HandOversAndPool
  refine ⟨⟨fun c tables m s t hm => ⟨fun r hr => ?refused, fun e hr he => handOffer_accepts hm hr he⟩,
      fun c m y x s t hm hy hx => ⟨fun hg => ?data, fun hg => ?dataDrop⟩, fun x hx c m s t hm hy => ?stray,
      fun c m y s t hm hy => ?ended, fun c m key node tag fence since id posted sk x s t hm hj hs => ?accept,
      fun c m key node tag fence since id posted s t hm hj => ⟨fun hr => ?noSlot, fun hr => ?length, fun h1 h2 => ?peer⟩,
      fun c m key node tag fence since id posted s t hm hj => ?held, fun c m y s t hm hy => ?abort,
      fun c m key node tag fence since id posted s t hm hy => ⟨fun hj => ?cut, fun hj => ?left⟩,
      fun c key node tag fence since id posted s hy hj => ?idle⟩,
    fun c m x s t hm hx => ⟨fun part hp => ?snapAck, fun hp hw => ?ack⟩,
    fun c m x s t hm hx hw => ⟨fun hl => ?short, fun hl => ⟨fun hr => ?lost, fun y bs hr ho => ?fetched, fun y k hr ho => ?sealed⟩⟩,
    fun c m x s t hm hx => ?error, fun x hx c m s t hm ho => ?none, fun tag x s hx ht hu hl => ?timeout,
    fun x s => ⟨fun hp hw hr => ?fails, fun part hp => ?snapFails⟩⟩
  case refused =>
    rw [exec_handOffer, execHandOffer, hm]
    dsimp only
    rw [hr]
  case data => exact (handData_checks hm hy hx).trans (congrArg _ (if_neg (not_not_intro hg)))
  case dataDrop => exact (handData_checks hm hy hx).trans (congrArg _ (if_pos hg))
  case stray =>
    simp only [List.mem_cons, List.not_mem_nil, or_false] at hx
    obtain rfl | rfl := hx
    · rw [exec_handData, execHandData, hm]
      dsimp only
      rw [hy]
    · rw [exec_handEnd, execHandEnd, hm]
      dsimp only
      rw [hy]
  case ended =>
    rw [exec_handEnd, execHandEnd, hm]
    dsimp only
    rw [hy]
  case accept =>
    rw [exec_handAccept, execHandAccept, hm]
    dsimp only
    rw [hj]
    dsimp only
    rw [hs] <;> rfl
  case noSlot =>
    rw [exec_handRefuse, execHandRefuse, hm]
    dsimp only
    rw [hj]
    exact if_pos hr
  case length =>
    rw [exec_handRefuse, execHandRefuse, hm]
    dsimp only
    rw [hj]
    exact (if_neg (by omega)).trans (if_pos hr)
  case peer =>
    rw [exec_handRefuse, execHandRefuse, hm]
    dsimp only
    rw [hj]
    exact (if_neg h1).trans (if_neg h2)
  case held =>
    rw [exec_handDone, execHandDone, hm]
    dsimp only
    rw [hj]
  case abort =>
    rw [exec_handAbort, execHandAbort, hm]
    dsimp only
    rw [hy]
  case cut | left =>
    rw [exec_handAbort, execHandAbort, hm]
    dsimp only
    rw [hy, hj]
    rfl
  case idle =>
    have none_ : s.streams.find? (fun y => y.cport = c.val && y.tag = tag && ! (y.hand && y.aborted)
        && decide (y.lastAt + streamIdle s (sessPort y.sess) ≤ s.time)) = none := by
      refine List.find?_eq_none.mpr (fun y h => ?_)
      by_cases e : y.cport = c.val
      · simp [hy y h e]
      · simp [e]
    rw [exec_streamIdleTimeout, execStreamIdleTimeout, none_]
    dsimp only
    generalize hf : List.find? _ s.jobs = found
    have offered : found = some (key, .handOver id c node tag fence since false posted) := hf.symm.trans hj
    rw [offered]
    rfl
  case snapAck =>
    rw [exec_poolWriteAck, execPoolWriteAck, hm]
    dsimp only
    rw [hx]
    dsimp only
    rw [hp]
  case ack =>
    rw [exec_poolWriteAck, execPoolWriteAck, hm]
    dsimp only
    rw [hx]
    dsimp only
    rw [hp]
    exact if_pos hw
  case short => exact (poolReadData_checks hm hx hw).trans (congrArg _ (if_pos hl))
  case lost =>
    refine (poolReadData_checks hm hx hw).trans (congrArg _ ((if_neg (by omega)).trans ?_))
    rw [hr]
    rfl
  case fetched | sealed =>
    refine (poolReadData_checks hm hx hw).trans (congrArg _ ((if_neg (by omega)).trans ?_))
    rw [hr, Option.map_some, ho]
    rfl
  case error =>
    rw [exec_poolError, execPoolError, hm]
    dsimp only
    rw [hx]
  case none =>
    simp only [List.mem_cons, List.not_mem_nil, or_false] at hx
    obtain rfl | rfl | rfl := hx
    · rw [exec_poolWriteAck, execPoolWriteAck, hm]
      dsimp only
      rw [ho]
    · rw [exec_poolReadData, execPoolReadData, hm]
      dsimp only
      rw [ho]
    · rw [exec_poolError, execPoolError, hm]
      dsimp only
      rw [ho]
  case timeout =>
    rw [exec_poolTimeout, execPoolTimeout, find?_of_unique (x := x) hx (by simp only [ht, hl]; decide)
      (fun z hz hp => hu z hz (of_decide_eq_true (Bool.and_eq_true_iff.mp hp).1))]
  case fails =>
    unfold failPool
    rw [hp]
    dsimp only
    rw [hw, hr]
    rfl
  case snapFails =>
    unfold failPool
    rw [hp]

end Sys2Proof.Machine
end

section
/-! PROOF. Profile commands (R398 to R402). -/

namespace Sys2Proof.Machine

section
variable {s : State} {src : ProfileSource}

/-- What a profile command's answer leaves as it was: everything but its port's TRL_STATUS and the reply. -/
def OnTrl (s t : State) : Prop := { t with regs := s.regs, reply := s.reply } = s

theorem OnTrl.trans {s t u : State} (h : OnTrl s t) (g : OnTrl t u) : OnTrl s u := by
  unfold OnTrl at *
  rw [← h, ← g]

theorem trlDone_onTrl (p code : Nat) (s : State) : OnTrl s (trlDone p code s) := by
  unfold trlDone
  split <;> rfl

theorem foldl_trlDone_onTrl (code : Nat) (ps : List Nat) (s : State) : OnTrl s (ps.foldl (fun s p => trlDone p code s) s) := by
  induction ps generalizing s with
  | nil => rfl
  | cons p ps ih => exact (trlDone_onTrl p code s).trans (ih _)

theorem OnTrl.eq {t : State} (h : OnTrl s t) : { t with regs := s.regs, reply := s.reply } = s := h
theorem OnTrl.store {t : State} (h : OnTrl s t) : t.store = s.store := (congrArg State.store h.eq :)
theorem OnTrl.time {t : State} (h : OnTrl s t) : t.time = s.time := (congrArg State.time h.eq :)

theorem OnTrl.responds {t : State} (h : OnTrl s t) (off : Nat) : responds t off = responds s off := by
  rw [Machine.responds, Machine.responds, show t.hub = s.hub from (congrArg State.hub h.eq :),
    show t.trellis = s.trellis from (congrArg State.trellis h.eq :)]

theorem OnTrl.allowed {t : State} (h : OnTrl s t) (p : Nat) : trlAllowed t p = trlAllowed s p := by
  rw [trlAllowed, trlAllowed, show t.trellis = s.trellis from (congrArg State.trellis h.eq :)]

/-- A command of an authorised source runs when none runs (R399). -/
theorem trlCommand_runs (body : Nat → State → State) (hr : responds s 0x30000 = true) (ha : trlAllowed s (profSrc src) = true)
    (hn : s.store.running = none) : trlCommand src body s = body (profSrc src) s := by
  rw [trlCommand, hr, if_neg (by simp), ha, if_neg (by simp), hn]
  rfl

/-- A command of a source without authority, or while another runs, is refused (R398, R399). -/
theorem trlCommand_unauthorised (body : Nat → State → State) (hr : responds s 0x30000 = true)
    (ha : trlAllowed s (profSrc src) = false) : trlCommand src body s = trlRefuse (profSrc src) 2 s := by
  rw [trlCommand, hr, if_neg (by simp), ha]
  rfl

theorem trlCommand_busy (body : Nat → State → State) (hr : responds s 0x30000 = true) (ha : trlAllowed s (profSrc src) = true)
    (hn : s.store.running.isSome = true) : trlCommand src body s = trlRefuse (profSrc src) 1 s := by
  rw [trlCommand, hr, if_neg (by simp), ha, if_neg (by simp)]
  exact if_pos hn

/-- What a select does once it stands: it runs when every consenting port has joined, and waits otherwise (R402). -/
def standSelect (p : Nat) (c : ProfileCmd) (s : State) : State :=
  if (consentPorts s).all (fun q => c.joined.contains q) then
    c.joined.foldl (fun s p => trlBusy p s) { s with
      hub := { s.hub with quiesce := true }
      store := { s.store with waiting := none, running := some { c with since := s.time, quiescing := true } } }
  else if p = 2 then { s with store := { s.store with waiting := some c } }
  else regSet p 0x30014 (2 ^ 30) { s with store := { s.store with waiting := some c } }

/-- A select of the slot that waits joins it; one of another slot, or the first, starts anew (R402). -/
theorem selectWarm_eq (slot : Fin 4) (hr : responds s 0x30000 = true) (ha : trlAllowed s (profSrc src) = true)
    (hn : s.store.running = none) : exec (.selectWarm src slot) s = .next
      (let t := if (s.store.waiting.filter (fun c => c.slot = slot.val)).isNone then dropWaiting s else s
       standSelect (profSrc src) ((((s.store.waiting.filter (fun c => c.slot = slot.val)).map
        (fun c => { c with joined := c.joined.filter (· ≠ profSrc src) ++ [profSrc src] })).getD
          { source := profSrc src, op := 3, slot := slot, since := t.time, joined := [profSrc src] })) t) := by
  rw [exec_selectWarm, execSelectWarm, trlCommand_runs _ hr ha hn]
  generalize s.store.waiting.filter (fun c => c.slot = slot.val) = old
  cases old <;> rfl

/-- A select that every consenting port has joined runs; another waits (R402). -/
theorem standSelect_runs {p : Nat} {c : ProfileCmd} (h : ∀ q ∈ consentPorts s, q ∈ c.joined) :
    standSelect p c s = c.joined.foldl (fun s p => trlBusy p s) { s with
      hub := { s.hub with quiesce := true }
      store := { s.store with waiting := none, running := some { c with since := s.time, quiescing := true } } } :=
  if_pos (List.all_eq_true.mpr (fun q hq => List.contains_iff_mem.mpr (h q hq)))

theorem standSelect_waits {p : Nat} {c : ProfileCmd} (h : ∃ q ∈ consentPorts s, q ∉ c.joined) :
    (standSelect p c s).store = { s.store with waiting := some c } ∧
      { standSelect p c s with store := s.store, regs := s.regs } = s := by
  obtain ⟨q, hq, hc⟩ := h
  have lone : ¬ (consentPorts s).all (fun q => c.joined.contains q) = true := fun e =>
    hc (List.contains_iff_mem.mp (List.all_eq_true.mp e q hq))
  rw [standSelect, if_neg lone]
  split
  · exact ⟨rfl, rfl⟩
  · exact ⟨rfl, rfl⟩

/-- The sources of a select that waits end with CONSENT_LOST (R402). -/
theorem dropWaiting_some {w : ProfileCmd} (h : s.store.waiting = some w) : dropWaiting s =
    w.joined.foldl (fun s p => trlDone p 0x10 s) { s with store := { s.store with waiting := none } } := by
  rw [dropWaiting, h]
  rfl

theorem dropWaiting_none (h : s.store.waiting = none) : dropWaiting s = s := by rw [dropWaiting, h]

/-- A select stands when none of another slot waits before it (R402). -/
theorem selectWarm_stands {slot : Fin 4} {c : ProfileCmd} (hr : responds s 0x30000 = true) (ha : trlAllowed s (profSrc src) = true)
    (hn : s.store.running = none)
    (hc : s.store.waiting = none ∧ c = { source := profSrc src, op := 3, slot := slot, since := s.time, joined := [profSrc src] } ∨
      ∃ w, s.store.waiting = some w ∧ w.slot = slot ∧
        c = { w with joined := w.joined.filter (· ≠ profSrc src) ++ [profSrc src] }) :
    exec (.selectWarm src slot) s = .next (standSelect (profSrc src) c s) := by
  rw [selectWarm_eq slot hr ha hn]
  obtain ⟨hw, rfl⟩ | ⟨w, hw, hs, rfl⟩ := hc
  · rw [hw]
    dsimp only [Option.filter, Option.isNone, Option.map, Option.getD]
    rw [if_pos rfl, dropWaiting_none hw]
  · have same : s.store.waiting.filter (fun c => c.slot = slot.val) = some w := by
      rw [hw]
      simp [Option.filter, hs]
    rw [same]
    rfl

/-- A select that gives way is over before the new one is taken (R402). -/
theorem selectWarm_displaces {slot : Fin 4} {w : ProfileCmd} (hr : responds s 0x30000 = true)
    (ha : trlAllowed s (profSrc src) = true) (hn : s.store.running = none) (hw : s.store.waiting = some w) (hd : w.slot ≠ slot) :
    exec (.selectWarm src slot) s = exec (.selectWarm src slot)
      (w.joined.foldl (fun s p => trlDone p 0x10 s) { s with store := { s.store with waiting := none } }) := by
  have other : s.store.waiting.filter (fun c => c.slot = slot.val) = none := by
    rw [hw]
    simp [Option.filter, hd]
  have on := foldl_trlDone_onTrl 0x10 w.joined { s with store := { s.store with waiting := none } }
  rw [selectWarm_eq slot hr ha hn, other, ← dropWaiting_some hw]
  rw [← dropWaiting_some hw] at on
  have free : (dropWaiting s).store.waiting = none := congrArg Store.waiting on.store
  rw [selectWarm_eq slot ((on.responds _).trans hr) ((on.allowed _).trans ha) ((congrArg Store.running on.store).trans hn), free]
  dsimp only [Option.filter, Option.isNone, Option.map, Option.getD]
  rw [if_pos rfl, if_pos rfl, dropWaiting_none free]

/-- A command that applies a warm image (R402 steps 3 and 4). -/
theorem selectWarmApply_applies {c : ProfileCmd} {x : ProfileSlot} (hr : s.store.running = some c) (hq : c.quiescing = true)
    (hx : mget? s.store.slots c.slot = some x) (hv : x.valid = true)
    (h : warmCheck s x.image ≠ 0xC ∨ c.since + 100000000 ≤ s.time) :
    exec .selectWarmApply s = .next (warmEnd c (warmCheck s x.image)
      (if warmCheck s x.image = 0 then applyImage c.slot x.image 3 s.trellis.isNone s else s)) := by
  have go : ¬ (warmCheck s x.image = 0xC && decide (s.time < c.since + 100000000)) = true := by
    rw [Bool.and_eq_true_iff, decide_eq_true_eq, decide_eq_true_eq]
    omega
  rw [exec_selectWarmApply, execSelectWarmApply, hr]
  dsimp only
  rw [hq, if_neg (by simp), hx, Option.filter_some, if_pos hv]
  dsimp only [Option.map_some]
  rw [if_neg go]
  by_cases e : warmCheck s x.image = 0
  · rw [if_neg (by simp [e]), if_pos e, e]
  · rw [if_pos e, if_neg e]

end

/-- Settles O51: a profile command passes the source's checks and then does what its slot and the store allow. -/
theorem profileCommands : Obligations.ProfileCommands := by
  unfold Obligations.ProfileCommands
  refine ⟨fun src slot mem fault s hr c hc => ⟨fun ha => ?unauthorised, fun ha hn => ?busy⟩,
    fun src slot s hr ha hn => ⟨fun hf => ⟨fun mem => ?writeForce, fun b => ?eraseForce⟩,
      fun hf => ⟨?readFault, ?eraseFault, ?erase, fun bs => ?write⟩, ?setNext, ?clearNext,
      fun c hc => ⟨fun hj => ?select, fun hj => ?waits⟩, fun w hw hd => selectWarm_displaces hr ha hn hw hd⟩,
    fun c fault s hc ho => ?commit, fun c s hw ht => ?timeout,
    fun c s hc hq => ⟨fun hx => ?noImage, fun x hx hv => ⟨fun he ht => ?quiesces, fun h => selectWarmApply_applies hc hq hx hv h⟩⟩,
    fun port op s hr ho => ?badOp⟩
  case unauthorised =>
    simp only [List.mem_cons, List.not_mem_nil, or_false] at hc
    obtain rfl | rfl | rfl | rfl | rfl := hc <;> exact congrArg Host.Outcome.next (trlCommand_unauthorised _ hr ha)
  case busy =>
    simp only [List.mem_cons, List.not_mem_nil, or_false] at hc
    obtain rfl | rfl | rfl | rfl | rfl := hc <;> exact congrArg Host.Outcome.next (trlCommand_busy _ hr ha hn)
  case writeForce =>
    rw [exec_profileWrite, execProfileWrite, trlCommand_runs _ hr ha hn]
    exact congrArg _ (if_pos hf)
  case eraseForce =>
    rw [exec_profileErase, execProfileErase, trlCommand_runs _ hr ha hn]
    exact congrArg _ (if_pos hf)
  case readFault =>
    rw [exec_profileWrite, execProfileWrite, trlCommand_runs _ hr ha hn]
    exact congrArg _ (if_neg (ne_true_of_eq_false hf))
  case eraseFault | erase =>
    rw [exec_profileErase, execProfileErase, trlCommand_runs _ hr ha hn]
    exact congrArg _ (if_neg (ne_true_of_eq_false hf))
  case write =>
    rw [exec_profileWrite, execProfileWrite, trlCommand_runs _ hr ha hn]
    exact congrArg _ (if_neg (ne_true_of_eq_false hf))
  case setNext =>
    rw [exec_setNext, execSetNext, trlCommand_runs _ hr ha hn]
    rfl
  case clearNext =>
    rw [exec_clearNext, execClearNext, trlCommand_runs _ hr ha hn]
    rfl
  case select => exact (selectWarm_stands hr ha hn hc).trans (congrArg _ (standSelect_runs hj))
  case waits => exact ⟨_, selectWarm_stands hr ha hn hc, standSelect_waits hj⟩
  case commit =>
    rw [exec_profileWriteCommit, execProfileWriteCommit, hc]
    dsimp only
    rw [if_neg (by simp [ho])]
    cases fault <;> rfl
  case timeout =>
    rw [exec_consentTimeout, execConsentTimeout, hw]
    dsimp only
    rw [if_pos ht, dropWaiting_some hw]
  case noImage =>
    rw [exec_selectWarmApply, execSelectWarmApply, hc]
    dsimp only
    rw [hq, if_neg (by simp), hx]
    rfl
  case quiesces =>
    rw [exec_selectWarmApply, execSelectWarmApply, hc]
    dsimp only
    rw [hq, if_neg (by simp), hx, Option.filter_some, if_pos hv]
    dsimp only [Option.map_some]
    rw [if_pos (by simp [he, ht])]
  case badOp =>
    rw [exec_trlCmdBadOp, execTrlCmdBadOp]
    exact if_neg (by simp [hr]; omega)

end Sys2Proof.Machine
end

section
/-! PROOF. Module reset, release, training and boundary scan (R400, R406, R419, R470 to R473, R481). -/

namespace Sys2Proof.Machine

section
variable {s t : State}

/-- The rows of GH_TRIP and ERR_FATAL, which a module reset keeps (R490). -/
theorem regRow_ghTrip : regRow 0x10048 = some (reg32 0x10048 .shared 0 0) := by decide
theorem regRow_errFatal : regRow 0x20030 = some (reg32 0x20030 .shared 0 0) := by decide

/-- What a module reset keeps (R406, R419, R442, R471). -/
theorem moduleReset_keeps (causes : List ResetCause) (s : State) :
    regGet (moduleReset causes s) 0 0x10048 = regGet s 0 0x10048 % 2 ^ 32 ∧
      regGet (moduleReset causes s) 0 0x20030 = regGet s 0 0x20030 % 2 ^ 32 := by
  unfold moduleReset
  constructor
  · rw [regGet_regSet_ne _ _ _ _ _ _ (by rw [regKey, regKey, regRow_ghTrip, regRow_errFatal]; decide), regGet_regSet_self,
      regRow_ghTrip]
    rfl
  · rw [regGet_regSet_self, regRow_errFatal]
    rfl

/-- The image a slot holds when its commit record is written (R398). -/
def heldImage (s : State) (n : Nat) : Option (List Byte) := ((mget? s.store.slots n).filter (fun x => x.valid)).map (fun x => x.image)

/-- The slots of a list whose images fail, with their codes. -/
def failedSlots (s : State) (ns : List Nat) : List (Nat × Nat) := ns.filterMap (fun n => (heldImage s n).map (fun b => (n, applyCheck s b)))

/-- The record of a slot's failure (R400). -/
def slotFailure (n code : Nat) : ErrRec := { source := srcId 0xB 0, cls := 3, code := 0x33, detail := n + 256 * code }

/-- An image's checks do not depend on the error log. -/
theorem applyCheck_onLog (h : OnLog s t) (b : List Byte) : applyCheck t b = applyCheck s b := by
  rw [show t = _ from h]
  rfl

theorem trySlots_cons (n : Nat) (ns : List Nat) (failed : List (Nat × Nat)) : trySlots s (n :: ns) failed =
    (heldImage s n).elim (trySlots s ns failed) (fun b => if applyCheck s b = 0 then (failed, some (n, b))
      else trySlots s ns (failed ++ [(n, applyCheck s b)])) := by
  rw [trySlots, heldImage]
  cases (mget? s.store.slots n).filter (fun x => x.valid) <;> rfl

/-- Slots that hold no image that passes are passed over (R400). -/
theorem trySlots_passes {pre : List Nat} (rest : List Nat) (failed : List (Nat × Nat))
    (h : ∀ k ∈ pre, ∀ x, heldImage s k = some x → applyCheck s x ≠ 0) :
    trySlots s (pre ++ rest) failed = trySlots s rest (failed ++ failedSlots s pre) := by
  induction pre generalizing failed with
  | nil => rw [failedSlots, List.filterMap_nil, List.append_nil, List.nil_append]
  | cons n ns ih =>
    have tail := fun f => ih f (fun k hk => h k (List.mem_cons_of_mem _ hk))
    rw [List.cons_append, trySlots_cons]
    cases e : heldImage s n with
    | none => rw [Option.elim_none, tail, failedSlots, failedSlots, List.filterMap_cons_none (by rw [e]; rfl)]
    | some b =>
      rw [Option.elim_some, if_neg (h n List.mem_cons_self b e), tail, failedSlots, failedSlots,
        List.filterMap_cons_some (by rw [e]; rfl), List.append_assoc]
      rfl

/-- A record of the slot's failure, or nothing where the slot holds no image. -/
def logSlot (s t : State) (n : Nat) : State := (heldImage s n).elim t (fun b => raiseErr (slotFailure n (applyCheck t b)) t)

/-- Recording the slots that failed, one after another, records each slot's code (R400). -/
theorem foldl_failedSlots (ns : List Nat) {u : State} (h : OnLog s u) :
    (failedSlots s ns).foldl (fun t f => raiseErr (slotFailure f.1 f.2) t) u =
      ns.foldl (logSlot s) u := by
  induction ns generalizing u with
  | nil => rfl
  | cons n ns ih =>
    rw [List.foldl_cons, logSlot]
    cases e : heldImage s n with
    | none => rw [failedSlots, List.filterMap_cons_none (by rw [e]; rfl), Option.elim_none]; exact ih h
    | some b =>
      rw [failedSlots, List.filterMap_cons_some (by rw [e]; rfl), Option.elim_some, List.foldl_cons, applyCheck_onLog h]
      exact ih (h.trans (raiseErr_onLog _ _))

/-- The state as far training leaves it, before a slot is tried. -/
def farTrained (sites density rate : Nat) (s : State) : State :=
  { s with farCal := { s.farCal with start := some s.time, found := (sites, density, rate) }, store := { s.store with nextSet := false } }

/-- The slots in the order in which they are tried (R400). -/
def slotOrder (s : State) : List Nat :=
  let first := if s.store.nextSet then s.store.nextSlot else s.hub.pinsTaken
  first :: ([0, 1, 2, 3] : List Nat).filter (· ≠ first)

/-- When far training ends, the first slot whose image passes is applied (R400, R403, R430). -/
theorem farTraining_tries {sites density rate : Nat} (hf : s.hub.firmware = true) (hr : s.hub.inReset = false)
    (hs : s.farCal.start = none) :
    let t := farTrained sites density rate s
    let first := if s.store.nextSet then s.store.nextSlot else s.hub.pinsTaken
    let pick := trySlots t (slotOrder s) []
    let u := pick.1.foldl (fun t f => raiseErr (slotFailure f.1 f.2) t) t
    exec (.farTrainingDone sites density rate) s = .next (pick.2.elim u
      (fun x => applyImage x.1 x.2 (if x.1 = first then b2n s.store.nextSet else 2) true u)) := by
  dsimp only
  rw [exec_farTrainingDone, execFarTrainingDone, if_neg (by simp [hf, hr, hs])]
  dsimp only
  generalize h : trySlots _ _ [] = pick
  rw [show trySlots (farTrained sites density rate s) (slotOrder s) [] = pick from h]
  obtain ⟨failed, o⟩ := pick
  cases o with
  | none =>
    refine congrArg Host.Outcome.next ?_
    rfl
  | some x =>
    refine congrArg Host.Outcome.next ?_
    dsimp only [Option.elim]
    congr 1

/-- The slots of a list that hold no image that passes are recorded when they fail, and passed over (R400). -/
theorem farTraining_passes {pre rest : List Nat} (ho : slotOrder s = pre ++ rest)
    (hp : ∀ k ∈ pre, ∀ x, heldImage s k = some x → applyCheck t x ≠ 0) (ht : ∀ n, heldImage t n = heldImage s n) :
    (trySlots t (slotOrder s) []) = trySlots t rest (failedSlots t pre) := by
  rw [ho, trySlots_passes rest [] (fun k hk x hx => hp k hk x ((ht k).symm.trans hx))]
  rfl

end

/-- Settles O52: a reset keeps what its registers and stores hold; a release, the PLL, training and the scan go by their guards, and
the slots are tried in order. -/
theorem moduleResetAndStart : Obligations.ModuleResetAndStart := by
  unfold Obligations.ModuleResetAndStart
  refine ⟨fun cause s => ?entry, fun s => ⟨_, rfl, rfl, rfl, rfl, rfl⟩, fun s hr ht hc => ?release, fun s hr => ?lock,
    fun port s hr hp ht => ?train, fun sites density rate s hf hr hs => ⟨fun pre n post b ho hp hh hb => ?applied, fun hp => ?noImage⟩,
    fun s hw => ⟨?idcode, fun x hx tdi => ?bypass, fun x hx pins data => ?scan⟩⟩
  case entry =>
    obtain ⟨trip, fatal⟩ := moduleReset_keeps (if s.hub.causes.contains cause then s.hub.causes else s.hub.causes ++ [cause]) s
    refine ⟨_, rfl, rfl, ?_, fun c hc => ?_, rfl, trip, fatal, rfl, rfl, rfl⟩
    · show cause ∈ if _ then _ else _
      split
      · rename_i h
        exact List.contains_iff_mem.mp h
      · exact List.mem_append_right _ List.mem_cons_self
    · show c ∈ if _ then _ else _
      split
      · exact hc
      · exact List.mem_append_left _ hc
  case release =>
    rw [exec_moduleResetRelease, execModuleResetRelease]
    refine if_neg ?_
    simp only [hr, Bool.not_true, Bool.false_or, Bool.or_eq_true, decide_eq_true_eq, Bool.and_eq_true, List.contains_iff_mem,
      Bool.not_eq_true']
    rintro (h | ⟨h, e⟩)
    · omega
    · rw [hc h] at e
      cases e
  case lock =>
    rw [exec_hubPllLock, execHubPllLock, hr]
    rfl
  case train =>
    rw [exec_portTrainEnable, execPortTrainEnable]
    exact if_neg (by simpa [hr, hp] using ht)
  case applied =>
    have order : slotOrder s = pre ++ n :: post := ho
    have passed : ∀ k ∈ pre, ∀ x, heldImage s k = some x → applyCheck (farTrained sites density rate s) x ≠ 0 := hp
    have passes : applyCheck (farTrained sites density rate s) b = 0 := hb
    have picked : trySlots (farTrained sites density rate s) (slotOrder s) [] =
        (failedSlots (farTrained sites density rate s) pre, some (n, b)) := by
      rw [farTraining_passes order passed (fun n => rfl), trySlots_cons,
        show heldImage (farTrained sites density rate s) n = some b from hh, Option.elim_some, if_pos passes]
    refine (farTraining_tries hf hr hs).trans (congrArg _ ?_)
    rw [picked, Option.elim_some, foldl_failedSlots pre (OnLog.refl _)]
    refine congrArg (applyImage n b _ true) (congrArg (fun f => List.foldl f _ pre) (funext fun t => funext fun k => ?_))
    dsimp only
    rw [logSlot, heldImage]
    dsimp only [farTrained]
    generalize Option.map _ (Option.filter _ _) = o
    cases o <;> rfl
  case noImage =>
    have passed : ∀ k ∈ slotOrder s, ∀ x, heldImage s k = some x → applyCheck (farTrained sites density rate s) x ≠ 0 := hp
    have picked : trySlots (farTrained sites density rate s) (slotOrder s) [] =
        (failedSlots (farTrained sites density rate s) (slotOrder s), none) :=
      farTraining_passes (rest := []) (List.append_nil _).symm passed (fun n => rfl)
    refine (farTraining_tries hf hr hs).trans (congrArg _ ?_)
    rw [picked, Option.elim_none, foldl_failedSlots _ (OnLog.refl _)]
    refine congrArg (fun f => List.foldl f _ (slotOrder s)) (funext fun t => funext fun k => ?_)
    dsimp only
    rw [logSlot, heldImage]
    dsimp only [farTrained]
    generalize Option.map _ (Option.filter _ _) = o
    cases o <;> rfl
  case idcode =>
    rw [exec_tapIdcode, execTapIdcode, tapTake, hw]
    rfl
  case bypass =>
    simp only [List.mem_cons, List.not_mem_nil, or_false] at hx
    obtain rfl | rfl | rfl := hx <;> exact congrArg Host.Outcome.next (if_pos hw)
  case scan =>
    simp only [List.mem_cons, List.not_mem_nil, or_false] at hx
    obtain rfl | rfl | rfl | rfl := hx <;> exact congrArg Host.Outcome.next (if_pos hw)

end Sys2Proof.Machine
end
